-- ==== Sys2Proof/Word.lean ====
section
/-! DEFINITION. Sys2Proof/Word.lean: the word types of the DN48-M1 model and the one table type that all its
memories and register files use.

A `Tab α` is a list of (key, value) pairs with strictly rising keys; a key that is not listed reads as the default
that the caller names, and `Tab.put` never leaves an entry equal to that default, so that equal contents are equal
data. -/

namespace Sys2Proof

/-- A 64-bit register, operand or count (R7, R116). -/
abbrev Word := BitVec 64

/-- The smallest addressable unit of every storage. -/
abbrev Byte := BitVec 8

/-- A table by natural-number key. -/
abbrev Tab (α : Type) := List (Nat × α)

namespace Tab

/-- The value at `k`; `d` where nothing is listed. -/
def get {α : Type} (t : Tab α) (k : Nat) (d : α) : α :=
  match t with
  | [] => d
  | (j, v) :: rest => if j = k then v else get rest k d

/-- What is listed at `k`, if anything is. -/
def find? {α : Type} (t : Tab α) (k : Nat) : Option α :=
  match t with
  | [] => none
  | (j, v) :: rest => if j = k then some v else find? rest k

/-- Is anything listed at `k`? -/
def has {α : Type} (t : Tab α) (k : Nat) : Bool :=
  match t with
  | [] => false
  | (j, _) :: rest => if j = k then true else has rest k

/-- The table with nothing listed at `k`. -/
def del {α : Type} (t : Tab α) (k : Nat) : Tab α :=
  match t with
  | [] => []
  | (j, v) :: rest => if j = k then del rest k else (j, v) :: del rest k

/-- The table with `v` listed at `k`, keys kept rising. -/
def ins {α : Type} (t : Tab α) (k : Nat) (v : α) : Tab α :=
  match t with
  | [] => [(k, v)]
  | (j, w) :: rest =>
    if j = k then (k, v) :: rest else if k < j then (k, v) :: (j, w) :: rest else (j, w) :: ins rest k v

/-- Writes `v` at `k`; writing the default `d` unlists the key. -/
def put {α : Type} [DecidableEq α] (t : Tab α) (k : Nat) (v d : α) : Tab α :=
  if v = d then del t k else ins t k v

/-- The keys strictly rise and every key is above `lo`. -/
def rising {α : Type} (lo : Option Nat) (t : Tab α) : Bool :=
  match t with
  | [] => true
  | (j, _) :: rest => (match lo with | none => true | some l => decide (l < j)) && rising (some j) rest

/-- The canonical form: keys strictly rise and no entry equals the default `d`. -/
def wf {α : Type} [DecidableEq α] (t : Tab α) (d : α) : Bool :=
  rising none t && t.all (fun e => decide (e.2 ≠ d))

/-- The listed values. -/
def vals {α : Type} (t : Tab α) : List α := t.map (fun e => e.2)

/-- The entries whose key and value satisfy `f`. -/
def keep {α : Type} (t : Tab α) (f : Nat → α → Bool) : Tab α := t.filter (fun e => f e.1 e.2)

end Tab

/-- The numbers `lo, lo + 1, …` of which there are `n`. -/
def rangeFrom (lo n : Nat) : List Nat := (List.range n).map (fun i => lo + i)

/-- ⌈a ÷ b⌉. -/
def ceilDiv (a b : Nat) : Nat := (a + b - 1) / b

/-- Bits [lo + w - 1 : lo] of a number. -/
def bits (n lo w : Nat) : Nat := (n >>> lo) % 2 ^ w

/-- `n` with bits [lo + w - 1 : lo] replaced by the low `w` bits of `v`. -/
def setBits (n lo w v : Nat) : Nat := n - (bits n lo w) * 2 ^ lo + (v % 2 ^ w) * 2 ^ lo

/-- Bit `i` of a number. -/
def bit (n i : Nat) : Bool := bits n i 1 = 1

/-- A little-endian value (R2). -/
def leNat (bs : List Byte) : Nat :=
  match bs with
  | [] => 0
  | b :: rest => b.toNat + 256 * leNat rest

/-- A big-endian value (R2). -/
def beNat (bs : List Byte) : Nat := leNat bs.reverse

/-- The `n` little-endian bytes of a value. -/
def leBytes (n v : Nat) : List Byte :=
  match n with
  | 0 => []
  | k + 1 => BitVec.ofNat 8 v :: leBytes k (v / 256)

/-- The `n` big-endian bytes of a value. -/
def beBytes (n v : Nat) : List Byte := (leBytes n v).reverse

/-- `n` bytes of a list from offset `o`; bytes past the end read as zero. -/
def slice (bs : List Byte) (o n : Nat) : List Byte :=
  let got := (bs.drop o).take n
  got ++ List.replicate (n - got.length) 0

/-- Every byte is zero. -/
def allZero (bs : List Byte) : Bool := bs.all (fun b => b == 0)

/-- A signed reading of an `n`-bit pattern. -/
def sext (n v : Nat) : Int := if v % 2 ^ n < 2 ^ (n - 1) then ((v % 2 ^ n : Nat) : Int) else ((v % 2 ^ n : Nat) : Int) - 2 ^ n

/-- The value of a saturating counter of `w` bits that stood at `old` after `n` more events. -/
def satAdd (w old n : Nat) : Nat := min (old + n) (2 ^ w - 1)

end Sys2Proof
end

