-- ==== Sys2Proof/Syntax.lean ====
section
/-! DEFINITION. Sys2Proof/Syntax.lean: the commands of the DN48-M1 and their operands.

The commands are the rows of the spec's table of operations and events. A row of the treadling chapter (06) is the
issue of one word by one context's sequencer on one loom; a row of a Septa message type (17 R344) is the arrival of one
such message; every other row is an event inside the module or on a pin. -/

namespace Sys2Proof

/-- One context on one loom: the owner of one sequencer state (R116). -/
structure At where
  /-- Global loom index (R4). -/
  loom : Fin 256
  /-- Context within the loom's partition (R4). -/
  ctx : Fin 8
  deriving DecidableEq, Repr

/-- An instruction word of format S without its opcode (R119). -/
structure SWord where
  pred : Fin 8
  pneg : Bool
  opt : BitVec 4
  x : Fin 32
  y : Fin 32
  z : Fin 32
  fn : BitVec 16
  aux : BitVec 16
  imm : BitVec 64
  deriving DecidableEq, Repr

/-- An instruction word of format J without its opcode (R119). -/
structure JWord where
  pred : Fin 8
  pneg : Bool
  opt : BitVec 4
  x : Fin 32
  y : Fin 32
  target : BitVec 32
  imm : BitVec 64
  deriving DecidableEq, Repr

/-- An instruction word of format T without its opcode (R119). -/
structure TWord where
  pred : Fin 8
  pneg : Bool
  opt : BitVec 4
  x : Fin 32
  y : Fin 32
  z : Fin 32
  d1 : BitVec 20
  aux : BitVec 12
  d2 : BitVec 20
  d3 : BitVec 20
  tag : BitVec 16
  sel : BitVec 8
  deriving DecidableEq, Repr

/-- An IP address with its family (R331): IPv4 addresses stand in the low 32 bits. -/
structure Addr where
  v4 : Bool
  value : BitVec 128
  deriving DecidableEq, Repr

/-- How a packet reached the device and where an answer to it goes (R328, R330, R342). -/
structure Route where
  port : Fin 8
  vlan : BitVec 12
  srcMac : BitVec 48
  src : Addr
  srcPort : BitVec 16
  dst : Addr
  deriving DecidableEq, Repr

/-- A Septa header (R339). -/
structure Hdr where
  magic : BitVec 16
  version : BitVec 8
  plane : BitVec 8
  partition : BitVec 8
  context : BitVec 8
  flags : BitVec 16
  sequence : BitVec 64
  pick : BitVec 64
  length : BitVec 32
  reserved : BitVec 16
  deriving DecidableEq, Repr

/-- A Septa message as it arrives: its TYPE is the row's, the payload is the bytes after the header (R339). -/
structure Msg where
  route : Route
  hdr : Hdr
  payload : List Byte
  deriving DecidableEq, Repr

/-- A REG_WRITE message that writes one register, whose address the row names (R347). -/
structure WriteReq where
  route : Route
  hdr : Hdr
  value : BitVec 64
  deriving DecidableEq, Repr

/-- A frame that carries an ARP, Neighbor Discovery or ICMP packet (R330): the address asked for or answered, and the
payload of an echo request. -/
structure NetFrame where
  port : Fin 8
  vlan : BitVec 12
  srcMac : BitVec 48
  src : Addr
  /-- The destination address of the packet, or the address an ARP or Neighbor Solicitation asks for. -/
  target : Addr
  payload : List Byte
  deriving DecidableEq, Repr

/-- Why a frame or packet is discarded and counted (R329, R332, R335). -/
inductive DiscardKind where
  /-- Addressed to an endpoint and of no kind that endpoint takes, or a malformed Septa message (R332, R339). -/
  | noAcceptedKind
  /-- A RoCEv2 packet whose ICRC fails (R335). -/
  | icrc
  /-- A frame larger than 9,216 bytes (R329). -/
  | oversized
  /-- A frame of a protocol R329 does not support: LLDP, spanning tree, link aggregation, PAUSE. -/
  | unsupportedFrame
  /-- An IPv4 fragment or an IPv6 packet with an extension header (R330). -/
  | fragment
  /-- An unprotected frame on a port in MACsec required mode (R333). -/
  | unprotected
  /-- A codeword that RS FEC could not correct (NET_PORT FEC_UNCORRECTED). -/
  | fecUncorrected
  deriving DecidableEq, Repr

/-- A PTP message that reached a port (R334). Times are nanoseconds of the PTP timescale or of the device's clock. -/
structure PtpMsg where
  port : Fin 8
  transport : BitVec 2
  vlan : BitVec 12
  domain : BitVec 8
  /-- Identity of the sending clock. -/
  source : BitVec 64
  sequence : BitVec 16
  /-- Two-step flag of a Sync. -/
  twoStep : Bool
  /-- originTimestamp, preciseOriginTimestamp or receiveTimestamp plus the correction field. -/
  origin : Nat
  /-- Receive timestamp of the device's own clock (ingress). -/
  ingress : Nat
  /-- Announce: priority1, clockClass, accuracy, variance, priority2, grandmaster identity, stepsRemoved, as one rank
  number of the default best master clock algorithm's data set comparison (smaller is better). -/
  rank : Nat
  /-- Announce: the grandmaster's identity; logMessageInterval of the Announce. -/
  grandmaster : BitVec 64
  interval : Nat
  deriving DecidableEq, Repr

/-- An RTP or SRTP packet on a data endpoint (R248, R249, R365). -/
structure RtpPkt where
  port : Fin 8
  part : Fin 16
  /-- Index of the data-plane ENDPOINTS record it is addressed to (R331). -/
  endpoint : BitVec 8
  version : BitVec 2
  marker : Bool
  ptype : BitVec 7
  seq : BitVec 16
  stamp : BitVec 32
  ssrc : BitVec 32
  payload : List Byte
  deriving DecidableEq, Repr

/-- An incoming RoCEv2 request: a whole RDMA WRITE (First to Last, or Only) or an RDMA READ (R335, R336). -/
structure RdmaReq where
  port : Fin 8
  srcMac : BitVec 48
  /-- Destination queue pair number. -/
  qpn : BitVec 24
  psn : BitVec 24
  rkey : BitVec 32
  va : BitVec 64
  /-- DMA length of a READ; a WRITE's length is that of its data. -/
  length : BitVec 32
  data : List Byte
  /-- ECN congestion experienced. -/
  ce : Bool
  deriving DecidableEq, Repr

/-- What a die-link flit carries (R21, R24). -/
inductive FlitKind where
  /-- Data of a context, with the low bit of its sender's mode generation (R63). -/
  | data (generation : Bool)
  /-- The return of `n` credits. -/
  | credit (n : BitVec 16)
  deriving DecidableEq, Repr

/-- A flit that reaches the far end of a die link (R21). -/
structure Flit where
  link : Fin 96
  /-- true from the mill that reports the link's conditions (mill p of a ring link, mill m of a beam link, R435) to its other
  end, false the other way. -/
  down : Bool
  part : Fin 16
  ctx : Fin 8
  kind : FlitKind
  crcOk : Bool
  deriving DecidableEq, Repr

/-- How a retraining in place ended (R22). -/
inductive RetrainOutcome where
  /-- Every lane trained. -/
  | full
  /-- The lanes listed still fail. -/
  | lanes (bad : List (Fin 64))
  /-- The retraining itself failed. -/
  | failed
  deriving DecidableEq, Repr

/-- Where a storage error lies (R103, R299, R309). -/
inductive EccPlace where
  /-- A loom-store byte address. -/
  | loomStore (g : Fin 256) (addr : BitVec 23)
  /-- A warp bank, scale side-file, weft buffer or vector register of a loom. -/
  | loomArray (g : Fin 256)
  /-- A mill-store byte address. -/
  | millStore (mill : Fin 8) (addr : BitVec 27)
  /-- A stack, with the cloth granule of a partition that it holds, or none for a reserved region. -/
  | near (stack : Fin 32) (granule : Option (Fin 16 × BitVec 36))
  /-- A far port, with the granule its device answered with poison. -/
  | far (port : Fin 4) (part : Fin 16) (granule : BitVec 36)
  deriving DecidableEq, Repr

/-- An engine whose duplicated copies are compared every beat (R372). -/
inductive DupEngine where
  | creel | network | scheduler
  | context (mill : Fin 8) | prefetch (mill : Fin 8) | home (mill : Fin 8)
  deriving DecidableEq, Repr

/-- A clock domain (R372). -/
inductive DieDomain where
  | mill (m : Fin 8) | beam
  deriving DecidableEq, Repr

/-- What a voltage or temperature monitor watches (R372, R383). -/
inductive Domain where
  | loom (g : Fin 256) | mill (m : Fin 8) | stack (s : Fin 32) | beam
  deriving DecidableEq, Repr

/-- What the boot steps of one boot meet (R416, R417). -/
structure BootReport where
  /-- Boot step 1: the beam-die checker tests pass. -/
  beamOk : Bool
  /-- Boot step 2: the store holds a flash uncorrectable error (R399). -/
  flashError : Bool
  /-- Boot step 5: ports that train. -/
  ports : BitVec 8
  /-- Boot step 6: mills whose checkers pass, mills whose rails are in their windows, and looms that pass. -/
  millsOk : BitVec 8
  railsOk : BitVec 8
  loomsOk : BitVec 256
  /-- Boot step 7: stacks and links that train, and those that trained from their calibration object. -/
  stacksOk : BitVec 32
  linksOk : BitVec 96
  deriving DecidableEq, Repr

/-- The commands of the block: one constructor per row of the spec's table of operations and events. -/
inductive Instr where
  /-- NOP (R131): Sequencer instruction that spends one beat and does nothing. -/
  | nop (a : At) (w : SWord)
  /-- JMP (R131): Sequencer continues at the word named by TARGET. -/
  | jmp (a : At) (w : JWord)
  /-- BST (R131): Branches to TARGET when COND equals the named condition code, or is not OK when ANY is set. -/
  | bst (a : At) (w : JWord)
  /-- LOOP (R131): Reads the count register and either skips past its ENDLOOP on zero or pushes a loop and zeroes the index register. -/
  | loop (a : At) (w : JWord)
  /-- ENDLOOP (R131): Increments the loop index and either repeats the loop body or pops the loop. -/
  | endloop (a : At) (w : JWord)
  /-- END (R131): Stops this context's treadling on this loom until the partition is replaced or destroyed. -/
  | endT (a : At) (w : SWord)
  /-- MOVI (R132): Loads an immediate into a bound or address register. -/
  | movi (a : At) (w : SWord)
  /-- ALU (R132): Performs a 64-bit scalar arithmetic or logic function into a bound register, faulting on division by zero. -/
  | alu (a : At) (w : SWord)
  /-- CMP (R132): Compares two bound registers and writes the result to a predicate. -/
  | cmp (a : At) (w : SWord)
  /-- PLOGIC (R132): Combines two predicates into a third. -/
  | plogic (a : At) (w : SWord)
  /-- ABIND (R132): Binds an address register to a buffer of the buffer table with offset 0. -/
  | abind (a : At) (w : SWord)
  /-- AADD (R132): Adds a scaled bound register to an address register's offset, faulting when it leaves the 48-bit range. -/
  | aadd (a : At) (w : SWord)
  /-- LDB (R132): Loads a 64-bit word from a loom-store buffer into a bound register. -/
  | ldb (a : At) (w : SWord)
  /-- STB (R132): Stores a bound register as a 64-bit word into a loom-store buffer. -/
  | stb (a : At) (w : SWord)
  /-- TBEGIN (R133): Opens a tile: checks the bank tag, latches and checks shapes, preloads fells and channel tables and starts the watchdog. -/
  | tbegin (a : At) (w : TWord)
  /-- MAC (R133): Issues a reduction range of weft rows against the tile's warp bank into a fell of every fed harness. -/
  | mac (a : At) (w : TWord)
  /-- DRAIN (R169): Drains a fell through bias, multiplier, shift and one rounding, or as fell images, into the output rows. -/
  | drain (a : At) (w : TWord)
  /-- TEND (R133): Requests the close of the open tile, optionally writing the status record, and faults on an undrained fell. -/
  | tend (a : At) (w : TWord)
  /-- TILE_COMPLETION (R104): The open tile completes once its last residue check has passed and every drain and MOVE has landed. -/
  | tileCompletion (g : Fin 256)
  /-- FILL (R275): Starts a raw or stream warp fill of a bank through the delta expander. -/
  | fill (a : At) (w : TWord)
  /-- FILL_ADMIT (R278): The expander admits a waiting fill, loading its code tables into slots or waiting for a free slot. -/
  | fillAdmit (g : Fin 256)
  /-- BANK_READY (R99): A fill's last write lands, the bank becomes ready with its tag, and a tile waiting for it may issue. -/
  | bankReady (g : Fin 256) (bank : Fin 2)
  /-- ATTN (R218): Runs an attention tile through the context engine over a snapshot of the sequence's page table. -/
  | attn (a : At) (w : TWord)
  /-- MOVE_COPY (R135): Copies bytes between buffers, carrying block CRCs unchecked. -/
  | moveCopy (a : At) (w : SWord)
  /-- MOVE_COMPRESS (R280): Codes raw bytes into a stream through the block compressor in a histogram pass and an encoding pass. -/
  | moveCompress (a : At) (w : SWord)
  /-- MOVE_EXPAND (R281): Decodes a coded stream into tensor blocks through the block compressor. -/
  | moveExpand (a : At) (w : SWord)
  /-- MOVE_STRIDED (R135): Copies rows with separate source and destination strides. -/
  | moveStrided (a : At) (w : SWord)
  /-- MOVE_ZERO (R135): Writes zeros over the destination range. -/
  | moveZero (a : At) (w : SWord)
  /-- MOVE_COMPLETE (R135): A MOVE's data lands at its destination, releasing instructions held on it. -/
  | moveComplete (a : At)
  /-- TSEND (R157): Sends loom-store bytes over a mill-fabric thread at its width and latency. -/
  | tsend (a : At) (w : SWord)
  /-- TRECV (R157): Receives the matching TSEND's bytes from a thread into the loom store, waiting if they have not landed. -/
  | trecv (a : At) (w : SWord)
  /-- TRECV_LANDED (R157): A waiting TRECV completes when its data lands, or discards it and faults on a length mismatch. -/
  | trecvLanded (a : At)
  /-- VOP (R136): Performs a lane-wise vector operation, ORing its flags into output slot 0. -/
  | vop (a : At) (w : SWord)
  /-- VLD (R136): Loads and exactly converts 64 elements from the loom store into a vector register. -/
  | vld (a : At) (w : SWord)
  /-- VST (R136): Rounds and stores a vector register to the loom store. -/
  | vst (a : At) (w : SWord)
  /-- VRED (R136): Reduces vector registers by sum, dot product, minimum or maximum through the vector fell. -/
  | vred (a : At) (w : SWord)
  /-- VRNG (R136): Fills a vector register with Philox-4x32-10 words keyed by stream and step. -/
  | vrng (a : At) (w : SWord)
  /-- SIG (R138): Adds a count to a semaphore of the context. -/
  | sig (a : At) (w : SWord)
  /-- SWAIT (R138): Subtracts a count from a semaphore or waits until it is large enough. -/
  | swait (a : At) (w : SWord)
  /-- SWAIT_RESUME (R138): A waiting SWAIT finds its semaphore count sufficient, subtracts it and continues. -/
  | swaitResume (a : At)
  /-- PUT (R138): Appends a 32-byte entry to one of the context's own queues, or sets QFULL. -/
  | put (a : At) (w : SWord)
  /-- TAKE (R141): Takes the oldest queue entry into four bound registers, or waits, optionally with a deadline pick. -/
  | take (a : At) (w : SWord)
  /-- TAKE_RESUME (R141): A waiting TAKE receives an entry posted to its queue and continues. -/
  | takeResume (a : At)
  /-- TAKE_TIMEOUT (R141): A TAKE's deadline boundary passes with no entry arrived before it, so it sets TIMEOUT and takes nothing. -/
  | takeTimeout (a : At)
  /-- WAITSP (R138): Waits until one of the context's own queues has a free entry. -/
  | waitsp (a : At) (w : SWord)
  /-- WAITSP_RESUME (R138): A waiting WAITSP finds room in its queue and continues. -/
  | waitspResume (a : At)
  /-- PWAIT (R138): Waits until step 5 of the boundary of the named pick, continuing at once if it has passed. -/
  | pwait (a : At) (w : SWord)
  /-- DONE (R323): Marks a run complete with its result for the next pick report, faulting on a token that names no open run. -/
  | done (a : At) (w : SWord)
  /-- SIN (R197): Swaps a stream or slot part into the loom store from its own, shared or far record. -/
  | sin (a : At) (w : SWord)
  /-- SIN_LANDED (R197): A SIN copy lands, its CRCs are verified and the part is marked resident or the stream damaged. -/
  | sinLanded (a : At)
  /-- SOUT (R198): Swaps a resident part out to the near or far record. -/
  | sout (a : At) (w : SWord)
  /-- SOUT_LANDED (R198): A SOUT copy lands and the entry's residence, far, shared and LAST_OUT fields are updated. -/
  | soutLanded (a : At)
  /-- SSTEP (R194): Steps a stream, firing a pending reset into a predicate and returning the new step number. -/
  | sstep (a : At) (w : SWord)
  /-- STREAM_HOME_UPDATE (R187): The stream home applies an arriving stream-table update indivisibly and returns its reply to the loom. -/
  | streamHomeUpdate (p : Fin 16)
  /-- FORK (R233): Makes a run of child streams and their sequences from a parent, or reports FORK_LIMIT or TABLE_FULL. -/
  | fork (a : At) (w : SWord)
  /-- FORK_RESUME (R234): A FORK waiting on a frame whose release a snapshot deferred continues when the frame is released. -/
  | forkResume (a : At)
  /-- PRUNE (R241): Releases a stream and all its live descendants with their page references. -/
  | prune (a : At) (w : SWord)
  /-- JOIN (R242): Promotes a chosen child's state and pages into its parent and prunes the other children. -/
  | join (a : At) (w : SWord)
  /-- SCATTER (R223): Appends keys and values from staging to a sequence, evicting or dropping pages as needed. -/
  | scatter (a : At) (w : SWord)
  /-- SCATTER_RESUME (R224): A SCATTER waiting for staging room or for a snapshot's page release continues. -/
  | scatterResume (a : At)
  /-- PGFILL (R228): Writes a regenerated page into a dropped entry of a sequence's page table. -/
  | pgfill (a : At) (w : SWord)
  /-- TILE_WATCHDOG_EXPIRY (R105): A tile reaches 450,000 beats, reports 0x0306 and is poisoned. -/
  | tileWatchdogExpiry (g : Fin 256)
  /-- CONTEXT_SWITCH (R316): A loom switches from the outgoing to the incoming context at a tile end, a wait or the boundary beat, stopping any fill. -/
  | contextSwitch (g : Fin 256)
  /-- LOOM_SELF_TEST (R380): In an honoured test slot, a loom starts its structural self-test after the switch completes. -/
  | loomSelfTest (g : Fin 256)
  /-- LOOM_SELF_TEST_END (R381): A loom's self-test finishes, passing or reporting 0x0901 and putting its partition in the safe state. -/
  | loomSelfTestEnd (g : Fin 256) (pass : Bool) (block : BitVec 8)
  /-- SELF_TEST_ABANDON (R381): A self-test unfinished at the boundary ending its pick is abandoned with 0x0908. -/
  | selfTestAbandon (g : Fin 256)
  /-- PICK_BOUNDARY (R56): A pick boundary is formed and every unit latches arrivals, advances state, applies edits, selects plans and sends reports. -/
  | pickBoundary
  /-- CADENCE_CHECK (R202): At a cadence boundary the stream home compares a stream's step count with the due count and sets or clears LATE. -/
  | cadenceCheck (p : Fin 16) (id : BitVec 16)
  /-- PICK_PULSE (R54): A rising edge on the pick-pulse input forms a boundary if inside a window, or is ignored as spurious. -/
  | pickPulse (t : Nat)
  /-- PULSE_MISSED (R54): No pulse arrives by E(n) + WINDOW_NS, so the boundary is formed at that instant and MISSED counts. -/
  | pulseMissed (t : Nat)
  /-- HOLDOVER_EXPIRED (R59): HOLDOVER_PICKS reaches 1,000, STATE becomes expired and pick-critical partitions go to the safe state. -/
  | holdoverExpired
  /-- PTP_SYNC (R53): A Sync message is timestamped and used for offset, lock and holdover judgement. -/
  | ptpSync (m : PtpMsg)
  /-- PTP_FOLLOW_UP (R334): A Follow_Up message completes a two-step Sync. -/
  | ptpFollowUp (m : PtpMsg)
  /-- PTP_DELAY_RESP (R334): A Delay_Resp message completes an end-to-end delay measurement. -/
  | ptpDelayResp (m : PtpMsg)
  /-- PTP_ANNOUNCE (R334): An Announce message feeds the best master clock algorithm. -/
  | ptpAnnounce (m : PtpMsg)
  /-- DELAY_REQ (R334): The PTP client sends a Delay_Req at its configured interval. -/
  | delayReq (port : Fin 8) (t : Nat)
  /-- PTP_ANNOUNCE_TIMEOUT (R58): Three announce intervals pass without Sync or Announce from the grandmaster, so the source is lost. -/
  | ptpAnnounceTimeout
  /-- REF_LOST (R55): The 10 MHz reference is absent or out of tolerance, REF_OK clears and 0x0C05 is reported. -/
  | refLost
  /-- REF_RESTORED (R55): After 1 s of valid reference REF_OK returns to 1. -/
  | refRestored
  /-- MODE_ANNOUNCE (R61): Management announces a module-wide mode change with an effective pick. -/
  | modeAnnounce (m : Msg)
  /-- MODE_CHANGE_ACK (R61): A participating unit acknowledges an announced mode change. -/
  | modeChangeAck (unit : BitVec 16)
  /-- MODE_CHANGE_DECIDE (R62): At the effective boundary the pick unit commits the change if every unit answered, or cancels it with 0x0C06. -/
  | modeChangeDecide
  /-- MODE_CHANGE_APPLY (R62): A unit applies a committed mode change at its first tile boundary, returning PHASE to none when all have. -/
  | modeChangeApply (unit : BitVec 16)
  /-- PICK_SOURCE_ARM_PTP (R53): A PICK_SOURCE write selecting PTP arms the PTP source with the held period and epoch. -/
  | pickSourceArmPtp (q : WriteReq)
  /-- PICK_SOURCE_ARM_PULSE (R52): A PICK_SOURCE write selecting pulse arms the pulse source with the held period, window and base. -/
  | pickSourceArmPulse (q : WriteReq)
  /-- PICK_SOURCE_DISARM (R52): A PICK_SOURCE write returning SEL to 0b00 with no partition disarms the source and stops boundaries. -/
  | pickSourceDisarm (q : WriteReq)
  /-- MODULE_RESET_REQUEST (R414): A write of 1 to MODULE_RESET REQUEST schedules a module reset 1 ms after the reply. -/
  | moduleResetRequest (q : WriteReq)
  /-- MODULE_RESET_EXECUTE (R414): The module reset falls due and the module enters reset with mill rails lowered. -/
  | moduleResetExecute
  /-- MEM_EVAC_EVACUATE (R306): Starts evacuation of a stack's granules to the other stacks, or refuses it with 0x0509. -/
  | memEvacEvacuate (mill : Fin 8) (q : WriteReq)
  /-- MEM_EVAC_RECALIBRATE (R306): Recalibrates the PHY of a stack that is out. -/
  | memEvacRecalibrate (mill : Fin 8) (q : WriteReq)
  /-- MEM_EVAC_RETURN (R306): Starts moving an evacuated stack's granules back. -/
  | memEvacReturn (mill : Fin 8) (q : WriteReq)
  /-- EVACUATION_GRANULE_MOVE (R306): One granule is copied, CRC-checked and switched in the cloth map, the stack reading out after the last. -/
  | evacuationGranuleMove (mill : Fin 8) (crcOk : Bool)
  /-- STACK_RECALIBRATION_COMPLETE (R306): A stack's PHY recalibration ends and its calibration is committed. -/
  | stackRecalibrationComplete (stack : Fin 32) (ok : Bool)
  /-- FAR_CMD_MOVE_PAGES_OFF (R307): Starts moving a far device's pages to other devices to prepare its removal. -/
  | farCmdMovePagesOff (q : WriteReq)
  /-- FAR_PAGE_MOVE (R307): One far page is written back, copied to another port and switched, the port reading removable after the last. -/
  | farPageMove (port : Fin 4)
  /-- FAR_CMD_BRING_UP (R423): Brings a far port up, supplying its reference clock and starting training. -/
  | farCmdBringUp (q : WriteReq)
  /-- PERST_RELEASE (R423): 100 ms after the reference clock is stable the port releases CXLn_PERST_N. -/
  | perstRelease (port : Fin 4)
  /-- FAR_PORT_TRAINED (R290): A far port's link and device complete training and the port reads up or failed. -/
  | farPortTrained (port : Fin 4) (ok : Bool) (gib : BitVec 13)
  /-- FAR_CMD_FLUSH (R294): Writes back every dirty granule of every partition, leaving pages staged and clean. -/
  | farCmdFlush (q : WriteReq)
  /-- FAR_DEVICE_PRESENCE_CHANGE (R423): A filtered change of CXLn_PRSNT_N updates PRESENT and loses a device removed without the procedure. -/
  | farDevicePresenceChange (port : Fin 4) (present : Bool)
  /-- STAGING_COMPLETE (R292): A far-home page's copy into near frames completes and reads move to the staged copy. -/
  | stagingComplete (p : Fin 16) (page : BitVec 27)
  /-- WRITE_BACK_COMPLETE (R293): A far device acknowledges a write-back and an evicted page's frames are freed. -/
  | writeBackComplete (p : Fin 16) (page : BitVec 27)
  /-- WRITE_BACK_FAILURE (R308): A write-back fails, reporting 0x050A, or after three successive failures loses the port with 0x0508. -/
  | writeBackFailure (p : Fin 16) (page : BitVec 27)
  /-- STACK_FAILURE (R308): A stack's PHY is lost or retraining fails, reporting 0x0507 and sending users to the safe state. -/
  | stackFailure (stack : Fin 32)
  /-- FAR_DEVICE_LOST (R308): A far port's link goes down, reporting 0x0508 and sending partitions with pages on it to the safe state. -/
  | farDeviceLost (port : Fin 4)
  /-- REG_READ (R347): Reads consecutive registers, clearing RC fields only on the management plane. -/
  | regRead (m : Msg)
  /-- REG_WRITE (R347): Checks and applies a set of register writes whole to registers without a row of their own. -/
  | regWrite (m : Msg)
  /-- ECHO (R344): Returns the payload in the reply. -/
  | echo (m : Msg)
  /-- RUN_SUBMIT (R321): Checks a run submission and posts its entry to a control-fed queue or refuses it. -/
  | runSubmit (m : Msg)
  /-- STREAM_OPEN (R191): Stages the opening of a stream or slot, applied at the next boundary. -/
  | streamOpen (m : Msg)
  /-- STREAM_RESET (R192): Stages a reset of a stream at a named step. -/
  | streamReset (m : Msg)
  /-- STREAM_CLOSE (R193): Stages the closing of a stream or slot at a final step. -/
  | streamClose (m : Msg)
  /-- STREAM_STATUS (R188): Returns a stream-table or slot entry. -/
  | streamStatus (m : Msg)
  /-- SEQ_OPEN (R214): Stages the opening of a sequence with its table run. -/
  | seqOpen (m : Msg)
  /-- SEQ_POLICY (R214): Stages a rewrite of a sequence's policy bits, budget and decay. -/
  | seqPolicy (m : Msg)
  /-- SEQ_CLOSE (R214): Stages the closing of a sequence and release of its pages. -/
  | seqClose (m : Msg)
  /-- CREEL_OPEN (R254): Stages opening a Creel stream on a slot and its engine placement. -/
  | creelOpen (m : Msg)
  /-- CREEL_CLOSE (R255): Stages closing a Creel stream after its begun decodes finish. -/
  | creelClose (m : Msg)
  /-- CREEL_STATUS (R253): Returns the 96-byte stream context of a slot. -/
  | creelStatus (m : Msg)
  /-- QP_CONNECT (R336): Creates a reliable-connected queue pair bound to a context, endpoint and bank. -/
  | qpConnect (m : Msg)
  /-- QP_CLOSE (R338): Closes a queue pair, leaving unserved descriptors unconsumed. -/
  | qpClose (m : Msg)
  /-- REPORT_SET (R349): Stages setting or removing a pick-report destination of a partition. -/
  | reportSet (m : Msg)
  /-- DRAFT_BEGIN (R348): Opens a draft transfer of a stated length for one origin. -/
  | draftBegin (m : Msg)
  /-- DRAFT_DATA (R348): Writes a chunk of the open draft transfer. -/
  | draftData (m : Msg)
  /-- DRAFT_END (R348): Closes a complete draft transfer and hands it to the loader. -/
  | draftEnd (m : Msg)
  /-- DRAFT_ABORT (R348): Discards the origin's open draft transfer. -/
  | draftAbort (m : Msg)
  /-- DRAFT_LOADER_VERDICT (R40): The loader finishes its checks and refuses the draft or accepts it, loading a full draft or making a panel draft pending. -/
  | draftLoaderVerdict
  /-- PARTITION_START (R44): A loaded or replacing partition starts at plan position 0, with tables zeroised and any swatch arming applied. -/
  | partitionStart (p : Fin 16)
  /-- PANEL_CHECK_DEADLINE (R45): A panel draft whose checks have not ended by boundary P is refused with 0x0D1B. -/
  | panelCheckDeadline (p : Fin 16)
  /-- PANEL_RECHECK (R46): At boundary P − 1 the loader rechecks fences and links, cancelling the panel draft with 0x0D1D on failure. -/
  | panelRecheck (p : Fin 16)
  /-- PANEL_REPLACE (R46): At boundary P the partition stops after its tile, queues are discarded, stores zeroised and new treadlings loaded. -/
  | panelReplace (p : Fin 16)
  /-- NOTICE_SET (R352): Sets a module fault-notice destination. -/
  | noticeSet (m : Msg)
  /-- FAULT_NOTICE (R352): The device sends fault records to notice and report destinations on both banks within 1 ms. -/
  | faultNotice
  /-- FW_BEGIN (R402): Opens a firmware transfer. -/
  | fwBegin (m : Msg)
  /-- FW_DATA (R402): Writes a chunk of the firmware transfer. -/
  | fwData (m : Msg)
  /-- FW_END (R402): Verifies the transferred image and commits it to the store or refuses it. -/
  | fwEnd (m : Msg)
  /-- FW_RESTART (R403): Restarts management firmware alone after the reply. -/
  | fwRestart (m : Msg)
  /-- FW_CONFIRM (R405): Commits BOOT_CONFIRM for the running image, deletes the others and burns fuses. -/
  | fwConfirm (m : Msg)
  /-- DRAFT_SAVE (R406): Closes a draft transfer, runs loader steps 1 to 6 and commits it to a standby slot. -/
  | draftSave (m : Msg)
  /-- DRAFT_STANDBY_LOAD (R406): Hands a standby slot's draft to the loader as a DRAFT_END would. -/
  | draftStandbyLoad (m : Msg)
  /-- DRAFT_ERASE (R406): Deletes a standby draft slot. -/
  | draftErase (m : Msg)
  /-- NET_SAVE (R406): Commits the management endpoint registers as the network record. -/
  | netSave (m : Msg)
  /-- FENCE (R407): Stages adding a loom, link or mill to the fence record. -/
  | fence (m : Msg)
  /-- UNFENCE (R407): Stages clearing bits of the fence record. -/
  | unfence (m : Msg)
  /-- LINK_RETRAIN (R22): Requests retraining of a die link in place. -/
  | linkRetrain (m : Msg)
  /-- STORE_COMPACT_NOW (R400): Requests a compaction pass in the next window. -/
  | storeCompactNow (m : Msg)
  /-- TELEMETRY_READ (R409): Returns the last telemetry sample. -/
  | telemetryRead (m : Msg)
  /-- ACCT_READ (R406): Returns a stored final accounting record by instance. -/
  | acctRead (m : Msg)
  /-- COMPACTION_PASS (R400): Inside a window, compaction copies live objects out of the oldest segment and erases it. -/
  | compactionPass
  /-- COMPACTION_WINDOW_END (R400): A window ends before the pass completes, reporting 0x0B06 and deferring the pass. -/
  | compactionWindowEnd
  /-- SEC_IDENTITY (R356): Returns the identity and attestation-key records. -/
  | secIdentity (m : Msg)
  /-- SEC_QUOTE (R357): Draws a fresh KEM pair and returns a signed quote with its encapsulation key. -/
  | secQuote (m : Msg)
  /-- SEC_SESSION_OPEN (R359): Decapsulates, checks the confirmation tag and opens a session. -/
  | secSessionOpen (m : Msg)
  /-- SEC_KEY_LOAD (R361): Stages loading of authenticated tenant or CAK key items. -/
  | secKeyLoad (m : Msg)
  /-- SEC_SESSION_CLOSE (R361): Stages ending a session and zeroising its keys, optionally erasing protected carves. -/
  | secSessionClose (m : Msg)
  /-- PARTITION_DESTROY (R310): Stages destruction of a partition, withdrawing its runs and zeroising its storage. -/
  | partitionDestroy (m : Msg)
  /-- MODULE_ZEROISE (R368): Erases signer keys and CAKs, ends the module session and replaces the attestation key. -/
  | moduleZeroise (m : Msg)
  /-- SIGNER_ENROL (R368): Writes a draft-signer public key into a slot. -/
  | signerEnrol (m : Msg)
  /-- SIGNER_REMOVE (R368): Empties a draft-signer slot. -/
  | signerRemove (m : Msg)
  /-- DEBUG_CHALLENGE (R369): Returns a fresh 32-byte debug challenge. -/
  | debugChallenge (m : Msg)
  /-- DEBUG_UNLOCK (R369): Verifies a debug token, zeroises keys and opens the debug scopes. -/
  | debugUnlock (m : Msg)
  /-- SWATCH_ARM (R388): Arms a recording or replay swatch for the partition's next start. -/
  | swatchArm (m : Msg)
  /-- SWATCH_STOP (R394): Stages stopping a recording with an END record. -/
  | swatchStop (m : Msg)
  /-- SWATCH_DISARM (R394): Cancels an arming not yet applied. -/
  | swatchDisarm (m : Msg)
  /-- REPLAY_VIRTUAL_BOUNDARY (R391): When every record of a virtual pick is delivered, the replaying partition runs that pick's boundary steps. -/
  | replayVirtualBoundary (p : Fin 16)
  /-- RTP_PACKET (R249): An RTP or SRTP packet for a Creel slot is authenticated, latched and assembled into a frame. -/
  | rtpPacket (k : RtpPkt)
  /-- RTCP_PACKET (R248): A received RTCP packet is discarded. -/
  | rtcpPacket (port : Fin 8)
  /-- CREEL_FRAME_DEADLINE (R250): An incomplete frame is handed to decode at its DEADLINE boundary with the packets latched. -/
  | creelFrameDeadline (slot : Fin 1024)
  /-- CREEL_DECODE_START (R251): An engine begins decoding a frame or ring record, checking its dimensions against the admission ceiling. -/
  | creelDecodeStart (slot : Fin 1024)
  /-- CREEL_DECODE_COMPLETE (R260): A decoded picture's tensor blocks are written, WRITTEN raised and a sample-ready entry posted. -/
  | creelDecodeComplete (slot : Fin 1024)
  /-- CREEL_RESUME (R261): A paused Creel stream resumes when its sample ring and queue both have room. -/
  | creelResume (slot : Fin 1024)
  /-- RDMA_WRITE (R336): An incoming RDMA WRITE, plain or sealed, writes a queue pair's carves or is answered with a NAK. -/
  | rdmaWrite (k : RdmaReq)
  /-- RDMA_READ (R336): An incoming RDMA READ is served from the bound context's carves or answered with a NAK. -/
  | rdmaRead (k : RdmaReq)
  /-- PUSH_RING_POLL (R337): The network engine reads a push ring's PRODUCED and serves new descriptors in order. -/
  | pushRingPoll (p : Fin 16) (qp : BitVec 16)
  /-- ROCE_ACK (R337): An acknowledgement from the host advances CONSUMED past acknowledged descriptors. -/
  | roceAck (p : Fin 16) (qp : BitVec 16) (psn : BitVec 24)
  /-- RDMA_READ_RESPONSE (R337): A READ response from the host lands in cloth space. -/
  | rdmaReadResponse (p : Fin 16) (qp : BitVec 16) (psn : BitVec 24) (data : List Byte)
  /-- TRANSPORT_TIMEOUT (R335): A queue pair's transport timer expires and go-back-N retransmission starts. -/
  | transportTimeout (p : Fin 16) (qp : BitVec 16)
  /-- RETRIES_EXHAUSTED (R338): A queue pair reaches its retry count and enters the error state with 0x0704. -/
  | retriesExhausted (p : Fin 16) (qp : BitVec 16)
  /-- CNP_RECEIVED (R335): A received CNP halves the queue pair's send rate. -/
  | cnpReceived (p : Fin 16) (qp : BitVec 16)
  /-- RATE_INCREASE (R335): 55 µs without a CNP raises the queue pair's send rate by 1/16 of line rate. -/
  | rateIncrease (p : Fin 16) (qp : BitVec 16)
  /-- ARP_REQUEST (R330): Answers ARP for the device's own IPv4 addresses. -/
  | arpRequest (f : NetFrame)
  /-- NEIGHBOR_SOLICITATION (R330): Answers IPv6 Neighbor Discovery for the device's own addresses. -/
  | neighborSolicitation (f : NetFrame)
  /-- ICMP_ECHO_REQUEST (R330): Answers an ICMP or ICMPv6 echo request to an endpoint address. -/
  | icmpEchoRequest (f : NetFrame)
  /-- DISCARDED_PACKET (R332): A frame or packet of no accepted kind is discarded and counted. -/
  | discardedPacket (port : Fin 8) (why : DiscardKind)
  /-- MKA_FRAME (R333): An EAPOL-MKA frame advances key agreement and may install a secure association. -/
  | mkaFrame (port : Fin 8) (frame : List Byte)
  /-- MACSEC_SA_LOST (R333): A required port loses its secure association, reports 0x0703 and sends MKA only. -/
  | macsecSaLost (port : Fin 8)
  /-- PORT_LINK_LOST (R328): A port loses link and its flows move within the bank, or the bank is lost. -/
  | portLinkLost (port : Fin 8)
  /-- PORT_LINK_UP (R328): A port gains link with FEC lock and can carry flows again. -/
  | portLinkUp (port : Fin 8)
  /-- FLIT_RECEIVED (R21): A die-link flit is CRC-checked, resent on failure, delivered in order and its credit returned. -/
  | flitReceived (f : Flit)
  /-- LANE_FAILURE (R22): A die-link lane fails and the link narrows to a half with 0x0601 or goes down with 0x0603. -/
  | laneFailure (link : Fin 96) (lane : Fin 64)
  /-- RETRY_LIMIT_REACHED (R24): Eight failed sends of one flit report 0x0602 and start a retraining in place. -/
  | retryLimitReached (link : Fin 96)
  /-- LINK_RETRAINING_COMPLETE (R22): A retraining ends, restoring full width, narrowing again, or taking the link down with 0x0603. -/
  | linkRetrainingComplete (link : Fin 96) (out : RetrainOutcome)
  /-- SIDEBAND_HEARTBEAT_LOSS (R372): Loss of all four beam links of a mill is detected by the sideband heartbeat. -/
  | sidebandHeartbeatLoss (mill : Fin 8)
  /-- RESIDUE_MISMATCH (R101): A fell's residue or STATE copies disagree, reporting 0x0301 and poisoning the tile. -/
  | residueMismatch (g : Fin 256) (harness : Fin 4) (heddle : Fin 64) (fell : Fin 2) (stateCopy : Bool)
  /-- LOCKSTEP_MISMATCH (R103): The treadle sequencers disagree, reporting 0x0302 and stopping the loom. -/
  | lockstepMismatch (g : Fin 256)
  /-- DRAIN_ROUNDER_MISMATCH (R102): The drain rounders disagree, reporting 0x0303 without writing the output. -/
  | drainRounderMismatch (g : Fin 256)
  /-- SECDED_CORRECTED (R103): A single-bit storage error is corrected and counted, the first per pick recorded. -/
  | secdedCorrected (at_ : EccPlace)
  /-- SECDED_UNCORRECTABLE (R299): An uncorrectable storage error or device poison marks the block bad or poisons the tile. -/
  | secdedUncorrectable (at_ : EccPlace)
  /-- PAGE_STATE_UE (R210): An uncorrectable error in page-state memory reports 0x0406 and sends the partition to the safe state. -/
  | pageStateUe (p : Fin 16)
  /-- QUEUE_STORE_UE (R312): An uncorrectable error in the queue store reports 0x0A02 and sends owning partitions to the safe state. -/
  | queueStoreUe (owners : List (Fin 16))
  /-- DUPLICATED_ENGINE_MISMATCH (R372): A duplicated engine's copies disagree, reporting 0x090C. -/
  | duplicatedEngineMismatch (e : DupEngine)
  /-- CLOCK_OUT_OF_TOLERANCE (R372): A clock monitor finds a clock missing or outside ±2 %, reporting 0x0904. -/
  | clockOutOfTolerance (d : DieDomain)
  /-- SUPPLY_OUT_OF_TOLERANCE (R372): A voltage monitor finds a supply outside its window, reporting 0x0905. -/
  | supplyOutOfTolerance (d : Domain) (rail : BitVec 8) (reading : BitVec 32)
  /-- JUNCTION_OVER_TEMPERATURE (R433): Two samples above 105 °C report 0x0906 and the safe state by domain. -/
  | junctionOverTemperature (d : Domain)
  /-- JUNCTION_WARNING (R433): A junction above 100 °C is recorded with 0x0907. -/
  | junctionWarning (d : Domain)
  /-- SAFETY_CONTROLLER_MISMATCH (R386): The safety controller's copies disagree, reporting 0x0902 and a module-wide safe state. -/
  | safetyControllerMismatch
  /-- ENTROPY_HEALTH_FAILURE (R354): An entropy health test fails and the source restarts, failing for good after the third restart. -/
  | entropyHealthFailure
  /-- ENTROPY_RESTART_COMPLETE (R354): The entropy source finishes its restart tests and waiting DRBG requests proceed. -/
  | entropyRestartComplete
  /-- FAULT_RECORD_ARRIVAL (R373): A fault record reaches the safety controller's queue, overflow reporting 0x0903. -/
  | faultRecordArrival
  /-- FAULT_RECORD_HANDLED (R376): The safety controller handles a queued record and applies its effect to the affected partitions. -/
  | faultRecordHandled
  /-- POWER_UP (R413): The input stays in range for 100 ms, the beam-die rails ramp and power-good asserts. -/
  | powerUp
  /-- POWER_GOOD_DEASSERT (R413): A beam-die rail leaves its window or the input leaves range for over 1 ms, and the module turns off. -/
  | powerGoodDeassert
  /-- RESET_INPUT_ASSERT (R426): RESET_N low for at least 1 µs puts the module in reset. -/
  | resetInputAssert
  /-- RESET_INPUT_RELEASE (R426): Release of RESET_N with power-good asserted leaves reset. -/
  | resetInputRelease
  /-- BOOT (R416): The boot ROM and management firmware run the boot steps up to draft-ready. -/
  | boot (b : BootReport)
  /-- MGMT_WATCHDOG_EXPIRY (R414): 2 s without service restarts management firmware alone. -/
  | mgmtWatchdogExpiry
  /-- BOARD_SERVICE_READ (R427): The chassis reads the identity EEPROM or a temperature sensor over I²C. -/
  | boardServiceRead (address : BitVec 7) (register : BitVec 9) (count : BitVec 9)
  /-- EEPROM_WRITE (R427): A write to the identity EEPROM is not acknowledged and changes nothing. -/
  | eepromWrite (address : BitVec 7) (register : BitVec 9) (data : List Byte)
  /-- FILL_DAMAGE (R279): Mid-fill, the expander meets a damaged record, a protected-context DELTA or CODED record, or a base or flat block failing its CRC; it stops the fill, invalidates the bank tag and faults the context. -/
  | fillDamage (g : Fin 256) (bank : Fin 2)
  /-- ADDRESS_RESOLUTION_REPLY (R330): An ARP reply or Neighbor Advertisement answering the device's own resolution gives the next-hop MAC for a waiting transmission. -/
  | addressResolutionReply (f : NetFrame)
  /-- PFC_FRAME (R329): A priority-based flow-control frame received on a bank with PFC enabled pauses or resumes transmission on that bank's configured priority. -/
  | pfcFrame (port : Fin 8) (enabled : BitVec 8) (quanta : Vector (BitVec 16) 8)
  deriving DecidableEq, Repr

end Sys2Proof
end

