-- ==== Sys2Proof/Decode.lean ====
section
/-! DEFINITION. Sys2Proof/Decode.lean: the command that a word of the spec's opcode table spells. No row of the table
carries bits, so no word spells a command. -/

namespace Sys2Proof

/-- The command spelt by a word of the table: none, since no row of the table gives bits. -/
def decodeTableWord (_nbits _w : Nat) : Option Instr := none

end Sys2Proof
end

