-- ==== Sys2Proof/Machine/Regs.lean ====
section
/-! DEFINITION. Sys2Proof/Machine/Regs.lean: the register map of the DN48-M1 (01 R7, R8, R33) and every register's
fields, each taken from its register table in the spec. A reset given as Fuses or Store stands as 0 here: the register
is a view of the fuses or of the store (log entry 3). -/

namespace Sys2Proof.Machine

/-- Access types of a register field (R8). -/
inductive Access where
  | ro | rw | wo | rc | w1c
  deriving DecidableEq, Repr

/-- A register field: its lowest bit, its width, its access type and its reset value. -/
structure Fld where
  lo : Nat
  w : Nat
  acc : Access
  reset : Nat
  deriving DecidableEq, Repr

/-- The registers, each with the part of the module it belongs to. -/
inductive Reg where
  /-- LINK_STATE, die-link endpoint state (01). -/
  | linkState (m : Fin 8) (i : Fin 20)
  /-- STORE_DRAFT_STATE, draft loader state (02). -/
  | storeDraftState
  /-- PICK_SOURCE, pick source (03). -/
  | pickSource
  /-- PICK_PERIOD, pick period (03). -/
  | pickPeriod
  /-- PICK_EPOCH, PTP epoch (03). -/
  | pickEpoch
  /-- PICK_PULSE_BASE, first pulse number (03). -/
  | pickPulseBase
  /-- PICK_NOW, current pick (03). -/
  | pickNow
  /-- PICK_STATUS, source state (03). -/
  | pickStatus
  /-- PICK_MODE, mode change state (03). -/
  | pickMode
  /-- PICK_MODE_PICK, effective pick (03). -/
  | pickModePick
  /-- LOOM_STATUS, loom state (05). -/
  | loomStatus (g : Fin 256)
  /-- LOOM_TILES, completed tiles (05). -/
  | loomTiles (g : Fin 256)
  /-- LOOM_STALL, timing counters (05). -/
  | loomStall (g : Fin 256)
  /-- LOOM_CHECK, check results (05). -/
  | loomCheck (g : Fin 256)
  /-- LOOM_ECC, SECDED results (05). -/
  | loomEcc (g : Fin 256)
  /-- LOOM_BEATS, issue beats (05). -/
  | loomBeats (g : Fin 256)
  /-- LOOM_CARVE_c, loom-store carve of context c (05). -/
  | loomCarve (g : Fin 256) (i : Fin 8)
  /-- LOOM_PC_c, sequencer position of context c (06). -/
  | loomPc (g : Fin 256) (i : Fin 8)
  /-- LOOM_TSTAT_c, status word of context c (06). -/
  | loomTstat (g : Fin 256) (i : Fin 8)
  /-- LOOM_BOUND, last shape or guard fault (07). -/
  | loomBound (g : Fin 256)
  /-- LOOM_BOUND_VALUE, value behind the last fault (07). -/
  | loomBoundValue (g : Fin 256)
  /-- LOOM_DRAINSET, drain parameter sets (08). -/
  | loomDrainset (g : Fin 256)
  /-- CXE_STREAM_p, stream home of partition p (10). -/
  | cxeStream (m : Fin 8) (i : Fin 16)
  /-- CXE_STREAM_COUNT_p, stream counters of partition p (10). -/
  | cxeStreamCount (m : Fin 8) (i : Fin 16)
  /-- CXE_POOL_p, page pool of partition p (11). -/
  | cxePool (m : Fin 8) (i : Fin 16)
  /-- CXE_PAGE_COUNT_p, page counters of partition p (11). -/
  | cxePageCount (m : Fin 8) (i : Fin 16)
  /-- CXE_FORK_p, rollout counters of partition p (12). -/
  | cxeFork (m : Fin 8) (i : Fin 16)
  /-- CREEL_STATUS, Creel state (13). -/
  | creelStatus
  /-- CREEL_ENGINE_e, engine load (13). -/
  | creelEngine (i : Fin 32)
  /-- CREEL_SLOT_n, slot state (13). -/
  | creelSlot (i : Fin 1024)
  /-- CREEL_COUNT_n, slot counters (13). -/
  | creelCount (i : Fin 1024)
  /-- DX_STATUS, expander state (14). -/
  | dxStatus (g : Fin 256)
  /-- DX_COUNT, expander counters (14). -/
  | dxCount (g : Fin 256)
  /-- DX_LAST, last expander fault (14). -/
  | dxLast (g : Fin 256)
  /-- DX_SLOT_s, expander table slot s (14). -/
  | dxSlot (g : Fin 256) (i : Fin 16)
  /-- BC_STATUS, compressor state (14). -/
  | bcStatus (m : Fin 8)
  /-- BC_COUNT, compressor counters (14). -/
  | bcCount (m : Fin 8)
  /-- BC_SLOT_s, compressor table slot s (14). -/
  | bcSlot (m : Fin 8) (i : Fin 16)
  /-- MEM_STACK_s, stack state (15). -/
  | memStack (m : Fin 8) (i : Fin 4)
  /-- MEM_ECC_s, stack errors (15). -/
  | memEcc (m : Fin 8) (i : Fin 4)
  /-- MEM_TRAFFIC_s, stack traffic (15). -/
  | memTraffic (m : Fin 8) (i : Fin 4)
  /-- MEM_STAGE, staging on the mill (15). -/
  | memStage (m : Fin 8)
  /-- MEM_EVAC, stack evacuation (15). -/
  | memEvac (m : Fin 8)
  /-- MEM_GUARD, last guard or carve fault (15). -/
  | memGuard (m : Fin 8)
  /-- MEM_GUARD_ADDR, address behind the last fault (15). -/
  | memGuardAddr (m : Fin 8)
  /-- FAR_PORT_n, far port state (15). -/
  | farPort (i : Fin 4)
  /-- FAR_COUNT_n, far port counters (15). -/
  | farCount (i : Fin 4)
  /-- FAR_CMD, far-tier command (15). -/
  | farCmd
  /-- SCHED_PLAN_p, plan position of partition p (16). -/
  | schedPlan (i : Fin 16)
  /-- SCHED_SWITCH_p, last switch of partition p (16). -/
  | schedSwitch (i : Fin 16)
  /-- SCHED_ACCT_p_c_k, accounting word k of context c of partition p (16). -/
  | schedAcct (p : Fin 16) (c : Fin 8) (k : Fin 16)
  /-- NET_PORT_n, port state (17). -/
  | netPort (i : Fin 8)
  /-- NET_PORT_CFG, PFC (17). -/
  | netPortCfg
  /-- NET_MGMT, management endpoint (17). -/
  | netMgmt
  /-- NET_PTP, PTP client (17). -/
  | netPtp
  /-- NET_COUNT, Septa counters (17). -/
  | netCount
  /-- NET_ROCE_COUNT, RoCEv2 counters (17). -/
  | netRoceCount
  /-- SEC_STATUS, security state (18). -/
  | secStatus
  /-- SEC_SESSION, partition sessions (18). -/
  | secSession
  /-- SEC_COUNT, security counters (18). -/
  | secCount
  /-- SAFE_STATUS, safety state (19). -/
  | safeStatus
  /-- SAFE_LOG_COUNT, records made (19). -/
  | safeLogCount
  /-- SAFE_LOG_INDEX, log selector (19). -/
  | safeLogIndex
  /-- SAFE_LOG_DATA_k, selected record (19). -/
  | safeLogData (i : Fin 4)
  /-- SAFE_COUNT, safety counters (19). -/
  | safeCount
  /-- SAFE_WINDOW_p, window start of partition p (19). -/
  | safeWindow (i : Fin 16)
  /-- SAFE_SWATCH_p, swatch state of partition p (19). -/
  | safeSwatch (i : Fin 16)
  /-- SAFE_TEST_g, self-test of global loom g (19). -/
  | safeTest (i : Fin 256)
  /-- STORE_STATUS, journal state (20). -/
  | storeStatus
  /-- STORE_COMPACT, compaction windows (20). -/
  | storeCompact
  /-- STORE_COMPACT_BASE, first window (20). -/
  | storeCompactBase
  /-- STORE_FW, firmware state (20). -/
  | storeFw
  /-- STORE_FENCE_k, fence record (20). -/
  | storeFence (i : Fin 6)
  /-- MODULE_ID, serial number (21). -/
  | moduleId
  /-- MODULE_STATE, phase and boot results (21). -/
  | moduleState
  /-- MODULE_RESET, reset command (21). -/
  | moduleReset
  /-- MODULE_VERSION, part identification (21). -/
  | moduleVersion
  /-- NET_MGMT_ADDR_HI, management address, high half (17). -/
  | netMgmtAddrHi
  /-- NET_MGMT_ADDR_LO, management address, low half (17). -/
  | netMgmtAddrLo
  deriving DecidableEq, Repr

/-- Base of mill m's registers (R33). -/
def millBase (m : Fin 8) : Nat := 0x10000000 + m.val * 0x01000000

/-- Base of the registers of global loom g = mill × 32 + loom (R4, R33). -/
def loomBase (g : Fin 256) : Nat := 0x10000000 + g.val / 32 * 0x01000000 + 0x00800000 + g.val % 32 * 0x00010000

/-- The 32-bit byte address of a register. -/
def Reg.addr (r : Reg) : Nat :=
  match r with
  | .linkState m i => millBase m + 0x300000 + 8 * i.val
  | .storeDraftState => 0x00700200
  | .pickSource => 0x00100000
  | .pickPeriod => 0x00100008
  | .pickEpoch => 0x00100010
  | .pickPulseBase => 0x00100018
  | .pickNow => 0x00100020
  | .pickStatus => 0x00100028
  | .pickMode => 0x00100030
  | .pickModePick => 0x00100038
  | .loomStatus g => loomBase g + 0x0
  | .loomTiles g => loomBase g + 0x8
  | .loomStall g => loomBase g + 0x10
  | .loomCheck g => loomBase g + 0x18
  | .loomEcc g => loomBase g + 0x20
  | .loomBeats g => loomBase g + 0x28
  | .loomCarve g i => loomBase g + 0x100 + 8 * i.val
  | .loomPc g i => loomBase g + 0x140 + 8 * i.val
  | .loomTstat g i => loomBase g + 0x180 + 8 * i.val
  | .loomBound g => loomBase g + 0x1C0
  | .loomBoundValue g => loomBase g + 0x1C8
  | .loomDrainset g => loomBase g + 0x1D0
  | .cxeStream m i => millBase m + 0x10F000 + 16 * i.val
  | .cxeStreamCount m i => millBase m + 0x10F008 + 16 * i.val
  | .cxePool m i => millBase m + 0x10E000 + 16 * i.val
  | .cxePageCount m i => millBase m + 0x10E008 + 16 * i.val
  | .cxeFork m i => millBase m + 0x10D000 + 16 * i.val
  | .creelStatus => 0x00300000
  | .creelEngine i => 0x00300100 + 8 * i.val
  | .creelSlot i => 0x00301000 + 8 * i.val
  | .creelCount i => 0x00303000 + 8 * i.val
  | .dxStatus g => loomBase g + 0x8000
  | .dxCount g => loomBase g + 0x8008
  | .dxLast g => loomBase g + 0x8010
  | .dxSlot g i => loomBase g + 0x8100 + 8 * i.val
  | .bcStatus m => millBase m + 0x200000
  | .bcCount m => millBase m + 0x200008
  | .bcSlot m i => millBase m + 0x200100 + 8 * i.val
  | .memStack m i => millBase m + 0x0 + 8 * i.val
  | .memEcc m i => millBase m + 0x20 + 8 * i.val
  | .memTraffic m i => millBase m + 0x40 + 8 * i.val
  | .memStage m => millBase m + 0x100
  | .memEvac m => millBase m + 0x108
  | .memGuard m => millBase m + 0x200
  | .memGuardAddr m => millBase m + 0x208
  | .farPort i => 0x00400000 + 8 * i.val
  | .farCount i => 0x00400040 + 8 * i.val
  | .farCmd => 0x00400100
  | .schedPlan i => 0x00800000 + 8 * i.val
  | .schedSwitch i => 0x00800080 + 8 * i.val
  | .schedAcct p c k => 0x00801000 + (8 * p.val + c.val) * 0x80 + 8 * k.val
  | .netPort i => 0x00200000 + 8 * i.val
  | .netPortCfg => 0x00200040
  | .netMgmt => 0x00200100
  | .netPtp => 0x00200200
  | .netCount => 0x00200300
  | .netRoceCount => 0x00200308
  | .secStatus => 0x00500000
  | .secSession => 0x00500008
  | .secCount => 0x00500010
  | .safeStatus => 0x00600000
  | .safeLogCount => 0x00600008
  | .safeLogIndex => 0x00600010
  | .safeLogData i => 0x00600018 + 8 * i.val
  | .safeCount => 0x00600040
  | .safeWindow i => 0x00600100 + 8 * i.val
  | .safeSwatch i => 0x00600200 + 8 * i.val
  | .safeTest i => 0x00601000 + 8 * i.val
  | .storeStatus => 0x00700000
  | .storeCompact => 0x00700008
  | .storeCompactBase => 0x00700010
  | .storeFw => 0x00700018
  | .storeFence i => 0x00700100 + 8 * i.val
  | .moduleId => 0x00000000
  | .moduleState => 0x00000008
  | .moduleReset => 0x00000010
  | .moduleVersion => 0x00000018
  | .netMgmtAddrHi => 0x00200108
  | .netMgmtAddrLo => 0x00200110

/-- The register of the module's own blocks at address a. -/
def moduleReg (a : Nat) : Option Reg :=
  if a = 0x0 then some .moduleId
  else if a = 0x8 then some .moduleState
  else if a = 0x10 then some .moduleReset
  else if a = 0x18 then some .moduleVersion
  else if a = 0x100000 then some .pickSource
  else if a = 0x100008 then some .pickPeriod
  else if a = 0x100010 then some .pickEpoch
  else if a = 0x100018 then some .pickPulseBase
  else if a = 0x100020 then some .pickNow
  else if a = 0x100028 then some .pickStatus
  else if a = 0x100030 then some .pickMode
  else if a = 0x100038 then some .pickModePick
  else if 0x200000 ≤ a ∧ a < 0x200040 then some (.netPort (Fin.ofNat 8 ((a - 0x200000) / 8)))
  else if a = 0x200040 then some .netPortCfg
  else if a = 0x200100 then some .netMgmt
  else if a = 0x200108 then some .netMgmtAddrHi
  else if a = 0x200110 then some .netMgmtAddrLo
  else if a = 0x200200 then some .netPtp
  else if a = 0x200300 then some .netCount
  else if a = 0x200308 then some .netRoceCount
  else if a = 0x300000 then some .creelStatus
  else if 0x300100 ≤ a ∧ a < 0x300200 then some (.creelEngine (Fin.ofNat 32 ((a - 0x300100) / 8)))
  else if 0x301000 ≤ a ∧ a < 0x303000 then some (.creelSlot (Fin.ofNat 1024 ((a - 0x301000) / 8)))
  else if 0x303000 ≤ a ∧ a < 0x305000 then some (.creelCount (Fin.ofNat 1024 ((a - 0x303000) / 8)))
  else if 0x400000 ≤ a ∧ a < 0x400020 then some (.farPort (Fin.ofNat 4 ((a - 0x400000) / 8)))
  else if 0x400040 ≤ a ∧ a < 0x400060 then some (.farCount (Fin.ofNat 4 ((a - 0x400040) / 8)))
  else if a = 0x400100 then some .farCmd
  else if a = 0x500000 then some .secStatus
  else if a = 0x500008 then some .secSession
  else if a = 0x500010 then some .secCount
  else if a = 0x600000 then some .safeStatus
  else if a = 0x600008 then some .safeLogCount
  else if a = 0x600010 then some .safeLogIndex
  else if 0x600018 ≤ a ∧ a < 0x600038 then some (.safeLogData (Fin.ofNat 4 ((a - 0x600018) / 8)))
  else if a = 0x600040 then some .safeCount
  else if 0x600100 ≤ a ∧ a < 0x600180 then some (.safeWindow (Fin.ofNat 16 ((a - 0x600100) / 8)))
  else if 0x600200 ≤ a ∧ a < 0x600280 then some (.safeSwatch (Fin.ofNat 16 ((a - 0x600200) / 8)))
  else if 0x601000 ≤ a ∧ a < 0x601800 then some (.safeTest (Fin.ofNat 256 ((a - 0x601000) / 8)))
  else if a = 0x700000 then some .storeStatus
  else if a = 0x700008 then some .storeCompact
  else if a = 0x700010 then some .storeCompactBase
  else if a = 0x700018 then some .storeFw
  else if 0x700100 ≤ a ∧ a < 0x700130 then some (.storeFence (Fin.ofNat 6 ((a - 0x700100) / 8)))
  else if a = 0x700200 then some .storeDraftState
  else if 0x800000 ≤ a ∧ a < 0x800080 then some (.schedPlan (Fin.ofNat 16 ((a - 0x800000) / 8)))
  else if 0x800080 ≤ a ∧ a < 0x800100 then some (.schedSwitch (Fin.ofNat 16 ((a - 0x800080) / 8)))
  else if 0x801000 ≤ a ∧ a < 0x805000 then some (.schedAcct (Fin.ofNat 16 ((a - 0x801000) / 0x400)) (Fin.ofNat 8 ((a - 0x801000) / 0x80)) (Fin.ofNat 16 ((a - 0x801000) / 8)))
  else none

/-- The register of mill m at offset a from its base. -/
def millReg (m : Fin 8) (a : Nat) : Option Reg :=
  if 0x0 ≤ a ∧ a < 0x20 then some (.memStack m (Fin.ofNat 4 ((a - 0x0) / 8)))
  else if 0x20 ≤ a ∧ a < 0x40 then some (.memEcc m (Fin.ofNat 4 ((a - 0x20) / 8)))
  else if 0x40 ≤ a ∧ a < 0x60 then some (.memTraffic m (Fin.ofNat 4 ((a - 0x40) / 8)))
  else if a = 0x100 then some (.memStage m)
  else if a = 0x108 then some (.memEvac m)
  else if a = 0x200 then some (.memGuard m)
  else if a = 0x208 then some (.memGuardAddr m)
  else if 0x10D000 ≤ a ∧ a < 0x10D100 ∧ (a - 0x10D000) % 16 = 0 then some (.cxeFork m (Fin.ofNat 16 ((a - 0x10D000) / 16)))
  else if 0x10E000 ≤ a ∧ a < 0x10E100 ∧ (a - 0x10E000) % 16 = 0 then some (.cxePool m (Fin.ofNat 16 ((a - 0x10E000) / 16)))
  else if 0x10E008 ≤ a ∧ a < 0x10E108 ∧ (a - 0x10E008) % 16 = 0 then some (.cxePageCount m (Fin.ofNat 16 ((a - 0x10E008) / 16)))
  else if 0x10F000 ≤ a ∧ a < 0x10F100 ∧ (a - 0x10F000) % 16 = 0 then some (.cxeStream m (Fin.ofNat 16 ((a - 0x10F000) / 16)))
  else if 0x10F008 ≤ a ∧ a < 0x10F108 ∧ (a - 0x10F008) % 16 = 0 then some (.cxeStreamCount m (Fin.ofNat 16 ((a - 0x10F008) / 16)))
  else if a = 0x200000 then some (.bcStatus m)
  else if a = 0x200008 then some (.bcCount m)
  else if 0x200100 ≤ a ∧ a < 0x200180 then some (.bcSlot m (Fin.ofNat 16 ((a - 0x200100) / 8)))
  else if 0x300000 ≤ a ∧ a < 0x3000A0 then some (.linkState m (Fin.ofNat 20 ((a - 0x300000) / 8)))
  else none

/-- The register of loom g at offset a from its base. -/
def loomReg (g : Fin 256) (a : Nat) : Option Reg :=
  if a = 0x0 then some (.loomStatus g)
  else if a = 0x8 then some (.loomTiles g)
  else if a = 0x10 then some (.loomStall g)
  else if a = 0x18 then some (.loomCheck g)
  else if a = 0x20 then some (.loomEcc g)
  else if a = 0x28 then some (.loomBeats g)
  else if 0x100 ≤ a ∧ a < 0x140 then some (.loomCarve g (Fin.ofNat 8 ((a - 0x100) / 8)))
  else if 0x140 ≤ a ∧ a < 0x180 then some (.loomPc g (Fin.ofNat 8 ((a - 0x140) / 8)))
  else if 0x180 ≤ a ∧ a < 0x1C0 then some (.loomTstat g (Fin.ofNat 8 ((a - 0x180) / 8)))
  else if a = 0x1C0 then some (.loomBound g)
  else if a = 0x1C8 then some (.loomBoundValue g)
  else if a = 0x1D0 then some (.loomDrainset g)
  else if a = 0x8000 then some (.dxStatus g)
  else if a = 0x8008 then some (.dxCount g)
  else if a = 0x8010 then some (.dxLast g)
  else if 0x8100 ≤ a ∧ a < 0x8180 then some (.dxSlot g (Fin.ofNat 16 ((a - 0x8100) / 8)))
  else none

/-- The register that an address maps, if it is 8-byte aligned and maps one (R7, R33). -/
def Reg.ofAddr (a : Nat) : Option Reg :=
  if a % 8 ≠ 0 then none
  else if a < 0x10000000 then moduleReg a
  else if a < 0x18000000 then
    let m : Fin 8 := Fin.ofNat 8 ((a - 0x10000000) / 0x01000000)
    let o := (a - 0x10000000) % 0x01000000
    if o < 0x00800000 then millReg m o
    else if o < 0x00A00000 then
      loomReg (Fin.ofNat 256 (m.val * 32 + (o - 0x00800000) / 0x10000)) ((o - 0x00800000) % 0x10000)
    else none
  else none

namespace Fl

def linkState_WIDTH : Fld := ⟨0, 2, .ro, 0⟩
def linkState_TRAINING : Fld := ⟨2, 1, .ro, 0⟩
def linkState_LANE_FAULT : Fld := ⟨3, 1, .w1c, 0⟩
def linkState_FAILED_LANE : Fld := ⟨4, 6, .ro, 0⟩
def linkState_RETRIES : Fld := ⟨16, 32, .rc, 0⟩
def storeDraftState_PART_LIVE : Fld := ⟨0, 16, .ro, 0⟩
def storeDraftState_PANEL_PENDING : Fld := ⟨16, 16, .ro, 0⟩
def storeDraftState_LAST_FAULT : Fld := ⟨32, 16, .ro, 0⟩
def storeDraftState_FAULT_SECTION : Fld := ⟨48, 12, .ro, 0⟩
def storeDraftState_IN_HEADER : Fld := ⟨60, 1, .ro, 0⟩
def pickSource_SEL : Fld := ⟨0, 2, .rw, 0⟩
def pickSource_REF_EN : Fld := ⟨2, 1, .rw, 0⟩
def pickSource_WINDOW_NS : Fld := ⟨3, 28, .rw, 0⟩
def pickPeriod_PERIOD_NS : Fld := ⟨0, 30, .rw, 0⟩
def pickEpoch_SECONDS : Fld := ⟨0, 34, .rw, 0⟩
def pickEpoch_NS : Fld := ⟨34, 30, .rw, 0⟩
def pickPulseBase_BASE : Fld := ⟨0, 64, .rw, 0⟩
def pickNow_PICK : Fld := ⟨0, 64, .ro, 0⟩
def pickStatus_STATE : Fld := ⟨0, 3, .ro, 0⟩
def pickStatus_HOLDOVER_PICKS : Fld := ⟨3, 10, .ro, 0⟩
def pickStatus_REF_OK : Fld := ⟨13, 1, .ro, 0⟩
def pickStatus_HOLDOVER_SEEN : Fld := ⟨14, 1, .w1c, 0⟩
def pickStatus_REF_LOST : Fld := ⟨15, 1, .w1c, 0⟩
def pickStatus_OFFSET_NS : Fld := ⟨16, 16, .ro, 0⟩
def pickStatus_MISSED : Fld := ⟨32, 16, .rc, 0⟩
def pickStatus_SPURIOUS : Fld := ⟨48, 16, .rc, 0⟩
def pickMode_GENERATION : Fld := ⟨0, 48, .ro, 0⟩
def pickMode_PHASE : Fld := ⟨48, 2, .ro, 0⟩
def pickMode_LAST_OUTCOME : Fld := ⟨50, 2, .ro, 0⟩
def pickMode_NOT_ANSWERED : Fld := ⟨52, 12, .ro, 0⟩
def pickModePick_EFFECTIVE : Fld := ⟨0, 64, .ro, 0⟩
def loomStatus_STATE : Fld := ⟨0, 3, .ro, 0⟩
def loomStatus_CONTEXT : Fld := ⟨3, 3, .ro, 0⟩
def loomStatus_TIEUP : Fld := ⟨6, 2, .ro, 1⟩
def loomStatus_BANK0_READY : Fld := ⟨8, 1, .ro, 0⟩
def loomStatus_BANK1_READY : Fld := ⟨9, 1, .ro, 0⟩
def loomStatus_BANK_ACTIVE : Fld := ⟨10, 1, .ro, 0⟩
def loomStatus_PARTITION : Fld := ⟨11, 4, .ro, 0⟩
def loomTiles_TILES : Fld := ⟨0, 64, .ro, 0⟩
def loomStall_BANK_WAIT : Fld := ⟨0, 32, .rc, 0⟩
def loomStall_STORE_HOLD : Fld := ⟨32, 24, .rc, 0⟩
def loomStall_REFILLS : Fld := ⟨56, 8, .rc, 0⟩
def loomCheck_RESIDUE_FAULTS : Fld := ⟨0, 16, .rc, 0⟩
def loomCheck_LAST_HARNESS : Fld := ⟨16, 2, .ro, 0⟩
def loomCheck_LAST_HEDDLE : Fld := ⟨18, 6, .ro, 0⟩
def loomCheck_LAST_FELL : Fld := ⟨24, 1, .ro, 0⟩
def loomCheck_LOCKSTEP : Fld := ⟨25, 1, .w1c, 0⟩
def loomCheck_DRAIN_MISMATCH : Fld := ⟨26, 1, .w1c, 0⟩
def loomCheck_WATCHDOG : Fld := ⟨27, 1, .w1c, 0⟩
def loomEcc_CORRECTED : Fld := ⟨0, 16, .rc, 0⟩
def loomEcc_STORE_UE : Fld := ⟨16, 1, .w1c, 0⟩
def loomEcc_ARRAY_UE : Fld := ⟨17, 1, .w1c, 0⟩
def loomEcc_LAST_ADDR : Fld := ⟨18, 23, .ro, 0⟩
def loomBeats_ISSUE : Fld := ⟨0, 64, .ro, 0⟩
def loomCarve_BASE : Fld := ⟨0, 11, .ro, 0⟩
def loomCarve_LENGTH : Fld := ⟨11, 11, .ro, 0⟩
def loomPc_PC : Fld := ⟨0, 32, .ro, 0⟩
def loomPc_STATE : Fld := ⟨32, 3, .ro, 0⟩
def loomPc_LOOP_DEPTH : Fld := ⟨35, 4, .ro, 0⟩
def loomTstat_ST : Fld := ⟨0, 64, .ro, 0⟩
def loomBound_CODE : Fld := ⟨0, 16, .ro, 0⟩
def loomBound_CONTEXT : Fld := ⟨16, 3, .ro, 0⟩
def loomBound_WHICH : Fld := ⟨19, 2, .ro, 0⟩
def loomBound_BUFFER : Fld := ⟨21, 16, .ro, 0⟩
def loomBound_WORD : Fld := ⟨37, 20, .ro, 0⟩
def loomBoundValue_VALUE : Fld := ⟨0, 64, .ro, 0⟩
def loomDrainset_SET0 : Fld := ⟨0, 20, .ro, 0⟩
def loomDrainset_SET1 : Fld := ⟨20, 20, .ro, 0⟩
def loomDrainset_CONTEXT : Fld := ⟨40, 3, .ro, 0⟩
def loomDrainset_LOADS : Fld := ⟨43, 21, .rc, 0⟩
def cxeStream_ACTIVE : Fld := ⟨0, 1, .ro, 0⟩
def cxeStream_MODE : Fld := ⟨1, 1, .ro, 0⟩
def cxeStream_ENTRIES : Fld := ⟨2, 17, .ro, 0⟩
def cxeStream_LIVE : Fld := ⟨19, 17, .ro, 0⟩
def cxeStreamCount_THRASH : Fld := ⟨0, 24, .rc, 0⟩
def cxeStreamCount_LATE : Fld := ⟨24, 24, .rc, 0⟩
def cxeStreamCount_DAMAGED : Fld := ⟨48, 16, .rc, 0⟩
def cxePool_ACTIVE : Fld := ⟨0, 1, .ro, 0⟩
def cxePool_FRAME_KIB : Fld := ⟨1, 9, .ro, 0⟩
def cxePool_FRAMES : Fld := ⟨10, 21, .ro, 0⟩
def cxePool_FREE : Fld := ⟨31, 21, .ro, 0⟩
def cxePageCount_DROPS : Fld := ⟨0, 16, .rc, 0⟩
def cxePageCount_PGFILLS : Fld := ⟨16, 16, .rc, 0⟩
def cxePageCount_EVICTIONS : Fld := ⟨32, 16, .rc, 0⟩
def cxePageCount_PREFIX_HITS : Fld := ⟨48, 8, .rc, 0⟩
def cxePageCount_STARVED : Fld := ⟨56, 8, .rc, 0⟩
def cxeFork_FORKS : Fld := ⟨0, 16, .rc, 0⟩
def cxeFork_CHILDREN : Fld := ⟨16, 16, .rc, 0⟩
def cxeFork_PRUNED : Fld := ⟨32, 16, .rc, 0⟩
def cxeFork_JOINS : Fld := ⟨48, 16, .rc, 0⟩
def creelStatus_OPEN : Fld := ⟨0, 11, .ro, 0⟩
def creelStatus_FAULTED : Fld := ⟨11, 11, .ro, 0⟩
def creelStatus_BUSY : Fld := ⟨22, 32, .ro, 0⟩
def creelEngine_RATE_SUM : Fld := ⟨0, 20, .ro, 0⟩
def creelEngine_SAMPLES : Fld := ⟨20, 44, .ro, 0⟩
def creelSlot_STATE : Fld := ⟨0, 3, .ro, 0⟩
def creelSlot_ENGINE : Fld := ⟨3, 5, .ro, 0⟩
def creelSlot_LAST_FAULT : Fld := ⟨8, 16, .ro, 0⟩
def creelSlot_LEVEL : Fld := ⟨24, 8, .ro, 0⟩
def creelSlot_FRAME : Fld := ⟨32, 32, .ro, 0⟩
def creelCount_LOST : Fld := ⟨0, 16, .rc, 0⟩
def creelCount_LATE_PKTS : Fld := ⟨16, 16, .rc, 0⟩
def creelCount_AUTH_FAIL : Fld := ⟨32, 8, .rc, 0⟩
def creelCount_CONCEALED : Fld := ⟨40, 16, .rc, 0⟩
def creelCount_PAUSES : Fld := ⟨56, 8, .rc, 0⟩
def dxStatus_STATE : Fld := ⟨0, 2, .ro, 0⟩
def dxStatus_CONTEXT : Fld := ⟨2, 3, .ro, 0⟩
def dxStatus_BANK : Fld := ⟨5, 1, .ro, 0⟩
def dxStatus_LOADED : Fld := ⟨6, 16, .ro, 0⟩
def dxStatus_BUFFERS : Fld := ⟨22, 5, .ro, 0⟩
def dxCount_STALL : Fld := ⟨0, 32, .rc, 0⟩
def dxCount_TABLE_LOADS : Fld := ⟨32, 16, .rc, 0⟩
def dxCount_SLOT_WAITS : Fld := ⟨48, 8, .rc, 0⟩
def dxCount_DAMAGED : Fld := ⟨56, 8, .rc, 0⟩
def dxLast_CODE : Fld := ⟨0, 16, .ro, 0⟩
def dxLast_RECORD : Fld := ⟨16, 32, .ro, 0⟩
def dxLast_CONTEXT : Fld := ⟨48, 3, .ro, 0⟩
def dxSlot_TABLE_ID : Fld := ⟨0, 32, .ro, 0⟩
def dxSlot_USE : Fld := ⟨32, 2, .ro, 0⟩
def dxSlot_LOADED : Fld := ⟨34, 1, .ro, 0⟩
def bcStatus_QUEUED : Fld := ⟨0, 10, .ro, 0⟩
def bcStatus_LOADED : Fld := ⟨10, 16, .ro, 0⟩
def bcStatus_PASS1_BUSY : Fld := ⟨26, 1, .ro, 0⟩
def bcStatus_PASS2_BUSY : Fld := ⟨27, 1, .ro, 0⟩
def bcCount_CODED_BLOCKS : Fld := ⟨0, 24, .rc, 0⟩
def bcCount_FLAT_BLOCKS : Fld := ⟨24, 16, .rc, 0⟩
def bcCount_SLOT_WAITS : Fld := ⟨40, 16, .rc, 0⟩
def bcCount_DAMAGED : Fld := ⟨56, 8, .rc, 0⟩
def bcSlot_TABLE_ID : Fld := ⟨0, 32, .ro, 0⟩
def bcSlot_USE : Fld := ⟨32, 2, .ro, 0⟩
def bcSlot_LOADED : Fld := ⟨34, 1, .ro, 0⟩
def memStack_STATE : Fld := ⟨0, 3, .ro, 0⟩
def memStack_CARVED : Fld := ⟨3, 15, .ro, 0⟩
def memStack_FREE : Fld := ⟨18, 15, .ro, 0⟩
def memStack_TEMP : Fld := ⟨33, 8, .ro, 0⟩
def memEcc_CORRECTED : Fld := ⟨0, 16, .rc, 0⟩
def memEcc_UNCORRECTED : Fld := ⟨16, 8, .rc, 0⟩
def memEcc_UE_SEEN : Fld := ⟨24, 1, .w1c, 0⟩
def memEcc_LAST_GRANULE : Fld := ⟨25, 36, .ro, 0⟩
def memTraffic_UNITS : Fld := ⟨0, 64, .ro, 0⟩
def memStage_STAGED : Fld := ⟨0, 20, .ro, 0⟩
def memStage_STAGES : Fld := ⟨20, 20, .rc, 0⟩
def memStage_WRITEBACKS : Fld := ⟨40, 16, .rc, 0⟩
def memStage_UNSTAGED_READS : Fld := ⟨56, 8, .rc, 0⟩
def memEvac_STACK : Fld := ⟨0, 2, .rw, 0⟩
def memEvac_OP : Fld := ⟨2, 2, .wo, 0⟩
def memEvac_STATUS : Fld := ⟨4, 3, .ro, 0⟩
def memEvac_REMAINING : Fld := ⟨7, 34, .ro, 0⟩
def memGuard_CODE : Fld := ⟨0, 16, .ro, 0⟩
def memGuard_PARTITION : Fld := ⟨16, 4, .ro, 0⟩
def memGuard_CONTEXT : Fld := ⟨20, 3, .ro, 0⟩
def memGuard_LOOM : Fld := ⟨23, 5, .ro, 0⟩
def memGuardAddr_ADDR : Fld := ⟨0, 48, .ro, 0⟩
def farPort_STATE : Fld := ⟨0, 3, .ro, 0⟩
def farPort_PRESENT : Fld := ⟨3, 1, .ro, 0⟩
def farPort_CAPACITY : Fld := ⟨4, 13, .ro, 0⟩
def farPort_USED : Fld := ⟨17, 22, .ro, 0⟩
def farCount_CORRECTED : Fld := ⟨0, 16, .rc, 0⟩
def farCount_POISON : Fld := ⟨16, 8, .rc, 0⟩
def farCount_WB_FAIL : Fld := ⟨24, 8, .rc, 0⟩
def farCmd_PORT : Fld := ⟨0, 2, .rw, 0⟩
def farCmd_OP : Fld := ⟨2, 2, .wo, 0⟩
def farCmd_STATUS : Fld := ⟨4, 3, .ro, 0⟩
def farCmd_REMAINING : Fld := ⟨7, 33, .ro, 0⟩
def schedPlan_POSITION : Fld := ⟨0, 6, .ro, 0⟩
def schedPlan_ENTRY : Fld := ⟨6, 8, .ro, 16⟩
def schedPlan_TEST_RUN : Fld := ⟨14, 1, .ro, 0⟩
def schedPlan_CYCLES : Fld := ⟨16, 48, .ro, 0⟩
def schedSwitch_MAX_DELAY : Fld := ⟨0, 32, .ro, 0⟩
def schedSwitch_LATE_LOOMS : Fld := ⟨32, 9, .ro, 0⟩
def schedAcct_WORD : Fld := ⟨0, 64, .ro, 0⟩
def netPort_LINK : Fld := ⟨0, 1, .ro, 0⟩
def netPort_MACSEC : Fld := ⟨1, 2, .ro, 0⟩
def netPort_FEC_CORRECTED : Fld := ⟨3, 29, .rc, 0⟩
def netPort_FEC_UNCORRECTED : Fld := ⟨32, 16, .rc, 0⟩
def netPort_MACSEC_DROP : Fld := ⟨48, 16, .rc, 0⟩
def netPortCfg_PFC_A : Fld := ⟨0, 1, .rw, 0⟩
def netPortCfg_PRIO_A : Fld := ⟨1, 3, .rw, 0⟩
def netPortCfg_PFC_B : Fld := ⟨4, 1, .rw, 0⟩
def netPortCfg_PRIO_B : Fld := ⟨5, 3, .rw, 0⟩
def netMgmt_VLAN : Fld := ⟨0, 12, .rw, 0⟩
def netMgmt_FAMILY : Fld := ⟨12, 1, .rw, 0⟩
def netMgmt_BANKS : Fld := ⟨13, 2, .rw, 3⟩
def netMgmt_MTU : Fld := ⟨15, 14, .rw, 1500⟩
def netPtp_EN : Fld := ⟨0, 1, .rw, 0⟩
def netPtp_BANKS : Fld := ⟨1, 2, .rw, 3⟩
def netPtp_TRANSPORT : Fld := ⟨3, 2, .rw, 1⟩
def netPtp_DOMAIN : Fld := ⟨5, 8, .rw, 0⟩
def netPtp_VLAN : Fld := ⟨13, 12, .rw, 0⟩
def netPtp_DELAY_LOG : Fld := ⟨25, 4, .rw, 0⟩
def netCount_BAD_HEADER : Fld := ⟨0, 16, .rc, 0⟩
def netCount_DUPLICATES : Fld := ⟨16, 16, .rc, 0⟩
def netCount_STALE : Fld := ⟨32, 16, .rc, 0⟩
def netCount_REFUSED : Fld := ⟨48, 16, .rc, 0⟩
def netRoceCount_ICRC_FAIL : Fld := ⟨0, 16, .rc, 0⟩
def netRoceCount_NAK_ACCESS : Fld := ⟨16, 16, .rc, 0⟩
def netRoceCount_RETRIES : Fld := ⟨32, 16, .rc, 0⟩
def netRoceCount_CNP_SENT : Fld := ⟨48, 16, .rc, 0⟩
def secStatus_IDENTITY : Fld := ⟨0, 1, .ro, 0⟩
def secStatus_ENTROPY : Fld := ⟨1, 2, .ro, 0⟩
def secStatus_DEBUG : Fld := ⟨3, 1, .ro, 0⟩
def secStatus_FUSE_COUNT : Fld := ⟨4, 7, .ro, 0⟩
def secStatus_FW_SVN : Fld := ⟨11, 7, .ro, 0⟩
def secStatus_SIGNERS : Fld := ⟨18, 8, .ro, 0⟩
def secStatus_MODULE_SESSION : Fld := ⟨26, 1, .ro, 0⟩
def secSession_LIVE : Fld := ⟨0, 16, .ro, 0⟩
def secSession_PENDING : Fld := ⟨16, 16, .ro, 0⟩
def secSession_REGION : Fld := ⟨32, 16, .ro, 0⟩
def secSession_RETAINED : Fld := ⟨48, 16, .ro, 0⟩
def secCount_TAG_FAIL : Fld := ⟨0, 16, .rc, 0⟩
def secCount_SEAL_FAIL : Fld := ⟨16, 16, .rc, 0⟩
def secCount_MSG_FAIL : Fld := ⟨32, 16, .rc, 0⟩
def secCount_QUOTES : Fld := ⟨48, 16, .rc, 0⟩
def safeStatus_SAFE : Fld := ⟨0, 16, .ro, 0⟩
def safeStatus_MODULE_SAFE : Fld := ⟨16, 1, .ro, 0⟩
def safeStatus_SELFTEST_EN : Fld := ⟨17, 1, .ro, 1⟩
def safeStatus_RECORDING : Fld := ⟨18, 16, .ro, 0⟩
def safeStatus_REPLAYING : Fld := ⟨34, 16, .ro, 0⟩
def safeLogCount_RECORDS : Fld := ⟨0, 64, .ro, 0⟩
def safeLogIndex_INDEX : Fld := ⟨0, 12, .rw, 0⟩
def safeLogData_WORD : Fld := ⟨0, 64, .ro, 0⟩
def safeCount_SAFE_ENTRIES : Fld := ⟨0, 16, .rc, 0⟩
def safeCount_TESTS_FAILED : Fld := ⟨16, 16, .rc, 0⟩
def safeCount_TESTS_ABANDONED : Fld := ⟨32, 16, .rc, 0⟩
def safeCount_NOTICES : Fld := ⟨48, 16, .rc, 0⟩
def safeWindow_PICK : Fld := ⟨0, 64, .ro, 0⟩
def safeSwatch_MISMATCHES : Fld := ⟨0, 32, .ro, 0⟩
def safeSwatch_TRUNCATED : Fld := ⟨32, 1, .ro, 0⟩
def safeTest_RESULT : Fld := ⟨0, 2, .ro, 0⟩
def safeTest_PICK : Fld := ⟨2, 62, .ro, 0⟩
def storeStatus_OCCUPIED : Fld := ⟨0, 12, .ro, 0⟩
def storeStatus_LIVE_MIB : Fld := ⟨12, 13, .ro, 0⟩
def storeStatus_COMPACTING : Fld := ⟨25, 1, .ro, 0⟩
def storeStatus_OVER_75 : Fld := ⟨26, 1, .ro, 0⟩
def storeStatus_FULL : Fld := ⟨27, 1, .ro, 0⟩
def storeCompact_PERIOD : Fld := ⟨0, 32, .rw, 0⟩
def storeCompact_LENGTH : Fld := ⟨32, 16, .rw, 0⟩
def storeCompactBase_BASE : Fld := ⟨0, 64, .rw, 0⟩
def storeFw_BOOTS : Fld := ⟨0, 32, .ro, 0⟩
def storeFw_RUN_SVN : Fld := ⟨32, 7, .ro, 0⟩
def storeFw_CONFIRMED : Fld := ⟨39, 1, .ro, 0⟩
def storeFw_ATTEMPTS : Fld := ⟨40, 2, .ro, 0⟩
def storeFence_MAP : Fld := ⟨0, 64, .ro, 0⟩
def moduleId_SERIAL : Fld := ⟨0, 64, .ro, 0⟩
def moduleState_PHASE : Fld := ⟨0, 3, .ro, 0⟩
def moduleState_MILL_FAILED : Fld := ⟨3, 8, .ro, 0⟩
def moduleState_STACK_FAILED : Fld := ⟨11, 32, .ro, 0⟩
def moduleState_CALIBRATED : Fld := ⟨43, 1, .ro, 0⟩
def moduleState_CAUSE : Fld := ⟨44, 3, .ro, 0⟩
def moduleReset_REQUEST : Fld := ⟨0, 1, .wo, 0⟩
def moduleVersion_PRODUCT : Fld := ⟨0, 16, .ro, 3400⟩
def moduleVersion_STEPPING : Fld := ⟨16, 8, .ro, 0⟩
def netMgmtAddrHi_ADDR : Fld := ⟨0, 64, .rw, 0⟩
def netMgmtAddrLo_ADDR : Fld := ⟨0, 64, .rw, 0⟩

end Fl

/-- The fields of a register; every bit in none of them is reserved (R11). -/
def Reg.fields (r : Reg) : List Fld :=
  match r with
  | .linkState _ _ => [Fl.linkState_WIDTH, Fl.linkState_TRAINING, Fl.linkState_LANE_FAULT, Fl.linkState_FAILED_LANE, Fl.linkState_RETRIES]
  | .storeDraftState => [Fl.storeDraftState_PART_LIVE, Fl.storeDraftState_PANEL_PENDING, Fl.storeDraftState_LAST_FAULT, Fl.storeDraftState_FAULT_SECTION, Fl.storeDraftState_IN_HEADER]
  | .pickSource => [Fl.pickSource_SEL, Fl.pickSource_REF_EN, Fl.pickSource_WINDOW_NS]
  | .pickPeriod => [Fl.pickPeriod_PERIOD_NS]
  | .pickEpoch => [Fl.pickEpoch_SECONDS, Fl.pickEpoch_NS]
  | .pickPulseBase => [Fl.pickPulseBase_BASE]
  | .pickNow => [Fl.pickNow_PICK]
  | .pickStatus => [Fl.pickStatus_STATE, Fl.pickStatus_HOLDOVER_PICKS, Fl.pickStatus_REF_OK, Fl.pickStatus_HOLDOVER_SEEN, Fl.pickStatus_REF_LOST, Fl.pickStatus_OFFSET_NS, Fl.pickStatus_MISSED, Fl.pickStatus_SPURIOUS]
  | .pickMode => [Fl.pickMode_GENERATION, Fl.pickMode_PHASE, Fl.pickMode_LAST_OUTCOME, Fl.pickMode_NOT_ANSWERED]
  | .pickModePick => [Fl.pickModePick_EFFECTIVE]
  | .loomStatus _ => [Fl.loomStatus_STATE, Fl.loomStatus_CONTEXT, Fl.loomStatus_TIEUP, Fl.loomStatus_BANK0_READY, Fl.loomStatus_BANK1_READY, Fl.loomStatus_BANK_ACTIVE, Fl.loomStatus_PARTITION]
  | .loomTiles _ => [Fl.loomTiles_TILES]
  | .loomStall _ => [Fl.loomStall_BANK_WAIT, Fl.loomStall_STORE_HOLD, Fl.loomStall_REFILLS]
  | .loomCheck _ => [Fl.loomCheck_RESIDUE_FAULTS, Fl.loomCheck_LAST_HARNESS, Fl.loomCheck_LAST_HEDDLE, Fl.loomCheck_LAST_FELL, Fl.loomCheck_LOCKSTEP, Fl.loomCheck_DRAIN_MISMATCH, Fl.loomCheck_WATCHDOG]
  | .loomEcc _ => [Fl.loomEcc_CORRECTED, Fl.loomEcc_STORE_UE, Fl.loomEcc_ARRAY_UE, Fl.loomEcc_LAST_ADDR]
  | .loomBeats _ => [Fl.loomBeats_ISSUE]
  | .loomCarve _ _ => [Fl.loomCarve_BASE, Fl.loomCarve_LENGTH]
  | .loomPc _ _ => [Fl.loomPc_PC, Fl.loomPc_STATE, Fl.loomPc_LOOP_DEPTH]
  | .loomTstat _ _ => [Fl.loomTstat_ST]
  | .loomBound _ => [Fl.loomBound_CODE, Fl.loomBound_CONTEXT, Fl.loomBound_WHICH, Fl.loomBound_BUFFER, Fl.loomBound_WORD]
  | .loomBoundValue _ => [Fl.loomBoundValue_VALUE]
  | .loomDrainset _ => [Fl.loomDrainset_SET0, Fl.loomDrainset_SET1, Fl.loomDrainset_CONTEXT, Fl.loomDrainset_LOADS]
  | .cxeStream _ _ => [Fl.cxeStream_ACTIVE, Fl.cxeStream_MODE, Fl.cxeStream_ENTRIES, Fl.cxeStream_LIVE]
  | .cxeStreamCount _ _ => [Fl.cxeStreamCount_THRASH, Fl.cxeStreamCount_LATE, Fl.cxeStreamCount_DAMAGED]
  | .cxePool _ _ => [Fl.cxePool_ACTIVE, Fl.cxePool_FRAME_KIB, Fl.cxePool_FRAMES, Fl.cxePool_FREE]
  | .cxePageCount _ _ => [Fl.cxePageCount_DROPS, Fl.cxePageCount_PGFILLS, Fl.cxePageCount_EVICTIONS, Fl.cxePageCount_PREFIX_HITS, Fl.cxePageCount_STARVED]
  | .cxeFork _ _ => [Fl.cxeFork_FORKS, Fl.cxeFork_CHILDREN, Fl.cxeFork_PRUNED, Fl.cxeFork_JOINS]
  | .creelStatus => [Fl.creelStatus_OPEN, Fl.creelStatus_FAULTED, Fl.creelStatus_BUSY]
  | .creelEngine _ => [Fl.creelEngine_RATE_SUM, Fl.creelEngine_SAMPLES]
  | .creelSlot _ => [Fl.creelSlot_STATE, Fl.creelSlot_ENGINE, Fl.creelSlot_LAST_FAULT, Fl.creelSlot_LEVEL, Fl.creelSlot_FRAME]
  | .creelCount _ => [Fl.creelCount_LOST, Fl.creelCount_LATE_PKTS, Fl.creelCount_AUTH_FAIL, Fl.creelCount_CONCEALED, Fl.creelCount_PAUSES]
  | .dxStatus _ => [Fl.dxStatus_STATE, Fl.dxStatus_CONTEXT, Fl.dxStatus_BANK, Fl.dxStatus_LOADED, Fl.dxStatus_BUFFERS]
  | .dxCount _ => [Fl.dxCount_STALL, Fl.dxCount_TABLE_LOADS, Fl.dxCount_SLOT_WAITS, Fl.dxCount_DAMAGED]
  | .dxLast _ => [Fl.dxLast_CODE, Fl.dxLast_RECORD, Fl.dxLast_CONTEXT]
  | .dxSlot _ _ => [Fl.dxSlot_TABLE_ID, Fl.dxSlot_USE, Fl.dxSlot_LOADED]
  | .bcStatus _ => [Fl.bcStatus_QUEUED, Fl.bcStatus_LOADED, Fl.bcStatus_PASS1_BUSY, Fl.bcStatus_PASS2_BUSY]
  | .bcCount _ => [Fl.bcCount_CODED_BLOCKS, Fl.bcCount_FLAT_BLOCKS, Fl.bcCount_SLOT_WAITS, Fl.bcCount_DAMAGED]
  | .bcSlot _ _ => [Fl.bcSlot_TABLE_ID, Fl.bcSlot_USE, Fl.bcSlot_LOADED]
  | .memStack _ _ => [Fl.memStack_STATE, Fl.memStack_CARVED, Fl.memStack_FREE, Fl.memStack_TEMP]
  | .memEcc _ _ => [Fl.memEcc_CORRECTED, Fl.memEcc_UNCORRECTED, Fl.memEcc_UE_SEEN, Fl.memEcc_LAST_GRANULE]
  | .memTraffic _ _ => [Fl.memTraffic_UNITS]
  | .memStage _ => [Fl.memStage_STAGED, Fl.memStage_STAGES, Fl.memStage_WRITEBACKS, Fl.memStage_UNSTAGED_READS]
  | .memEvac _ => [Fl.memEvac_STACK, Fl.memEvac_OP, Fl.memEvac_STATUS, Fl.memEvac_REMAINING]
  | .memGuard _ => [Fl.memGuard_CODE, Fl.memGuard_PARTITION, Fl.memGuard_CONTEXT, Fl.memGuard_LOOM]
  | .memGuardAddr _ => [Fl.memGuardAddr_ADDR]
  | .farPort _ => [Fl.farPort_STATE, Fl.farPort_PRESENT, Fl.farPort_CAPACITY, Fl.farPort_USED]
  | .farCount _ => [Fl.farCount_CORRECTED, Fl.farCount_POISON, Fl.farCount_WB_FAIL]
  | .farCmd => [Fl.farCmd_PORT, Fl.farCmd_OP, Fl.farCmd_STATUS, Fl.farCmd_REMAINING]
  | .schedPlan _ => [Fl.schedPlan_POSITION, Fl.schedPlan_ENTRY, Fl.schedPlan_TEST_RUN, Fl.schedPlan_CYCLES]
  | .schedSwitch _ => [Fl.schedSwitch_MAX_DELAY, Fl.schedSwitch_LATE_LOOMS]
  | .schedAcct _ _ _ => [Fl.schedAcct_WORD]
  | .netPort _ => [Fl.netPort_LINK, Fl.netPort_MACSEC, Fl.netPort_FEC_CORRECTED, Fl.netPort_FEC_UNCORRECTED, Fl.netPort_MACSEC_DROP]
  | .netPortCfg => [Fl.netPortCfg_PFC_A, Fl.netPortCfg_PRIO_A, Fl.netPortCfg_PFC_B, Fl.netPortCfg_PRIO_B]
  | .netMgmt => [Fl.netMgmt_VLAN, Fl.netMgmt_FAMILY, Fl.netMgmt_BANKS, Fl.netMgmt_MTU]
  | .netPtp => [Fl.netPtp_EN, Fl.netPtp_BANKS, Fl.netPtp_TRANSPORT, Fl.netPtp_DOMAIN, Fl.netPtp_VLAN, Fl.netPtp_DELAY_LOG]
  | .netCount => [Fl.netCount_BAD_HEADER, Fl.netCount_DUPLICATES, Fl.netCount_STALE, Fl.netCount_REFUSED]
  | .netRoceCount => [Fl.netRoceCount_ICRC_FAIL, Fl.netRoceCount_NAK_ACCESS, Fl.netRoceCount_RETRIES, Fl.netRoceCount_CNP_SENT]
  | .secStatus => [Fl.secStatus_IDENTITY, Fl.secStatus_ENTROPY, Fl.secStatus_DEBUG, Fl.secStatus_FUSE_COUNT, Fl.secStatus_FW_SVN, Fl.secStatus_SIGNERS, Fl.secStatus_MODULE_SESSION]
  | .secSession => [Fl.secSession_LIVE, Fl.secSession_PENDING, Fl.secSession_REGION, Fl.secSession_RETAINED]
  | .secCount => [Fl.secCount_TAG_FAIL, Fl.secCount_SEAL_FAIL, Fl.secCount_MSG_FAIL, Fl.secCount_QUOTES]
  | .safeStatus => [Fl.safeStatus_SAFE, Fl.safeStatus_MODULE_SAFE, Fl.safeStatus_SELFTEST_EN, Fl.safeStatus_RECORDING, Fl.safeStatus_REPLAYING]
  | .safeLogCount => [Fl.safeLogCount_RECORDS]
  | .safeLogIndex => [Fl.safeLogIndex_INDEX]
  | .safeLogData _ => [Fl.safeLogData_WORD]
  | .safeCount => [Fl.safeCount_SAFE_ENTRIES, Fl.safeCount_TESTS_FAILED, Fl.safeCount_TESTS_ABANDONED, Fl.safeCount_NOTICES]
  | .safeWindow _ => [Fl.safeWindow_PICK]
  | .safeSwatch _ => [Fl.safeSwatch_MISMATCHES, Fl.safeSwatch_TRUNCATED]
  | .safeTest _ => [Fl.safeTest_RESULT, Fl.safeTest_PICK]
  | .storeStatus => [Fl.storeStatus_OCCUPIED, Fl.storeStatus_LIVE_MIB, Fl.storeStatus_COMPACTING, Fl.storeStatus_OVER_75, Fl.storeStatus_FULL]
  | .storeCompact => [Fl.storeCompact_PERIOD, Fl.storeCompact_LENGTH]
  | .storeCompactBase => [Fl.storeCompactBase_BASE]
  | .storeFw => [Fl.storeFw_BOOTS, Fl.storeFw_RUN_SVN, Fl.storeFw_CONFIRMED, Fl.storeFw_ATTEMPTS]
  | .storeFence _ => [Fl.storeFence_MAP]
  | .moduleId => [Fl.moduleId_SERIAL]
  | .moduleState => [Fl.moduleState_PHASE, Fl.moduleState_MILL_FAILED, Fl.moduleState_STACK_FAILED, Fl.moduleState_CALIBRATED, Fl.moduleState_CAUSE]
  | .moduleReset => [Fl.moduleReset_REQUEST]
  | .moduleVersion => [Fl.moduleVersion_PRODUCT, Fl.moduleVersion_STEPPING]
  | .netMgmtAddrHi => [Fl.netMgmtAddrHi_ADDR]
  | .netMgmtAddrLo => [Fl.netMgmtAddrLo_ADDR]

/-- The reset value that the register's table gives. -/
def Reg.resetWord (r : Reg) : Word :=
  BitVec.ofNat 64 (r.fields.foldl (fun n f => n + f.reset * 2 ^ f.lo) 0)

/-- The value of a field in a register's word. -/
def Fld.get (f : Fld) (v : Word) : Nat := bits v.toNat f.lo f.w

/-- A register's word with a field replaced by the low bits of n. -/
def Fld.set (f : Fld) (v : Word) (n : Nat) : Word :=
  (v &&& ~~~(BitVec.ofNat 64 ((2 ^ f.w - 1) * 2 ^ f.lo))) ||| BitVec.ofNat 64 (n % 2 ^ f.w * 2 ^ f.lo)

/-- The bits of a register that some field covers. -/
def Reg.mask (r : Reg) : Word :=
  BitVec.ofNat 64 (r.fields.foldl (fun n f => n + (2 ^ f.w - 1) * 2 ^ f.lo) 0)

/-- A register that holds at least one RW, WO or W1C field may be written (R8). -/
def Reg.writable (r : Reg) : Bool := r.fields.any (fun f => f.acc == .rw || f.acc == .wo || f.acc == .w1c)

end Sys2Proof.Machine
end

