-- ==== Sys2Proof/Config.lean ====
section
/-! DEFINITION. Sys2Proof/Config.lean: what the spec leaves to an implementation, to a named standard it does not spell
out, or open altogether. Every constant here is opaque: nothing can be proved about its value. -/

namespace Sys2Proof.Config

/-- The n-th free value of a run: every value that the spec leaves open is read from here, at the count that
State.freeCount then holds (log entry 2). -/
opaque freeValue : Nat → Nat

/-- SLH-DSA-SHA2-128s verification under a public key (R39, R366, R369; log entry 20). -/
opaque slhVerify : (publicKey : BitVec 256) → (message signature : List Byte) → Bool

/-- SLH-DSA signature of a message under a secret (R356, R357; log entry 20); the length is the second argument. -/
opaque slhSign : (secret : Nat) → (length : Nat) → (message : List Byte) → List Byte

/-- The public key of an SLH-DSA secret (R355, R356; log entry 20). -/
opaque slhPublic : (secret : Nat) → BitVec 256

/-- The 1,568-byte ML-KEM-1024 encapsulation key of a secret, and decapsulation (R357, R359; log entry 20). -/
opaque kemPublic : (secret : Nat) → List Byte
opaque kemDecap : (secret : Nat) → (ciphertext : List Byte) → BitVec 256

/-- What an EAPOL-MKA frame does under the enrolled CAK: whether it installs a secure association (R333). -/
opaque mkaInstalls : (cak : List Byte) → (frame : List Byte) → Bool

/-- The device's own answer to an EAPOL-MKA frame (R333). -/
opaque mkaAnswer : (cak : List Byte) → (frame : List Byte) → List Byte

/-- The identity seed sealed under the device-unique key (76 bytes: nonce, seed and tag), and its unsealing, none where it fails
(R355; log entry 20). -/
opaque sealSeed : (secret : Nat) → List Byte
opaque unsealSeed : (sealed : List Byte) → Option Nat

/-- Public keys whose digests the boot ROM holds (18, keys of the device): firmware and debug -/
opaque firmwareKey : BitVec 256
opaque debugKey : BitVec 256

/-- SHA-256 of the boot ROM, BOOT_MEASURE (R356). -/
opaque bootMeasure : BitVec 256

/-- MAC address of port 0 and day of manufacture, as in the identity EEPROM (R428). -/
opaque macBase : BitVec 48
opaque made : BitVec 32

/-- Vector-unit functions for which R106 states an error bound only (log entry 21): by VOP function code. -/
opaque vectorFn : (fn : Nat) → BitVec 32 → BitVec 32

/-- What a shift by at least the width of its value gives (R132, R137; log entry 8), by function: 4 and 5 for ALU's shift left and
shift right logical, 0x36 and 0x37 for the INT32 shifts of VOP. -/
opaque shiftBeyond : (fn : Nat) → (value amount : Nat) → Nat

/-- What the emittable step of a stream reads where R205 puts it below 0 (log entry 40), by STEP, look-ahead and LAST_RESET. -/
opaque emittableBelow : (step lookahead lastReset : Nat) → Nat

/-- The threads of a partition fit the mill fabric's free paths (step 10 of R40; log entry 23). -/
opaque threadsFit : (draft : List Byte) → (part : Nat) → Bool

/-- Flits that one link's buffers hold, per direction (step 13 of R40; log entry 23). -/
opaque linkBuffer : Nat

/-- A decoded picture (13): its luma size, bits per sample, whether it is 4:2:0, full range, and its samples by component,
row-major; the level indication; the flags the decode itself raises. -/
structure Picture where
  width : Nat
  height : Nat
  depth : Nat
  chroma420 : Bool
  components : Nat
  fullRange : Bool
  level : Nat
  /-- Samples of each component at luma resolution, chroma replicated (R256), row-major. -/
  samples : List (List Int)
  /-- Concealment blocks that were concealed, that were tainted, and that were filled mid-grey (R259, R263). -/
  concealed : List Nat
  tainted : List Nat
  grey : Bool
  hashBad : Bool
  grainIgnored : Bool
  /-- Damage records in order of position: kind, tile, slice, block, byte, area (R262). -/
  damage : List (Nat × Nat × Nat × Nat × Nat × Nat)
  deriving DecidableEq, Repr

/-- What the decoder reads of one frame or record, before any pixel (R255, R264): the dimensions and level, or why there
are none. -/
inductive Header where
  | size (width height level : Nat)
  | unsupported
  | unreadable (kind : Nat)
  deriving DecidableEq, Repr, Inhabited

/-- The header of a frame by input format (R245, R255; log entry 24). -/
opaque readHeader : (format : Nat) → (history : List (List (List Byte))) → (bytes : List (List Byte)) → Header

/-- The pictures that decoding one frame outputs, in output order, given all the frames decoded before it in the stream
since its open (R245, R260, R263; log entry 24). -/
opaque decodeFrame : (format : Nat) → (history : List (List (List Byte))) → (bytes : List (List Byte)) → List Picture

end Sys2Proof.Config
end

