-- ==== Sys2Proof/Machine/Types.lean ====
section
/-! DEFINITION. Sys2Proof/Machine/Types.lean: the kinds of data that the state of the DN48-M1 is made of. Each type names
the rule of the spec that gives it. -/

namespace Sys2Proof.Machine

open Sys2Proof

/-! ### Numbers held in the loom -/

/-- STATE of a fell (R77). -/
inductive FellState where
  | finite | posInf | negInf | nan
  deriving DecidableEq, Repr

/-- A fell (R78). -/
structure Fell where
  s : BitVec 192
  w : BitVec 12
  empty : Bool
  lost : Bool
  state : FellState
  deriving DecidableEq, Repr

/-- A cleared fell (R78). -/
def Fell.cleared : Fell := { s := 0, w := 0, empty := true, lost := false, state := .finite }

/-- Tie-up modes (R96). -/
inductive TieUp where
  | oneByFour | twoByTwo | fourByOne
  deriving DecidableEq, Repr

/-! ### Where bytes lie -/

/-- A storage (R132). -/
inductive Store where
  | loom (g : Fin 256)
  /-- The mill-store carve of a context; addresses count from its start (R132). -/
  | mill (m : Fin 8) (p : Fin 16) (c : Fin 8)
  | cloth (p : Fin 16)
  deriving DecidableEq, Repr

/-- A run of bytes of one storage. -/
structure Extent where
  store : Store
  addr : Nat
  len : Nat
  deriving DecidableEq, Repr

/-! ### Sequencer (R116) -/

/-- An entry of the loop stack (R116): the index stands in its register. -/
structure LoopEntry where
  count : Word
  reg : Nat
  start : BitVec 32
  deriving DecidableEq, Repr

/-- ROWS and COLS latched at TBEGIN (R147). -/
structure Shape where
  rows : Word
  cols : Word
  deriving DecidableEq, Repr

/-- What one row of a channel table or a per-tensor record gives the drain (R164, R165). -/
structure Requant where
  bias : Int
  biasExp : Int
  mult : Int
  shift : Int
  deriving DecidableEq, Repr

/-- A drain parameter set (R167): the record's word index and, per channel, its entry. -/
structure DrainSet where
  word : Nat
  table : Tab Requant
  deriving DecidableEq, Repr

/-- A page-table entry (R213). -/
structure PageEntry where
  page : Nat
  count : Nat
  state : Nat
  inTree : Bool
  score : BitVec 32
  /-- A reserved bit or code was met in the entry as stored (R213). -/
  damaged : Bool
  deriving DecidableEq, Repr

/-- The snapshot an attention tile takes at TBEGIN (R217). -/
structure Snapshot where
  seq : Nat
  layer : Nat
  head : Nat
  first : Nat
  length : Nat
  entries : List PageEntry
  deriving DecidableEq, Repr

/-- The state of an open tile (R116). -/
structure Tile where
  tieup : TieUp
  bank : Fin 2
  ceiling : Nat
  /-- Word index of the TBEGIN and the beat of its issue (R105). -/
  word : Nat
  start : Nat
  /-- Word index of the warp descriptor, 0 for a tile without warp. -/
  warp : Nat
  /-- Descriptor shapes by word index (R147). -/
  shapes : Tab Shape
  sets : List DrainSet
  /-- The tile waits for its bank: the beat at which its first issue could have come (R99). -/
  waiting : Option Nat
  /-- An ATTN of the tile: the context engine fills both banks (R216). -/
  attn : Bool
  snapshots : List Snapshot
  /-- Attention mass by page-table key, in the order of the write-back at completion (R219). -/
  scores : List (Nat × BitVec 32)
  /-- The TEND has issued; with WSTAT, where the status record goes (R133). -/
  closing : Option (Option Nat)
  deriving DecidableEq, Repr

/-- What a waiting sequencer waits for (R138, R141, R157, R194, R223, R234). -/
inductive Wait where
  | sem (index count : Nat)
  | entry (owner queue x : Nat) (deadline : Option Word)
  | room (queue : Nat)
  | pick (n : Word)
  | thread (index : Nat) (dst : Word) (len : Nat)
  /-- The stream home's reply to the update in its queue. -/
  | home
  /-- A SCATTER, or with `fill` a PGFILL, that waits for a snapshot's page release (R224). -/
  | scatter (fill : Bool) (w : SWord)
  | fork (w : SWord)
  deriving DecidableEq, Repr

/-- Where a context's treadling stands on a loom (LOOM_PC STATE). -/
inductive RunState where
  | notStarted
  | running
  | waiting (w : Wait)
  | ended
  | faulted (code : BitVec 16)
  deriving DecidableEq, Repr

/-- The five forms of MOVE (R135). -/
inductive MoveKind where
  | copy | compress | expand | strided | zero
  deriving DecidableEq, Repr

/-- A MOVE that has issued and not landed (R135, R143). -/
structure Move where
  kind : MoveKind
  dst : Extent
  src : Extent
  /-- Strided: rows, source and destination strides; len is then the bytes per row. -/
  rows : Nat
  srcStride : Nat
  dstStride : Nat
  len : Nat
  inTile : Bool
  word : Nat
  deriving DecidableEq, Repr

/-- The sequencer state of one context on one loom (R116). -/
structure Seq where
  pc : BitVec 32
  b : Tab Word
  a : Tab Word
  /-- P1 to P7 by number; P0 always reads 1. -/
  p : BitVec 8
  st : Word
  loops : List LoopEntry
  tile : Option Tile
  run : RunState
  /-- The context's tile count on this loom (R133). -/
  tiles : Word
  moves : List Move
  deriving DecidableEq, Repr

/-! ### Loom (05, 14) -/

/-- The tag of a warp bank (R100). -/
structure BankTag where
  ctx : Fin 8
  tag : BitVec 16
  tieup : TieUp
  etype : Nat
  group : Nat
  deriving DecidableEq, Repr

/-- A warp bank of every heddle of the loom, with its scale side-file (R94): bytes by heddle × 2,048 + byte, scale codes
by heddle × 128 + code, heddle counting 64h + j. -/
structure Bank where
  ready : Bool
  tag : Option BankTag
  elems : Tab Byte
  scales : Tab Byte
  deriving DecidableEq, Repr

/-- A fill that has issued and not ended (R275 to R278). -/
structure Fill where
  ctx : Fin 8
  bank : Fin 2
  tag : BitVec 16
  tieup : TieUp
  etype : Nat
  group : Nat
  rows : Nat
  cols : Nat
  len : Nat
  stream : Bool
  /-- Loom-store addresses of the base blocks and the end of their buffer, and of the stream and its end. -/
  base : Nat
  baseEnd : Nat
  delta : Nat
  deltaEnd : Nat
  admitted : Bool
  /-- A table load found no free slot: it is tried again once the fill before this one has ended (R277). -/
  refused : Bool
  /-- Held because the open tile computes from the bank: the beat at which it could have started (R99). -/
  heldSince : Option Nat
  /-- Table slots whose use this fill counts in, by the stream's table index (R277). -/
  slots : List Nat
  deriving DecidableEq, Repr

/-- A code-table slot of an expander or compressor (R277, R283). -/
structure TableSlot where
  loaded : Bool
  id : BitVec 32
  lengths : List Byte
  use : Nat
  deriving DecidableEq, Repr

/-- What governs a loom for a pick (R314, R315). -/
inductive PlanEntry where
  | ctx (c : Fin 8)
  | idle
  | test
  deriving DecidableEq, Repr

/-- One loom (05). -/
structure Loom where
  part : Option (Fin 16)
  /-- What is in force on the loom: it follows the partition's entry at a switch (R316). -/
  entry : PlanEntry
  lastCtx : Fin 8
  lastTieup : TieUp
  activeBank : Fin 2
  /-- Failed at boot (R417); stopped by 0x0302 or a failed self-test (R103, R381); stopped in the safe state (R377). -/
  failed : Bool
  stopped : Bool
  safeStop : Bool
  store : Tab Byte
  /-- 4 KiB blocks whose CRC-32C side word is bad (R299). -/
  bad : Tab Bool
  bank0 : Bank
  bank1 : Bank
  fills : List Fill
  dx : Tab TableSlot
  dxCtx : Fin 8
  dxBank : Fin 2
  /-- Fells by heddle × 2 + fell, heddle counting 64h + j. -/
  fells : Tab Fell
  /-- Fells 0 and 1 while a heddle's holds contributions not drained or saved (0x0326). -/
  undrained : Tab Bool
  /-- Vector lanes by register × 64 + lane. -/
  v : Tab (BitVec 32)
  vfell : Fell
  /-- Bytes sent over a thread to this loom and not yet received, with the runs of them that lay in damaged blocks, by context
  × 65,536 + thread (R157). -/
  threads : Tab (List (List Byte × List (Nat × Nat)))
  /-- The pick of a self-test in progress (R380). -/
  test : Option Word
  /-- A tile has completed, or a boundary has ended a wait, and no instruction has issued since (R316). -/
  tileDone : Bool
  seqs : Tab Seq
  deriving DecidableEq, Repr

/-! ### The draft's records (R37) -/

structure QueueCfg where
  dest : Nat
  depth : Nat
  deriving DecidableEq, Repr

structure CtxCfg where
  weight : Nat
  sems : Nat
  queues : List QueueCfg
  loomUnits : Nat
  millUnits : Nat
  deriving DecidableEq, Repr

structure ThreadCfg where
  ctx : Nat
  src : Nat
  dst : Nat
  width : Nat
  latency : Nat
  deriving DecidableEq, Repr

structure TieCfg where
  loom : Nat
  modes : Nat
  deriving DecidableEq, Repr

structure CarveCfg where
  ctx : Nat
  base : Nat
  len : Nat
  far : Bool
  placement : Nat
  prot : Bool
  compressible : Bool
  retain : Bool
  deriving DecidableEq, Repr

structure CreditCfg where
  ctx : Nat
  link : Nat
  credits : Nat
  tag : Nat
  deriving DecidableEq, Repr

structure PoolCfg where
  streams : Nat
  slots : Nat
  seqs : Nat
  pages : Nat
  staging : Nat
  /-- Fz in bytes, 0 where no ATTN is named (R208). -/
  frame : Nat
  deriving DecidableEq, Repr

structure CreelCfg where
  slot : Nat
  format : Nat
  width : Nat
  height : Nat
  ringBase : Nat
  ringLen : Nat
  jitter : Nat
  ctx : Nat
  queue : Nat
  deriving DecidableEq, Repr

structure EndpointCfg where
  plane : Nat
  banks : Nat
  vlan : Nat
  addr : Addr
  port : Nat
  qps : Nat
  deriving DecidableEq, Repr

structure PlanCfg where
  len : Nat
  stride : Nat
  entries : List Nat
  deriving DecidableEq, Repr

structure CeilCfg where
  ctx : Nat
  desc : Nat
  m : Nat
  n : Nat
  k : Nat
  width : Nat
  height : Nat
  deriving DecidableEq, Repr

structure BufCfg where
  carve : Nat
  off : Nat
  len : Nat
  align : Nat
  deriving DecidableEq, Repr

structure TreadCfg where
  ctx : Nat
  loom : Nat
  entry : Nat
  words : Nat
  buffers : List BufCfg
  code : List Byte
  deriving DecidableEq, Repr

structure LayerCfg where
  carve : Nat
  off : Nat
  len : Nat
  deriving DecidableEq, Repr

structure OrderCfg where
  ctx : Nat
  lead : Nat
  layers : List LayerCfg
  deriving DecidableEq, Repr

/-- The records of a partition's sections (R37). -/
structure PartCfg where
  looms : List Nat
  critical : Bool
  maskMode : Bool
  seed : BitVec 64
  nctx : Nat
  ctxs : List CtxCfg
  threads : List ThreadCfg
  tieups : List TieCfg
  carves : List CarveCfg
  credits : List CreditCfg
  pools : PoolCfg
  creel : List CreelCfg
  endpoints : List EndpointCfg
  plan : PlanCfg
  ceilings : List CeilCfg
  treads : List TreadCfg
  orders : List OrderCfg
  measure : BitVec 256
  generation : BitVec 64
  deriving DecidableEq, Repr

/-! ### Streams and pages (10, 11) -/

/-- A stream-table entry (R188), or a slot entry, which uses a part of it (R200). -/
structure Stream where
  statePtr : Nat
  partLen : Nat
  farPtr : Nat
  parts : Nat
  live : Bool
  ctx : Fin 8
  fp32 : Bool
  nonexp : Bool
  outSeen : Bool
  resident : BitVec 64
  far : BitVec 64
  shared : BitVec 64
  step : Word
  sinceReset : Word
  resetAt : Word
  final : Word
  lastOut : Word
  base : Word
  cadence : Nat
  mag : BitVec 32
  lookahead : Nat
  status : BitVec 8
  parent : Nat
  forkIndex : Nat
  depth : Nat
  thrash : Nat
  late : Nat
  lastReset : Word
  /-- Live children (R237). -/
  kids : Nat
  /-- A slot's release request has been applied (R200). -/
  releasing : Bool
  /-- From a cadence boundary to its comparison: the stream was behind at the boundary (R202). -/
  behind : Option Bool
  deriving DecidableEq, Repr

/-- A SIN or SOUT copy in progress (R197, R198). -/
structure Copy where
  loom : Fin 256
  ctx : Fin 8
  id : Nat
  part : Nat
  out : Bool
  toFar : Bool
  /-- Loom-store address, and the record's extent. -/
  store : Nat
  record : Nat
  len : Nat
  deriving DecidableEq, Repr

/-- An update on its way to the stream home (R187). -/
structure HomeUpdate where
  at_ : At
  /-- 0x60 to 0x67, the opcode that asks. -/
  op : Nat
  w : SWord
  deriving DecidableEq, Repr

/-- A sequence-table entry (R212). -/
structure SeqEntry where
  layers : Nat
  heads : Nat
  format : Nat
  tableFrame : Nat
  limit : Nat
  length : Nat
  modelTag : BitVec 32
  budget : Nat
  live : Bool
  tolerate : Bool
  share : Bool
  pin : Bool
  starved : Bool
  atLimit : Bool
  bound : Bool
  decay : Nat
  stream : Nat
  skips : Nat
  tableFrames : Nat
  deriving DecidableEq, Repr

/-- The state of a pool frame (R210): 0 free, 1 present, 2 table. -/
structure Frame where
  refs : Nat
  state : Nat
  pinned : Bool
  /-- Snapshots that hold it, and a release deferred by them (R217). -/
  holds : Nat
  deferred : Bool
  deriving DecidableEq, Repr

/-- The page pool of a partition (R207). -/
structure Pool where
  seqs : Tab SeqEntry
  bytes : Tab Byte
  bad : Tab Bool
  frames : Tab Frame
  /-- Page-table entries by sequence × 2³² + table × 4,096 + position (R213). -/
  tables : Tab PageEntry
  /-- Prefix tree: hash to frame (R227). -/
  buckets : Tab Nat
  key : BitVec 128
  deriving DecidableEq, Repr

/-! ### Cloth space (15) -/

/-- A far-home page (R287, R291, R292). -/
structure Page where
  ctx : Nat
  mill : Nat
  port : Nat
  /-- Order of staging; none while not staged. -/
  staged : Option Nat
  staging : Bool
  dirty : Tab Bool
  unwritten : Bool
  /-- A write-back is in progress; the frames are freed after it; failures in succession (R293, R308). -/
  writing : Bool
  evict : Bool
  /-- A flush waits for it (FAR_CMD REMAINING). -/
  flush : Bool
  /-- Granules written while the write-back was in progress. -/
  again : Tab Bool
  fails : Nat
  deriving DecidableEq, Repr

/-- The cloth space of a partition (R286). -/
structure Cloth where
  bytes : Tab Byte
  bad : Tab Bool
  /-- Protected granules whose tag does not verify under the region secret held (R362, R363). -/
  tagBad : Tab Bool
  /-- The region secret under which protected blocks were last written: it stands for what the ciphertext and tags depend on
  (R362). -/
  under : Option (BitVec 256)
  /-- Granules written since their carve was created (R295). -/
  written : Tab Bool
  pages : Tab Page
  stagings : Nat
  /-- Prefetch cursors by loom × 8 + context (R297). -/
  cursors : Tab Nat
  deriving DecidableEq, Repr

/-! ### Scheduler (16) -/

/-- A handoff-queue entry (R138, R322, R324). -/
structure QEntry where
  w0 : Word
  w1 : Word
  w2 : Word
  w3 : Word
  pick : Word
  beat : Nat
  run : Bool
  held : Bool
  deriving DecidableEq, Repr

/-- The counters of an accounting record (R326); WAIT_US is read from the waiting beats. -/
structure Acct where
  submitted : Nat
  refused : Nat
  lastSeq : Nat
  taken : Nat
  done : Nat
  failed : Nat
  waitPicks : Nat
  waitBeats : Nat
  preemptions : Nat
  thrash : Nat
  overruns : Nat
  epoch : Nat
  deriving DecidableEq, Repr

/-- A context of a partition. -/
structure Ctx where
  sems : Tab Nat
  queues : Tab (List QEntry)
  /-- Tokens of runs that are open (R323). -/
  runs : List Word
  acct : Acct
  fault : Option (BitVec 16)
  deriving DecidableEq, Repr

/-! ### Network (17) -/

/-- A run or request record of a pick report (R351). -/
inductive RptRec where
  | run (outcome : Nat) (result : BitVec 16) (token : Word)
  | request (origin status type field : Nat) (seq : Word)
  deriving DecidableEq, Repr

/-- A report or notice destination (R349, R352). -/
structure Dest where
  a : BitVec 128
  b : BitVec 128
  port : BitVec 16
  v4 : Bool
  interval : Nat
  last : Option Word
  pend : List RptRec
  streams : List Nat
  seqs : List Nat
  skipped : List Nat
  /-- Holdover was in force, a slice overran, over the picks not yet reported; their largest switch delay (R350). -/
  holdover : Bool
  overrun : Bool
  maxDelay : Nat
  deriving DecidableEq, Repr

/-- A packet of a queue pair that the host has not acknowledged, or a READ request whose data has not landed (R335, R337). -/
structure Unacked where
  psn : BitVec 24
  /-- Ring position after the descriptor it ends, where it ends one. -/
  ends : Option Nat
  bytes : List Byte
  /-- A READ request: where its data goes, and bytes of cloth that it brings. -/
  read : Option (Nat × Nat)
  deriving DecidableEq, Repr

/-- A queue pair (R336). -/
structure Qp where
  ctx : Fin 8
  endpoint : Nat
  remote : Addr
  remoteQpn : BitVec 24
  qpn : BitVec 24
  rkey : BitVec 32
  sendPsn : BitVec 24
  recvPsn : BitVec 24
  timeout : Nat
  target : Bool
  sealed_ : Bool
  bankB : Bool
  ring : Nat
  ringLen : Nat
  /-- Ring bytes served, and acknowledged (CONSUMED). -/
  served : Nat
  unacked : List Unacked
  retries : Nat
  error : Bool
  /-- Send rate: rate ÷ 2 ^ rateExp of line rate. -/
  rate : Nat
  rateExp : Nat
  /-- Beat of the last CNP sent. -/
  cnpSent : Option Nat
  /-- Descriptors served. -/
  pushes : Nat
  deriving DecidableEq, Repr

/-! ### Replay (19) -/

/-- A swatch arming (R388). -/
structure Arming where
  replay : Bool
  ctx : Fin 8
  base : Nat
  len : Nat
  deriving DecidableEq, Repr

/-- A recording or a replay in progress (R389, R391). -/
structure Swatch where
  replay : Bool
  base : Nat
  len : Nat
  /-- Bytes of records written, or delivered. -/
  pos : Nat
  records : Nat
  /-- The records so far, for the digest of END. -/
  bytes : List Byte
  ended : Bool
  virtualPick : Word
  /-- Replay: its HEADER has been read; the real pick at which its last virtual boundary came (R391). -/
  begun : Bool
  realPick : Option Word
  /-- Replay: RESULT records delivered and not yet compared, with their record indices, and digests formed and not yet compared
  (R392). -/
  expected : List (Nat × List Byte)
  formed : List (List Byte)
  deriving DecidableEq, Repr

/-- Why a partition is stopping (R46, R310). -/
inductive Stopping where
  | panel
  | destroy
  deriving DecidableEq, Repr

/-- A live or loaded partition. -/
structure Part where
  cfg : PartCfg
  /-- The boundary at which it started; none while it is loaded and waits to start (R44, R314). -/
  start : Option Word
  /-- While it waits to start: the first boundary after loading ended, once it has been formed. -/
  due : Option Word
  stopping : Option Stopping
  /-- The cause code of its safe state (R376), and that its runs have been failed at a boundary. -/
  safe : Option (BitVec 16)
  safeReported : Bool
  /-- Position in the plan, the plan's entry there as it is coded (0x10 while the plan selects nothing), and what it selects. -/
  position : Nat
  code : Nat
  entry : PlanEntry
  cycles : Nat
  /-- Context that the last change of entry switched out (R318). -/
  outgoing : Option (Fin 8)
  streams : Tab Stream
  homeQueue : List HomeUpdate
  copies : List Copy
  pool : Pool
  cloth : Cloth
  ctxs : Tab Ctx
  dests : Tab Dest
  /-- What the picks since the last boundary have for a report: a destination set meanwhile begins with it (R349, R350). -/
  recent : Dest
  /-- RUN records of the runs that ended since the last boundary (R323, R387). -/
  ended : List RptRec
  qps : Tab Qp
  swatch : Option Swatch
  deriving DecidableEq, Repr

/-! ### Creel (13) -/

/-- A latched packet of a frame (R249). A packet that the jitter buffer has dropped (R261) keeps its bytes for the swatch alone. -/
structure Piece where
  seq : Nat
  marker : Bool
  bytes : List Byte
  dropped : Bool
  deriving DecidableEq, Repr

/-- A frame in assembly, or a frame or ring record handed to decode (R249 to R251). -/
structure FrameIn where
  /-- RTP timestamp, or the ring record's UNIT. -/
  unit : Nat
  /-- Pick in which its first packet arrived. -/
  pick : Word
  pieces : List Piece
  /-- Ring bytes read once decode has read the last byte. -/
  ringEnd : Nat
  /-- Pick in which it was handed to decode. -/
  handed : Option Word
  /-- A ring block failed its CRC or tag: nothing of the record may be used (R300). -/
  broken : Bool
  deriving DecidableEq, Repr

/-- A Creel slot (R253). -/
structure Slot where
  part : Option (Fin 16)
  /-- 0 closed, 1 open, 2 paused, 3 faulted, 4 closing. -/
  state : Nat
  engine : Nat
  /-- Bytes 0x04 to 0x43 of the stream context, as opened, in memory byte order. -/
  context : List Byte
  frames : List FrameIn
  /-- The frame being decoded, and how many of its pictures have been posted. -/
  decoding : Option FrameIn
  posted : Nat
  /-- Byte inputs of the frames decoded since the open (reference pictures, R263). -/
  history : List (List (List Byte))
  lastFault : BitVec 16
  level : Nat
  /-- The next FRAME number. -/
  frame : Nat
  /-- Ring bytes read, and PRODUCED as last seen. -/
  ringRead : Nat
  ringSeen : Nat
  /-- RTP: the sequence number at which the next frame begins, and the timestamp of the last frame that decode has begun. -/
  nextSeq : Option Nat
  lastStamp : Option Nat
  /-- S and the number of sample slots, WRITTEN, and RELEASED as last seen (R258). -/
  sampleBytes : Nat
  sampleSlots : Nat
  written : Nat
  released : Nat
  /-- SRTP packet indices accepted, at most 128, the highest first (R365). -/
  seen : List Nat
  /-- A fault code whose ABSENT entry waits for room in the queue (R264). -/
  owed : Option Nat
  deriving DecidableEq, Repr

/-! ### Module units -/

/-- A far port (R290, R307, R423). -/
structure FarPort where
  /-- 0 down, 1 training, 2 up, 3 moving pages, 4 removable, 5 failed. -/
  state : Nat
  present : Bool
  capacity : Nat
  clock : Bool
  perst : Bool
  deriving DecidableEq, Repr

/-- One end's view of a link and its two directions (R22, LINK_STATE). -/
structure Link where
  /-- 0 down, 1 narrowed, 2 full. -/
  width : Nat
  training : Bool
  failedLanes : List Nat
  /-- Successive failed sends of one flit, and flits delivered, per direction (up, down). -/
  fails : Nat × Nat
  delivered : Nat × Nat
  /-- Credits that senders hold now, by direction × 128 + partition × 8 + context, less those carved; flits held. -/
  used : Tab Nat
  held : List Flit
  deriving DecidableEq, Repr

/-- An Ethernet port (17). -/
structure Port where
  link : Bool
  /-- 0 off, 1 negotiating, 2 secured. -/
  macsec : Nat
  /-- The last PFC frame paused the bank's configured priority (R329). -/
  paused : Bool
  /-- Frames larger than 9,216 bytes, counted as errors (R329); no register shows the count. -/
  oversized : Nat
  deriving DecidableEq, Repr

/-- A sequence window (R341): highest accepted number and which of H − 255 to H have been accepted, bit 0 being H. -/
structure Window where
  high : Nat
  seen : BitVec 256
  deriving DecidableEq, Repr

/-- What leaves the device. -/
inductive PktKind where
  | septa | roce | nak | ack | cnp | arp | nd | icmp | ptp | mka
  deriving DecidableEq, Repr

/-- A packet or message sent (R328, R342). -/
structure Packet where
  kind : PktKind
  port : Nat
  vlan : Nat
  mac : Option (BitVec 48)
  dst : Addr
  dstPort : BitVec 16
  bytes : List Byte
  deriving DecidableEq, Repr

/-- A kept reply (R342). -/
structure Kept where
  plane : Nat
  part : Nat
  origin : Nat
  seq : Word
  datagrams : List (List Byte)
  deriving DecidableEq, Repr

/-- A staged request (R190, R345). -/
structure Staged where
  type : Nat
  msg : Msg
  /-- Decrypted payload, and the K_msg under which an authenticated request came (R360). -/
  payload : List Byte
  key : Option (BitVec 256)
  /-- Pick of arrival (R341). -/
  pick : Word
  mgmt : Bool
  deriving DecidableEq, Repr

/-- A transfer open in 1 KiB units (R348). -/
structure Transfer where
  origin : Nat
  total : Nat
  units : Tab Bool
  bytes : Tab Byte
  deriving DecidableEq, Repr

/-- A draft that the loader has in hand (R40, R45), its arrival pick and the request whose outcome waits for it. -/
structure Loading where
  bytes : List Byte
  pick : Word
  request : Option Staged
  deriving DecidableEq, Repr

/-- A pending panel draft (R45). -/
structure Panel where
  part : Fin 16
  effective : Word
  cfg : PartCfg
  /-- The old partition has stopped and been cleared (R46): the new one starts at the next boundary. -/
  replaced : Bool
  deriving DecidableEq, Repr

/-- A fault record (R384). -/
structure Record where
  pick : Word
  beat : BitVec 32
  unit : BitVec 16
  code : BitVec 16
  detail : BitVec 128
  deriving DecidableEq, Repr

/-- A session (R359). -/
structure Session where
  origin : Nat
  kMsg : BitVec 256
  kCt : BitVec 256
  kCd : BitVec 256
  deriving DecidableEq, Repr

/-- A pending KEM pair (R357). -/
structure PendingKem where
  secret : Nat
  nonce : List Byte
  quote : List Byte
  deriving DecidableEq, Repr

/-- A journal record (R395, R396), in flash order. Its CRC and the flash ECC hold until a boot finds otherwise (R399). -/
structure JRec where
  kind : Nat
  copy : Bool
  serial : Nat
  txn : Nat
  object : BitVec 32
  payload : List Byte
  segment : Nat
  deriving DecidableEq, Repr

/-- An announced mode change (R61, R62). -/
structure Change where
  kind : Nat
  value : Word
  pick : Word
  answered : List (BitVec 16)
  /-- Units still to apply a committed change. -/
  toApply : List (BitVec 16)
  deriving DecidableEq, Repr

/-- A PTP clock seen in Announce messages (R334). -/
structure Clock where
  source : BitVec 64
  rank : Nat
  grandmaster : BitVec 64
  interval : Nat
  port : Nat
  deriving DecidableEq, Repr

end Sys2Proof.Machine
end

