-- ==== Sys2Proof/Machine/State.lean ====
section
/-! DEFINITION. Sys2Proof/Machine/State.lean: the state of the DN48-M1, what a step can stop with, and the state right
after a power-on reset. Every reset value the spec does not give is named in the assumption log (entries 1 to 5). -/

namespace Sys2Proof.Machine

open Sys2Proof

/-- What stops the machine. No condition of the spec does: every failure it describes makes a fault record, poisons a
tile, faults a context, or puts partitions or the module in the safe state (R374, R385), each of them a next state. So
no command ends in a fault (safe: nothing can be proved of a run that stops here, since none does). -/
inductive Fault where
  deriving DecidableEq, Repr

/-- Why a command has no meaning. -/
inductive Refusal where
  /-- An arm of exec that has no meaning yet. Safe: the run stops. -/
  | notModelled (mnemonic : String)
  /-- A command whose operands are no such command of the spec: a treadling word that carries a reserved code, which
  no loaded draft holds (R12, R120), or a register write whose value is another row's. Raised by the meaning named.
  Safe: the run stops. -/
  | illFormed (mnemonic : String)
  deriving DecidableEq, Repr

/-- Supplies and low-speed pins (21, 22). -/
structure Power where
  /-- PWRGOOD is asserted: the beam-die rails lie in their windows. While it is not, the module is off. -/
  pwrGood : Bool
  /-- RESET_N is held low. -/
  resetLow : Bool
  /-- The module is in phase reset and boot has not begun. -/
  inReset : Bool
  /-- A MODULE_RESET request falls due (R414). -/
  resetDue : Bool
  /-- Address straps of the board-service devices (R427). -/
  straps : BitVec 2
  /-- What a board-service device answered last: none where it did not acknowledge. -/
  service : Option (List Byte)
  deriving DecidableEq, Repr

/-- The pick unit's own state beside its registers (03, R334). Times in nanoseconds. -/
structure PickUnit where
  /-- A boundary has been formed since the source was armed: PICK_NOW is valid (R50, R52). -/
  formed : Bool
  /-- A boundary has been formed since reset (R17, R418). -/
  everFormed : Bool
  /-- A boundary decided and not yet processed (R54, R56). -/
  due : Option Word
  /-- The boundary in hand is formed by a pulse, or without one. -/
  byPulse : Bool
  /-- The last boundary formed by a pulse: its instant and pick (R54). -/
  anchor : Option (Nat × Word)
  lastEdge : Option Nat
  /-- Successive Syncs within 1 µs, and outside 10 µs (R53, R58). -/
  lockRun : Nat
  badRun : Nat
  /-- The PTP instant at which the clock locked, until its first boundary. -/
  lockTime : Option Nat
  refReported : Bool
  change : Option Change
  /-- Units that have not answered the last cancelled change are in the record; clocks of the best master algorithm. -/
  clocks : List Clock
  selected : Option Clock
  /-- A two-step Sync waiting for its Follow_Up: sequence and ingress; a Delay_Req sent: sequence, port and egress. -/
  halfSync : Option (BitVec 16 × Nat)
  delayReq : Option (BitVec 16 × Fin 8 × Nat)
  delaySeq : BitVec 16
  /-- Last t2 − t1 and t4 − t3 (R334). -/
  syncGap : Int
  delayGap : Int
  haveDelay : Bool
  deriving DecidableEq, Repr

/-- The network engine's own state (17). -/
structure Net where
  ports : Tab Port
  /-- Most recent source MAC by VLAN and address, newest first (R330). -/
  neighbours : List (Nat × Addr × BitVec 48)
  /-- Packets that wait for address resolution. -/
  unresolved : List Packet
  windows : Tab Window
  kept : List Kept
  /-- Next device sequence numbers of the control and management planes (R342). -/
  seqControl : Nat
  seqMgmt : Nat
  staged : List Staged
  /-- Management requests whose outcome reply is due at step 6 of the next boundary: status and field (R346). -/
  outcomes : List (Staged × Nat × Nat)
  /-- Requests whose reply waits: for the retraining of a die link 0 to 95, or, with 96, for the entropy source (R22, R354). -/
  waiting : List (Nat × Staged)
  transfer : Option Transfer
  notices : Tab Dest
  tx : List Packet
  deriving DecidableEq, Repr

/-- The security engine (18). Keys are by partition, 16 for the module. -/
structure Sec where
  /-- 0 starting, 1 healthy, 2 restarting, 3 failed (R354). -/
  entropy : Nat
  restarts : Nat
  requests : Nat
  identity : Bool
  attestation : Option Nat
  akRecord : List Byte
  pendings : Tab PendingKem
  sessions : Tab Session
  region : Tab (BitVec 256)
  sealKeys : Tab (BitVec 256)
  sealIn : Tab Nat
  sealOut : Tab Nat
  srtp : Tab (BitVec 256 × BitVec 96)
  retained : BitVec 16
  challenge : Option (List Byte)
  debug : Bool
  scopes : BitVec 3
  deriving DecidableEq, Repr

/-- Fuses (R367, MODULE_ID, MODULE_VERSION). -/
structure Fuses where
  count : Nat
  serial : Word
  stepping : BitVec 8
  deriving DecidableEq, Repr

/-- The safety controller (19). -/
structure Safety where
  flight : List Record
  queue : List Record
  log : List Record
  records : Nat
  notices : List Record
  moduleSafe : Bool
  /-- (unit, code, partition) recorded in the current pick, for codes that are recorded once a pick (R384). -/
  first : List (Nat × Nat × Nat)
  armings : Tab Arming
  selfTest : Bool
  deriving DecidableEq, Repr

/-- The store and firmware (20). -/
structure StoreUnit where
  records : List JRec
  nextSerial : Nat
  head : Nat
  headUsed : Nat
  wanted : Bool
  over75 : Bool
  transfer : Option Transfer
  /-- Running image: instance, SVN, confirmed, attempts. -/
  running : Option (Nat × Nat × Bool × Nat)
  deriving DecidableEq, Repr

/-- Telemetry and power management (R408, R409): the set, the last sample (pick, mask, blocks), and the cap and ceiling in
force. -/
structure Telemetry where
  mask : BitVec 6
  sample : Option (Word × BitVec 6 × List Byte)
  cap : Nat
  ceiling : Nat
  deriving DecidableEq, Repr

/-- Stacks, mill stores, compressors and far ports (14, 15). -/
structure Memory where
  /-- Mill-store carves by mill × 128 + partition × 8 + context. -/
  millStore : Tab (Tab Byte)
  millBad : Tab (Tab Bool)
  /-- 0 untrained, 1 training, 2 ready, 3 evacuating, 4 out, 5 returning, 6 failed. -/
  stackState : Tab Nat
  /-- Evacuation or return in progress: stack and granules left (R306). -/
  evac : Option (Fin 32 × Nat)
  /-- Stack under recalibration. -/
  recal : Option (Fin 32)
  far : Tab FarPort
  /-- Removal in progress: port (R307). -/
  removal : Option (Fin 4)
  flushing : Bool
  /-- Layer-range reads served from far devices since MEM_STAGE last counted a thousand, by mill (R298). -/
  unstaged : Tab Nat
  /-- Compressor table slots by mill, and requests that wait or run. -/
  bc : Tab (Tab TableSlot)
  deriving DecidableEq, Repr

/-- The draft loader (02). -/
structure Drafts where
  loading : Option Loading
  panels : List Panel
  fenceLooms : BitVec 256
  fenceLinks : BitVec 96
  deriving DecidableEq, Repr

/-- The machine. -/
structure State where
  /-- Commands that wait, first in, first out: the model's own. -/
  pending : List Instr
  /-- How many free values have been drawn: the model's own (log entry 2). -/
  freeCount : Nat
  /-- The 2.25 GHz time base, and its value at the last boundary (R384; log entry 1). -/
  beat : Nat
  boundaryBeat : Nat
  /-- The register file by address; an unlisted register holds its reset value. -/
  regs : Tab Word
  power : Power
  pick : PickUnit
  net : Net
  sec : Sec
  fuses : Fuses
  safety : Safety
  store : StoreUnit
  tele : Telemetry
  mem : Memory
  draft : Drafts
  links : Tab Link
  looms : Tab Loom
  parts : Tab Part
  slots : Tab Slot
  /-- Luma samples decoded since reset, by Creel engine (CREEL_ENGINE SAMPLES). -/
  creel : Tab Nat
  deriving DecidableEq, Repr

/-- A warp bank that nothing has filled. -/
def Bank.reset : Bank := { ready := false, tag := none, elems := [], scales := [] }

/-- A loom right after reset (R419: clock-gated; LOOM_STATUS TIEUP 2×2). -/
def Loom.reset : Loom :=
  { part := none, entry := .idle, lastCtx := 0, lastTieup := .twoByTwo, activeBank := 0, failed := false,
    stopped := false, safeStop := false, store := [], bad := [], bank0 := Bank.reset, bank1 := Bank.reset, fills := [],
    dx := [], dxCtx := 0, dxBank := 0, fells := [], undrained := [], v := [], vfell := Fell.cleared, threads := [],
    test := none, tileDone := false, seqs := [] }

/-- A die link right after reset (LINK_STATE). -/
def Link.reset : Link :=
  { width := 0, training := false, failedLanes := [], fails := (0, 0), delivered := (0, 0), used := [], held := [] }

/-- An Ethernet port right after reset (NET_PORT). -/
def Port.reset : Port := { link := false, macsec := 0, paused := false, oversized := 0 }

/-- A far port right after reset (FAR_PORT, R423). -/
def FarPort.reset : FarPort := { state := 0, present := false, capacity := 0, clock := false, perst := false }

/-- A closed Creel slot (R253). -/
def Slot.reset : Slot :=
  { part := none, state := 0, engine := 0, context := [], frames := [], decoding := none, posted := 0, history := [],
    lastFault := 0, level := 0, frame := 0, ringRead := 0, ringSeen := 0, nextSeq := none, lastStamp := none, sampleBytes := 0,
    sampleSlots := 0, written := 0, released := 0, seen := [], owed := none }

/-- The supplies and pins at power-on reset: power-good asserted, RESET_N high, in phase reset. -/
def Power.reset : Power :=
  { pwrGood := true, resetLow := false, inReset := true, resetDue := false, straps := 3, service := none }

def PickUnit.reset : PickUnit :=
  { formed := false, everFormed := false, due := none, byPulse := false, anchor := none, lastEdge := none, lockRun := 0, badRun := 0, lockTime := none,
    refReported := false, change := none, clocks := [], selected := none, halfSync := none, delayReq := none,
    delaySeq := 0, syncGap := 0, delayGap := 0, haveDelay := false }

def Net.reset : Net :=
  { ports := [], neighbours := [], unresolved := [], windows := [], kept := [], seqControl := 1, seqMgmt := 1,
    staged := [], outcomes := [], waiting := [], transfer := none, notices := [], tx := [] }

def Sec.reset : Sec :=
  { entropy := 0, restarts := 0, requests := 0, identity := false, attestation := none, akRecord := [], pendings := [],
    sessions := [], region := [], sealKeys := [], sealIn := [], sealOut := [], srtp := [], retained := 0,
    challenge := none, debug := false, scopes := 0 }

def Fuses.reset : Fuses := { count := 0, serial := 0, stepping := 0 }

def Safety.reset : Safety :=
  { flight := [], queue := [], log := [], records := 0, notices := [], moduleSafe := false, first := [],
    armings := [], selfTest := true }

def StoreUnit.reset : StoreUnit :=
  { records := [], nextSerial := 1, head := 0, headUsed := 0, wanted := false, over75 := false,
    transfer := none, running := none }

def Telemetry.reset : Telemetry := { mask := 0b000111, sample := none, cap := 4200, ceiling := 2250 }

def Memory.reset : Memory :=
  { millStore := [], millBad := [], stackState := [], evac := none, recal := none, far := [], removal := none,
    flushing := false, unstaged := [], bc := [] }

def Drafts.reset : Drafts := { loading := none, panels := [], fenceLooms := 0, fenceLinks := 0 }

/-- The machine right after a power-on reset: power-good asserted, PHASE reset, nothing listed in any memory. -/
def State.reset : State :=
  { pending := [], freeCount := 0, beat := 0, boundaryBeat := 0, regs := [], power := Power.reset,
    pick := PickUnit.reset, net := Net.reset, sec := Sec.reset, fuses := Fuses.reset, safety := Safety.reset,
    store := StoreUnit.reset, tele := Telemetry.reset, mem := Memory.reset, draft := Drafts.reset, links := [],
    looms := [], parts := [], slots := [], creel := [] }

end Sys2Proof.Machine
end

