-- ==== Sys2Proof/Machine/Ops.lean ====
section
/-! DEFINITION. Sys2Proof/Machine/Ops.lean: the named operations over the state that the meanings share: registers and
their fields, the parts of the machine, fault records, storages, poisoning a tile and faulting a context. -/

namespace Sys2Proof.Machine

open Sys2Proof

/-- What a command answers. -/
abbrev Out := Host.Outcome State Fault Refusal

/-! ### Registers (01 R7, R8) -/

/-- The word that the register file holds. -/
def State.reg (s : State) (r : Reg) : Word := s.regs.get r.addr r.resetWord

/-- The state whose register file holds v for r. -/
def State.setReg (s : State) (r : Reg) (v : Word) : State := { s with regs := s.regs.put r.addr v r.resetWord }

/-- A field of a register. -/
def State.fld (s : State) (r : Reg) (f : Fld) : Nat := f.get (s.reg r)

/-- The state with a field replaced. -/
def State.setFld (s : State) (r : Reg) (f : Fld) (n : Nat) : State := s.setReg r (f.set (s.reg r) n)

/-- n more events in a saturating counter. -/
def State.bump (s : State) (r : Reg) (f : Fld) (n : Nat) : State := s.setFld r f (satAdd f.w (s.fld r f) n)

/-- n more events in a 64-bit count that never saturates in practice (R26: LOOM_TILES, LOOM_BEATS, MEM_TRAFFIC). -/
def State.count (s : State) (r : Reg) (n : Nat) : State := s.setReg r (s.reg r + BitVec.ofNat 64 n)

/-- A fresh free value of w bits (log entry 2). -/
def State.draw (s : State) (w : Nat) : BitVec w × State :=
  (BitVec.ofNat w (Config.freeValue s.freeCount), { s with freeCount := s.freeCount + 1 })

/-! ### Picks (03) -/

/-- The number of the current pick. -/
def State.now (s : State) : Word := s.reg .pickNow

/-- The all-ones value that never names a pick, a count, a length or a size (R14, R17). -/
def allOnes (w : Nat) : Nat := 2 ^ w - 1

/-- Beats since the boundary beat of the current pick (R384). -/
def State.sinceBoundary (s : State) : Nat := s.beat - s.boundaryBeat

/-! ### Units and fault records (00 R5, 19 R383, R384) -/

/-- Identifiers of a loom unit, a mill unit and a beam-die unit of a kind (R5, R383). -/
def loomUnit (g : Fin 256) (kind : Nat) : Nat := g.val / 32 * 0x1000 + g.val % 32 * 0x80 + kind
def millUnit (m : Fin 8) (kind : Nat) : Nat := m.val * 0x1000 + 0xF80 + kind
def beamUnit (kind : Nat) : Nat := 0xFF80 + kind

/-- The attribution bits [127:120] of a record that faults a context, or a partition (R384). -/
def attribution (p : Fin 16) (c : Fin 8) : Nat := 2 ^ 127 + p.val * 2 ^ 123 + c.val * 2 ^ 120
def attributionPart (p : Fin 16) : Nat := 2 ^ 127 + p.val * 2 ^ 123

/-- A fault record made now (R384): all ones for PICK before any pick has been formed (R418). -/
def State.record (s : State) (unit code detail : Nat) : Record :=
  { pick := if s.pick.everFormed then s.now else BitVec.allOnes 64, beat := BitVec.ofNat 32 (min s.sinceBoundary (2 ^ 32 - 1)),
    unit := BitVec.ofNat 16 unit, code := BitVec.ofNat 16 code, detail := BitVec.ofNat 128 detail }

/-- A fault is reported: its record sets out for the safety controller (R373). -/
def State.report (s : State) (unit code detail : Nat) : State :=
  { s with safety := { s.safety with flight := s.safety.flight ++ [s.record unit code detail] } }

/-- A code recorded once per pick for what a key names (R384). -/
def State.reportOnce (s : State) (key : Nat × Nat × Nat) (unit code detail : Nat) : State :=
  if s.safety.first.contains key then s
  else
    let t := s.report unit code detail
    { t with safety := { t.safety with first := key :: t.safety.first } }

/-- A code recorded once per unit and pick; `key` tells apart what the code counts beside the unit. -/
def State.reportFirst (s : State) (unit code key detail : Nat) : State := s.reportOnce (unit, code, key) unit code detail

/-! ### The parts of the machine -/

def State.loom (s : State) (g : Fin 256) : Loom := s.looms.get g.val Loom.reset
def State.setLoom (s : State) (g : Fin 256) (l : Loom) : State := { s with looms := s.looms.put g.val l Loom.reset }
def State.modLoom (s : State) (g : Fin 256) (f : Loom → Loom) : State := s.setLoom g (f (s.loom g))

/-- A sequencer state of zeros (R117). -/
def Seq.zero : Seq :=
  { pc := 0, b := [], a := [], p := 0, st := 0, loops := [], tile := none, run := .notStarted, tiles := 0, moves := [] }

def Loom.seq (l : Loom) (c : Fin 8) : Seq := l.seqs.get c.val Seq.zero
def Loom.setSeq (l : Loom) (c : Fin 8) (q : Seq) : Loom := { l with seqs := l.seqs.put c.val q Seq.zero }
def State.seq (s : State) (a : At) : Seq := (s.loom a.loom).seq a.ctx
def State.setSeq (s : State) (a : At) (q : Seq) : State := s.modLoom a.loom (fun l => l.setSeq a.ctx q)
def State.modSeq (s : State) (a : At) (f : Seq → Seq) : State := s.setSeq a (f (s.seq a))

def State.part? (s : State) (p : Fin 16) : Option Part := s.parts.find? p.val
def State.setPart (s : State) (p : Fin 16) (x : Part) : State := { s with parts := s.parts.ins p.val x }
def State.modPart (s : State) (p : Fin 16) (f : Part → Part) : State :=
  match s.part? p with
  | none => s
  | some x => s.setPart p (f x)

def Acct.zero : Acct :=
  { submitted := 0, refused := 0, lastSeq := 0, taken := 0, done := 0, failed := 0, waitPicks := 0, waitBeats := 0,
    preemptions := 0, thrash := 0, overruns := 0, epoch := 0 }
def Ctx.zero : Ctx := { sems := [], queues := [], runs := [], acct := Acct.zero, fault := none }
def Part.ctx (x : Part) (c : Fin 8) : Ctx := x.ctxs.get c.val Ctx.zero
def Part.setCtx (x : Part) (c : Fin 8) (k : Ctx) : Part := { x with ctxs := x.ctxs.put c.val k Ctx.zero }
def Part.modCtx (x : Part) (c : Fin 8) (f : Ctx → Ctx) : Part := x.setCtx c (f (x.ctx c))

def State.link (s : State) (i : Fin 96) : Link := s.links.get i.val Link.reset
def State.setLink (s : State) (i : Fin 96) (k : Link) : State := { s with links := s.links.put i.val k Link.reset }
def State.port (s : State) (i : Fin 8) : Port := s.net.ports.get i.val Port.reset
def State.setPort (s : State) (i : Fin 8) (k : Port) : State :=
  { s with net := { s.net with ports := s.net.ports.put i.val k Port.reset } }
def State.farPort (s : State) (i : Fin 4) : FarPort := s.mem.far.get i.val FarPort.reset
def State.setFarPort (s : State) (i : Fin 4) (k : FarPort) : State :=
  { s with mem := { s.mem with far := s.mem.far.put i.val k FarPort.reset } }
def State.slot (s : State) (i : Fin 1024) : Slot := s.slots.get i.val Slot.reset
def State.setSlot (s : State) (i : Fin 1024) (k : Slot) : State := { s with slots := s.slots.put i.val k Slot.reset }

/-- State of a stack: 0 untrained, 1 training, 2 ready, 3 evacuating, 4 out, 5 returning, 6 failed (MEM_STACK). -/
def State.stack (s : State) (i : Fin 32) : Nat := s.mem.stackState.get i.val 0
def State.setStack (s : State) (i : Fin 32) (n : Nat) : State :=
  { s with mem := { s.mem with stackState := s.mem.stackState.put i.val n 0 } }

/-- A packet leaves the device. -/
def State.send (s : State) (k : Packet) : State := { s with net := { s.net with tx := s.net.tx ++ [k] } }

/-! ### What a partition's draft says (02 R37) -/

/-- The mill of a global loom (R4). -/
def millOf (g : Nat) : Fin 8 := Fin.ofNat 8 (g / 32)

/-- The mills that hold looms of the partition, in increasing order. -/
def PartCfg.mills (k : PartCfg) : List (Fin 8) := (List.finRange 8).filter (fun m => k.looms.any (fun g => millOf g == m))

/-- The partition lies in one mill: the single-mill regime (R42, R43). -/
def PartCfg.singleMill (k : PartCfg) : Bool := decide (k.mills.length ≤ 1)

def CtxCfg.none : CtxCfg := { weight := 0, sems := 0, queues := [], loomUnits := 0, millUnits := 0 }
def PartCfg.ctx (k : PartCfg) (c : Fin 8) : CtxCfg := k.ctxs.getD c.val CtxCfg.none

/-- The TREADLING record of a context for a loom. -/
def PartCfg.tread? (k : PartCfg) (c : Fin 8) (g : Fin 256) : Option TreadCfg :=
  k.treads.find? (fun t => t.ctx == c.val && t.loom == g.val)

/-- Base and length of a context's loom-store carve on a loom (R112): contexts with a treadling there, in order. -/
def PartCfg.loomCarve (k : PartCfg) (c : Fin 8) (g : Fin 256) : Nat × Nat :=
  let size := fun (d : Fin 8) => if (k.tread? d g).isSome then (k.ctx d).loomUnits * 4096 else 0
  (((List.finRange 8).filter (fun d => d.val < c.val)).foldl (fun n d => n + size d) 0, size c)

/-- Length of a context's mill-store carve on each mill of its partition (R37). -/
def PartCfg.millCarve (k : PartCfg) (c : Fin 8) : Nat := (k.ctx c).millUnits * 4096

/-- The CARVE records of a context, in order (R132). -/
def PartCfg.carvesOf (k : PartCfg) (c : Fin 8) : List CarveCfg := k.carves.filter (fun v => v.ctx == c.val)

/-- The carve that holds a cloth address, for a context (R286). -/
def PartCfg.carveAt (k : PartCfg) (c : Fin 8) (a : Nat) : Option CarveCfg :=
  (k.carvesOf c).find? (fun v => decide (v.base ≤ a) && decide (a < v.base + v.len))

/-- [a, a + n) lies wholly in one carve of the context that satisfies f. -/
def PartCfg.inCarve (k : PartCfg) (c : Fin 8) (a n : Nat) (f : CarveCfg → Bool) : Bool :=
  (k.carvesOf c).any (fun v => f v && decide (v.base ≤ a) && decide (a + n ≤ v.base + v.len))

/-- A context holds a protected carve (R284). -/
def PartCfg.holdsProtected (k : PartCfg) (c : Fin 8) : Bool := (k.carvesOf c).any (fun v => v.prot)

/-- The stream home's mill: the lowest-numbered among the partition's looms (R187, R207). -/
def PartCfg.home (k : PartCfg) : Fin 8 := k.mills.headD 0

/-- The rank of a loom in its partition (R196). -/
def PartCfg.rank (k : PartCfg) (g : Fin 256) : Nat := (k.looms.filter (fun h => h < g.val)).length

/-- A treadling code word of the record's code: word i of 16 bytes (R119). -/
def TreadCfg.word (t : TreadCfg) (i : Nat) : Nat := leNat (slice t.code (16 * i) 16)

/-- The partition exists and has started (R44, R46, R310). -/
def Part.started (x : Part) : Bool := x.start.isSome

/-! ### Storages (15, 05 R109) -/

/-- Index of a mill-store carve. -/
def millKey (m : Fin 8) (p : Fin 16) (c : Fin 8) : Nat := m.val * 128 + p.val * 8 + c.val

/-- One byte of a storage; a byte that nothing has written reads 0 (log entry 4). -/
def State.byteAt (s : State) (st : Store) (a : Nat) : Byte :=
  match st with
  | .loom g => (s.loom g).store.get a 0
  | .mill m p c => (s.mem.millStore.get (millKey m p c) []).get a 0
  | .cloth p => match s.part? p with | none => 0 | some x => x.cloth.bytes.get a 0

/-- n bytes of a storage. -/
def State.bytesAt (s : State) (st : Store) (a n : Nat) : List Byte := (List.range n).map (fun i => s.byteAt st (a + i))

/-- The table with bytes written from address a on. -/
def putBytes (t : Tab Byte) (a : Nat) (bs : List Byte) : Tab Byte :=
  match bs with
  | [] => t
  | b :: rest => putBytes (t.put a b 0) (a + 1) rest

/-- The 4 KiB blocks that [a, a + n) touches, and those it covers whole. -/
def blocksOf (a n : Nat) : List Nat := if n = 0 then [] else rangeFrom (a / 4096) ((a + n - 1) / 4096 + 1 - a / 4096)
def wholeBlocks (a n : Nat) : List Nat := (blocksOf a n).filter (fun k => decide (a ≤ 4096 * k) && decide (4096 * k + 4096 ≤ a + n))

/-- Bad side words: whole-block writes make a block good, a partial write leaves its mark as it was (R299). -/
def rewrite (bad : Tab Bool) (a n : Nat) : Tab Bool := (wholeBlocks a n).foldl (fun t k => t.put k false false) bad

/-- Writes bytes to a storage, with the CRC side words of R299. -/
def State.putAt (s : State) (st : Store) (a : Nat) (bs : List Byte) : State :=
  match st with
  | .loom g => s.modLoom g (fun l => { l with store := putBytes l.store a bs, bad := rewrite l.bad a bs.length })
  | .mill m p c =>
    let k := millKey m p c
    { s with mem := { s.mem with
        millStore := s.mem.millStore.put k (putBytes (s.mem.millStore.get k []) a bs) [],
        millBad := s.mem.millBad.put k (rewrite (s.mem.millBad.get k []) a bs.length) [] } }
  | .cloth p => s.modPart p (fun x => { x with cloth := { x.cloth with
      bytes := putBytes x.cloth.bytes a bs, bad := rewrite x.cloth.bad a bs.length,
      tagBad := rewrite x.cloth.tagBad a bs.length,
      written := (blocksOf a bs.length).foldl (fun t k => t.put k true false) x.cloth.written } })

/-- The side word of a 4 KiB block is bad. -/
def State.blockBad (s : State) (st : Store) (k : Nat) : Bool :=
  match st with
  | .loom g => (s.loom g).bad.get k false
  | .mill m p c => (s.mem.millBad.get (millKey m p c) []).get k false
  | .cloth p => match s.part? p with | none => false | some x => x.cloth.bad.get k false

/-- Marks a block's side word. -/
def State.setBlockBad (s : State) (st : Store) (k : Nat) (b : Bool) : State :=
  match st with
  | .loom g => s.modLoom g (fun l => { l with bad := l.bad.put k b false })
  | .mill m p c =>
    let j := millKey m p c
    { s with mem := { s.mem with millBad := s.mem.millBad.put j ((s.mem.millBad.get j []).put k b false) [] } }
  | .cloth p => s.modPart p (fun x => { x with cloth := { x.cloth with bad := x.cloth.bad.put k b false } })

/-- The protection tag of a granule does not verify (R362, R363). -/
def State.tagBad (s : State) (st : Store) (k : Nat) : Bool :=
  match st with
  | .cloth p => match s.part? p with | none => false | some x => x.cloth.tagBad.get k false
  | _ => false

/-- A block of [a, a + n) that its consumer finds bad (R300), if any. -/
def State.anyBad (s : State) (st : Store) (a n : Nat) : Bool := (blocksOf a n).any (fun k => s.blockBad st k)
def State.anyTagBad (s : State) (st : Store) (a n : Nat) : Bool := (blocksOf a n).any (fun k => s.tagBad st k)

/-- The first address at or after a that lies in none of a context's carves, searching n bytes (R286). -/
def PartCfg.firstOutside (k : PartCfg) (c : Fin 8) (a n fuel : Nat) : Option Nat :=
  match fuel with
  | 0 => none
  | j + 1 =>
    if n = 0 then none
    else match k.carveAt c a with
      | none => some a
      | some v =>
        let m := v.base + v.len - a
        if n ≤ m then none else k.firstOutside c (a + m) (n - m) j

/-! ### Page frames under a snapshot (11 R210, R217) -/

def Frame.free : Frame := { refs := 0, state := 0, pinned := false, holds := 0, deferred := false }
def Pool.frame (k : Pool) (f : Nat) : Frame := k.frames.get f Frame.free
def Pool.setFrame (k : Pool) (f : Nat) (x : Frame) : Pool := { k with frames := k.frames.put f x Frame.free }

/-- The prefix-tree bucket of a freed page is cleared (R227). -/
def Pool.dropBucket (k : Pool) (f : Nat) : Pool := { k with buckets := k.buckets.filter (fun e => e.2 != f) }

/-- A reference to a page goes; the frame is free once no reference and no snapshot holds it (R213, R217). -/
def Pool.release (k : Pool) (f : Nat) : Pool :=
  let x := k.frame f
  if x.refs ≤ 1 then
    if x.holds = 0 then (k.dropBucket f).setFrame f Frame.free
    else (k.dropBucket f).setFrame f { x with refs := 0, deferred := true }
  else k.setFrame f { x with refs := x.refs - 1 }

/-- A snapshot lets a frame go, which makes a deferred release (R217). -/
def Pool.unhold (k : Pool) (f : Nat) : Pool :=
  let x := k.frame f
  if x.holds ≤ 1 && x.deferred then k.setFrame f Frame.free else k.setFrame f { x with holds := x.holds - 1 }

/-- The pages that a snapshot holds: its present entries (R217). -/
def Snapshot.pages (n : Snapshot) : List Nat := (n.entries.filter (fun e => e.state == 1)).map (fun e => e.page)

/-- A tile's snapshots end. -/
def Part.dropSnapshots (x : Part) (ns : List Snapshot) : Part :=
  { x with pool := (ns.flatMap Snapshot.pages).foldl (fun k f => k.unhold f) x.pool }

/-! ### Runs and faults of a context (07 R155, 16 R323) -/

/-- No destination, with nothing to report. -/
def Dest.blank (holdover : Bool) : Dest :=
  { a := 0, b := 0, port := 0, v4 := false, interval := 0, last := Option.none, pend := [], streams := [], seqs := [], skipped := [],
    holdover := holdover, overrun := false, maxDelay := 0 }

/-- Something for the next reports: to every destination, and to those set before the boundary. -/
def Part.eachDest (x : Part) (f : Dest → Dest) : Part := { x with dests := x.dests.map (fun e => (e.1, f e.2)), recent := f x.recent }

/-- A record goes into every report destination of the partition (R349, R351); a RUN record is also kept for the swatch
(R387). -/
def Part.note (x : Part) (r : RptRec) : Part :=
  { x.eachDest (fun d => { d with pend := d.pend ++ [r] }) with
    ended := match r with | .run _ _ _ => x.ended ++ [r] | _ => x.ended }

/-- Tokens of the runs that a context has open or queued: entries of control-fed queues destined for it (R322, R323). -/
def Part.runsOf (x : Part) (c : Fin 8) : List Word :=
  (x.ctx c).runs ++ (x.ctx c).queues.foldr (fun e l => (e.2.filter (fun q => q.run)).map (fun q => q.w0) ++ l) []

/-- Every open and queued run of a context ends with an outcome and a code (R323). -/
def Part.endRuns (x : Part) (c : Fin 8) (outcome : Nat) (code : BitVec 16) : Part :=
  let ended := x.runsOf c
  let y := ended.foldl (fun y t => y.note (.run outcome code t)) x
  y.modCtx c (fun k => { k with
    runs := [],
    queues := k.queues.map (fun e => (e.1, e.2.filter (fun q => !q.run))),
    acct := { k.acct with failed := k.acct.failed + ended.length } })

/-- The open tile of a loom ends: fills held for its bank may write, their held beats counted in BANK_WAIT (R99). -/
def State.releaseFills (s : State) (g : Fin 256) : State :=
  let l := s.loom g
  let beats := l.fills.foldl (fun n f => match f.heldSince with | none => n | some b => n + (s.beat - b)) 0
  (s.setLoom g { l with fills := l.fills.map (fun f => { f with heldSince := none }) }).bump (.loomStall g)
    Fl.loomStall_BANK_WAIT beats

/-- The open tile of a context on a loom is poisoned (R104, R134): it writes nothing further, its MOVEs do not land, and
its fells are discarded. -/
def State.poison (s : State) (a : At) : State :=
  let q := s.seq a
  match q.tile with
  | none => s
  | some t =>
    let s := match (s.loom a.loom).part with | none => s | some p => s.modPart p (fun x => x.dropSnapshots t.snapshots)
    (s.modLoom a.loom (fun l =>
      { l.setSeq a.ctx { q with tile := none, moves := q.moves.filter (fun m => !m.inTile) } with undrained := [] })).releaseFills
      a.loom

/-- A sequencer stops: faulted with a code. -/
def State.stopSeq (s : State) (a : At) (code : BitVec 16) : State :=
  s.modSeq a (fun q => { q with run := .faulted code })

/-- A context stops on a loom that did not report the fault: at once without a tile, else at the tile's end (R155). -/
def State.stopElsewhere (s : State) (a : At) (code : BitVec 16) : State :=
  let q := s.seq a
  match q.run with
  | .ended => s
  | .faulted _ => s
  | _ => if q.tile.isSome then s else s.stopSeq a code

/-- A context of a partition is faulted under R155, its fault reported by a unit. `here` is the loom that reports it, if
a loom does; the open tile there is poisoned. -/
def State.faultCtx (s : State) (p : Fin 16) (c : Fin 8) (here : Option (Fin 256)) (unit code detail : Nat) : State :=
  let k := BitVec.ofNat 16 code
  let s := s.report unit code (detail + attribution p c)
  let s := match here with
    | none => s
    | some g => (s.poison { loom := g, ctx := c }).stopSeq { loom := g, ctx := c } k
  match s.part? p with
  | none => s
  | some x =>
    let s := s.setPart p ((x.endRuns c 2 k).modCtx c (fun y => { y with fault := some (y.fault.getD k) }))
    (x.cfg.treads.filter (fun t => t.ctx == c.val)).foldl
      (fun s t => s.stopElsewhere { loom := Fin.ofNat 256 t.loom, ctx := c } k) s

/-- A context faults on a loom, reported by one of the loom's own units. -/
def State.faultAt (s : State) (a : At) (kind code detail : Nat) : State :=
  match (s.loom a.loom).part with
  | none => s
  | some p => s.faultCtx p a.ctx (some a.loom) (loomUnit a.loom kind) code detail

end Sys2Proof.Machine
end

