-- ==== Sys2Proof/Machine/Paging.lean ====
section
/-! DEFINITION. Sys2Proof/Machine/Paging.lean: sequences, page tables and the snapshot of an attention tile (11 R212, R213,
R217). -/

namespace Sys2Proof.Machine

open Sys2Proof

def PageEntry.empty : PageEntry :=
  { page := 0, count := 0, state := 0, inTree := false, score := 0, damaged := false }

/-- Key of a page-table entry: sequence, table (layer × HEADS + head) and position. -/
def tableKey (seq table pos : Nat) : Nat := seq * 2 ^ 32 + table * 4096 + pos

def Pool.entry (k : Pool) (key : Nat) : PageEntry := k.tables.get key PageEntry.empty
def Pool.setEntry (k : Pool) (key : Nat) (e : PageEntry) : Pool :=
  { k with tables := k.tables.put key e PageEntry.empty }

/-- A live sequence. -/
def Pool.seq? (k : Pool) (id : Nat) : Option SeqEntry :=
  match k.seqs.find? id with
  | none => none
  | some e => if e.live then some e else none
def Pool.setSeq (k : Pool) (id : Nat) (e : SeqEntry) : Pool := { k with seqs := k.seqs.ins id e }

/-- Entries per page table (R213), and the tables of a sequence. -/
def SeqEntry.entries (e : SeqEntry) : Nat := ceilDiv e.limit 256
def SeqEntry.tables (e : SeqEntry) : Nat := e.layers * e.heads

/-- The c entries from p0 of a table as a tile sees them: positions at or beyond the sequence's length or table are empty
(R217). -/
def Pool.window (k : Pool) (id : Nat) (e : SeqEntry) (table p0 c : Nat) : List PageEntry :=
  (rangeFrom p0 c).map (fun i =>
    if i < ceilDiv e.length 256 ∧ i < e.entries then k.entry (tableKey id table i) else PageEntry.empty)

/-- A snapshot holds a frame. -/
def Pool.hold (k : Pool) (f : Nat) : Pool := k.setFrame f { k.frame f with holds := (k.frame f).holds + 1 }

/-- The fields of ATTN's B[X] (R216). -/
def attnSeq (v : Word) : Nat := bits v.toNat 0 16
def attnFirst (v : Word) : Nat := bits v.toNat 16 12
def attnCount (v : Word) : Nat := bits v.toNat 28 5

/-- The snapshot that an ATTN takes, if its operands name entries (R217). -/
def Part.snapshot? (x : Part) (v : Word) (layer head : Nat) : Option Snapshot :=
  match x.pool.seq? (attnSeq v) with
  | none => none
  | some e =>
    if layer < e.layers ∧ head < e.heads ∧ attnCount v ≤ 16 then
      some { seq := attnSeq v, layer := layer, head := head, first := attnFirst v, length := e.length,
             entries := x.pool.window (attnSeq v) e (layer * e.heads + head) (attnFirst v) (attnCount v) }
    else none

/-- The frames of a snapshot are held until the tile's TEND (R217). -/
def Part.holdSnapshot (x : Part) (n : Snapshot) : Part :=
  { x with pool := n.pages.foldl (fun k f => k.hold f) x.pool }

end Sys2Proof.Machine
end

