-- ==== Sys2Proof/Machine/Hash.lean ====
section
/-! DEFINITION. Sys2Proof/Machine/Hash.lean: the hash functions that the spec names and does not spell out: SHA-256 (R34, R36, R39,
R366), HMAC-SHA-256 and HKDF-SHA-256 (R359), SipHash-2-4 (R227). PRESUMED: written from the published standards, FIPS 180-4, RFC 2104,
RFC 5869 and the SipHash paper (log entry 20). A digest is a number whose most significant byte is its first. -/

namespace Sys2Proof.Machine

open Sys2Proof

/-! ### SHA-256 -/

/-- The eight working words of SHA-256. -/
structure Sha where
  a : Nat
  b : Nat
  c : Nat
  d : Nat
  e : Nat
  f : Nat
  g : Nat
  h : Nat
  deriving DecidableEq, Repr

/-- A 32-bit word rotated right by n places. -/
def rotr32 (x n : Nat) : Nat := x >>> n ||| (x <<< (32 - n)) % 2 ^ 32

/-- The round constants: the first 32 bits of the fractional parts of the cube roots of the first 64 primes. -/
def shaK : List Nat := [
  0x428A2F98, 0x71374491, 0xB5C0FBCF, 0xE9B5DBA5, 0x3956C25B, 0x59F111F1, 0x923F82A4, 0xAB1C5ED5,
  0xD807AA98, 0x12835B01, 0x243185BE, 0x550C7DC3, 0x72BE5D74, 0x80DEB1FE, 0x9BDC06A7, 0xC19BF174,
  0xE49B69C1, 0xEFBE4786, 0x0FC19DC6, 0x240CA1CC, 0x2DE92C6F, 0x4A7484AA, 0x5CB0A9DC, 0x76F988DA,
  0x983E5152, 0xA831C66D, 0xB00327C8, 0xBF597FC7, 0xC6E00BF3, 0xD5A79147, 0x06CA6351, 0x14292967] ++ [
  0x27B70A85, 0x2E1B2138, 0x4D2C6DFC, 0x53380D13, 0x650A7354, 0x766A0ABB, 0x81C2C92E, 0x92722C85,
  0xA2BFE8A1, 0xA81A664B, 0xC24B8B70, 0xC76C51A3, 0xD192E819, 0xD6990624, 0xF40E3585, 0x106AA070,
  0x19A4C116, 0x1E376C08, 0x2748774C, 0x34B0BCB5, 0x391C0CB3, 0x4ED8AA4A, 0x5B9CCA4F, 0x682E6FF3,
  0x748F82EE, 0x78A5636F, 0x84C87814, 0x8CC70208, 0x90BEFFFA, 0xA4506CEB, 0xBEF9A3F7, 0xC67178F2]

/-- The first state: the fractional parts of the square roots of the first eight primes. -/
def shaInit : Sha :=
  { a := 0x6A09E667, b := 0xBB67AE85, c := 0x3C6EF372, d := 0xA54FF53A, e := 0x510E527F, f := 0x9B05688C, g := 0x1F83D9AB,
    h := 0x5BE0CD19 }

/-- One round with its constant and its scheduled word. -/
def shaRound (s : Sha) (k w : Nat) : Sha :=
  let t := s.h + (rotr32 s.e 6 ^^^ rotr32 s.e 11 ^^^ rotr32 s.e 25) + ((s.e &&& s.f) ^^^ ((2 ^ 32 - 1 - s.e) &&& s.g)) + k + w
  let u := (rotr32 s.a 2 ^^^ rotr32 s.a 13 ^^^ rotr32 s.a 22) + ((s.a &&& s.b) ^^^ (s.a &&& s.c) ^^^ (s.b &&& s.c))
  { a := (t + u) % 2 ^ 32, b := s.a, c := s.b, d := s.c, e := (s.d + t) % 2 ^ 32, f := s.e, g := s.f, h := s.g }

/-- The rounds over the constants that are left; win holds the next sixteen words of the schedule, the next one first. -/
def shaRounds (ks : List Nat) (win : List Nat) (s : Sha) : Sha :=
  match ks with
  | [] => s
  | k :: rest =>
    let w := win.headD 0
    let x := win.getD 1 0
    let y := win.getD 14 0
    let new := (w + (rotr32 x 7 ^^^ rotr32 x 18 ^^^ x >>> 3) + win.getD 9 0 + (rotr32 y 17 ^^^ rotr32 y 19 ^^^ y >>> 10)) % 2 ^ 32
    shaRounds rest (win.tail ++ [new]) (shaRound s k w)

/-- The state after one block of sixteen words. -/
def shaBlock (s : Sha) (words : List Nat) : Sha :=
  let r := shaRounds shaK words s
  { a := (s.a + r.a) % 2 ^ 32, b := (s.b + r.b) % 2 ^ 32, c := (s.c + r.c) % 2 ^ 32, d := (s.d + r.d) % 2 ^ 32,
    e := (s.e + r.e) % 2 ^ 32, f := (s.f + r.f) % 2 ^ 32, g := (s.g + r.g) % 2 ^ 32, h := (s.h + r.h) % 2 ^ 32 }

/-- The big-endian 32-bit words of a byte string. -/
def beWords (bs : List Byte) : List Nat :=
  match bs with
  | a :: b :: c :: d :: rest => beNat [a, b, c, d] :: beWords rest
  | _ => []

/-- The state after n blocks of a word string. -/
def shaBlocks (n : Nat) (words : List Nat) (s : Sha) : Sha :=
  match n with
  | 0 => s
  | k + 1 => shaBlocks k (words.drop 16) (shaBlock s (words.take 16))

/-- A message padded to whole blocks: a 1 bit, zeros, and its length in bits. -/
def shaPad (bs : List Byte) : List Byte :=
  bs ++ [0x80] ++ List.replicate ((64 - (bs.length + 9) % 64) % 64) 0 ++ beBytes 8 (8 * bs.length)

/-- SHA-256. -/
def sha256 (bs : List Byte) : BitVec 256 :=
  let m := shaPad bs
  let s := shaBlocks (m.length / 64) (beWords m) shaInit
  BitVec.ofNat 256 ([s.a, s.b, s.c, s.d, s.e, s.f, s.g, s.h].foldl (fun n x => n * 2 ^ 32 + x) 0)

/-- The bytes of a 256-bit digest or key. -/
def bytes32 (v : BitVec 256) : List Byte := beBytes 32 v.toNat

/-! ### HMAC and HKDF -/

/-- HMAC-SHA-256 under a 32-byte key. -/
def hmac (key : BitVec 256) (msg : List Byte) : BitVec 256 :=
  let k := bytes32 key ++ List.replicate 32 0
  let pad := fun (x : Byte) => k.map (fun b => b ^^^ x)
  sha256 (pad 0x5C ++ bytes32 (sha256 (pad 0x36 ++ msg)))

/-- The blocks 1, 2, … of an HKDF expansion: block n, and from block n on. -/
def hkdfBlock (prk : BitVec 256) (info : List Byte) (n : Nat) : BitVec 256 :=
  match n with
  | 0 => hmac prk (info ++ [1])
  | k + 1 => hmac prk (bytes32 (hkdfBlock prk info k) ++ info ++ beBytes 1 (k + 2))

/-- HKDF-SHA-256: the 32-byte block of the output numbered from 0. -/
def hkdf (ikm salt : BitVec 256) (info : List Byte) (index : Nat) : BitVec 256 := hkdfBlock (hmac salt (bytes32 ikm)) info index

/-! ### SipHash-2-4 -/

def rotl64 (x n : Nat) : Nat := (x <<< n) % 2 ^ 64 ||| x >>> (64 - n)

/-- One round of SipHash on its four words. -/
def sipRound (v : Nat × Nat × Nat × Nat) : Nat × Nat × Nat × Nat :=
  let a := (v.1 + v.2.1) % 2 ^ 64
  let b := rotl64 v.2.1 13 ^^^ a
  let c := (v.2.2.1 + v.2.2.2) % 2 ^ 64
  let d := rotl64 v.2.2.2 16 ^^^ c
  let e := (rotl64 a 32 + d) % 2 ^ 64
  let f := rotl64 d 21 ^^^ e
  let g := (c + b) % 2 ^ 64
  (e, rotl64 b 17 ^^^ g, rotl64 g 32, f)

/-- One word of the message is taken in, with two rounds. -/
def sipWord (v : Nat × Nat × Nat × Nat) (m : Nat) : Nat × Nat × Nat × Nat :=
  let r := sipRound (sipRound (v.1, v.2.1, v.2.2.1, v.2.2.2 ^^^ m))
  (r.1 ^^^ m, r.2.1, r.2.2.1, r.2.2.2)

/-- The 64-bit words of a message: whole ones, then the rest with the length in its top byte. -/
def sipWords (n : Nat) (total : Nat) (bs : List Byte) : List Nat :=
  match n with
  | 0 => [leNat bs + total % 256 * 2 ^ 56]
  | k + 1 => leNat (bs.take 8) :: sipWords k total (bs.drop 8)

/-- SipHash-2-4 under a 128-bit key, whose low half is its first eight bytes. -/
def sipHash (key : BitVec 128) (bs : List Byte) : BitVec 64 :=
  let k0 := key.toNat % 2 ^ 64
  let k1 := key.toNat / 2 ^ 64
  let v := (sipWords (bs.length / 8) bs.length bs).foldl sipWord
    (k0 ^^^ 0x736F6D6570736575, k1 ^^^ 0x646F72616E646F6D, k0 ^^^ 0x6C7967656E657261, k1 ^^^ 0x7465646279746573)
  let r := sipRound (sipRound (sipRound (sipRound (v.1, v.2.1, v.2.2.1 ^^^ 0xFF, v.2.2.2))))
  BitVec.ofNat 64 (r.1 ^^^ r.2.1 ^^^ r.2.2.1 ^^^ r.2.2.2)

end Sys2Proof.Machine
end

