-- ==== Sys2Proof/Machine/Cipher.lean ====
section
/-! DEFINITION. Sys2Proof/Machine/Cipher.lean: the ciphers that the spec names and does not spell out: AES-256-GCM (R355, R360, R363,
R364) and SRTP with AEAD_AES_256_GCM (R365). PRESUMED: written from the published standards, FIPS 197, SP 800-38D, RFC 3711 with
RFC 6188 for the key derivation and RFC 7714 (log entry 20). -/

namespace Sys2Proof.Machine

open Sys2Proof

/-! ### AES-256 -/

/-- The S-box of AES as one number, entry i in bits [8i + 7 : 8i]: the inverse in GF(2^8), then the affine map. -/
def aesBox : Nat :=
  0x16bb54b00f2d99416842e6bf0d89a18cdf2855cee9871e9b948ed9691198f8e19e1dc186b95735610ef6034866b53e708a8bbd4b1f74dde8c6b4a61c2e2578ba08ae7a65eaf4566ca94ed58d6d37c8e779e4959162acd3c25c2406490a3a32e0db0b5ede14b8ee4688902a22dc4f816073195d643d7ea7c41744975fec130ccdd2f3ff1021dab6bcf5389d928f40a351a89f3c507f02f94585334d43fbaaefd0cf584c4a39becb6a5bb1fc20ed00d153842fe329b3d63b52a05a6e1b1a2c830975b227ebe28012079a059618c323c7041531d871f1e5a534ccf73f362693fdb7c072a49cafa2d4adf04759fa7dc982ca76abd7fe2b670130c56f6bf27b777c63

def aesSub (x : Nat) : Nat := aesBox / 2 ^ (8 * x) % 256

/-- A 32-bit word of the key schedule with each byte substituted. -/
def aesSubWord (w : Nat) : Nat :=
  aesSub (w / 2 ^ 24) * 2 ^ 24 + aesSub (w / 2 ^ 16 % 256) * 2 ^ 16 + aesSub (w / 2 ^ 8 % 256) * 2 ^ 8 + aesSub (w % 256)

/-- The words of the key schedule from word i on, n of them, after the last eight, the oldest first. -/
def aesKeys (n i : Nat) (last : List Nat) : List Nat :=
  match n with
  | 0 => []
  | k + 1 =>
    let p := last.getD 7 0
    let t := if i % 8 = 0 then aesSubWord (p * 2 ^ 8 % 2 ^ 32 + p / 2 ^ 24) ^^^ (2 ^ (i / 8 - 1) * 2 ^ 24)
      else if i % 8 = 4 then aesSubWord p else p
    let w := last.headD 0 ^^^ t
    w :: aesKeys k (i + 1) (last.tail ++ [w])

/-- The fifteen round keys of AES-256, as bytes. -/
def aesSchedule (key : BitVec 256) : List Nat :=
  let ws := beWords (bytes32 key)
  (ws ++ aesKeys 52 8 ws).flatMap (fun w => [w / 2 ^ 24, w / 2 ^ 16 % 256, w / 2 ^ 8 % 256, w % 256])

/-- A byte times x in GF(2^8). -/
def aesDouble (x : Nat) : Nat := if x < 128 then 2 * x else (2 * x - 256) ^^^ 0x1B

/-- One column mixed. -/
def aesMix (a b c d : Nat) : List Nat :=
  let t := a ^^^ b ^^^ c ^^^ d
  [a ^^^ t ^^^ aesDouble (a ^^^ b), b ^^^ t ^^^ aesDouble (b ^^^ c), c ^^^ t ^^^ aesDouble (c ^^^ d), d ^^^ t ^^^ aesDouble (d ^^^ a)]

/-- The columns of a state mixed. -/
def aesColumns (s : List Nat) : List Nat :=
  match s with
  | a :: b :: c :: d :: rest => aesMix a b c d ++ aesColumns rest
  | _ => []

/-- The bytes substituted and the rows shifted: byte i comes from row i mod 4, as many columns on. -/
def aesShift (s : List Nat) : List Nat := (List.range 16).map (fun i => aesSub (s.getD (i % 4 + 4 * ((i / 4 + i % 4) % 4)) 0))

def aesAdd (s ks : List Nat) : List Nat := (s.zip ks).map (fun e => e.1 ^^^ e.2)

/-- The n rounds that are left, the last without its mixing. -/
def aesRounds (n : Nat) (ks s : List Nat) : List Nat :=
  match n with
  | 0 => s
  | 1 => aesAdd (aesShift s) ks
  | k + 2 => aesRounds (k + 1) (ks.drop 16) (aesAdd (aesColumns (aesShift s)) ks)

/-- One block under a schedule, both as 16-byte strings. -/
def aesBlock (ks : List Nat) (block : List Byte) : List Byte :=
  (aesRounds 14 (ks.drop 16) (aesAdd (block.map (fun b => b.toNat)) ks)).map (fun x => BitVec.ofNat 8 x)

/-! ### GCM -/

/-- The product of the field of GHASH: bit 127 of a number is the coefficient of 1. The bits of x from bit n − 1 down are left. -/
def ghashMul (n x v z : Nat) : Nat :=
  match n with
  | 0 => z
  | k + 1 => ghashMul k x (if v % 2 = 1 then v / 2 ^^^ 0xE1 * 2 ^ 120 else v / 2) (if x / 2 ^ k % 2 = 1 then z ^^^ v else z)

/-- A byte string cut into n blocks of 16 bytes, the last one filled with zeros. -/
def blocks16 (n : Nat) (bs : List Byte) : List (List Byte) :=
  match n with
  | 0 => []
  | k + 1 => (bs.take 16 ++ List.replicate (16 - bs.length) 0) :: blocks16 k (bs.drop 16)

/-- The blocks of a byte string. -/
def gcmBlocks (bs : List Byte) : List (List Byte) := blocks16 (ceilDiv bs.length 16) bs

/-- The tag over additional data and ciphertext (SP 800-38D). -/
def gcmTag (ks : List Nat) (nonce aad ct : List Byte) : List Byte :=
  let h := beNat (aesBlock ks (List.replicate 16 0))
  let y := (gcmBlocks aad ++ gcmBlocks ct ++ [beBytes 8 (8 * aad.length) ++ beBytes 8 (8 * ct.length)]).foldl
    (fun y b => ghashMul 128 (y ^^^ beNat b) h 0) 0
  beBytes 16 (y ^^^ beNat (aesBlock ks (nonce ++ [0, 0, 0, 1])))

/-- The keystream applied to the blocks of a text, from counter i on. -/
def gcmCrypt (ks : List Nat) (nonce : List Byte) (i : Nat) (blocks : List (List Byte)) : List Byte :=
  match blocks with
  | [] => []
  | b :: rest => (b.zip (aesBlock ks (nonce ++ beBytes 4 i))).map (fun e => e.1 ^^^ e.2) ++ gcmCrypt ks nonce (i + 1) rest

/-- A text under the keystream of a 12-byte nonce. -/
def gcmText (ks : List Nat) (nonce text : List Byte) : List Byte := (gcmCrypt ks nonce 2 (gcmBlocks text)).take text.length

/-- AES-256-GCM: the ciphertext followed by the 16-byte tag. -/
def gcmSeal (key : BitVec 256) (nonce aad plain : List Byte) : List Byte :=
  let ks := aesSchedule key
  let ct := gcmText ks nonce plain
  ct ++ gcmTag ks nonce aad ct

/-- The plaintext of a sealed text, none where it has no tag or the tag fails. -/
def gcmOpen (key : BitVec 256) (nonce aad sealed : List Byte) : Option (List Byte) :=
  if sealed.length < 16 then none
  else
    let ks := aesSchedule key
    let ct := sealed.take (sealed.length - 16)
    if gcmTag ks nonce aad ct = sealed.drop (sealed.length - 16) then some (gcmText ks nonce ct) else none

/-! ### SRTP -/

/-- Sixteen bytes of the key derivation: the counter block of a label, at block n; the 12-byte master salt is filled to 14 bytes. -/
def srtpDerive (ks : List Nat) (salt : BitVec 96) (label n : Nat) : List Byte :=
  aesBlock ks (beBytes 16 ((salt.toNat * 2 ^ 32 ^^^ label * 2 ^ 64) + n))

/-- The payload of an SRTP packet whose 12-byte header leads it, by its 48-bit index; none where authentication fails. -/
def srtpOpen (master : BitVec 256) (salt : BitVec 96) (index : Nat) (ssrc : BitVec 32) (packet : List Byte) : Option (List Byte) :=
  let ks := aesSchedule master
  let key := BitVec.ofNat 256 (beNat (srtpDerive ks salt 0 0 ++ srtpDerive ks salt 0 1))
  let mask := beNat ((srtpDerive ks salt 2 0).take 12)
  gcmOpen key (beBytes 12 (mask ^^^ (ssrc.toNat * 2 ^ 48 + index % 2 ^ 48))) (packet.take 12) (packet.drop 12)

end Sys2Proof.Machine
end

