-- ==== Sys2Proof/Machine/Net.lean ====
section
/-! DEFINITION. Sys2Proof/Machine/Net.lean: the Ethernet side of the beam die (17 R328 to R333): ports and banks, next-hop addresses,
endpoints, and how a packet leaves. -/

namespace Sys2Proof.Machine

open Sys2Proof

/-! ### Ports and banks (R328, R333) -/

/-- The bank of a port: 0 for A, 1 for B. -/
def bankOf (port : Fin 8) : Nat := port.val / 4

/-- Ports of a bank that have link, rising. -/
def State.upPorts (s : State) (bank : Nat) : List (Fin 8) :=
  (List.finRange 8).filter (fun i => bankOf i == bank && (s.port i).link)

/-- The port on which a reply leaves: that of arrival, else the lowest of its bank with link. -/
def State.replyPort (s : State) (port : Fin 8) : Option (Fin 8) :=
  if (s.port port).link then some port else (s.upPorts (bankOf port)).head?

/-- The port on which a queue pair's packets leave on its bank. -/
def State.qpPort (s : State) (bank q : Nat) : Option (Fin 8) :=
  ((List.range 4).map (fun i => (Fin.ofNat 8 (4 * bank + (q + i) % 4) : Fin 8))).find? (fun i => (s.port i).link)

/-- A packet leaves on its port; a port in required mode without a secure association sends only MKA (R333). -/
def State.emit (s : State) (k : Packet) : State :=
  let q := s.port (Fin.ofNat 8 k.port)
  if q.link && (q.macsec != 1 || k.kind == .mka) then s.send k else s

/-! ### Next-hop addresses (R330) -/

/-- The VLAN of a bank, as one number: the two networks are separate (R328). -/
def vlanKey (port : Nat) (vlan : Nat) : Nat := port / 4 * 4096 + vlan

/-- The MAC address of a destination, if a frame has come from it. -/
def State.macOf (s : State) (key : Nat) (a : Addr) : Option (BitVec 48) :=
  (s.net.neighbours.find? (fun e => e.1 == key && e.2.1 == a)).map (fun e => e.2.2)

/-- A packet that is no reply: it goes to the most recent MAC of its destination, or waits while the device resolves it by ARP or
Neighbor Solicitation. -/
def State.transmit (s : State) (k : Packet) : State :=
  let key := vlanKey k.port k.vlan
  match s.macOf key k.dst with
  | some m => s.emit { k with mac := some m }
  | none =>
    let asked := s.net.unresolved.any (fun u => vlanKey u.port u.vlan == key && u.dst == k.dst)
    let s := { s with net := { s.net with unresolved := s.net.unresolved ++ [k] } }
    if asked then s
    else s.emit { kind := if k.dst.v4 then .arp else .nd, port := k.port, vlan := k.vlan, mac := none, dst := k.dst, dstPort := 0, bytes := [] }

/-- A frame from an address has been received: its MAC is the next hop to that address, and packets that waited for it leave. -/
def State.sawFrame (s : State) (port : Nat) (vlan : Nat) (src : Addr) (mac : BitVec 48) : State :=
  let key := vlanKey port vlan
  let hit := fun (u : Packet) => vlanKey u.port u.vlan == key && u.dst == src
  let ready := s.net.unresolved.filter hit
  let s := { s with net := { s.net with
    neighbours := (key, src, mac) :: s.net.neighbours.filter (fun e => !(e.1 == key && e.2.1 == src)),
    unresolved := s.net.unresolved.filter (fun u => !hit u) } }
  ready.foldl (fun s k => s.emit { k with mac := some mac }) s

/-! ### Endpoints (R331, R332) -/

/-- The management endpoint's address. -/
def State.mgmtAddr (s : State) : Addr :=
  let lo := s.reg .netMgmtAddrLo
  if s.fld .netMgmt Fl.netMgmt_FAMILY = 1 then { v4 := true, value := BitVec.ofNat 128 (lo.toNat % 2 ^ 32) }
  else { v4 := false, value := BitVec.ofNat 128 ((s.reg .netMgmtAddrHi).toNat * 2 ^ 64 + lo.toNat) }

/-- The management endpoint as an endpoint. -/
def State.mgmtEndpoint (s : State) : EndpointCfg :=
  { plane := 3, banks := s.fld .netMgmt Fl.netMgmt_BANKS, vlan := s.fld .netMgmt Fl.netMgmt_VLAN, addr := s.mgmtAddr, port := 47510, qps := 0 }

/-- Management firmware answers (R412, R416). -/
def State.mgmtReady (s : State) : Bool :=
  let phase := s.fld .moduleState Fl.moduleState_PHASE
  s.store.running.isSome && decide (2 ≤ phase) && decide (phase ≤ 5)

/-- What stands at an address: the management endpoint, or the i-th endpoint of a partition, of the control or the data plane. -/
inductive Endpoint where
  | mgmt
  | control (p : Fin 16)
  | data (p : Fin 16) (i : Nat)
  deriving DecidableEq, Repr

/-- A bank mask names a bank. -/
def names (mask bank : Nat) : Bool := bit mask bank

def EndpointCfg.at_ (e : EndpointCfg) (bank vlan : Nat) (a : Addr) : Bool := names e.banks bank && e.vlan == vlan && e.addr == a

/-- The endpoint at an address on a VLAN of a bank; no two stand there (R331). -/
def State.endpointAt (s : State) (port : Fin 8) (vlan : Nat) (a : Addr) : Option Endpoint :=
  let bank := bankOf port
  if names (s.fld .netMgmt Fl.netMgmt_BANKS) bank && s.fld .netMgmt Fl.netMgmt_VLAN == vlan && s.mgmtAddr == a then some .mgmt
  else
    ((List.finRange 16).flatMap (fun p => match s.part? p with
      | none => []
      | some x => (x.cfg.endpoints.zipIdx).filterMap (fun e =>
          if e.1.at_ bank vlan a then some (if e.1.plane = 1 then Endpoint.control p else Endpoint.data p e.2) else none))).head?

/-- The device's own addresses answer ARP, Neighbor Discovery and echo (R330); the management address does once its firmware
runs. -/
def State.answersFor (s : State) (port : Fin 8) (vlan : Nat) (a : Addr) : Bool :=
  match s.endpointAt port vlan a with
  | none => false
  | some .mgmt => s.mgmtReady
  | some _ => true

/-- Bytes of the largest UDP payload that a message may have (NET_MGMT MTU). -/
def State.udpRoom (s : State) (v4 : Bool) : Nat := s.fld .netMgmt Fl.netMgmt_MTU - (if v4 then 28 else 48)

end Sys2Proof.Machine
end

