-- ==== Sys2Proof/Machine/Septa.lean ====
section
/-! DEFINITION. Sys2Proof/Machine/Septa.lean: the arrival of a Septa message and its reply (17 R339 to R346; 18 R358, R360), shared by
every message row: header, authentication, sequence window, kept replies, plane, target and the form of the payload. -/

namespace Sys2Proof.Machine

open Sys2Proof

/-! ### Headers (R339, R340) -/

/-- A header of 32 bytes. -/
def septaHeader (plane part ctx flags seq pick len type : Nat) : List Byte :=
  beBytes 2 0x5E7A ++ beBytes 1 1 ++ beBytes 1 plane ++ beBytes 1 part ++ beBytes 1 ctx ++ beBytes 2 flags ++ beBytes 8 seq
    ++ beBytes 8 pick ++ beBytes 4 len ++ beBytes 2 type ++ [0, 0]

/-- The header of a message as it stands on the wire. -/
def msgHeader (h : Hdr) (type : Nat) : List Byte :=
  beBytes 2 h.magic.toNat ++ beBytes 1 h.version.toNat ++ beBytes 1 h.plane.toNat ++ beBytes 1 h.partition.toNat
    ++ beBytes 1 h.context.toNat ++ beBytes 2 h.flags.toNat ++ beBytes 8 h.sequence.toNat ++ beBytes 8 h.pick.toNat
    ++ beBytes 4 h.length.toNat ++ beBytes 2 type ++ beBytes 2 h.reserved.toNat

def hdrOrigin (h : Hdr) : Nat := h.flags.toNat / 256

/-- The pick in which something arrives now; 0 while no pick has been formed (log entry 38). -/
def State.arrival (s : State) : Word := if s.pick.formed then s.now else 0

/-! ### Replies (R342, R343, R358) -/

/-- What a handler answers (R343). -/
inductive Answer where
  /-- STATUS, FIELD, the header offset that goes with FIELD 0xFFFF, and the body. -/
  | reply (status field head : Nat) (body : List Byte)
  /-- STAGED: applied at the next boundary. -/
  | staged
  /-- The reply comes later. -/
  | later (what : Nat)
  deriving DecidableEq, Repr

def Answer.done (body : List Byte) : Answer := .reply 0 0 0 body
def Answer.field (off : Nat) : Answer := .reply 2 off 0 []
def Answer.header (off : Nat) : Answer := .reply 2 0xFFFF off []
def Answer.target (off : Nat) : Answer := .reply 4 0xFFFF off []
def Answer.busy : Answer := .reply 7 0 0 []

/-- The nonce of an authenticated message (R360): direction 0 host, 1 device. -/
def msgNonce (dir origin seq : Nat) : List Byte := beBytes 1 dir ++ beBytes 1 origin ++ [0, 0] ++ beBytes 8 seq

/-- One datagram of a reply, authenticated when the request was (R360). -/
def replyPart (r : Staged) (pick : Word) (last : Bool) (plain : List Byte) : List Byte :=
  let h := r.msg.hdr
  let n := plain.length + (if r.key.isSome then 16 else 0)
  let head := septaHeader h.plane.toNat h.partition.toNat h.context.toNat (1 + (if last then 4 else 0) + hdrOrigin h * 256)
    h.sequence.toNat pick.toNat n r.type
  head ++ match r.key with
    | none => plain
    | some k => gcmSeal k (msgNonce 1 (hdrOrigin h) h.sequence.toNat) head plain

/-- The parts of a reply body larger than the MTU allows (R358): each with the reply head and its OFFSET and TOTAL. -/
def replyParts (r : Staged) (pick : Word) (head body : List Byte) (room off fuel : Nat) : List (List Byte) :=
  match fuel with
  | 0 => []
  | k + 1 =>
    let c := (body.drop off).take (max 1 (room - 16))
    let last := decide (body.length ≤ off + c.length)
    replyPart r pick last (head ++ beBytes 4 off ++ beBytes 4 body.length ++ c)
      :: (if last then [] else replyParts r pick head body room (off + c.length) k)

/-- The datagrams of a reply. -/
def State.replyBytes (s : State) (r : Staged) (status field head : Nat) (body : List Byte) (pick : Word) : List (List Byte) :=
  let h := beBytes 1 status ++ beBytes 1 (if field = 0xFFFF then head else 0) ++ beBytes 2 field ++ [0, 0, 0, 0]
  let room := s.udpRoom r.msg.route.dst.v4 - 32 - (if r.key.isSome then 16 else 0)
  if h.length + body.length ≤ room then [replyPart r pick true (h ++ body)]
  else replyParts r pick h body room 0 (body.length + 1)

/-- Datagrams go back to the source of the copy they answer (R328, R330, R342). -/
def State.sendBack (s : State) (t : Route) (l : List (List Byte)) : State :=
  match s.replyPort t.port with
  | none => s
  | some p => l.foldl (fun s b =>
      s.emit { kind := .septa, port := p.val, vlan := t.vlan.toNat, mac := some t.srcMac, dst := t.src, dstPort := t.srcPort, bytes := b }) s

/-- Whether a kept reply answers a request. -/
def Kept.answers (k : Kept) (h : Hdr) : Bool :=
  k.plane == h.plane.toNat && k.part == h.partition.toNat && k.origin == hdrOrigin h && k.seq == h.sequence

/-- The module keeps its last 4,096 replies, newest last; an outcome takes the place of its STAGED reply (R342, R346). -/
def State.keep (s : State) (r : Staged) (l : List (List Byte)) : State :=
  let h := r.msg.hdr
  let k : Kept := { plane := h.plane.toNat, part := h.partition.toNat, origin := hdrOrigin h, seq := h.sequence, datagrams := l }
  let old := s.net.kept
  let all := if old.any (fun e => e.answers h) then old.map (fun e => if e.answers h then k else e) else old ++ [k]
  { s with net := { s.net with kept := all.drop (all.length - 4096) } }

/-- Refusals count (NET_COUNT). -/
def State.countStatus (s : State) (status : Nat) : State :=
  if status = 5 then s.bump .netCount Fl.netCount_STALE 1
  else if status = 2 ∨ status = 3 ∨ status = 4 ∨ status = 7 then s.bump .netCount Fl.netCount_REFUSED 1
  else s

/-- A reply leaves, and is kept when its request entered its window (log entry 38). -/
def State.reply (s : State) (r : Staged) (status field head : Nat) (body : List Byte) (kept : Bool) (pick : Word) : State :=
  let l := s.replyBytes r status field head body pick
  let s := if kept then s.keep r l else s
  (s.countStatus status).sendBack r.msg.route l

/-! ### Sequence windows (R341) -/

/-- The window of a plane, partition and origin. -/
def windowKey (h : Hdr) : Nat := h.plane.toNat * 65536 + h.partition.toNat * 256 + hdrOrigin h

def Window.empty : Window := { high := 0, seen := 0 }

/-- What a sequence number is to a window. -/
inductive Standing where
  | fresh (w : Window)
  | duplicate
  | stale

def Window.judge (w : Window) (n : Nat) : Standing :=
  if w.high < n then .fresh { high := n, seen := (w.seen <<< (n - w.high)) ||| 1 }
  else if 256 ≤ w.high - n then .stale
  else if w.seen.getLsbD (w.high - n) then .duplicate
  else .fresh { w with seen := w.seen ||| (1 <<< (w.high - n)) }

/-- A partition's windows are emptied when it is created. -/
def State.emptyWindows (s : State) (p : Fin 16) : State :=
  { s with net := { s.net with windows := s.net.windows.filter (fun e => e.1 / 256 % 256 != p.val) } }

/-! ### Payload forms (R11, R14, R344) -/

/-- A payload field: its bytes, and whether it is plain, reserved, or a count, length or pick that all ones never names. -/
inductive Fit where
  | any (n : Nat)
  | zero (n : Nat)
  | count (n : Nat)
  deriving DecidableEq, Repr

def Fit.size (f : Fit) : Nat := match f with | .any n => n | .zero n => n | .count n => n

def Fit.ok (f : Fit) (bs : List Byte) : Bool :=
  match f with
  | .any _ => true
  | .zero _ => allZero bs
  | .count n => beNat bs != 2 ^ (8 * n) - 1

/-- The first field that breaks the form, by its offset. -/
def formBreaks (l : List Fit) (bs : List Byte) (off : Nat) : Option Nat :=
  match l with
  | [] => none
  | f :: rest => if f.ok (slice bs off f.size) then formBreaks rest bs (off + f.size) else some off

/-- A payload of the wrong size names its first byte missing or too many (log entry 38). -/
def formFails (l : List Fit) (tail : Bool) (bs : List Byte) : Option Nat :=
  let n := l.foldl (fun n f => n + f.size) 0
  if bs.length < n ∨ (!tail ∧ n < bs.length) then some (min bs.length n) else formBreaks l bs 0

/-! ### Requests -/

/-- A message type: its code, the planes that it may come on, whether it is authenticated, and its payload (R344). -/
structure MsgType where
  code : Nat
  control : Bool
  mgmt : Bool
  authentic : Bool
  form : List Fit
  tail : Bool
  deriving DecidableEq, Repr

/-- Bytes of a request's payload as a number. -/
def Staged.num (r : Staged) (off n : Nat) : Nat := beNat (slice r.payload off n)

/-- The partition and context that a request names. -/
def Staged.part? (r : Staged) : Option (Fin 16) :=
  if r.msg.hdr.partition.toNat < 16 then some (Fin.ofNat 16 r.msg.hdr.partition.toNat) else none
def Staged.ctx? (r : Staged) : Option (Fin 8) :=
  if r.msg.hdr.context.toNat < 8 then some (Fin.ofNat 8 r.msg.hdr.context.toNat) else none

/-- The session that a request belongs to: its partition's, or the module's (R359). -/
def sessionKey (h : Hdr) : Nat := if h.partition.toNat < 16 then h.partition.toNat else 16

/-- Header values after the window (R339, R340, R344, R332): what refuses the request. -/
def headerFails (h : Hdr) (t : MsgType) (ep : Endpoint) : Option Answer :=
  if h.version ≠ 1 then some (.header 2)
  else if 0x10 ≤ h.partition.toNat ∧ h.partition.toNat ≤ 0xFE then some (.header 4)
  else if 8 ≤ h.context.toNat ∧ h.context.toNat ≤ 0xFE then some (.header 5)
  else if bits h.flags.toNat 3 5 ≠ 0 then some (.header 6)
  else if h.pick = BitVec.allOnes 64 then some (.header 0x10)
  else if h.reserved ≠ 0 then some (.header 0x1E)
  else match ep with
    | .mgmt => if t.mgmt then none else some (.reply 3 0xFFFF 0x1C [])
    | .control p =>
      if !t.control then some (.reply 3 0xFFFF 0x1C [])
      else if h.partition.toNat ≠ p.val then some (.target 4) else none
    | .data _ _ => none

/-- Carries out an accepted request and answers it. -/
def State.answer (s : State) (r : Staged) (f : Staged → State → State × Answer) : State :=
  match f r s with
  | (s, .reply st fd hd body) => s.reply r st fd hd body true r.pick
  | (s, .staged) => ({ s with net := { s.net with staged := s.net.staged ++ [r] } } : State).reply r 1 0 0 [] true r.pick
  | (s, .later w) => { s with net := { s.net with waiting := s.net.waiting ++ [(w, r)] } }

/-- An authenticated message's payload and key; else how it is refused, with what that leaves behind (R360). -/
def State.authenticate (s : State) (t : MsgType) (m : Msg) : Except (State × Answer) (List Byte × Option (BitVec 256)) :=
  if !t.authentic then .ok (m.payload, none)
  else match s.sec.sessions.find? (sessionKey m.hdr) with
    | none => .error (s, .target 6)
    | some k =>
      if k.origin ≠ hdrOrigin m.hdr then .error (s, .target 6)
      else match gcmOpen k.kMsg (msgNonce 0 (hdrOrigin m.hdr) m.hdr.sequence.toNat) (msgHeader m.hdr t.code) m.payload with
        | none => .error ((s.bump .secCount Fl.secCount_MSG_FAIL 1).report (beamUnit 0x28) 0x0804 0, .header 0)
        | some p => .ok (p, some k.kMsg)

/-- A request accepted at an endpoint: authentication, then the window, then header values and form, then its handler. -/
def State.request (s : State) (t : MsgType) (ep : Endpoint) (m : Msg) (f : Staged → State → State × Answer) : State :=
  let n := m.hdr.sequence.toNat
  let r : Staged := { type := t.code, msg := m, payload := m.payload, key := none, pick := s.arrival, mgmt := ep == .mgmt }
  if n = 0 ∨ n = 2 ^ 64 - 1 then s.reply r 2 0xFFFF 8 [] false r.pick
  else match s.authenticate t m with
    | .error (s, .reply st fd hd body) => s.reply r st fd hd body false r.pick
    | .error (s, _) => s
    | .ok (payload, key) =>
      let r := { r with payload := payload, key := key }
      match (s.net.windows.get (windowKey m.hdr) Window.empty).judge n with
      | .stale => s.reply r 5 0xFFFF 8 [] false r.pick
      | .duplicate =>
        let s := s.bump .netCount Fl.netCount_DUPLICATES 1
        match s.net.kept.find? (fun k => k.answers m.hdr) with
        | some k => s.sendBack m.route k.datagrams
        | none => s.reply r 6 0 0 [] false r.pick
      | .fresh w =>
        let s := { s with net := { s.net with windows := s.net.windows.put (windowKey m.hdr) w Window.empty } }
        match headerFails m.hdr t ep with
        | some (.reply st fd hd body) => s.reply r st fd hd body true r.pick
        | some _ => s
        | none =>
          match formFails t.form t.tail payload with
          | some off => s.reply r 2 off 0 [] true r.pick
          | none => s.answer r f

/-- A Septa message arrives (R332, R339): at a port with link, at one of the device's endpoints. A wrong MAGIC or LENGTH, a PLANE that
is not the endpoint's, or a reply (log entry 38) is discarded and counted. -/
def State.septa (s : State) (t : MsgType) (m : Msg) (f : Staged → State → State × Answer) : Out :=
  let q := s.port m.route.port
  if !q.link then .next s
  else if q.macsec = 1 then .next (s.bump (.netPort m.route.port) Fl.netPort_MACSEC_DROP 1)
  else
    let s := s.sawFrame m.route.port.val m.route.vlan.toNat m.route.src m.route.srcMac
    match s.endpointAt m.route.port m.route.vlan.toNat m.route.dst with
    | none => .next s
    | some ep =>
      let plane := match ep with | .mgmt => 3 | .control _ => 1 | .data _ _ => 2
      if ep == .mgmt && !s.mgmtReady then .next s
      else if m.hdr.magic.toNat ≠ 0x5E7A ∨ m.hdr.length.toNat ≠ m.payload.length ∨ plane = 2 ∨ m.hdr.plane.toNat ≠ plane
          ∨ m.hdr.flags.getLsbD 0 then
        .next (s.bump .netCount Fl.netCount_BAD_HEADER 1)
      else .next (s.request t ep m f)

/-- Outcome of a staged management request, or a reply that had to wait (R22, R346). -/
def State.outcome (s : State) (r : Staged) (status field : Nat) (body : List Byte) (pick : Word) : State :=
  s.reply r status field 0 body true pick

/-- Requests that have waited for something are answered DONE (R22). -/
def State.answerWaiting (s : State) (what : Nat) : State :=
  let l := s.net.waiting.filter (fun e => e.1 == what)
  let s := { s with net := { s.net with waiting := s.net.waiting.filter (fun e => e.1 != what) } }
  l.foldl (fun s e => s.outcome e.2 0 0 [] e.2.pick) s

/-- ECHO (R344). -/
def typeEcho : MsgType := { code := 1, control := true, mgmt := true, authentic := false, form := [], tail := true }
def execEcho (m : Msg) (s : State) : Out :=
  s.septa typeEcho m (fun r s => (s, if 256 < r.payload.length then .field 256 else .done r.payload))

end Sys2Proof.Machine
end

