-- ==== Sys2Proof/Machine/Capacity.lean ====
section
/-! DEFINITION. Sys2Proof/Machine/Capacity.lean: what the stacks hold: carves, reserved regions and staging shares (15 R287
to R289, R293; 10 R187, 11 R207, 13 R252). -/

namespace Sys2Proof.Machine

open Sys2Proof

/-- Bytes of a 2 MiB cloth page, and carvable bytes of a stack (R288). -/
def pageBytes : Nat := 2097152
def stackBytes : Nat := 36608 * 1048576

def roundUp (n unit : Nat) : Nat := ceilDiv n unit * unit

/-- The picture region and jitter buffer of a Creel slot (R252). -/
def CreelCfg.region (c : CreelCfg) : Nat :=
  (if c.format = 7 then 2 * c.width * c.height * 4 else 9 * c.width * c.height * 3 * 2)
    + (if c.format = 1 ∨ c.format = 2 ∨ c.format = 4 ∨ c.format = 5 then c.jitter else 0)

/-- The stream-table region, at the stream home (R187). -/
def PartCfg.streamRegion (k : PartCfg) : Nat := roundUp (128 * k.pools.streams + 32 * k.pools.slots) pageBytes

/-- The pool region: frames, sequence table, staging area and prefix-tree buckets (R207), and the Creel's regions, all spread
over the partition's stacks. -/
def PartCfg.spreadRegions (k : PartCfg) : Nat :=
  k.pools.pages * k.pools.frame + 64 * k.pools.seqs + 4096 * k.pools.staging + 16 * k.pools.pages
    + k.creel.foldl (fun n c => n + c.region) 0

/-- The map region: 16 bytes per carved page, on every mill of the partition (R287). -/
def PartCfg.mapRegion (k : PartCfg) : Nat := k.carves.foldl (fun n v => n + 16 * (v.len / pageBytes)) 0

/-- Bytes that a partition holds on a mill's stacks, staged copies left out: near-home carves placed there, its equal share of
the spread carves, and the reserved regions (R288). -/
def PartCfg.nearBytes (k : PartCfg) (m : Fin 8) : Nat :=
  let near := k.carves.filter (fun v => !v.far)
  let sum := fun (l : List CarveCfg) => l.foldl (fun n v => n + v.len) 0
  sum (near.filter (fun v => v.placement == m.val))
    + (if !k.mills.contains m then 0
       else ceilDiv (sum (near.filter (fun v => v.placement == 0x40)) + k.spreadRegions) (max 1 k.mills.length)
         + (if k.home = m then k.streamRegion else 0) + k.mapRegion)

/-- Bytes held on a mill by every live partition, and pages staged there (R288, MEM_STAGE). -/
def State.nearBytes (s : State) (m : Fin 8) : Nat := s.parts.foldl (fun n e => n + e.2.cfg.nearBytes m) 0
def Part.stagedOn (x : Part) (m : Fin 8) : Nat :=
  (x.cloth.pages.filter (fun e => e.2.mill == m.val && e.2.staged.isSome)).length
def State.stagedOn (s : State) (m : Fin 8) : Nat := s.parts.foldl (fun n e => n + e.2.stagedOn m) 0

/-- The stacks of a mill that can hold granules: neither failed, nor out, nor never trained (R288, R306). -/
def stackOf (m : Fin 8) (i : Nat) : Fin 32 := Fin.ofNat 32 (4 * m.val + i)
def State.usableStacks (s : State) (m : Fin 8) : List (Fin 32) :=
  ((List.range 4).map (stackOf m)).filter (fun k => s.stack k == 2 || s.stack k == 3 || s.stack k == 5)

/-- 2 MiB units held on one stack of a mill, and not held: what a mill holds lies in equal shares on its usable stacks (log
entry 27). -/
def State.stackCarved (s : State) (k : Fin 32) : Nat :=
  let m : Fin 8 := Fin.ofNat 8 (k.val / 4)
  let l := s.usableStacks m
  if l.contains k then ceilDiv (s.nearBytes m + s.stagedOn m * pageBytes) (pageBytes * l.length) else 0
def State.stackFree (s : State) (k : Fin 32) : Nat :=
  if (s.usableStacks (Fin.ofNat 8 (k.val / 4))).contains k then stackBytes / pageBytes - s.stackCarved k else 0

/-- Pages of a mill's staging pool (R293). -/
def State.stagingPool (s : State) (m : Fin 8) : Nat :=
  (stackBytes * (s.usableStacks m).length - s.nearBytes m) / pageBytes

/-- A context has a far-home carve placed on a mill. -/
def PartCfg.stagesOn (k : PartCfg) (c : Fin 8) (m : Fin 8) : Bool :=
  (k.carvesOf c).any (fun v => v.far && v.placement == m.val)

/-- Sum of the weights of the contexts that share a mill's staging pool. -/
def PartCfg.stagingWeight (k : PartCfg) (m : Fin 8) : Nat :=
  (List.finRange 8).foldl (fun n c => if k.stagesOn c m then n + (k.ctx c).weight else n) 0

/-- A context's staging share on a mill, in pages (R293). -/
def State.stagingShare (s : State) (k : PartCfg) (c : Fin 8) (m : Fin 8) : Nat :=
  let all := s.parts.foldl (fun n e => n + e.2.cfg.stagingWeight m) 0
  if all = 0 then 0 else s.stagingPool m * (k.ctx c).weight / all

/-- The stack that holds a near granule g of a carve (R289, R306): the hash's choice among the home's stacks, or, while that
stack is out, among the others. -/
def granuleHash (g : Nat) : Nat := g ^^^ (g >>> 5) ^^^ (g >>> 11) ^^^ (g >>> 19)
def PartCfg.stacksFor (k : PartCfg) (placement : Nat) : List (Fin 32) :=
  (if placement = 0x40 then k.mills else [Fin.ofNat 8 placement]).flatMap (fun m => (List.range 4).map (stackOf m))
def State.granuleStack (s : State) (k : PartCfg) (placement g : Nat) : Fin 32 :=
  let l := k.stacksFor placement
  let h := granuleHash g
  let first := l.getD (h % max 1 l.length) 0
  if s.stack first = 4 then
    let rest := l.filter (fun i => i != first)
    rest.getD (h % max 1 rest.length) 0
  else first

end Sys2Proof.Machine
end

