-- ==== Sys2Proof/Machine/Cloth.lean ====
section
/-! DEFINITION. Sys2Proof/Machine/Cloth.lean: reads and writes of cloth space as the memory tiers see them: traffic, staging,
eviction, dirty marks and prefetch (15 R289 to R298), and the protection of carves (18 R363). -/

namespace Sys2Proof.Machine

open Sys2Proof

def State.modPage (s : State) (p : Fin 16) (k : Nat) (f : Page → Page) : State :=
  s.modPart p (fun x => match x.cloth.pages.find? k with
    | none => x
    | some g => { x with cloth := { x.cloth with pages := x.cloth.pages.ins k (f g) } })

/-- The far-home page that holds an address, with its number. -/
def Part.pageAt (x : Part) (a : Nat) : Option (Nat × Page) :=
  (x.cloth.pages.find? (a / pageBytes)).map (fun g => (a / pageBytes, g))

/-- A write-back of a page begins (R293, R294). -/
def State.writeBack (s : State) (p : Fin 16) (k : Nat) (evict : Bool) : State :=
  s.modPage p k (fun g => { g with writing := true, evict := g.evict || evict })

/-- An eviction: a page with dirty granules, or never written to its device but written since, is written back first; a clean
one is freed at once (R293). -/
def State.evictPage (s : State) (p : Fin 16) (k : Nat) (g : Page) : State :=
  if g.dirty.isEmpty then s.modPage p k (fun g => { g with staged := none, evict := false })
  else s.writeBack p k true

/-- The staged page of a context on a mill that was staged earliest and is not yet being evicted (R293). -/
def Part.earliest (x : Part) (ctx mill : Nat) : Option (Nat × Page) :=
  (x.cloth.pages.filter (fun e => e.2.ctx == ctx && e.2.mill == mill && e.2.staged.isSome && !e.2.evict)).foldl
    (fun b e => match b with
      | none => some e
      | some d => if e.2.staged.getD 0 < d.2.staged.getD 0 then some e else b) none

/-- Room is made for one more staged page of a context on a mill: a full share evicts (R293). -/
def State.makeRoom (s : State) (p : Fin 16) (ctx mill : Nat) : State :=
  match s.part? p with
  | none => s
  | some x =>
    let n := (x.cloth.pages.filter (fun e => e.2.ctx == ctx && e.2.mill == mill && (e.2.staged.isSome || e.2.staging))).length
    if n < s.stagingShare x.cfg (Fin.ofNat 8 ctx) (Fin.ofNat 8 mill) then s
    else match x.earliest ctx mill with
      | none => s
      | some (k, g) => s.evictPage p k g

/-- The copy of a page into near frames is complete: reads move to it (R292). -/
def State.staged (s : State) (p : Fin 16) (k : Nat) : State :=
  match s.part? p with
  | none => s
  | some x =>
    match x.cloth.pages.find? k with
    | none => s
    | some g =>
      (s.setPart p { x with cloth := { x.cloth with
          pages := x.cloth.pages.ins k { g with staged := some x.cloth.stagings, staging := false },
          stagings := x.cloth.stagings + 1 } }).bump (.memStage (Fin.ofNat 8 g.mill)) Fl.memStage_STAGES 1

/-- A request to stage a page; nothing for one staged or being staged (R293, R297). -/
def State.requestStage (s : State) (p : Fin 16) (k : Nat) : State :=
  match s.part? p with
  | none => s
  | some x =>
    match x.cloth.pages.find? k with
    | none => s
    | some g =>
      if g.staged.isSome || g.staging then s
      else (s.makeRoom p g.ctx g.mill).modPage p k (fun g => { g with staging := true })

/-- A write to a page stages it first (R292). -/
def State.stageForWrite (s : State) (p : Fin 16) (k : Nat) : State :=
  match s.part? p with
  | none => s
  | some x =>
    match x.cloth.pages.find? k with
    | none => s
    | some g =>
      if g.staged.isSome then s
      else if g.staging then s.staged p k
      else ((s.makeRoom p g.ctx g.mill).modPage p k (fun g => { g with staging := true })).staged p k

/-- Pages that [a, a + n) touches. -/
def pagesOf (a n : Nat) : List Nat := if n = 0 then [] else rangeFrom (a / pageBytes) ((a + n - 1) / pageBytes + 1 - a / pageBytes)

/-- A write marks the granules of staged pages dirty (R292). -/
def State.markDirty (s : State) (p : Fin 16) (a n : Nat) : State :=
  (blocksOf a n).foldl (fun s b =>
    s.modPage p (4096 * b / pageBytes) (fun g =>
      if g.writing then { g with again := g.again.put b true false } else { g with dirty := g.dirty.put b true false })) s

/-- 64-byte units of granule b that [a, a + n) touches. -/
def unitsIn (a n b : Nat) : Nat :=
  let lo := max a (4096 * b)
  let hi := min (a + n) (4096 * b + 4096)
  ceilDiv hi 64 - lo / 64

/-- Traffic of an access on the stacks that serve it: near granules, and granules of staged pages (R287, R289). -/
def State.traffic (s : State) (p : Fin 16) (a n : Nat) : State :=
  match s.part? p with
  | none => s
  | some x =>
    (blocksOf a n).foldl (fun s b =>
      match x.cfg.carves.find? (fun v => decide (v.base ≤ 4096 * b) && decide (4096 * b < v.base + v.len)) with
      | none => s
      | some v =>
        let near := !v.far || (match x.pageAt (4096 * b) with | none => false | some (_, g) => g.staged.isSome)
        if near then
          let k := s.granuleStack x.cfg v.placement b
          s.count (.memTraffic (Fin.ofNat 8 (k.val / 4)) (Fin.ofNat 4 k.val)) (unitsIn a n b)
        else s) s

/-- A write of bytes to a storage, with what the memory tiers do for it (R292, R296). -/
def State.store_ (s : State) (st : Store) (a : Nat) (bs : List Byte) : State :=
  match st with
  | .cloth p =>
    let s := (pagesOf a bs.length).foldl (fun s k => s.stageForWrite p k) s
    ((s.putAt st a bs).markDirty p a bs.length).traffic p a bs.length
  | _ => s.putAt st a bs

/-! ### Prefetch (R297, R298) -/

/-- The cloth range of a layer: its carve's base plus its offset, and its length (R37, R132). -/
def PartCfg.layerRange (k : PartCfg) (c : Fin 8) (y : LayerCfg) : Nat × Nat :=
  match (k.carvesOf c)[y.carve - 2]? with
  | none => (0, 0)
  | some v => (v.base + y.off, y.len)

def PartCfg.order? (k : PartCfg) (c : Fin 8) : Option OrderCfg := k.orders.find? (fun o => o.ctx == c.val)

/-- Layers of the window of a cursor (R297). -/
def OrderCfg.window (o : OrderCfg) (cursor : Nat) : List LayerCfg :=
  if o.layers.isEmpty then []
  else (List.range (o.lead + 1)).filterMap (fun j => o.layers[(cursor + j) % o.layers.length]?)

/-- The unit requests staging of the unstaged far-home pages of one cursor's window, in window and then page order. -/
def State.prefetch (s : State) (p : Fin 16) (a : At) : State :=
  match s.part? p with
  | none => s
  | some x =>
    match x.cfg.order? a.ctx with
    | none => s
    | some o =>
      let cursor := x.cloth.cursors.get (a.loom.val * 8 + a.ctx.val) 0
      (o.window cursor).foldl (fun s y =>
        let r := x.cfg.layerRange a.ctx y
        (pagesOf r.1 r.2).foldl (fun s k => s.requestStage p k) s) s

/-- A read moves the cursor of its loom and context to the layer it meets, when that is another (R297). -/
def State.moveCursor (s : State) (p : Fin 16) (a : At) (addr n : Nat) : State :=
  match s.part? p with
  | none => s
  | some x =>
    match x.cfg.order? a.ctx with
    | none => s
    | some o =>
      let key := a.loom.val * 8 + a.ctx.val
      let hit := fun (y : LayerCfg) =>
        let r := x.cfg.layerRange a.ctx y
        decide (addr < r.1 + r.2) && decide (r.1 < addr + n)
      match o.layers.findIdx? hit with
      | none => s
      | some i =>
        if (match o.layers[x.cloth.cursors.get key 0]? with | none => false | some y => hit y) then s
        else (s.setPart p { x with cloth := { x.cloth with cursors := x.cloth.cursors.put key i 0 } }).prefetch p a

/-- Granule reads of [addr, addr + n) inside a layer range that the far devices serve directly (R298). -/
def Part.unstagedReads (x : Part) (c : Fin 8) (addr n : Nat) : Nat :=
  match x.cfg.order? c with
  | none => 0
  | some o =>
    ((blocksOf addr n).filter (fun b =>
      (match x.pageAt (4096 * b) with | none => false | some (_, g) => g.staged.isNone)
        && o.layers.any (fun y =>
          let r := x.cfg.layerRange c y
          decide (4096 * b < r.1 + r.2) && decide (r.1 < 4096 * b + 4096)))).length

/-- Direct reads in thousands (MEM_STAGE UNSTAGED_READS). -/
def State.countUnstaged (s : State) (m : Fin 8) (n : Nat) : State :=
  let t := s.mem.unstaged.get m.val 0 + n
  { (s.bump (.memStage m) Fl.memStage_UNSTAGED_READS (t / 1000)) with
    mem := { s.mem with unstaged := s.mem.unstaged.put m.val (t % 1000) 0 } }

/-- What a read of a storage does besides delivering bytes: traffic, and for a loom's read of cloth space the prefetch cursor
and the count of direct reads. -/
def State.load_ (s : State) (who : Option At) (st : Store) (addr n : Nat) : State :=
  match st with
  | .cloth p =>
    let s := s.traffic p addr n
    match who, s.part? p with
    | some a, some x => (s.countUnstaged (millOf a.loom.val) (x.unstagedReads a.ctx addr n)).moveCursor p a addr n
    | _, _ => s
  | _ => s

/-! ### Protected carves (18 R363) -/

/-- [addr, addr + n) of cloth space touches a protected carve of the context. -/
def PartCfg.touchesProtected (k : PartCfg) (addr n : Nat) : Bool :=
  k.carves.any (fun v => v.prot && meets' v addr n)
where
  meets' (v : CarveCfg) (addr n : Nat) : Bool := decide (v.base < addr + n) && decide (addr < v.base + v.len) && decide (0 < n)

/-- The partition holds a region secret. -/
def State.hasRegion (s : State) (p : Fin 16) : Bool := s.sec.region.has p.val

/-- An access to a protected carve with no region secret (0x0806). -/
def State.locked (s : State) (p : Fin 16) (k : PartCfg) (st : Store) (addr n : Nat) : Bool :=
  match st with
  | .cloth _ => k.touchesProtected addr n && !s.hasRegion p
  | _ => false

end Sys2Proof.Machine
end

