-- ==== Sys2Proof/Machine/Swatch.lean ====
section
/-! DEFINITION. Sys2Proof/Machine/Swatch.lean: the recording of a partition's inputs and results (19 R387 to R390, R394) and
the pick that a partition sees (R391). -/

namespace Sys2Proof.Machine

open Sys2Proof

/-- The partition runs on recorded picks. -/
def Part.replaying (x : Part) : Bool := match x.swatch with | none => false | some w => w.replay
def Part.recording (x : Part) : Bool := match x.swatch with | none => false | some w => !w.replay && !w.ended

/-- The pick that a partition sees (R391). -/
def State.pickFor (s : State) (x : Part) : Word :=
  match x.swatch with
  | none => s.now
  | some w => if w.replay then w.virtualPick else s.now

/-- Step 5 of the boundary of pick n has been processed, as the partition sees picks (R56, R138, R141). -/
def State.passed (s : State) (x : Part) (n : Nat) : Bool :=
  if x.replaying then decide (n ≤ (s.pickFor x).toNat)
  else s.pick.formed && (decide (n < s.now.toNat) || (decide (n = s.now.toNat) && s.pick.due.isNone))

/-- The length of a ring's data area (R388). -/
def Swatch.room (w : Swatch) : Nat := w.len - 4096

/-- The 64 bits at an address of a partition's cloth space. -/
def State.word64 (s : State) (p : Fin 16) (addr : Nat) : Nat := leNat (s.bytesAt (.cloth p) addr 8)

/-- Bytes written into a ring's data area from position `pos` on, around its end. -/
def State.putRing (s : State) (p : Fin 16) (base room pos : Nat) (bs : List Byte) : State :=
  let o := pos % max 1 room
  let n := min bs.length (room - o)
  let s := s.store_ (.cloth p) (base + 4096 + o) (bs.take n)
  if n < bs.length then s.store_ (.cloth p) (base + 4096) (bs.drop n) else s

/-- SHA-256 as the 32 bytes of a digest field, in transmitted order. -/
def sha (bs : List Byte) : List Byte := beBytes 32 (sha256 bs).toNat

/-- A whole record, padded to a multiple of 64 bytes (R389). -/
def swatchRecord (kind flags : Nat) (pick : Word) (body : List Byte) : List Byte :=
  let n := 64 * ceilDiv (16 + body.length) 64
  leBytes 1 kind ++ leBytes 1 flags ++ [0, 0] ++ leBytes 4 n ++ leBytes 8 pick.toNat ++ body
    ++ List.replicate (n - 16 - body.length) 0

/-- Appends a record to a recording's ring and moves PRODUCED. -/
def State.appendRecord (s : State) (p : Fin 16) (r : List Byte) : State :=
  match s.part? p with
  | none => s
  | some x =>
    match x.swatch with
    | none => s
    | some w =>
      let s := s.setPart p { x with swatch := some { w with pos := w.pos + r.length, records := w.records + 1, bytes := w.bytes ++ r } }
      (s.putRing p w.base w.room w.pos r).store_ (.cloth p) w.base (leBytes 8 (w.pos + r.length))

/-- An END record closes a recording: reason 1 stopped, 2 truncated, 3 partition ended (R389). -/
def State.endRecording (s : State) (p : Fin 16) (reason : Nat) : State :=
  match s.part? p with
  | none => s
  | some x =>
    match x.swatch with
    | none => s
    | some w =>
      if w.replay || w.ended then s
      else
        let body := leBytes 1 reason ++ List.replicate 7 0 ++ leBytes 8 w.records ++ sha w.bytes
        (s.appendRecord p (swatchRecord 7 0 s.now body)).modPart p (fun x =>
          { x with swatch := x.swatch.map (fun w => { w with ended := true }) })

/-- Records one input or result of a partition whose recording runs (R387); with less than 64 KiB of the ring free the
recording is truncated (R389). -/
def State.recordSwatch (s : State) (p : Fin 16) (kind flags : Nat) (pick : Word) (body : List Byte) : State :=
  match s.part? p with
  | none => s
  | some x =>
    match x.swatch with
    | none => s
    | some w =>
      if w.replay || w.ended then s
      else if w.room - (w.pos - s.word64 p (w.base + 8)) < 65536 then
        ((s.endRecording p 2).setFld (.safeSwatch p) Fl.safeSwatch_TRUNCATED 1).report (beamUnit 0x29) 0x0909 (attributionPart p)
      else s.appendRecord p (swatchRecord kind flags pick body)

/-- CLOTH records of a write from outside, at most 32,768 bytes each (R387, R389). -/
def State.recordCloth (s : State) (p : Fin 16) (flags addr : Nat) (bs : List Byte) (fuel : Nat) : State :=
  match fuel with
  | 0 => s
  | k + 1 =>
    if bs.isEmpty then s
    else
      let c := bs.take 32768
      (s.recordSwatch p 2 flags s.now (leBytes 8 addr ++ leBytes 4 c.length ++ [0, 0, 0, 0] ++ c)).recordCloth p flags
        (addr + 32768) (bs.drop 32768) k

/-- A write into a partition's cloth space from outside: stored, and recorded (R387). -/
def State.writeOutside (s : State) (p : Fin 16) (addr : Nat) (bs : List Byte) : State :=
  (s.store_ (.cloth p) addr bs).recordCloth p 0 addr bs (bs.length + 1)

/-- An ENTRY record: a control-plane run entry as posted (R387). -/
def State.recordEntry (s : State) (p : Fin 16) (c : Fin 8) (queue : Nat) (e : QEntry) : State :=
  s.recordSwatch p 3 0 s.now (leBytes 1 queue ++ leBytes 1 c.val ++ List.replicate 6 0
    ++ leBytes 8 e.w0.toNat ++ leBytes 8 e.w1.toNat ++ leBytes 8 e.w2.toNat ++ leBytes 8 e.w3.toNat)

/-- The body of a RESULT record (R389): kind 1 a push, 2 a run. -/
def resultBody (kind qp : Nat) (number : Nat) (digest : List Byte) : List Byte :=
  leBytes 1 kind ++ [0] ++ leBytes 2 qp ++ [0, 0, 0, 0] ++ leBytes 8 number ++ digest

/-- The 24 bytes of a RUN record (R351). -/
def runRecordBytes (outcome : Nat) (result : BitVec 16) (token : Word) : List Byte :=
  beBytes 2 1 ++ beBytes 2 24 ++ leBytes 1 outcome ++ [0] ++ beBytes 2 result.toNat ++ beBytes 8 token.toNat
    ++ List.replicate 8 0

end Sys2Proof.Machine
end

