-- ==== Sys2Proof/Machine/Store.lean ====
section
/-! DEFINITION. Sys2Proof/Machine/Store.lean: the journal store (20 R395 to R401): its records, transactions, objects, updates,
compaction and recovery, and the firmware images that it holds (18 R366, R367; 20 R402 to R405). -/

namespace Sys2Proof.Machine

open Sys2Proof

/-! ### Records and objects (R395 to R398) -/

/-- What one transaction does to one object. -/
inductive StoreItem where
  | write (o : BitVec 32) (bytes : List Byte)
  | delete (o : BitVec 32)
  | confirm (o : BitVec 32) (payload : List Byte)
  | attempt (o : BitVec 32) (payload : List Byte)
  deriving DecidableEq, Repr

/-- An object of a class (R397). -/
def objectOf (cls inst : Nat) : BitVec 32 := BitVec.ofNat 32 (cls * 2 ^ 24 + inst)

/-- Bytes of a segment, and of a record with its header on 64-byte boundaries (R395). -/
def segmentBytes : Nat := 4194304
def journalBytes (payload : Nat) : Nat := 64 * ceilDiv (32 + payload) 64

/-- Appends one record at the head; a record that does not fit its segment starts the next one. -/
def StoreUnit.append (k : StoreUnit) (kind : Nat) (copy : Bool) (txn : Nat) (o : BitVec 32) (payload : List Byte) : StoreUnit :=
  let n := journalBytes payload.length
  let fits := decide (k.headUsed + n ≤ segmentBytes)
  let seg := if fits then k.head else (k.head + 1) % 2048
  { k with
    records := k.records ++ [{ kind := kind, copy := copy, serial := k.nextSerial, txn := txn, object := o, payload := payload,
                               segment := seg }],
    nextSerial := k.nextSerial + 1, head := seg, headUsed := (if fits then k.headUsed else 0) + n }

/-- Content cut into DATA payloads of at most 65,504 bytes; empty content is one empty record. -/
def dataChunks (bs : List Byte) (fuel : Nat) : List (List Byte) :=
  match fuel with
  | 0 => []
  | n + 1 => if bs.length ≤ 65504 then [bs] else bs.take 65504 :: dataChunks (bs.drop 65504) n

/-- The records of an item: kind, object and payload. -/
def StoreItem.records (i : StoreItem) : List (Nat × BitVec 32 × List Byte) :=
  match i with
  | .write o bs => (dataChunks bs (bs.length + 1)).map (fun c => (1, o, c))
  | .delete o => [(3, o, [])]
  | .confirm o p => [(4, o, p)]
  | .attempt o p => [(5, o, p)]

/-- A whole transaction: its records, then a COMMIT that counts them with itself (log entry 37). -/
def StoreUnit.transact (k : StoreUnit) (copy : Bool) (items : List StoreItem) : StoreUnit :=
  let txn := k.nextSerial
  let rs := items.flatMap StoreItem.records
  let k := rs.foldl (fun k r => k.append r.1 copy txn r.2.1 r.2.2) k
  let digest := sha ((rs.filter (fun r => r.1 == 1)).flatMap (fun r => r.2.2))
  k.append 2 copy txn (match rs with | [] => 0 | r :: _ => r.2.1) (leBytes 4 (rs.length + 1) ++ digest)

/-- Transaction of an object's newest committed content, none where it does not exist (R397). -/
def StoreUnit.contentTxn (k : StoreUnit) (o : BitVec 32) : Option Nat :=
  k.records.foldl (fun t r => if r.object != o then t else if r.kind = 1 then some r.txn else if r.kind = 3 then none else t) none

/-- An object's content (R397). -/
def StoreUnit.content (k : StoreUnit) (o : BitVec 32) : Option (List Byte) :=
  (k.contentTxn o).map (fun t =>
    (k.records.filter (fun r => r.object == o && r.kind == 1 && r.txn == t)).flatMap (fun r => r.payload))

/-- The objects that exist, in order of the first record that names them. -/
def StoreUnit.objects (k : StoreUnit) : List (BitVec 32) :=
  ((k.records.map (fun r => r.object)).eraseDups).filter (fun o => (k.contentTxn o).isSome)

/-- Live content in bytes, and occupied segments (R395, R401). -/
def StoreUnit.live (k : StoreUnit) : Nat :=
  k.objects.foldl (fun n o => n + match k.content o with | none => 0 | some c => c.length) 0
def StoreUnit.occupied (k : StoreUnit) : Nat := ((k.records.map (fun r => r.segment)).eraseDups).length

/-- An update that R401 allows: live content within 4 GiB, 64 free segments left. -/
def StoreUnit.update? (k : StoreUnit) (items : List StoreItem) : Option StoreUnit :=
  let t := k.transact false items
  if 2 ^ 32 < t.live ∨ 2048 < t.occupied + 64 then none else some t

/-- Updates are refused: STORE_STATUS FULL (log entry 37). -/
def StoreUnit.full (k : StoreUnit) : Bool := (k.update? [.delete 0]).isNone

/-- A record of the store: unit kind 0x2C (R383). -/
def State.storeReport (s : State) (code : Nat) : State := s.report (beamUnit 0x2C) code 0

/-- The store after a change; crossing 75 % reports 0x0B02 (R400). -/
def State.withStore (s : State) (k : StoreUnit) : State :=
  let full := decide (1536 < k.occupied)
  let t := { s with store := { k with over75 := full } }
  if full && !s.store.over75 then t.storeReport 0x0B02 else t

/-- Commits one transaction; none where it is refused under R401, which the state then records (0x0B03). -/
def State.commit (s : State) (items : List StoreItem) : State × Bool :=
  match s.store.update? items with
  | some k => (s.withStore k, true)
  | none => (s.storeReport 0x0B03, false)

/-- Commits where nothing waits for the outcome. -/
def State.commit_ (s : State) (items : List StoreItem) : State := (s.commit items).1

/-- A calibration object is written after a training (R406): stacks 0 to 31, die links from 64, far ports from 192. What it
holds is open (log entry 37). -/
def State.calibrate (s : State) (inst : Nat) : State :=
  let (v, s) := s.draw 64
  s.commit_ [.write (objectOf 5 inst) (leBytes 8 v.toNat)]

/-- A valid calibration object is held. -/
def StoreUnit.calibrated (k : StoreUnit) (inst : Nat) : Bool := (k.contentTxn (objectOf 5 inst)).isSome

/-! ### Final accounting records (R406) -/

/-- The accounting records stored, oldest first. -/
def StoreUnit.accounts (k : StoreUnit) : List (BitVec 32) := k.objects.filter (fun o => o.toNat / 2 ^ 24 == 0x0A)

/-- The next instance. -/
def StoreUnit.nextAccount (k : StoreUnit) : Nat := k.accounts.foldl (fun n o => max n (o.toNat % 2 ^ 24 + 1)) 0

/-- As many of the oldest accounting records as are deleted in a transaction that would take the live content past 4 GiB. -/
def StoreUnit.dropsFor (k : StoreUnit) (room : Nat) (l : List (BitVec 32)) : List StoreItem :=
  match l with
  | [] => []
  | o :: rest =>
    if room ≤ 2 ^ 32 then []
    else .delete o :: k.dropsFor (room - match k.content o with | none => 0 | some c => c.length) rest

/-- Commits accounting records (partition, context, final pick, record) under the next instances. -/
def State.commitAccounts (s : State) (rs : List (List Byte)) : State :=
  if rs.isEmpty then s
  else
    let n := s.store.nextAccount
    let need := rs.foldl (fun t r => t + r.length) s.store.live
    s.commit_ (s.store.dropsFor need s.store.accounts
      ++ (rs.zipIdx).map (fun e => .write (objectOf 0x0A (n + e.2)) e.1))

/-! ### Fences (R407) -/

/-- The fence record: loom map (32 bytes), link map (12), reserved (4), and the mills fenced whole (1), whose stacks a later draft
cannot use (log entry 37). -/
def StoreUnit.fences (k : StoreUnit) : List Byte := (k.content (objectOf 9 0)).getD []
def StoreUnit.fenceLooms (k : StoreUnit) : Nat := leNat (slice k.fences 0 32)
def StoreUnit.fenceLinks (k : StoreUnit) : Nat := leNat (slice k.fences 32 12)
def StoreUnit.fenceMills (k : StoreUnit) : Nat := leNat (slice k.fences 48 1)
def fenceBytes (looms links mills : Nat) : List Byte := leBytes 32 looms ++ leBytes 12 links ++ [0, 0, 0, 0] ++ leBytes 1 mills

/-- The live fence map: the record, and the maps of the loaded full draft. -/
def State.fencedLoom (s : State) (g : Nat) : Bool := bit s.store.fenceLooms g || s.draft.fenceLooms.getLsbD g
def State.fencedLink (s : State) (i : Nat) : Bool := bit s.store.fenceLinks i || s.draft.fenceLinks.getLsbD i

/-! ### Compaction (R400) -/

/-- A window is open at a pick. -/
def State.windowOpen (s : State) (n : Word) : Bool :=
  let period := s.fld .storeCompact Fl.storeCompact_PERIOD
  let base := (s.reg .storeCompactBase).toNat
  decide (0 < period) && decide (base ≤ n.toNat) && decide ((n.toNat - base) % period < s.fld .storeCompact Fl.storeCompact_LENGTH)

/-- A pass is due. -/
def StoreUnit.passDue (k : StoreUnit) : Bool := k.wanted || decide (1536 < k.occupied)

/-- A pick source is locked or in holdover. -/
def State.pickRuns (s : State) : Bool :=
  let st := s.fld .pickStatus Fl.pickStatus_STATE
  st == 2 || st == 3

/-- A pass runs: STORE_STATUS COMPACTING. -/
def State.compacting (s : State) : Bool := s.store.passDue && s.pick.formed && s.pickRuns && s.windowOpen s.now

/-- The transaction that copies an object: its newest content, and for a firmware image what the boot ROM has noted about it
since (log entry 37). -/
def StoreUnit.copyOf (k : StoreUnit) (o : BitVec 32) : List StoreItem :=
  match k.content o, k.contentTxn o with
  | some c, some t =>
    .write o c :: (k.records.filter (fun r => r.object == o && decide (t ≤ r.txn))).filterMap (fun r =>
      if r.kind = 4 then some (.confirm o r.payload) else if r.kind = 5 then some (.attempt o r.payload) else none)
  | _, _ => []

/-- One pass over the oldest occupied segment. -/
def StoreUnit.compact (k : StoreUnit) : StoreUnit :=
  match k.records with
  | [] => { k with wanted := false }
  | r :: _ =>
    let seg := r.segment
    let k := if k.head = seg then { k with head := (seg + 1) % 2048, headUsed := 0 } else k
    let touched := k.objects.filter (fun o => match k.contentTxn o with
      | none => false
      | some t => k.records.any (fun r => r.object == o && r.kind == 1 && r.txn == t && r.segment == seg))
    let k := touched.foldl (fun k o => k.transact true (k.copyOf o)) k
    { k with records := k.records.filter (fun r => r.segment != seg), wanted := false }

/-- COMPACTION_PASS (R400): a pass is whole in one command. -/
def execCompactionPass (s : State) : Out := .next (if s.compacting then s.withStore s.store.compact else s)

/-- COMPACTION_WINDOW_END (R400): a window has ended with its pass not complete; once for a window. -/
def execCompactionWindowEnd (s : State) : Out :=
  .next (if s.store.passDue && s.pick.formed && decide (0 < s.now.toNat) && s.windowOpen (s.now - 1) && !s.windowOpen s.now then
      s.reportOnce (beamUnit 0x2C, 0x0B06, 0) (beamUnit 0x2C) 0x0B06 0
    else s)

/-! ### Recovery (R399) -/

/-- The records before the first that fails, cut after the last COMMIT; the head stands behind them. -/
def StoreUnit.scanned (k : StoreUnit) (n : Nat) : StoreUnit :=
  let good := ((k.records.take n).reverse.dropWhile (fun r => r.kind != 2)).reverse
  match good.getLast? with
  | none => { k with records := [], nextSerial := 1, head := 0, headUsed := 0 }
  | some r =>
    { k with records := good, nextSerial := r.serial + 1, head := r.segment,
             headUsed := (good.filter (fun x => x.segment == r.segment)).foldl (fun t x => t + journalBytes x.payload.length) 0 }

/-- The boot ROM's scan. A flash uncorrectable error fails the record that it lies in, which is open (log entry 37). -/
def State.scanStore (s : State) (flashError : Bool) : State :=
  if !flashError || s.store.records.isEmpty then s
  else
    let (v, s) := s.draw 64
    let k := s.store.scanned (v.toNat % s.store.records.length)
    (({ s with store := { k with over75 := decide (1536 < k.occupied) } } : State).storeReport 0x0B01).storeReport 0x0B04

/-! ### Firmware images (18 R366, R367; 20 R402 to R405) -/

/-- What an image's header says (R366): MAGIC, VERSION, KIND, SVN and CODE_LENGTH, little-endian (R2). -/
def imageSvn (bs : List Byte) : Nat := leNat (slice bs 8 4)

/-- The bytes that the signature covers, and FW_MEASURE. -/
def imageSigned (bs : List Byte) : List Byte := bs.take (64 + leNat (slice bs 12 4))
def imageMeasure (bs : List Byte) : List Byte := sha (imageSigned bs)

/-- An image verifies under R366 against a fuse count. -/
def imageOk (fuses : Nat) (bs : List Byte) : Bool :=
  let code := leNat (slice bs 12 4)
  decide (64 ≤ bs.length) && leNat (slice bs 0 4) == 0x4B46574D && leNat (slice bs 4 2) == 1 && leNat (slice bs 6 1) == 1
    && leNat (slice bs 7 1) == 0 && decide (imageSvn bs ≤ 127) && allZero (slice bs 16 48)
    && decide (bs.length = 64 + code + 7856) && Config.slhVerify Config.firmwareKey (imageSigned bs) (slice bs (64 + code) 7856)
    && decide (fuses ≤ imageSvn bs)

def imageObject (inst : Nat) : BitVec 32 := objectOf 1 inst

/-- An image has been confirmed since its commit, and its ATTEMPT records since then. -/
def StoreUnit.confirmed (k : StoreUnit) (inst : Nat) : Bool :=
  match k.contentTxn (imageObject inst) with
  | none => false
  | some t => k.records.any (fun r => r.object == imageObject inst && r.kind == 4 && decide (t ≤ r.txn))
def StoreUnit.attempts (k : StoreUnit) (inst : Nat) : Nat :=
  match k.contentTxn (imageObject inst) with
  | none => 0
  | some t => (k.records.filter (fun r => r.object == imageObject inst && r.kind == 5 && decide (t ≤ r.txn))).length

/-- The instances that hold an image, newest committed first. An unconfirmed image is newer than a confirmed one: no update is
taken while the running image is unconfirmed, and a confirmation deletes the rest (R402, R405); so a compaction copy, whose
transaction is newer, changes no order (log entry 37). -/
def StoreUnit.images (k : StoreUnit) : List Nat :=
  match k.contentTxn (imageObject 0), k.contentTxn (imageObject 1) with
  | none, none => []
  | some _, none => [0]
  | none, some _ => [1]
  | some a, some b =>
    if k.confirmed 0 && !k.confirmed 1 then [1, 0]
    else if !k.confirmed 0 && k.confirmed 1 then [0, 1]
    else if a < b then [1, 0] else [0, 1]

/-- The boot ROM looks for the image to start (R404): those passed over are reported, those that fail R366 with 0x0808 too. -/
def State.chooseImage (s : State) (l : List Nat) : State × Option Nat :=
  match l with
  | [] => (s, none)
  | i :: rest =>
    let ok := imageOk s.fuses.count ((s.store.content (imageObject i)).getD [])
    if ok && (s.store.confirmed i || decide (s.store.attempts i ≤ 2)) then (s, some i)
    else
      let s := if ok then s else s.report (beamUnit 0x28) 0x0808 0
      (s.storeReport 0x0B05).chooseImage rest

/-- SVN and FW_MEASURE of an instance's image: the payload of BOOT_CONFIRM and ATTEMPT. -/
def StoreUnit.imageNote (k : StoreUnit) (inst : Nat) : List Byte :=
  let bs := (k.content (imageObject inst)).getD []
  leBytes 4 (imageSvn bs) ++ imageMeasure bs

/-- An image starts (R404); none where no image verifies. -/
def State.startImage (s : State) : State × Bool :=
  match s.chooseImage s.store.images with
  | (s, none) => ({ s with store := { s.store with running := none } }, false)
  | (s, some i) =>
    let s := if s.store.confirmed i then s else s.commit_ [.attempt (imageObject i) (s.store.imageNote i)]
    let svn := imageSvn ((s.store.content (imageObject i)).getD [])
    ({ s with store := { s.store with running := some (i, svn, s.store.confirmed i, s.store.attempts i) } }, true)

/-- A verified image is committed into the free instance, or in place of an unconfirmed image that is not running (R402). -/
def State.commitImage (s : State) (bs : List Byte) : State × Bool :=
  let run := match s.store.running with | none => 2 | some r => r.1
  let free := ([0, 1].filter (fun i => (s.store.contentTxn (imageObject i)).isNone)).head?
  let old := ([0, 1].filter (fun i => i != run && !s.store.confirmed i)).head?
  match free, old with
  | some i, _ => s.commit [.write (imageObject i) bs]
  | none, some i => s.commit [.write (imageObject i) bs]
  | none, none => (s, false)

/-- Fuses burn up to an SVN, and the store's shadow follows (R367). -/
def State.burnFuses (s : State) (svn : Nat) : State :=
  if svn ≤ s.fuses.count then s
  else ({ s with fuses := { s.fuses with count := min svn 127 } } : State).commit_ [.write (objectOf 4 0) (leBytes 4 (min svn 127))]

/-- The running image is confirmed, the others are deleted, and fuses are burnt (R405). -/
def State.confirmImage (s : State) : State × Bool :=
  match s.store.running with
  | none => (s, false)
  | some (i, svn, _, n) =>
    let others := [0, 1].filter (fun j => j != i && (s.store.contentTxn (imageObject j)).isSome)
    let (s, ok) := s.commit (.confirm (imageObject i) (s.store.imageNote i) :: others.map (fun j => .delete (imageObject j)))
    if ok then (({ s with store := { s.store with running := some (i, svn, true, n) } } : State).burnFuses svn, true)
    else (s, false)

end Sys2Proof.Machine
end

