-- ==== Sys2Proof/Machine/Links.lean ====
section
/-! DEFINITION. Sys2Proof/Machine/Links.lean: the die links (01 R18 to R24, R435; 19 R372). -/

namespace Sys2Proof.Machine

open Sys2Proof

/-! ### Ends of a link (R19, R435) -/

/-- The mill that reports a link's conditions, and its local endpoint: mill p of ring link 8p to 8p + 7, mill m of beam link
64 + 4m to 67 + 4m. -/
def linkMill (i : Fin 96) : Fin 8 := if i.val < 64 then Fin.ofNat 8 (i.val / 8) else Fin.ofNat 8 ((i.val - 64) / 4)
def linkEnd (i : Fin 96) : Fin 20 := if i.val < 64 then Fin.ofNat 20 (i.val % 8) else Fin.ofNat 20 (16 + i.val % 4)

/-- The other end of a ring link; a beam link's other end is the beam die's. -/
def linkFar? (i : Fin 96) : Option (Fin 8 × Fin 20) :=
  if i.val < 64 then some (Fin.ofNat 8 (i.val / 8 + 1), Fin.ofNat 20 (8 + i.val % 8)) else none

/-- The link of a mill's local endpoint (R19). -/
def endLink (m : Fin 8) (e : Fin 20) : Fin 96 :=
  if e.val < 8 then Fin.ofNat 96 (8 * m.val + e.val)
  else if e.val < 16 then Fin.ofNat 96 (8 * ((m.val + 7) % 8) + (e.val - 8))
  else Fin.ofNat 96 (64 + 4 * m.val + (e.val - 16))

/-- DETAIL of a die-link record (R435). -/
def linkDetail (i : Fin 96) (endpoint lane : Nat) : Nat := i.val + endpoint * 2 ^ 8 + lane * 2 ^ 16

/-- A condition of 0x0601 to 0x0603, reported by the mill end. -/
def State.linkReport (s : State) (i : Fin 96) (code lane : Nat) : State :=
  s.report (millUnit (linkMill i) 0x19) code (linkDetail i (linkEnd i).val lane)

/-- LINK_STATE of both ends keeps LANE_FAULT (R22). -/
def State.setLaneFault (s : State) (i : Fin 96) : State :=
  let s := s.setFld (.linkState (linkMill i) (linkEnd i)) Fl.linkState_LANE_FAULT 1
  match linkFar? i with
  | none => s
  | some (m, e) => s.setFld (.linkState m e) Fl.linkState_LANE_FAULT 1

/-! ### Width (R22, R23) -/

/-- The lowest failed lane. -/
def Link.lowest (k : Link) : Nat := k.failedLanes.foldl min 63

/-- A lane of one half has failed. -/
def Link.halfFailed (k : Link) (high : Bool) : Bool := k.failedLanes.any (fun n => decide (32 ≤ n) == high)

/-- A link goes down: it carries nothing, and what it held is gone (R22, R23). -/
def Link.down (k : Link) : Link := { k with width := 0, training := false, held := [] }

/-- A link whose failed lanes are known narrows to the half that holds none, or goes down (R22). -/
def State.narrow (s : State) (i : Fin 96) (k : Link) : State :=
  let s := s.setLaneFault i
  if k.halfFailed false && k.halfFailed true then (s.setLink i k.down).linkReport i 0x0603 k.lowest
  else (s.setLink i { k with width := 1 }).linkReport i 0x0601 k.lowest

/-- LANE_FAILURE (R22). A lane of the half that a narrowed link has left changes no width; one that fails while the link trains
counts when the training ends. -/
def execLaneFailure (link : Fin 96) (lane : Fin 64) (s : State) : Out :=
  let k := s.link link
  let l := { k with failedLanes := if k.failedLanes.contains lane.val then k.failedLanes else lane.val :: k.failedLanes }
  if k.width = 0 then .next s
  else if k.training then .next ((s.setLink link l).setLaneFault link)
  else if k.width = 1 && !(l.halfFailed false && l.halfFailed true) then .next ((s.setLink link l).setLaneFault link)
  else .next (s.narrow link l)

/-- RETRY_LIMIT_REACHED (R24): the link retrains in place, its traffic held. -/
def execRetryLimitReached (link : Fin 96) (s : State) : Out :=
  let k := s.link link
  if k.width = 0 || k.training || (decide (k.fails.1 < 8) && decide (k.fails.2 < 8)) then .next s
  else .next ((s.setLink link { k with training := true }).linkReport link 0x0602 0)

/-! ### Flits (R20, R21, R24) -/

/-- Credits that a context's CREDITS record carves for a link, in each direction (R20). -/
def PartCfg.creditsOn (k : PartCfg) (c : Fin 8) (i : Fin 96) : Nat :=
  (k.credits.filter (fun e => e.ctx == c.val && e.link == i.val)).foldl (fun n e => n + e.credits) 0
def State.creditsOn (s : State) (p : Fin 16) (c : Fin 8) (i : Fin 96) : Nat :=
  match s.part? p with
  | none => 0
  | some x => x.cfg.creditsOn c i

/-- Key of the credits that a sender of a direction holds out. -/
def creditKey (down : Bool) (p : Fin 16) (c : Fin 8) : Nat := (if down then 128 else 0) + p.val * 8 + c.val

/-- 0x0604, reported by the end that received the flit or the credit return (R435). -/
def State.creditBreach (s : State) (f : Flit) : State :=
  if !f.down then s.linkReport f.link 0x0604 0
  else match linkFar? f.link with
    | some (m, e) => s.report (millUnit m 0x19) 0x0604 (linkDetail f.link e.val 0)
    | none => s.report (beamUnit 0x19) 0x0604 (linkDetail f.link (f.link.val - 64) 0)

/-- A flit whose CRC is good is delivered: a data flit uses a credit of its sender, a credit return gives credits back to the
other direction's (R20, R24). -/
def State.deliver (s : State) (f : Flit) : State :=
  let k := s.link f.link
  let k := { k with delivered := if f.down then (k.delivered.1, k.delivered.2 + 1) else (k.delivered.1 + 1, k.delivered.2) }
  match f.kind with
  | .data _ =>
    let key := creditKey f.down f.part f.ctx
    let used := k.used.get key 0
    if s.creditsOn f.part f.ctx f.link ≤ used then (s.setLink f.link k).creditBreach f
    else s.setLink f.link { k with used := k.used.put key (used + 1) 0 }
  | .credit n =>
    let key := creditKey (!f.down) f.part f.ctx
    let used := k.used.get key 0
    if used < n.toNat then (s.setLink f.link k).creditBreach f
    else s.setLink f.link { k with used := k.used.put key (used - n.toNat) 0 }

/-- Successive failed sends of a direction. -/
def Link.failsOf (k : Link) (down : Bool) : Nat := if down then k.fails.2 else k.fails.1
def Link.setFails (k : Link) (down : Bool) (n : Nat) : Link :=
  { k with fails := if down then (k.fails.1, n) else (n, k.fails.2) }

/-- A flit is sent again: RETRIES of the endpoint that sends it (R21). -/
def State.countRetry (s : State) (f : Flit) : State :=
  if f.down then s.bump (.linkState (linkMill f.link) (linkEnd f.link)) Fl.linkState_RETRIES 1
  else match linkFar? f.link with
    | none => s
    | some (m, e) => s.bump (.linkState m e) Fl.linkState_RETRIES 1

/-- A data flit of the generation being applied, for a mill where a loom of its partition has yet to apply it (R63). -/
def State.newer (s : State) (f : Flit) : Bool :=
  let m := if f.down then (linkFar? f.link).map (fun e => e.1) else some (linkMill f.link)
  match f.kind, s.pick.change, m with
  | .data g, some c, some m =>
    s.fld .pickMode Fl.pickMode_PHASE == 2 && g == bit (s.fld .pickMode Fl.pickMode_GENERATION) 0
      && c.toApply.any (fun u => u.toNat / 0x1000 == m.val
        && (s.loom (Fin.ofNat 256 (u.toNat / 0x1000 * 32 + u.toNat / 0x80 % 32))).part == some f.part)
  | _, _, _ => false

/-- FLIT_RECEIVED (R21): a flit that fails its CRC is counted and sent again; one that meets a link in training, or behind a
flit that has reached its retry limit, is held in order. -/
def execFlitReceived (f : Flit) (s : State) : Out :=
  let k := s.link f.link
  if k.width = 0 then .next s
  else if k.training || decide (8 ≤ k.failsOf f.down) then .next (s.setLink f.link { k with held := k.held ++ [f] })
  else if !f.crcOk then .next ((s.setLink f.link (k.setFails f.down (k.failsOf f.down + 1))).countRetry f)
  else if s.newer f then .next (s.setLink f.link { (k.setFails f.down 0) with held := k.held ++ [f] })
  else .next ((s.setLink f.link (k.setFails f.down 0)).deliver f)

/-- What a link held while it trained is delivered in order, but for flits of a generation not yet applied (R63). -/
def State.release (s : State) (i : Fin 96) : State :=
  let k := s.link i
  let good := k.held.filter (fun f => f.crcOk)
  (good.filter (fun f => !s.newer f)).foldl (fun s f => s.deliver f) (s.setLink i { k with held := good.filter s.newer })

/-- LINK_RETRAINING_COMPLETE (R22): full width, narrowed again, or down; a training that has not failed leaves its calibration (20
R406), and a LINK_RETRAIN is answered. -/
def execLinkRetrainingComplete (link : Fin 96) (out : RetrainOutcome) (s : State) : Out :=
  let k := s.link link
  if out = .lanes [] then .refused (.illFormed "LINK_RETRAINING_COMPLETE")
  else if !k.training then .next s
  else
    let k := { k with training := false, fails := (0, 0) }
    match out with
    | .full => .next ((((s.setLink link { k with width := 2, failedLanes := [] }).release link).calibrate (64 + link.val)).answerWaiting
        link.val)
    | .lanes bad =>
      .next ((((s.narrow link { k with failedLanes := (bad.map (fun b => b.val)).eraseDups }).release link).calibrate
        (64 + link.val)).answerWaiting link.val)
    | .failed => .next (((s.setLink link k.down).linkReport link 0x0603 0).answerWaiting link.val)

/-- SIDEBAND_HEARTBEAT_LOSS (R372): the mill's four beam links are lost. The beam die's end reports them, since the mill's own
records travel on the sideband of those links (R373; log entry 35). -/
def execSidebandHeartbeatLoss (mill : Fin 8) (s : State) : Out :=
  .next ((List.range 4).foldl (fun s j =>
    let i : Fin 96 := Fin.ofNat 96 (64 + 4 * mill.val + j)
    ((s.setLink i (s.link i).down).report (beamUnit 0x19) 0x0603 (linkDetail i (i.val - 64) 0)).answerWaiting i.val) s)

end Sys2Proof.Machine
end

