-- ==== Sys2Proof/Machine/Crc.lean ====
section
/-! DEFINITION. Sys2Proof/Machine/Crc.lean: the two named algorithms the model spells out: CRC-32C, the Castagnoli
polynomial reflected with all-ones start and finish (14 R268, R270), and Philox-4x32-10 with its published multipliers and
round constants (04 R91). PRESUMED: the spec names both and spells out neither (log entry 25). -/

namespace Sys2Proof.Machine

open Sys2Proof

/-- Eight shifts of the reflected CRC register. -/
def crcBits (c n : Nat) : Nat :=
  match n with
  | 0 => c
  | k + 1 => crcBits (if c % 2 = 1 then (c / 2) ^^^ 0x82F63B78 else c / 2) k

def crcFold (c : Nat) (bs : List Byte) : Nat :=
  match bs with
  | [] => c
  | b :: rest => crcFold (crcBits (c ^^^ b.toNat) 8) rest

/-- CRC-32C of a byte string. -/
def crc32c (bs : List Byte) : Nat := crcFold 0xFFFFFFFF bs ^^^ 0xFFFFFFFF

/-- One round of Philox-4x32 on (c0, c1, c2, c3) under (k0, k1). -/
def philoxRound (c : Nat × Nat × Nat × Nat) (k0 k1 : Nat) : Nat × Nat × Nat × Nat :=
  let p0 := 0xD2511F53 * c.1
  let p1 := 0xCD9E8D57 * c.2.2.1
  ((p1 / 2 ^ 32) ^^^ c.2.1 ^^^ k0, p1 % 2 ^ 32, (p0 / 2 ^ 32) ^^^ c.2.2.2 ^^^ k1, p0 % 2 ^ 32)

def philoxRounds (n : Nat) (c : Nat × Nat × Nat × Nat) (k0 k1 : Nat) : Nat × Nat × Nat × Nat :=
  match n with
  | 0 => c
  | j + 1 => philoxRounds j (philoxRound c k0 k1) ((k0 + 0x9E3779B9) % 2 ^ 32) ((k1 + 0xBB67AE85) % 2 ^ 32)

/-- Word i mod 4 of the Philox-4x32-10 call with these counter and key words. -/
def philoxWord (c0 c1 c2 c3 k0 k1 i : Nat) : Nat :=
  let r := philoxRounds 10 (c0, c1, c2, c3) k0 k1
  if i % 4 = 0 then r.1 else if i % 4 = 1 then r.2.1 else if i % 4 = 2 then r.2.2.1 else r.2.2.2

/-- The Philox key words of a stream register value under a partition seed (R243). -/
def philoxKey (seed reg : Nat) : Nat × Nat :=
  ((seed % 2 ^ 32) ^^^ (bits reg 16 8 * 2 ^ 16 + bits reg 0 16), seed / 2 ^ 32)

end Sys2Proof.Machine
end

