-- ==== Sys2Proof/Machine/Num.lean ====
section
/-! DEFINITION. Sys2Proof/Machine/Num.lean: the number formats of chapter 04 as exact values: decoding (R66 to R71, R73),
the one rounding of R87, R88 and R90, stochastic rounding (R91), and exact arithmetic with the special values of R107. -/

namespace Sys2Proof.Machine

open Sys2Proof

/-- The flags of a rounded or drained output (R89). -/
structure Flg where
  inexact : Bool
  overflow : Bool
  invalid : Bool
  deriving DecidableEq, Repr

def Flg.none : Flg := { inexact := false, overflow := false, invalid := false }
def Flg.over : Flg := { Flg.none with overflow := true }
def Flg.bad : Flg := { Flg.none with invalid := true }
def Flg.or (a b : Flg) : Flg :=
  { inexact := a.inexact || b.inexact, overflow := a.overflow || b.overflow, invalid := a.invalid || b.invalid }

/-- An exact value: ± m × 2^e with a signed zero, an infinity, or NaN (R67). -/
inductive Num where
  | fin (neg : Bool) (m : Nat) (e : Int)
  | inf (neg : Bool)
  | nan
  deriving DecidableEq, Repr

def Num.zero : Num := .fin false 0 0

/-- m × 2^e with an integer significand; a zero is +0 (R87). -/
def Num.ofInt (i : Int) (e : Int) : Num := .fin (decide (i < 0)) i.natAbs e

/-- The signed significand of a finite value. -/
def sig (neg : Bool) (m : Nat) : Int := if neg then -(m : Int) else (m : Int)

def Num.neg (x : Num) : Num :=
  match x with
  | .fin n m e => .fin (!n) m e
  | .inf n => .inf (!n)
  | .nan => .nan

def Num.abs (x : Num) : Num :=
  match x with
  | .fin _ m e => .fin false m e
  | .inf _ => .inf false
  | .nan => .nan

def Num.isNan (x : Num) : Bool := x == .nan

/-- A negative sign, a signed zero's included. -/
def Num.isNeg (x : Num) : Bool :=
  match x with
  | .fin n _ _ => n
  | .inf n => n
  | .nan => false

/-- The value × 2^k. -/
def Num.scale (x : Num) (k : Int) : Num :=
  match x with
  | .fin n m e => .fin n m (e + k)
  | y => y

/-- m × 2^e brought to exponent q ≤ e. -/
def shiftTo (i : Int) (e q : Int) : Int := i * 2 ^ (e - q).toNat

/-- The exact sum; x + (−x) is +0, two zeros of one sign keep it, opposite infinities give NaN (R107). -/
def Num.add (x y : Num) : Num :=
  match x, y with
  | .nan, _ => .nan
  | _, .nan => .nan
  | .inf a, .inf b => if a = b then .inf a else .nan
  | .inf a, _ => .inf a
  | _, .inf b => .inf b
  | .fin a m e, .fin b n f =>
    let q := min e f
    let t := shiftTo (sig a m) e q + shiftTo (sig b n) f q
    if t = 0 then .fin (a && b) 0 0 else .ofInt t q

/-- The exact product; infinity × zero is NaN (R76, R107). -/
def Num.mul (x y : Num) : Num :=
  match x, y with
  | .nan, _ => .nan
  | _, .nan => .nan
  | .inf a, .inf b => .inf (a != b)
  | .inf a, .fin b n _ => if n = 0 then .nan else .inf (a != b)
  | .fin a m _, .inf b => if m = 0 then .nan else .inf (a != b)
  | .fin a m e, .fin b n f => .fin (a != b) (m * n) (e + f)

/-- x < y on ordered values; false where either is NaN. Zeros are equal whatever their signs. -/
def Num.lt (x y : Num) : Bool :=
  match x, y with
  | .nan, _ => false
  | _, .nan => false
  | .inf a, .inf b => a && !b
  | .inf a, _ => a
  | _, .inf b => !b
  | .fin a m e, .fin b n f =>
    let q := min e f
    decide (shiftTo (sig a m) e q < shiftTo (sig b n) f q)

/-- x = y on ordered values. -/
def Num.eq (x y : Num) : Bool := !x.isNan && !y.isNan && !x.lt y && !y.lt x

/-- Is a finite value zero? -/
def Num.isZero (x : Num) : Bool :=
  match x with
  | .fin _ m _ => m == 0
  | _ => false

/-! ### Binary formats -/

/-- A floating-point element type (R66): significand bits, bias, width in bits, the code of its largest finite value,
the code of +infinity and the canonical NaN of R88 where the type has them. -/
structure Fmt where
  mbits : Nat
  bias : Int
  width : Nat
  maxCode : Nat
  inf : Option Nat
  nan : Option Nat
  deriving DecidableEq, Repr

def Fmt.e4m3 : Fmt := { mbits := 3, bias := 7, width := 8, maxCode := 0x7E, inf := none, nan := some 0x7F }
def Fmt.e5m2 : Fmt := { mbits := 2, bias := 15, width := 8, maxCode := 0x7B, inf := some 0x7C, nan := some 0x7E }
def Fmt.e2m3 : Fmt := { mbits := 3, bias := 1, width := 6, maxCode := 0x1F, inf := none, nan := none }
def Fmt.e3m2 : Fmt := { mbits := 2, bias := 3, width := 6, maxCode := 0x1F, inf := none, nan := none }
def Fmt.e2m1 : Fmt := { mbits := 1, bias := 1, width := 4, maxCode := 0x7, inf := none, nan := none }
def Fmt.fp16 : Fmt := { mbits := 10, bias := 15, width := 16, maxCode := 0x7BFF, inf := some 0x7C00, nan := some 0x7E00 }
def Fmt.bf16 : Fmt := { mbits := 7, bias := 127, width := 16, maxCode := 0x7F7F, inf := some 0x7F80, nan := some 0x7FC0 }
def Fmt.fp32 : Fmt :=
  { mbits := 23, bias := 127, width := 32, maxCode := 0x7F7FFFFF, inf := some 0x7F800000, nan := some 0x7FC00000 }

/-- The value of a code (R67). -/
def Fmt.decode (f : Fmt) (code : Nat) : Num :=
  let neg := bit code (f.width - 1)
  let c := code % 2 ^ (f.width - 1)
  if some c = f.inf then .inf neg
  else if c > f.maxCode then .nan
  else
    let e := c / 2 ^ f.mbits
    let m := c % 2 ^ f.mbits
    if e = 0 then .fin neg m (1 - f.bias - f.mbits)
    else .fin neg (2 ^ f.mbits + m) (e - f.bias - f.mbits)

/-- m ÷ 2^d rounded to nearest, ties to even (R87). -/
def rneShift (m d : Nat) : Nat :=
  let q := m / 2 ^ d
  let r := m % 2 ^ d
  if 2 * r > 2 ^ d || (2 * r == 2 ^ d && q % 2 == 1 && d > 0) then q + 1 else q

/-- m ÷ 2^d truncated, one more if the 32 bits below the last kept one, plus r, reach 2³² (R91). -/
def stochShift (m d r : Nat) : Nat :=
  let q := m / 2 ^ d
  let f := (m % 2 ^ d) * 2 ^ 32 / 2 ^ d
  if f + r ≥ 2 ^ 32 then q + 1 else q

/-- How a value is rounded: to nearest even, or stochastically with a 32-bit word. -/
inductive Mode where
  | rne
  | stoch (r : Nat)
  deriving DecidableEq, Repr

def Mode.shift (k : Mode) (m d : Nat) : Nat :=
  match k with
  | .rne => rneShift m d
  | .stoch r => stochShift m d r

/-- ⌊log₂ m⌋ of a non-zero significand, as the exponent of its highest bit in m × 2^e. -/
def topBit (m : Nat) (e : Int) : Int := (Nat.log2 m : Int) + e

/-- The exponent of the lowest set bit of m × 2^e, m not zero (R79). -/
def lowBit (m : Nat) (e : Int) : Int :=
  let rec go (m : Nat) (fuel k : Nat) : Nat :=
    match fuel with
    | 0 => k
    | j + 1 => if m % 2 = 1 then k else go (m / 2) j (k + 1)
  (go m (Nat.log2 m + 1) 0 : Int) + e

/-- The sign bit of a code. -/
def Fmt.sign (f : Fmt) (neg : Bool) : Nat := if neg then 2 ^ (f.width - 1) else 0

/-- An infinite value in the format: the infinity, or the largest finite value with OVERFLOW (R88). -/
def Fmt.ofInf (f : Fmt) (neg : Bool) : Nat × Flg :=
  match f.inf with
  | some c => (f.sign neg + c, Flg.none)
  | none => (f.sign neg + f.maxCode, Flg.over)

/-- A finite value beyond the format: its infinity or largest finite value, with OVERFLOW (R88). -/
def Fmt.ofOver (f : Fmt) (neg : Bool) : Nat × Flg := ((f.ofInf neg).1, Flg.over)

/-- A NaN in the format: the canonical NaN, or +0; INVALID either way (R88, R89). -/
def Fmt.ofNan (f : Fmt) : Nat × Flg := (f.nan.getD 0, Flg.bad)

/-- One rounding into the format (R87, R88, R91). -/
def Fmt.round (f : Fmt) (k : Mode) (x : Num) : Nat × Flg :=
  match x with
  | .nan => f.ofNan
  | .inf neg => f.ofInf neg
  | .fin neg m e =>
    if m = 0 then (f.sign neg, Flg.none)
    else
      let q : Int := max (topBit m e) (1 - f.bias) - f.mbits
      let n := if q ≤ e then m * 2 ^ (e - q).toNat else k.shift m (q - e).toNat
      -- n × 2^q; a carry into bit mbits + 1 raises the exponent field by one, which the sum below does
      let c := if n < 2 ^ f.mbits then n else (q + f.mbits + f.bias).toNat * 2 ^ f.mbits + (n - 2 ^ f.mbits)
      if c > f.maxCode then f.ofOver neg else (f.sign neg + c, Flg.none)

/-- One rounding into a two's-complement integer of w bits, symmetric saturation (R88, R90): the code. -/
def roundInt (w : Nat) (k : Mode) (x : Num) : Nat × Flg :=
  let lim := 2 ^ (w - 1) - 1
  let code := fun (neg : Bool) (n : Nat) => if neg && n != 0 then 2 ^ w - n else n
  match x with
  | .nan => (0, Flg.bad)
  | .inf neg => (code neg lim, Flg.over)
  | .fin neg m e =>
    let n := if 0 ≤ e then m * 2 ^ e.toNat else k.shift m (-e).toNat
    if n > lim then (code neg lim, Flg.over) else (code neg n, Flg.none)

/-- FP32 codes. -/
def ofF32 (v : BitVec 32) : Num := Fmt.fp32.decode v.toNat
def toF32 (x : Num) : BitVec 32 × Flg :=
  let r := Fmt.fp32.round .rne x
  (BitVec.ofNat 32 r.1, r.2)

/-- The value of a twin-thread pair as read (R73, R74): hi + lo exactly; a special hi wins, else a special lo. -/
def ofTwin (hi lo : BitVec 32) : Num :=
  match ofF32 hi, ofF32 lo with
  | .nan, _ => .nan
  | .inf n, _ => .inf n
  | .fin _ _ _, .nan => .nan
  | .fin _ _ _, .inf n => .inf n
  | .fin a m e, .fin b n f =>
    match Num.add (.fin a m e) (.fin b n f) with
    | .fin _ 0 _ => .fin a 0 0
    | y => y

/-- The canonical twin-thread of an exact value (R74, R75): (hi, lo). -/
def toTwin (x : Num) : (BitVec 32 × BitVec 32) × Flg :=
  let hi := toF32 x
  match x, ofF32 hi.1 with
  | .fin a m e, .fin b n f =>
    let lo := Num.add (.fin a m e) (Num.neg (.fin b n f))
    let l := if lo.isZero then (0 : BitVec 32) else (toF32 lo).1
    ((hi.1, if l = 0x80000000 then 0 else l), hi.2)
  | _, _ => ((hi.1, 0), hi.2)

/-! ### Element types (R124) -/

/-- Bits of one element of a type: INT4, INT8, E4M3, E5M2, E2M3, E3M2, E2M1, MXINT8, FP16, BF16, FP32, twin-thread. -/
def elemBits (t : Nat) : Nat :=
  if t = 0 then 4 else if t ≤ 3 then 8 else if t ≤ 5 then 6 else if t = 6 then 4 else if t = 7 then 8
  else if t ≤ 9 then 16 else if t = 10 then 32 else 64

/-- Bytes of n packed elements (R69). -/
def elemBytes (t n : Nat) : Nat :=
  if elemBits t = 6 then 3 * ceilDiv n 4 else ceilDiv (n * elemBits t) 8

/-- The floating-point format of a type code, if it is one. -/
def fmtOf (t : Nat) : Option Fmt :=
  if t = 2 then some .e4m3 else if t = 3 then some .e5m2 else if t = 4 then some .e2m3 else if t = 5 then some .e3m2
  else if t = 6 then some .e2m1 else if t = 8 then some .fp16 else if t = 9 then some .bf16
  else if t = 10 then some .fp32 else none

/-- The value of an element code, without its group's scale (R67, R68, R73). -/
def elemValue (t code : Nat) : Num :=
  match fmtOf t with
  | some f => f.decode code
  | none =>
    if t = 0 then .ofInt (sext 4 code) 0
    else if t = 1 then .ofInt (sext 8 code) 0
    else if t = 7 then .ofInt (sext 8 code) (-6)
    else ofTwin (BitVec.ofNat 32 (code / 2 ^ 32)) (BitVec.ofNat 32 code)

/-- Element k of a packed run whose first byte is the list's head (R69). -/
def elemAt (t : Nat) (bs : List Byte) (k : Nat) : Nat :=
  let w := elemBits t
  if w = 4 then bits (leNat (slice bs (k / 2) 1)) (4 * (k % 2)) 4
  else if w = 6 then bits (leNat (slice bs (3 * (k / 4)) 3)) (6 * (k % 4)) 6
  else leNat (slice bs (k * (w / 8)) (w / 8))

/-- A group scale (R70): none is the NaN scale 0xFF. -/
def scaleExp (e : Nat) : Option Int := if e = 255 then none else some ((e : Int) - 127)

/-- Group size of a GROUP code, 0 where there are no groups (R123). -/
def groupSize (g : Nat) : Nat := if g = 0 then 0 else 16 * 2 ^ g

/-- Converts into a type of R124 with one rounding (R90): the code, 64-bit for twin-thread. -/
def toElem (t : Nat) (k : Mode) (x : Num) : Nat × Flg :=
  match fmtOf t with
  | some f => f.round k x
  | none =>
    if t = 0 then roundInt 4 k x
    else if t = 1 then roundInt 8 k x
    else if t = 7 then roundInt 8 k (x.scale 6)
    else
      let r := toTwin x
      (r.1.1.toNat * 2 ^ 32 + r.1.2.toNat, r.2)

/-! ### Quotients and square roots, correctly rounded (R106) -/

/-- x ÷ y to more bits than any format keeps, the last one sticky; 0 ÷ 0 and ∞ ÷ ∞ are invalid (R107). -/
def Num.div (x y : Num) : Num :=
  match x, y with
  | .nan, _ => .nan
  | _, .nan => .nan
  | .inf _, .inf _ => .nan
  | .inf a, .fin b _ _ => .inf (a != b)
  | .fin a _ _, .inf b => .fin (a != b) 0 0
  | .fin a m e, .fin b n f =>
    if n = 0 then (if m = 0 then .nan else .inf (a != b))
    else
      let k := 64 + Nat.log2 n
      let q := m * 2 ^ k / n
      .fin (a != b) (2 * q + (if m * 2 ^ k % n = 0 then 0 else 1)) (e - f - k - 1)

/-- ⌊√n⌋, by one bit of the root at a time from bit `k` down. -/
def isqrt (n : Nat) (k : Nat) (root : Nat) : Nat :=
  match k with
  | 0 => root
  | j + 1 =>
    let t := root + 2 ^ j
    isqrt n j (if t * t ≤ n then t else root)

/-- √x with a sticky last bit; negative non-zero values are invalid (R107). -/
def Num.sqrt (x : Num) : Num :=
  match x with
  | .nan => .nan
  | .inf neg => if neg then .nan else .inf false
  | .fin neg m e =>
    if m = 0 then .fin neg 0 0
    else if neg then .nan
    else
      let e' := if e % 2 = 0 then e else e - 1
      let n := (if e % 2 = 0 then m else 2 * m) * 2 ^ 128
      let r := isqrt n (Nat.log2 n / 2 + 1) 0
      .fin false (2 * r + (if r * r = n then 0 else 1)) (e' / 2 - 64 - 1)

end Sys2Proof.Machine
end

