-- ==== Sys2Proof/Machine/Fells.lean ====
section
/-! DEFINITION. Sys2Proof/Machine/Fells.lean: the exact accumulator: contributions (04 R76 to R83), merging and preloading
(R86), fell images (R84, R85), the drain arithmetic (08 R169, R170) and the choice of MX scales (R171). -/

namespace Sys2Proof.Machine

open Sys2Proof

/-- The signed significand of a fell. -/
def Fell.int (f : Fell) : Int := f.s.toInt

/-- A fell that leaves the finite state: S and W become 0, LOST keeps its value (R77). -/
def Fell.leave (f : Fell) (st : FellState) : Fell := { f with s := 0, w := 0, state := st }

/-- ⌊i ÷ 2^d⌋ and whether a non-zero bit was discarded (R79). -/
def floorShift (i : Int) (d : Nat) : Int × Bool := (i >>> d, decide (i % 2 ^ d ≠ 0))

/-- A sum of significands; outside the 192-bit range the fell enters the NaN state (R83). -/
def Fell.withSum (f : Fell) (i : Int) (w : Int) (lost : Bool) : Fell :=
  if i < -(2 ^ 191) ∨ 2 ^ 191 ≤ i then { f with empty := false, lost := lost }.leave .nan
  else { f with s := BitVec.ofInt 192 i, w := BitVec.ofInt 12 w, empty := false, lost := lost }

/-- A non-zero finite product ± m × 2^e enters a finite fell (R79). -/
def Fell.addFin (f : Fell) (neg : Bool) (m : Nat) (e : Int) : Fell :=
  let h := topBit m e
  let w := if f.empty then h - 166 else max f.w.toInt (h - 166)
  let old := if f.empty then (0, false) else floorShift f.int (w - f.w.toInt).toNat
  let new := if w ≤ e then (sig neg m * 2 ^ (e - w).toNat, false) else floorShift (sig neg m) (w - e).toNat
  f.withSum (old.1 + new.1) w (f.lost || old.2 || new.2)

/-- An infinite contribution (R77). -/
def Fell.addInf (f : Fell) (neg : Bool) : Fell :=
  match f.state with
  | .finite => f.leave (if neg then .negInf else .posInf)
  | .posInf => if neg then f.leave .nan else f
  | .negInf => if neg then f else f.leave .nan
  | .nan => f

/-- One contribution to a fell (R76, R77). -/
def Fell.add (f : Fell) (x : Num) : Fell :=
  match x with
  | .nan => if f.state = .nan then f else f.leave .nan
  | .inf neg => f.addInf neg
  | .fin neg m e => if m = 0 || f.state != .finite then f else f.addFin neg m e

/-- STATE of a merge (R86 step 4). -/
def FellState.join (a b : FellState) : FellState :=
  match a, b with
  | .finite, y => y
  | x, .finite => x
  | .posInf, .posInf => .posInf
  | .negInf, .negInf => .negInf
  | _, _ => .nan

/-- Image b merged into fell a (R86). -/
def Fell.merge (a b : Fell) : Fell :=
  if a.empty && a.state == .finite then b
  else if b.empty && b.state == .finite then a
  else
    let st := a.state.join b.state
    if st != .finite then { a with empty := a.empty && b.empty, lost := a.lost || b.lost }.leave st
    else
      let w := max a.w.toInt b.w.toInt
      let x := floorShift a.int (w - a.w.toInt).toNat
      let y := floorShift b.int (w - b.w.toInt).toNat
      { a with empty := a.empty && b.empty }.withSum (x.1 + y.1) w (a.lost || b.lost || x.2 || y.2)

/-- The value of a fell (R78). -/
def Fell.value (f : Fell) : Num :=
  match f.state with
  | .finite => .ofInt f.int f.w.toInt
  | .posInf => .inf false
  | .negInf => .inf true
  | .nan => .nan

/-- The flag a lossy fell adds to its output (R82). -/
def Fell.flag (f : Fell) : Flg := { Flg.none with inexact := f.lost }

/-! ### Fell images -/

def FellState.code (s : FellState) : Nat :=
  match s with
  | .finite => 0
  | .posInf => 1
  | .negInf => 2
  | .nan => 3

def FellState.ofCode (n : Nat) : FellState :=
  if n = 0 then .finite else if n = 1 then .posInf else if n = 2 then .negInf else .nan

/-- The 16-bit tag of an image (R84). -/
def Fell.tag (f : Fell) : Nat := f.w.toNat + f.empty.toNat * 2 ^ 12 + f.lost.toNat * 2 ^ 13 + f.state.code * 2 ^ 14

/-- The fell of a tag and a significand; none for a damaged tag (R84). -/
def Fell.ofImage (tag : Nat) (s : Nat) : Option Fell :=
  let f : Fell := { s := BitVec.ofNat 192 s, w := BitVec.ofNat 12 tag, empty := bit tag 12, lost := bit tag 13,
                    state := FellState.ofCode (bits tag 14 2) }
  if (f.empty && f.s != 0) || (f.state != .finite && (f.s != 0 || f.w != 0)) then none else some f

/-- A fell-image block of at most 156 images, written by a loom (R85). -/
def imageBlock (source : Nat) (fs : List Fell) : List Byte :=
  leBytes 2 fs.length ++ [1, 0] ++ leBytes 2 source ++ List.replicate 10 0
    ++ fs.foldr (fun f bs => leBytes 2 f.tag ++ bs) (List.replicate (2 * (156 - fs.length)) 0)
    ++ fs.foldr (fun f bs => leBytes 24 f.s.toNat ++ bs) (List.replicate (24 * (156 - fs.length)) 0)
    ++ List.replicate 24 0

/-- Reads n images of a block; an image beyond COUNT is a cleared fell (R160). None if the block or a tag within COUNT is
damaged (R84, R85): a COUNT over 156, a FORMAT other than 1, or a reserved byte set. -/
def readImages (b : List Byte) (n : Nat) : Option (List Fell) :=
  let count := leNat (slice b 0 2)
  if count > 156 || slice b 2 1 != [1] || !(allZero (slice b 3 1 ++ slice b 6 10 ++ slice b 0xFE8 24)) then none
  else
    let got := (List.range (min n count)).map (fun i =>
      Fell.ofImage (leNat (slice b (0x10 + 2 * i) 2)) (leNat (slice b (0x148 + 24 * i) 24)))
    if got.any (fun f => f.isNone) then none
    else some ((List.range n).map (fun i => (got.getD i none).getD Fell.cleared))

/-! ### The drain -/

/-- No record: multiplier 1, shift 0, no bias (R163). -/
def Requant.unit : Requant := { bias := 0, biasExp := 0, mult := 1, shift := 0 }

/-- The value that a drain rounds, and whether a bit was lost (R169, R170). -/
def Fell.requant (f : Fell) (r : Requant) (rect : Bool) : Num × Flg :=
  let v : Num × Flg :=
    match f.state with
    | .nan => (.nan, f.flag)
    | .posInf => (if r.mult = 0 then .nan else .inf (decide (r.mult < 0)), f.flag)
    | .negInf => (if r.mult = 0 then .nan else .inf (decide (0 < r.mult)), f.flag)
    | .finite =>
      let g := f.add (.ofInt r.bias r.biasExp)
      match g.state with
      | .finite => (.ofInt (g.int * r.mult) (g.w.toInt - r.shift), g.flag)
      | _ => (.nan, g.flag)
  if rect && v.1.isNeg then (.zero, v.2) else v

/-- Element exponent e_max for the choice of scales (R171). -/
def emax (t : Nat) : Int :=
  if t = 2 then 8 else if t = 3 then 15 else if t = 4 then 2 else if t = 5 then 4 else if t = 6 then 2 else 0

/-- |v| ÷ 2^e rounded in the element type exceeds its largest finite value (R171 step 3). -/
def overflowsAt (t : Nat) (v : Num) (e : Int) : Bool := (toElem t .rne (v.scale (-e))).2.overflow

/-- The scale exponent of a group of values; none if one is NaN (R171). -/
def groupExp (t : Nat) (vs : List Num) : Option Int :=
  if vs.any Num.isNan then none
  else
    let mags := (vs.map Num.abs).filter (fun v => match v with | .fin _ m _ => m != 0 | _ => false)
    match mags with
    | [] => some 0
    | v :: rest =>
      let a := rest.foldl (fun a b => if a.lt b then b else a) v
      match a with
      | .fin _ m e =>
        let e0 := topBit m e - emax t
        let e1 := if overflowsAt t a e0 then e0 + 1 else e0
        some (max (-127) (min 127 e1))
      | _ => some 0

/-- Codes of a group: the scale code, then one element code per value with its flags (R171). -/
def groupCodes (t : Nat) (vs : List Num) : Nat × List (Nat × Flg) :=
  match groupExp t vs with
  | none => (255, vs.map (fun _ => (0, Flg.bad)))
  | some e => ((e + 127).toNat, vs.map (fun v => toElem t .rne (v.scale (-e))))

end Sys2Proof.Machine
end

