-- ==== Sys2Proof/Machine/Flags.lean ====
section
/-! DEFINITION. Sys2Proof/Machine/Flags.lean: the status word ST of a sequencer (06 R127, R128) and the flags that drains
and vector instructions OR into it (04 R89). -/

namespace Sys2Proof.Machine

open Sys2Proof

/-- Condition codes (R128). -/
inductive Cond where
  | ok | bankStale | qfull | timeout | pageAbsent | starved | seqLimit | forkLimit | tableFull
  deriving DecidableEq, Repr

def Cond.code (c : Cond) : Nat :=
  match c with
  | .ok => 0
  | .bankStale => 1
  | .qfull => 2
  | .timeout => 3
  | .pageAbsent => 4
  | .starved => 5
  | .seqLimit => 6
  | .forkLimit => 7
  | .tableFull => 8

/-- A status-setting instruction writes COND and DETAIL (R127). -/
def Seq.setCond (q : Seq) (c : Cond) (detail : Nat) : Seq :=
  { q with st := BitVec.ofNat 64 (setBits (setBits q.st.toNat 0 8 c.code) 32 16 detail) }

/-- The flags of an output slot, INEXACT lowest (R127). -/
def Flg.code (f : Flg) : Nat := f.inexact.toNat + 2 * f.overflow.toNat + 4 * f.invalid.toNat

/-- Flags are ORed into an output slot (R89, R127). -/
def Seq.orFlags (q : Seq) (slot : Nat) (f : Flg) : Seq :=
  { q with st := q.st ||| BitVec.ofNat 64 (f.code * 2 ^ (8 + 3 * (slot % 4))) }

/-- The tile masked a row or a column (R152). -/
def Seq.setMasked (q : Seq) : Seq := { q with st := q.st ||| BitVec.ofNat 64 (2 ^ 20) }

/-- TBEGIN clears OUT0 to OUT3 and MASKED when it opens a tile (R127). -/
def Seq.clearOut (q : Seq) : Seq := { q with st := q.st &&& ~~~(BitVec.ofNat 64 (8191 * 2 ^ 8)) }

/-- COND of a status word. -/
def Seq.cond (q : Seq) : Nat := bits q.st.toNat 0 8

end Sys2Proof.Machine
end

