-- ==== Sys2Proof/Machine/Words.lean ====
section
/-! DEFINITION. Sys2Proof/Machine/Words.lean: treadling words (06 R119 to R142): their fields as the formats place them,
and which words carry no reserved code and no forbidden combination (R120). -/

namespace Sys2Proof

/-- The low half of every format: OPCODE, PRED, PNEG and OPT (R119). -/
def wordHead (op : Nat) (pred : Fin 8) (pneg : Bool) (opt : BitVec 4) : Nat :=
  op + pred.val * 2 ^ 8 + pneg.toNat * 2 ^ 11 + opt.toNat * 2 ^ 12

/-- The 128-bit word of a format S instruction with opcode op (R119). -/
def SWord.code (w : SWord) (op : Nat) : Nat :=
  wordHead op w.pred w.pneg w.opt + w.x.val * 2 ^ 16 + w.y.val * 2 ^ 21 + w.z.val * 2 ^ 26 + w.fn.toNat * 2 ^ 32
    + w.aux.toNat * 2 ^ 48 + w.imm.toNat * 2 ^ 64

/-- The 128-bit word of a format J instruction (R119). -/
def JWord.code (w : JWord) (op : Nat) : Nat :=
  wordHead op w.pred w.pneg w.opt + w.x.val * 2 ^ 16 + w.y.val * 2 ^ 21 + w.target.toNat * 2 ^ 32 + w.imm.toNat * 2 ^ 64

/-- The 128-bit word of a format T instruction (R119). -/
def TWord.code (w : TWord) (op : Nat) : Nat :=
  wordHead op w.pred w.pneg w.opt + w.x.val * 2 ^ 16 + w.y.val * 2 ^ 21 + w.z.val * 2 ^ 26 + w.d1.toNat * 2 ^ 32
    + w.aux.toNat * 2 ^ 52 + w.d2.toNat * 2 ^ 64 + w.d3.toNat * 2 ^ 84 + w.tag.toNat * 2 ^ 104 + w.sel.toNat * 2 ^ 120

/-- The fields of a 128-bit word read as format S, J and T (R119); bit 31, and bits 30 to 26 of format J, are reserved
and must be zero for the word to be one. -/
def SWord.ofCode (n : Nat) : SWord :=
  { pred := Fin.ofNat 8 (bits n 8 3), pneg := bit n 11, opt := BitVec.ofNat 4 (bits n 12 4),
    x := Fin.ofNat 32 (bits n 16 5), y := Fin.ofNat 32 (bits n 21 5), z := Fin.ofNat 32 (bits n 26 5),
    fn := BitVec.ofNat 16 (bits n 32 16), aux := BitVec.ofNat 16 (bits n 48 16), imm := BitVec.ofNat 64 (bits n 64 64) }
def JWord.ofCode (n : Nat) : JWord :=
  { pred := Fin.ofNat 8 (bits n 8 3), pneg := bit n 11, opt := BitVec.ofNat 4 (bits n 12 4),
    x := Fin.ofNat 32 (bits n 16 5), y := Fin.ofNat 32 (bits n 21 5), target := BitVec.ofNat 32 (bits n 32 32),
    imm := BitVec.ofNat 64 (bits n 64 64) }
def TWord.ofCode (n : Nat) : TWord :=
  { pred := Fin.ofNat 8 (bits n 8 3), pneg := bit n 11, opt := BitVec.ofNat 4 (bits n 12 4),
    x := Fin.ofNat 32 (bits n 16 5), y := Fin.ofNat 32 (bits n 21 5), z := Fin.ofNat 32 (bits n 26 5),
    d1 := BitVec.ofNat 20 (bits n 32 20), aux := BitVec.ofNat 12 (bits n 52 12), d2 := BitVec.ofNat 20 (bits n 64 20),
    d3 := BitVec.ofNat 20 (bits n 84 20), tag := BitVec.ofNat 16 (bits n 104 16), sel := BitVec.ofNat 8 (bits n 120 8) }

/-- The fields of a format S word: OPT at most `opt`; X, Y and Z below their bounds (1 for a field the form does not
use); FN and IMM as stated; AUX is used by no instruction (R120). -/
def SWord.fits (w : SWord) (opt x y z : Nat) (fn imm : Bool) : Bool :=
  decide (w.opt.toNat ≤ opt) && decide (w.x.val < x) && decide (w.y.val < y) && decide (w.z.val < z) && fn && imm
    && w.aux == 0

/-- The option bit OPT[12]. -/
def SWord.opt12 (w : SWord) : Bool := w.opt.getLsbD 0
def JWord.opt12 (w : JWord) : Bool := w.opt.getLsbD 0
def TWord.opt12 (w : TWord) : Bool := w.opt.getLsbD 0

/-- The fields of a format J word. -/
def JWord.fits (w : JWord) (opt x y : Nat) (imm : Bool) : Bool :=
  decide (w.opt.toNat ≤ opt) && decide (w.x.val < x) && decide (w.y.val < y) && imm

/-- The fields of a format T word; D1 to D3, TAG, AUX and SEL as stated. -/
def TWord.fits (w : TWord) (opt x y z : Nat) (d1 d2 tag aux : Bool) (sel : Nat) : Bool :=
  decide (w.opt.toNat ≤ opt) && decide (w.x.val < x) && decide (w.y.val < y) && decide (w.z.val < z) && d1 && d2
    && w.d3 == 0 && tag && aux && decide (w.sel.toNat < sel)

/-- Instructions that no predicate may skip (R121). -/
def alwaysRuns (pred : Fin 8) (pneg : Bool) : Bool := pred == 0 && !pneg

/-- The element types of vector loads, stores and conversions (R136). -/
def vectorType (t : Nat) : Bool := decide (t ≤ 3) || (decide (8 ≤ t) && decide (t ≤ 0xB))

/-- VOP function codes (R137). -/
def vopCode (f : Nat) : Bool :=
  decide (f ≤ 0x19) || (decide (0x20 ≤ f) && decide (f ≤ 0x23)) || (decide (0x30 ≤ f) && decide (f ≤ 0x37)) || f == 0x40

/-- VOP functions of one source, of two, and of three (R137). -/
def vopUnary (f : Nat) : Bool :=
  f == 0x06 || f == 0x07 || (decide (0x0E ≤ f) && decide (f ≤ 0x19)) || f == 0x40
def vopTernary (f : Nat) : Bool := f == 0x03 || f == 0x0C || f == 0x23

/-- The word of each treadling row carries no reserved code and no forbidden combination (R119 to R142). -/
def nopOk (w : SWord) : Bool := w.fits 0 1 1 1 (w.fn == 0) (w.imm == 0)
def moviOk (w : SWord) : Bool := w.fits 1 16 1 1 (w.fn == 0) true
def aluOk (w : SWord) : Bool :=
  w.fits 1 16 16 (if w.opt12 then 1 else 16) (decide (w.fn.toNat ≤ 0xA)) (w.opt12 || w.imm == 0)
def cmpOk (w : SWord) : Bool :=
  w.fits 1 8 16 (if w.opt12 then 1 else 16) (decide (w.fn.toNat ≤ 5)) (w.opt12 || w.imm == 0) && w.x != 0
def plogicOk (w : SWord) : Bool := w.fits 0 8 8 8 (decide (w.fn.toNat ≤ 3)) (w.imm == 0) && w.x != 0
def abindOk (w : SWord) : Bool := w.fits 0 16 1 1 (w.fn == 0) (decide (w.imm.toNat < 65536))
def aaddOk (w : SWord) : Bool := w.fits 0 16 16 16 (w.fn == 0) true
def ldbOk (w : SWord) : Bool := w.fits 0 16 16 1 (w.fn == 0) true
def moveOk (fn : Nat) (w : SWord) : Bool :=
  w.fits 0 16 (if fn = 4 then 1 else 16) 16 (w.fn.toNat == fn)
    (if fn = 3 then decide (1 ≤ w.imm.toNat % 65536) && decide (w.imm.toNat % 65536 ≤ 65534) else w.imm == 0)
def tsendOk (w : SWord) : Bool := w.fits 0 16 1 16 true (w.imm == 0)
def vopOk (w : SWord) : Bool :=
  let f := w.fn.toNat
  let i := w.imm.toNat
  w.fits 0 32 32 (if vopUnary f then 1 else 32) (vopCode f)
    (decide (i < 65536) && bits i 5 3 == 0 && (vopTernary f || bits i 0 5 == 0)
      && (if f = 0x40 then vectorType (bits i 8 4) && vectorType (bits i 12 4) else bits i 8 8 == 0))
def vldOk (w : SWord) : Bool := w.fits 0 32 16 1 (vectorType w.fn.toNat) true
def vstOk (w : SWord) : Bool := w.fits 0 32 16 1 (vectorType (w.fn.toNat % 16) && decide (w.fn.toNat < 64)) true
def vredOk (w : SWord) : Bool :=
  w.fits 0 32 32 (if w.fn == 1 || w.fn == 5 then 32 else 1) (decide (w.fn.toNat ≤ 5)) (w.imm == 0)
def vrngOk (w : SWord) : Bool := w.fits 0 32 16 16 (w.fn == 0) (decide (w.imm.toNat < 2 ^ 48))
def sigOk (w : SWord) : Bool :=
  w.fits 0 1 1 1 (decide (w.fn.toNat < 64)) (decide (1 ≤ w.imm.toNat) && decide (w.imm.toNat ≤ 255))
def putOk (w : SWord) : Bool := w.fits 0 13 1 1 (decide (w.fn.toNat < 32)) (w.imm == 0)
def takeOk (w : SWord) : Bool := w.fits 1 13 (if w.opt12 then 16 else 1) 1 (decide (w.fn.toNat < 256)) (w.imm == 0)
def waitspOk (w : SWord) : Bool := w.fits 0 1 1 1 (decide (w.fn.toNat < 32)) (w.imm == 0)
def pwaitOk (w : SWord) : Bool := w.fits 0 1 16 1 (w.fn == 0) (w.imm == 0)
def doneOk (w : SWord) : Bool := w.fits 0 16 16 1 (w.fn == 0) (w.imm == 0)
def soutOk (w : SWord) : Bool := w.fits 1 16 16 1 (w.fn == 0) (w.imm == 0)
def sstepOk (w : SWord) : Bool := w.fits 0 16 8 16 (w.fn == 0) (w.imm == 0) && w.y != 0
def forkOk (w : SWord) : Bool := w.fits 0 16 16 16 (w.fn == 0) (w.imm.toNat % 4096 == 0)
def pruneOk (w : SWord) : Bool := w.fits 0 16 1 1 (w.fn == 0) (w.imm == 0)
def scatterOk (w : SWord) : Bool := w.fits 0 16 16 16 (w.fn == 0) (w.imm == 0)
def jmpOk (w : JWord) : Bool := w.fits 0 1 1 (w.imm == 0)
def bstOk (w : JWord) : Bool := w.fits 1 1 1 (decide (w.imm.toNat ≤ 8))
def loopOk (w : JWord) : Bool := w.fits 0 16 16 (w.imm == 0) && alwaysRuns w.pred w.pneg
def endloopOk (w : JWord) : Bool := w.fits 0 1 1 (w.imm == 0) && alwaysRuns w.pred w.pneg
def tbeginOk (w : TWord) : Bool :=
  w.fits 0 1 1 1 true (bits w.sel.toNat 3 2 != 0 || w.d2 == 0) (w.d1 != 0 || w.tag == 0) true 32
    && decide (w.sel.toNat % 4 ≤ 2) && (w.d1 != 0 || bits w.sel.toNat 2 1 == 0) && (bits w.sel.toNat 3 2 == 0 || w.d2 != 0)
    && alwaysRuns w.pred w.pneg
def macOk (w : TWord) : Bool := w.fits 0 16 16 16 (w.d1 != 0) (w.d2 == 0) (w.tag == 0) (w.aux == 0) 2
def drainOk (w : TWord) : Bool :=
  let sr := w.sel.getLsbD 1
  let img := w.sel.getLsbD 2
  w.fits 0 16 (if sr then 16 else 1) (if sr then 16 else 1) (w.d1 != 0) (!img || w.d2 == 0) (sr || w.tag == 0)
    (w.aux == 0) 32 && !(sr && img)
def tendOk (w : TWord) : Bool :=
  w.fits 0 (if w.sel.getLsbD 0 then 16 else 1) 1 1 (w.d1 == 0) (w.d2 == 0) (w.tag == 0) (w.aux == 0) 2
    && alwaysRuns w.pred w.pneg
def fillOk (w : TWord) : Bool :=
  w.fits 1 16 (if w.opt12 then 16 else 1) 16 (w.d1 != 0) (w.d2 == 0) true (w.aux == 0) 8 && decide (w.sel.toNat % 4 ≤ 2)
def attnOk (w : TWord) : Bool := w.fits 0 16 1 1 (w.d1 != 0) (w.d2 != 0) true true 1

/-- A storage error lies inside its storage (R109, 01). -/
def EccPlace.inRange (e : EccPlace) : Bool :=
  match e with
  | .loomStore _ a => decide (a.toNat < 0x600000)
  | .millStore _ a => decide (a.toNat < 96 * 1048576)
  | _ => true

end Sys2Proof
end

