-- ==== Sys2Proof/Machine/Operands.lean ====
section
/-! DEFINITION. Sys2Proof/Machine/Operands.lean: every operand form of the treadling instructions: registers (06 R116),
buffers and addresses (R116, R132), window and carve checks (05 R112, 07 R154), ordering against accesses that have issued
and not landed (05 R111), and the faults an instruction can meet at issue (06 R144). -/

namespace Sys2Proof.Machine

open Sys2Proof

/-! ### Registers -/

def Seq.getB (q : Seq) (i : Nat) : Word := q.b.get (i % 16) 0
def Seq.putB (q : Seq) (i : Nat) (v : Word) : Seq := { q with b := q.b.put (i % 16) v 0 }
def Seq.getA (q : Seq) (i : Nat) : Word := q.a.get (i % 16) 0
def Seq.putA (q : Seq) (i : Nat) (v : Word) : Seq := { q with a := q.a.put (i % 16) v 0 }

/-- A predicate; P0 always reads 1 (R116). -/
def Seq.getP (q : Seq) (i : Fin 8) : Bool := i == 0 || q.p.getLsbD i.val

/-- Writes P1 to P7. -/
def Seq.putP (q : Seq) (i : Fin 8) (v : Bool) : Seq :=
  let m : BitVec 8 := BitVec.ofNat 8 (2 ^ i.val)
  { q with p := if v then q.p ||| m else q.p &&& ~~~m }

/-- The sequencer goes on to the next word. -/
def Seq.next (q : Seq) : Seq := { q with pc := q.pc + 1 }
def Seq.jump (q : Seq) (t : BitVec 32) : Seq := { q with pc := t }

/-- A register operand of all ones (R14, 0x0320). -/
def ones (v : Word) : Bool := v == BitVec.allOnes 64

/-! ### Faults at issue -/

/-- A fault of an instruction: its code, the kind of unit that reports it (R383), the rest of its DETAIL, and what
LOOM_BOUND, LOOM_BOUND_VALUE or MEM_GUARD_ADDR then hold. -/
structure Trap where
  code : Nat
  kind : Nat
  detail : Nat
  which : Nat
  buffer : Nat
  value : Nat
  deriving DecidableEq, Repr

/-- A fault of the treadle sequencer (R144). -/
def Trap.seq (code : Nat) : Trap := { code := code, kind := 1, detail := 0, which := 0, buffer := 0, value := 0 }

/-- A fault reported by another kind of unit. -/
def Trap.of (code kind : Nat) : Trap := { Trap.seq code with kind := kind }

/-- A fault of the guard of a MOVE, SIN or SOUT, or of the carve check, at a cloth address or mill-store offset (R286,
R305). -/
def Trap.guard (code addr : Nat) : Trap := { Trap.of code 0x17 with value := addr }

/-- The unit that reports a trap. -/
def Trap.unit (t : Trap) (g : Fin 256) : Nat :=
  if t.kind < 0x10 then loomUnit g t.kind else if t.kind < 0x20 then millUnit (millOf g.val) t.kind else beamUnit t.kind

/-- The registers that hold a loom's last shape or guard fault (07), and a mill's (15). -/
def State.noteTrap (s : State) (a : At) (p : Fin 16) (t : Trap) : State :=
  if 0x0340 ≤ t.code ∧ t.code ≤ 0x0342 then
    let v := t.code + a.ctx.val * 2 ^ 16 + t.which * 2 ^ 19 + t.buffer % 65536 * 2 ^ 21
      + (s.seq a).pc.toNat % 2 ^ 20 * 2 ^ 37
    (s.setReg (.loomBound a.loom) (BitVec.ofNat 64 v)).setReg (.loomBoundValue a.loom) (BitVec.ofNat 64 t.value)
  else if t.code = 0x0502 ∨ t.code = 0x0503 then
    let m := millOf a.loom.val
    let v := t.code + p.val * 2 ^ 16 + a.ctx.val * 2 ^ 20 + a.loom.val % 32 * 2 ^ 23
    (s.setReg (.memGuard m) (BitVec.ofNat 64 v)).setReg (.memGuardAddr m) (BitVec.ofNat 64 (t.value % 2 ^ 48))
  else s

/-- An instruction faults: nothing of it is done, the open tile is poisoned, the context is faulted (R134, R144, R155). -/
def State.trap (s : State) (a : At) (t : Trap) : State :=
  match (s.loom a.loom).part with
  | none => s
  | some p => (s.noteTrap a p t).faultCtx p a.ctx (some a.loom) (t.unit a.loom) t.code t.detail

/-! ### Buffers -/

/-- An A register resolved: the storage its buffer lies in, the window's first address and length, the buffer's index and
the offset the register holds, which counts from the buffer's start (R116; log entry 6). -/
structure Place where
  store : Store
  base : Nat
  len : Nat
  buf : Nat
  carve : Nat
  off : Nat
  deriving DecidableEq, Repr

/-- The address an A register names. -/
def Place.addr (w : Place) : Nat := w.base + w.off

/-- The storage and first address of a buffer of the table (R132). -/
def PartCfg.bufferAt (k : PartCfg) (p : Fin 16) (a : At) (b : BufCfg) : Option (Store × Nat) :=
  if b.carve = 0 then some (.loom a.loom, (k.loomCarve a.ctx a.loom).1 + b.off)
  else if b.carve = 1 then some (.mill (millOf a.loom.val) p a.ctx, b.off)
  else match (k.carvesOf a.ctx)[b.carve - 2]? with
    | none => none
    | some v => some (.cloth p, v.base + b.off)

/-- Resolves the value of an A register (R116). -/
def PartCfg.place (k : PartCfg) (p : Fin 16) (a : At) (t : TreadCfg) (v : Word) : Option Place :=
  let i := bits v.toNat 0 16
  match t.buffers[i]? with
  | none => none
  | some b =>
    match k.bufferAt p a b with
    | none => none
    | some (st, base) => some { store := st, base := base, len := b.len, buf := i, carve := b.carve, off := bits v.toNat 16 48 }

/-- What an access outside a guarded window of the loom faults with (R154). -/
def Trap.window (buf off : Nat) : Trap := { Trap.seq 0x0341 with buffer := buf, value := off }

/-- A loom-level access of n bytes at an offset from a buffer's start (R112, R154): the loom-store address, or the fault. A
buffer that does not exist, or lies outside the loom store, is beyond every guard in a multi-mill partition and outside the
carve in a single-mill one (log entry 6). -/
def PartCfg.access (k : PartCfg) (a : At) (w : Option Place) (off : Int) (n : Nat) : Except Trap Nat :=
  let outside : Trap := if k.singleMill then Trap.of 0x0307 3 else Trap.window ((w.map Place.buf).getD 0) (off.toNat)
  match w with
  | none => .error outside
  | some w =>
    if w.carve ≠ 0 then .error outside
    else if !k.singleMill && (decide (off < 0) || decide ((w.len : Int) < off + n)) then .error (Trap.window w.buf off.toNat)
    else
      let c := k.loomCarve a.ctx a.loom
      let addr := (w.base : Int) + off
      if addr < c.1 ∨ (c.1 + c.2 : Int) < addr + n then .error (Trap.of 0x0307 3)
      else .ok addr.toNat

/-! ### Accesses that have issued and not landed (R111) -/

/-- Two runs of bytes of one storage meet. -/
def meets (a n b m : Nat) : Bool := decide (a < b + m) && decide (b < a + n) && decide (0 < n) && decide (0 < m)

/-- The bytes of an extent that a loom's store holds. -/
def Extent.inLoom (e : Extent) (g : Fin 256) : Option (Nat × Nat) :=
  match e.store with
  | .loom h => if h = g then some (e.addr, e.len) else none
  | _ => none

/-- Loom-store bytes that instructions of a context have yet to write, and yet to read: MOVEs, SIN and SOUT, fills. -/
def Part.writesDue (x : Part) (l : Loom) (a : At) : List (Nat × Nat) :=
  (l.seq a.ctx).moves.filterMap (fun m => m.dst.inLoom a.loom)
    ++ (x.copies.filter (fun c => c.loom == a.loom && c.ctx == a.ctx && !c.out)).map (fun c => (c.store, c.len))
def Part.readsDue (x : Part) (l : Loom) (a : At) : List (Nat × Nat) :=
  (l.seq a.ctx).moves.filterMap (fun m => m.src.inLoom a.loom)
    ++ (x.copies.filter (fun c => c.loom == a.loom && c.ctx == a.ctx && c.out)).map (fun c => (c.store, c.len))
    ++ (l.fills.filter (fun f => f.ctx == a.ctx)).flatMap (fun f =>
        (f.base, f.len) :: (if f.stream then [(f.delta, f.deltaEnd - f.delta)] else []))

/-- A read, or a write, of loom-store bytes must wait (R111). -/
def Part.readHeld (x : Part) (l : Loom) (a : At) (addr n : Nat) : Bool :=
  (x.writesDue l a).any (fun r => meets addr n r.1 r.2)
def Part.writeHeld (x : Part) (l : Loom) (a : At) (addr n : Nat) : Bool :=
  (x.writesDue l a ++ x.readsDue l a).any (fun r => meets addr n r.1 r.2)

end Sys2Proof.Machine
end

