-- ==== Sys2Proof/Machine/Issue.lean ====
section
/-! DEFINITION. Sys2Proof/Machine/Issue.lean: when a word of a treadling issues (06 R116, R118, R119; 16 R315): its context
is in force on the loom and running, and the word is the one at its PC. -/

namespace Sys2Proof.Machine

open Sys2Proof

/-- An instruction at issue: the state (its sequencer running), where, the partition and the TREADLING record. -/
structure Here where
  s : State
  a : At
  p : Fin 16
  x : Part
  t : TreadCfg

def Here.q (h : Here) : Seq := h.s.seq h.a
def Here.l (h : Here) : Loom := h.s.loom h.a.loom
def Here.k (h : Here) : PartCfg := h.x.cfg
def Here.mill (h : Here) : Fin 8 := millOf h.a.loom.val

/-- The issuing sequencer takes a value. -/
def Here.setQ (h : Here) (q : Seq) : State := h.s.setSeq h.a q

/-- The instruction is done: the sequencer takes a value and goes on to the next word. -/
def Here.go (h : Here) (q : Seq) : State := h.setQ q.next

/-- The instruction waits or is held: nothing changes yet (R118). -/
def Here.hold (h : Here) : State := h.s

/-- The instruction faults. -/
def Here.trap (h : Here) (t : Trap) : State := h.s.trap h.a t

/-- Resolves an A register. -/
def Here.place (h : Here) (i : Nat) : Option Place := h.k.place h.p h.a h.t (h.q.getA i)

/-- The loom's switch to its partition's entry falls due (R316): the context in force has no tile open and waits, has ended, has
faulted, has not started, or has just completed a tile; a self-test ends or is abandoned first (R381). A sequencer that waits
for the stream home's reply is issuing (R187). -/
def Loom.switchDue (l : Loom) (x : Part) : Bool :=
  l.entry != x.entry && l.test.isNone
    && (match l.entry with
      | .ctx c =>
        let q := l.seq c
        q.tile.isNone && (q.run != .running || l.tileDone) && q.run != .waiting .home
      | _ => true)

/-- A context is in force on the loom, which is neither failed, stopped nor testing, and its partition runs; a tile that was
open when the partition or the context stopped goes on to its end (R46, R155, R315, R377). -/
def Loom.inForce (l : Loom) (x : Part) (c : Fin 8) (moduleSafe : Bool) : Bool :=
  x.started && !l.failed && !l.stopped && l.test.isNone && l.entry == .ctx c && !l.switchDue x
    && ((x.stopping.isNone && x.safe.isNone && !moduleSafe && (x.ctx c).fault.isNone) || (l.seq c).tile.isSome)

/-- The loom may issue for a context. -/
def Loom.mayIssue (l : Loom) (x : Part) (c : Fin 8) (moduleSafe : Bool) : Bool :=
  let q := l.seq c
  l.inForce x c moduleSafe && (q.run == .running || q.run == .notStarted)
    && (match q.tile with | none => true | some t => t.closing.isNone)

/-- A waiting context resumes on a loom only while it is in force there (R315): its partition and what it waits for. -/
def State.resuming (s : State) (a : At) : Option (Fin 16 × Part × Wait) :=
  match (s.loom a.loom).part with
  | none => none
  | some p =>
    match s.part? p with
    | none => none
    | some x =>
      match (s.seq a).run with
      | .waiting w => if (s.loom a.loom).inForce x a.ctx s.safety.moduleSafe then some (p, x, w) else none
      | _ => none

/-- The word at the PC of a context on a loom (R116, R119). -/
def State.wordAt (s : State) (k : PartCfg) (a : At) : Nat :=
  leNat (s.bytesAt (.loom a.loom) ((k.loomCarve a.ctx a.loom).1 + 16 * (s.seq a).pc.toNat) 16)

/-- The instruction whose word is `code` may issue on a loom for a context. -/
def State.here (s : State) (a : At) (code : Nat) : Option Here :=
  match (s.loom a.loom).part with
  | none => none
  | some p =>
    match s.part? p with
    | none => none
    | some x =>
      match x.cfg.tread? a.ctx a.loom with
      | none => none
      | some t =>
        if (s.loom a.loom).mayIssue x a.ctx s.safety.moduleSafe && decide ((s.seq a).pc.toNat < t.words)
            && s.wordAt x.cfg a == code then
          some { s := s.modLoom a.loom (fun l => ({ l with tileDone := false } : Loom).setSeq a.ctx { l.seq a.ctx with run := .running }),
                 a := a, p := p, x := x, t := t }
        else none

/-- A treadling word is issued: refused where it is no word of its instruction; nothing where it is not the word that
issues; one beat and nothing else where its predicate reads 0 (R119, R120). -/
def State.issue (s : State) (a : At) (ok : Bool) (name : String) (code : Nat) (pred : Fin 8) (pneg : Bool)
    (f : Here → State) : Out :=
  if !ok then .refused (.illFormed name)
  else match s.here a code with
    | none => .next s
    | some h => .next (if h.q.getP pred != pneg then f h else h.go h.q)

def State.issueS (s : State) (a : At) (w : SWord) (op : Nat) (ok : Bool) (name : String) (f : Here → State) : Out :=
  s.issue a ok name (w.code op) w.pred w.pneg f
def State.issueJ (s : State) (a : At) (w : JWord) (op : Nat) (ok : Bool) (name : String) (f : Here → State) : Out :=
  s.issue a ok name (w.code op) w.pred w.pneg f
def State.issueT (s : State) (a : At) (w : TWord) (op : Nat) (ok : Bool) (name : String) (f : Here → State) : Out :=
  s.issue a ok name (w.code op) w.pred w.pneg f

/-- Data a context has issued outside a tile has yet to land: MOVEs, SIN and SOUT hold TBEGIN and sync instructions (R135,
R197). -/
def Here.landing (h : Here) : Bool :=
  h.q.moves.any (fun m => !m.inTile) || h.x.copies.any (fun c => c.loom == h.a.loom && c.ctx == h.a.ctx)

/-- A loom-store access of an instruction that reads, or writes, n bytes at an offset of a buffer, with what it does. -/
def Here.reading (h : Here) (w : Option Place) (off : Int) (n : Nat) (f : Nat → State) : State :=
  match h.k.access h.a w off n with
  | .error t => h.trap t
  | .ok addr => if h.x.readHeld h.l h.a addr n then h.hold else f addr
def Here.writing (h : Here) (w : Option Place) (off : Int) (n : Nat) (f : Nat → State) : State :=
  match h.k.access h.a w off n with
  | .error t => h.trap t
  | .ok addr => if h.x.writeHeld h.l h.a addr n then h.hold else f addr

end Sys2Proof.Machine
end

