-- ==== Sys2Proof/Machine/Tensor.lean ====
section
/-! DEFINITION. Sys2Proof/Machine/Tensor.lean: descriptor words and requantisation records (06 R123, 08 R164), the words a
tile can reach (07 R147), where rows, elements and group scales lie (06 R125, 04 R69), and the channels of the tie-up modes
(05 R96, 06 R126). -/

namespace Sys2Proof.Machine

open Sys2Proof

/-- A descriptor word (R123). -/
structure Desc where
  type : Nat
  group : Nat
  addr : Nat
  rows : Nat
  cols : Nat
  rowoff : Nat
  stride : Nat
  scales : Nat
  deriving DecidableEq, Repr

def descOf (n : Nat) : Desc :=
  { type := bits n 16 4, group := groupSize (bits n 20 2), addr := bits n 22 4, rows := bits n 26 4, cols := bits n 30 4,
    rowoff := bits n 48 16, stride := bits n 64 32, scales := bits n 96 32 }

/-- The descriptor at a word of the code. -/
def Here.desc (h : Here) (d : Nat) : Desc := descOf (h.t.word d)

/-- A requantisation record (R164): per-channel or per-tensor, its table register and RECT. -/
structure ReqRec where
  perChannel : Bool
  table : Nat
  rect : Bool
  value : Requant
  deriving DecidableEq, Repr

def reqRecOf (n : Nat) : ReqRec :=
  { perChannel := bits n 16 2 == 1, table := bits n 18 4, rect := bit n 22,
    value := { mult := sext 48 (bits n 32 48), shift := sext 8 (bits n 80 8), biasExp := sext 8 (bits n 88 8),
               bias := sext 32 (bits n 96 32) } }

/-- An entry of a channel table (R165). -/
def tableEntry (bs : List Byte) (c : Nat) : Requant :=
  { bias := sext 64 (leNat (slice bs (16 * c) 8)), mult := sext 48 (leNat (slice bs (16 * c + 8) 6)),
    shift := sext 8 (leNat (slice bs (16 * c + 14) 1)), biasExp := sext 8 (leNat (slice bs (16 * c + 15) 1)) }

/-! ### The words of a tile -/

/-- Words that may follow word i inside a tile (R121, R131). -/
def wordNexts (t : TreadCfg) (i : Nat) : List Nat :=
  let n := t.word i
  let op := bits n 0 8
  let target := bits n 32 32
  if op = 0x23 ∨ op = 0x20 ∨ op = 0xF0 ∨ op = 0x05 then []
  else if op = 0x01 then (if bits n 8 4 = 0 then [target] else [target, i + 1])
  else if op = 0x02 then [target, i + 1]
  else if op = 0x03 ∨ op = 0x04 then [i + 1, target + 1]
  else [i + 1]

/-- Every word reachable from a list of words before the tile's TEND. -/
def reachWords (t : TreadCfg) (work seen : List Nat) (fuel : Nat) : List Nat :=
  match fuel with
  | 0 => seen
  | k + 1 =>
    match work with
    | [] => seen
    | i :: rest =>
      if seen.contains i || decide (t.words ≤ i) then reachWords t rest seen k
      else reachWords t (wordNexts t i ++ rest) (i :: seen) k

/-- The words of the tile whose TBEGIN is word i, in increasing order (R147). -/
def TreadCfg.tileWords (t : TreadCfg) (i : Nat) : List Nat :=
  let seen := reachWords t [i + 1] [] (3 * t.words + 1)
  (List.range t.words).filter (fun j => seen.contains j)

/-! ### Tie-up modes -/

def TieUp.ofCode (n : Nat) : TieUp := if n = 0 then .oneByFour else if n = 1 then .twoByTwo else .fourByOne
def TieUp.code (t : TieUp) : Nat :=
  match t with
  | .oneByFour => 0
  | .twoByTwo => 1
  | .fourByOne => 2

/-- Weft streams of a mode, and channels of one stream (R96). -/
def TieUp.streams (t : TieUp) : Nat :=
  match t with
  | .oneByFour => 1
  | .twoByTwo => 2
  | .fourByOne => 4
def TieUp.channels (t : TieUp) : Nat := 256 / t.streams

/-- Channel and stream of harness h, heddle j (R126); heddles are numbered 64h + j. -/
def TieUp.channel (t : TieUp) (hd : Nat) : Nat := hd % t.channels
def TieUp.stream (t : TieUp) (hd : Nat) : Nat := hd / t.channels

/-- The heddle that computes a channel of a stream (R126). -/
def TieUp.heddle (t : TieUp) (stream ch : Nat) : Nat := stream * t.channels + ch

/-! ### Elements of a row -/

/-- Elements of a bank of a heddle by type (R95). -/
def bankCapacity (t : Nat) : Nat :=
  if elemBits t = 4 then 4096 else if elemBits t ≤ 8 then 2048 else if elemBits t = 16 then 1024
  else if t = 10 then 512 else 256

/-- Products per heddle and beat by type, or reduction elements of a twin-thread reduction (R95). -/
def perBeat (t : Nat) : Nat :=
  if elemBits t = 4 then 64 else if elemBits t ≤ 8 then 32 else if elemBits t = 16 then 16 else if t = 10 then 4 else 2

/-- First element, first byte and end byte of the packed units that hold elements lo to hi − 1 (R69). -/
def span (t lo hi : Nat) : Nat × Nat × Nat :=
  let w := elemBits t
  if w = 4 then (lo / 2 * 2, lo / 2, ceilDiv hi 2)
  else if w = 6 then (lo / 4 * 4, lo / 4 * 3, ceilDiv hi 4 * 3)
  else (lo, lo * (w / 8), hi * (w / 8))

/-- The values that enter the heddles for an element code under a group scale: hi and lo for a twin-thread element (R75),
NaN under the NaN scale (R71). -/
def laneValues (t code : Nat) (scale : Option Int) : List Num :=
  match scale with
  | none => [.nan]
  | some e =>
    if t = 11 then
      let hi := ofF32 (BitVec.ofNat 32 (code / 2 ^ 32))
      match hi with
      | .fin _ _ _ => [hi, ofF32 (BitVec.ofNat 32 code)]
      | _ => [hi]
    else [(elemValue t code).scale e]

/-- The byte list with element k of a packed run replaced (R69, R152). -/
def setByte (bs : List Byte) (i : Nat) (v : Nat) : List Byte := bs.set i (BitVec.ofNat 8 v)
def setBytesAt (bs : List Byte) (i : Nat) (vs : List Byte) : List Byte :=
  match vs with
  | [] => bs
  | v :: rest => setBytesAt (bs.set i v) (i + 1) rest
def putElem (t : Nat) (bs : List Byte) (k code : Nat) : List Byte :=
  let w := elemBits t
  if w = 4 then setByte bs (k / 2) (setBits ((bs.getD (k / 2) 0).toNat) (4 * (k % 2)) 4 code)
  else if w = 6 then setBytesAt bs (3 * (k / 4)) (leBytes 3 (setBits (leNat (slice bs (3 * (k / 4)) 3)) (6 * (k % 4)) 6 code))
  else setBytesAt bs (k * (w / 8)) (leBytes (w / 8) code)

/-- The bits of the last byte or triple that hold no element, written as zeros (R69). -/
def zeroTail (t : Nat) (bs : List Byte) (n : Nat) : List Byte :=
  let per := if elemBits t = 4 then 2 else if elemBits t = 6 then 4 else 1
  (rangeFrom n ((per - n % per) % per)).foldl (fun b k => putElem t b k 0) bs

end Sys2Proof.Machine
end

