-- ==== Sys2Proof/Machine/Tile.lean ====
section
/-! DEFINITION. Sys2Proof/Machine/Tile.lean: tiles: TBEGIN, MAC, DRAIN, TEND, their completion and their watchdog (05 R96 to
R105, 06 R133, R134, 07 R147 to R153, R160, 08 R164 to R171). -/

namespace Sys2Proof.Machine

open Sys2Proof

/-! ### What an opening tile latches -/

/-- How a tile uses a descriptor (R148). -/
inductive Role where
  | warp | weft | out | img
  deriving DecidableEq, Repr

/-- The descriptors of a tile with their roles, and the requantisation records its DRAINs name, by word index (R147). -/
def TreadCfg.roles (t : TreadCfg) (i : Nat) (m : TieUp) : List (Nat × Role) :=
  let b := t.word i
  (if bits b 32 20 = 0 then [] else [(bits b 32 20, Role.warp)])
    ++ (if bits b 123 2 = 0 then [] else [(bits b 64 20, Role.img)])
    ++ (t.tileWords i).flatMap (fun j =>
        let n := t.word j
        let d := bits n 32 20
        let op := bits n 0 8
        if op = 0x21 then (rangeFrom d m.streams).map (fun x => (x, Role.weft))
        else if op = 0x22 then (if bit n 122 then [(d, Role.img)] else (rangeFrom d m.streams).map (fun x => (x, Role.out)))
        else if op = 0x25 then [(d, Role.weft), (bits n 64 20, Role.out)]
        else [])
def TreadCfg.records (t : TreadCfg) (i : Nat) : List Nat :=
  ((t.tileWords i).flatMap (fun j =>
    let n := t.word j
    if bits n 0 8 = 0x22 && bits n 64 20 != 0 then [bits n 64 20] else [])).eraseDups

/-- ROWS and COLS of a descriptor as its registers hold them now. -/
def Here.shapeNow (h : Here) (d : Nat) : Shape :=
  { rows := h.q.getB (h.desc d).rows, cols := h.q.getB (h.desc d).cols }

/-- The comparisons of a descriptor with a CEILINGS record: value, WHICH and ceiling (R148). -/
def Role.limits (r : Role) (sh : Shape) (c : CeilCfg) : List (Nat × Nat × Nat) :=
  let rows := sh.rows.toNat
  let cols := sh.cols.toNat
  match r with
  | .warp => [(rows, 1, c.n), (cols, 2, c.k)]
  | .weft => [(rows, 0, c.m), (cols, 2, c.k)]
  | .out => [(rows, 0, c.m), (cols, 1, c.n)]
  | .img => [(rows, 0, c.m)]

/-- The CEILINGS record of a context by index (R148). -/
def PartCfg.ceiling (k : PartCfg) (c : Fin 8) (i : Nat) : CeilCfg :=
  (k.ceilings.filter (fun e => e.ctx == c.val)).getD i { ctx := c.val, desc := 0, m := 0, n := 0, k := 0, width := 0, height := 0 }

/-- A latched shape above its ceiling (0x0340). -/
def Trap.ceiling (which value : Nat) : Trap := { Trap.seq 0x0340 with which := which, value := value }

/-- Reads n bytes of the loom store for a consumer, at an offset added to an A register's (R125, R154, R300): the address, or
the fault. -/
def Here.consume (h : Here) (areg : Nat) (off : Int) (n code kind : Nat) : Except Trap Nat :=
  let w := h.place areg
  let base : Int := match w with | none => 0 | some p => p.off
  match h.k.access h.a w (base + off) n with
  | .error t => .error t
  | .ok addr => if h.s.anyBad (.loom h.a.loom) addr n then .error (Trap.of code kind) else .ok addr

/-- The bytes of the loom the instruction issues on. -/
def Here.bytes (h : Here) (addr n : Nat) : List Byte := h.s.bytesAt (.loom h.a.loom) addr n

/-- The image sets that a TBEGIN preloads (R133, R160): the fells by heddle × 2 + fell, and the extents read. -/
def Here.preload (h : Here) (areg : Nat) (f : Nat) : Except Trap (List (Nat × Fell) × (Nat × Nat)) :=
  match h.consume areg (8192 * f) 8192 0x0308 1 with
  | .error t => .error t
  | .ok addr =>
    match readImages (h.bytes addr 4096) 156, readImages (h.bytes (addr + 4096) 4096) 100 with
    | some a, some b => .ok (((List.range 256).zip (a ++ b)).map (fun e => (2 * e.1 + f, e.2)), (addr, 8192))
    | _, _ => .error (Trap.of 0x0308 1)

/-- The channel table of a per-channel record (R165, R167, R168), and the extent read. -/
def Here.loadTable (h : Here) (m : TieUp) (word : Nat) : Except Trap (DrainSet × List (Nat × Nat)) :=
  let r := reqRecOf (h.t.word word)
  if !r.perChannel then .ok ({ word := word, table := [] }, [])
  else
    let low : Int := match h.place r.table with | none => 0 | some p => (p.off % 4096 : Nat)
    let n := 16 * m.channels
    match h.consume r.table (-low) n 0x0501 1 with
    | .error t => .error t
    | .ok addr =>
      let bs := h.bytes addr n
      .ok ({ word := word, table := (List.range m.channels).map (fun c => (c, tableEntry bs c)) }, [(addr, n)])

/-- The first fault of a list of steps, or all their answers. -/
def eachOk {α β : Type} (f : α → Except Trap β) (l : List α) : Except Trap (List β) :=
  match l with
  | [] => .ok []
  | x :: rest =>
    match f x with
    | .error t => .error t
    | .ok y =>
      match eachOk f rest with
      | .error t => .error t
      | .ok ys => .ok (y :: ys)

/-- The tag that a bank has or that its last fill to have issued gives it (R100). -/
def Loom.bank (l : Loom) (b : Fin 2) : Bank := if b = 0 then l.bank0 else l.bank1
def Loom.setBank (l : Loom) (b : Fin 2) (k : Bank) : Loom := if b = 0 then { l with bank0 := k } else { l with bank1 := k }
def Loom.tagOf (l : Loom) (b : Fin 2) : Option BankTag :=
  match (l.fills.filter (fun f => f.bank == b)).getLast? with
  | some f => some { ctx := f.ctx, tag := f.tag, tieup := f.tieup, etype := f.etype, group := f.group }
  | none => (l.bank b).tag

/-- A fill is on its way to a bank and not held for the open tile. -/
def Loom.filling (l : Loom) (b : Fin 2) : Bool := l.fills.any (fun f => f.bank == b && f.heldSince.isNone)

/-- The bank is ready: it holds a complete fill and none is on its way (R99). -/
def Loom.bankReady (l : Loom) (b : Fin 2) : Bool := (l.bank b).ready && !l.filling b

/-- LOOM_DRAINSET of an opening tile (08). -/
def State.noteDrainSets (s : State) (a : At) (recs : List Nat) (loads : Nat) : State :=
  let r := Reg.loomDrainset a.loom
  (((s.setFld r Fl.loomDrainset_SET0 (recs.getD 0 0)).setFld r Fl.loomDrainset_SET1 (recs.getD 1 0)).setFld r
    Fl.loomDrainset_CONTEXT a.ctx.val).bump r Fl.loomDrainset_LOADS loads

/-- The snapshots that a tile's ATTN words take at TBEGIN (R217). -/
def Here.snapshots (h : Here) (i : Nat) : List Snapshot :=
  (h.t.tileWords i).filterMap (fun j =>
    let n := h.t.word j
    if bits n 0 8 = 0x25 then h.x.snapshot? (h.q.getB (bits n 16 5)) (bits n 104 16) (bits n 52 12) else none)

/-- The tile opens with everything its TBEGIN read (R133). -/
def Here.openTile (h : Here) (w : TWord) (roles : List (Nat × Role)) (recs : List Nat) (pre : List (Nat × Fell))
    (sets : List DrainSet) (loads : Nat) : State :=
  let i := h.q.pc.toNat
  let m := TieUp.ofCode (w.sel.toNat % 4)
  let bank : Fin 2 := if bit w.sel.toNat 2 then 1 else 0
  let snaps := h.snapshots i
  let tile : Tile :=
    { tieup := m, bank := bank, ceiling := w.aux.toNat, word := i, start := h.s.beat, warp := w.d1.toNat,
      shapes := roles.foldl (fun t r => t.ins r.1 (h.shapeNow r.1)) [], sets := sets, waiting := none,
      attn := (h.t.tileWords i).any (fun j => bits (h.t.word j) 0 8 == 0x25), snapshots := snaps, scores := [],
      closing := none }
  let q := { (h.q.clearOut.setCond .ok 0) with tile := some tile }
  let s := (h.go q).modLoom h.a.loom (fun l =>
    { l with lastCtx := h.a.ctx, lastTieup := m, activeBank := bank, v := [], vfell := Fell.cleared,
             fells := pre.foldl (fun t e => t.put e.1 e.2 Fell.cleared) [],
             undrained := pre.foldl (fun t e => t.put (e.1 % 2) true false) [] })
  (s.modPart h.p (fun x => snaps.foldl (fun x n => x.holdSnapshot n) x)).noteDrainSets h.a recs loads

/-- TBEGIN after its bank tag has been found good. The checks come in the order of R133: latched shapes (R147), ceilings
(R148), preload (R160), channel tables (R167); log entry 26. -/
def Here.tryOpen (h : Here) (w : TWord) : State :=
  let i := h.q.pc.toNat
  let sel := w.sel.toNat
  let m := TieUp.ofCode (sel % 4)
  let roles := h.t.roles i m
  let recs := h.t.records i
  let beyond := roles.flatMap (fun r => (r.2.limits (h.shapeNow r.1) (h.k.ceiling h.a.ctx w.aux.toNat)).filter (fun e => e.2.2 < e.1))
  if roles.any (fun r => ones (h.shapeNow r.1).rows || ones (h.shapeNow r.1).cols) then h.trap (Trap.seq 0x0320)
  else match (if h.k.singleMill then beyond.head? else none) with
    | some e => h.trap (Trap.ceiling e.2.1 e.1)
    | none =>
      let pres := (if bit sel 3 then [0] else []) ++ (if bit sel 4 then [1] else [])
      match eachOk (fun f => h.preload (h.desc w.d2.toNat).addr f) pres with
      | .error t => h.trap t
      | .ok images =>
        match eachOk (fun d => h.loadTable m d) recs with
        | .error t => h.trap t
        | .ok tables =>
          let reads := images.map (fun e => e.2) ++ tables.flatMap (fun e => e.2)
          if reads.any (fun r => h.x.readHeld h.l h.a r.1 r.2) then h.hold
          else h.openTile w roles recs (images.flatMap (fun e => e.1)) (tables.map (fun e => e.1)) (tables.flatMap (fun e => e.2)).length

/-- TBEGIN (R133). MOVEs and swaps issued before it land first (R135, R197). -/
def execTbegin (a : At) (w : TWord) (s : State) : Out :=
  s.issueT a w 0x20 (tbeginOk w) "TBEGIN" (fun h =>
    if h.landing then h.hold
    else if w.d1 = 0 then h.tryOpen w
    else
      let bank : Fin 2 := if bit w.sel.toNat 2 then 1 else 0
      let d := h.desc w.d1.toNat
      let stale := h.go (h.q.setCond .bankStale bank.val)
      match h.l.tagOf bank with
      | none => stale
      | some t =>
        if t.ctx ≠ h.a.ctx ∨ t.tag ≠ w.tag then stale
        else if t.tieup ≠ TieUp.ofCode (w.sel.toNat % 4) ∨ t.etype ≠ d.type ∨ t.group ≠ d.group then h.trap (Trap.seq 0x0309)
        else h.tryOpen w)

/-! ### MAC -/

/-- The shape a tile latched for a descriptor. -/
def Tile.shape (t : Tile) (d : Nat) : Shape := t.shapes.get d { rows := 0, cols := 0 }

/-- What one weft stream presents: whether a row or column was masked, the bytes read, and the elements by index with the
values that enter the heddles. -/
structure Weft where
  masked : Bool
  reads : List (Nat × Nat)
  elems : List (Nat × List Num)

/-- Stream row of a MAC (R125, R150, R151): elements lo to hi − 1 of a row of descriptor d, masked by its COLS and the
warp's. -/
def Here.weft (h : Here) (t : Tile) (d row lo hi : Nat) : Except Trap Weft :=
  let k := h.desc d
  let sh := t.shape d
  let r := row + k.rowoff
  let top := min hi (min sh.cols.toNat (t.shape t.warp).cols.toNat)
  if sh.rows.toNat ≤ r then .ok { masked := true, reads := [], elems := [] }
  else if top ≤ lo then .ok { masked := decide (top < hi), reads := [], elems := [] }
  else
    let sp := span k.type lo top
    let n := sp.2.2 - sp.2.1
    match h.consume k.addr (r * k.stride + sp.2.1 : Nat) n 0x0501 2 with
    | .error e => .error e
    | .ok addr =>
      let data := h.bytes addr n
      let elem := fun (i : Nat) (sc : Option Int) => (i, laneValues k.type (elemAt k.type data (i - sp.1)) sc)
      if k.group = 0 then
        .ok { masked := decide (top < hi), reads := [(addr, n)], elems := (rangeFrom lo (top - lo)).map (fun i => elem i (some 0)) }
      else
        let j0 := lo / k.group
        let m := (top - 1) / k.group + 1 - j0
        match h.consume k.addr (k.scales + r * ceilDiv sh.cols.toNat k.group + j0 : Nat) m 0x0501 2 with
        | .error e => .error e
        | .ok sa =>
          let sc := h.bytes sa m
          .ok { masked := decide (top < hi), reads := [(addr, n), (sa, m)],
                elems := (rangeFrom lo (top - lo)).map (fun i => elem i (scaleExp (sc.getD (i / k.group - j0) 0).toNat)) }

/-- The values of warp element i of a heddle (R94). -/
def Bank.values (b : Bank) (d : Desc) (hd i : Nat) : List Num :=
  let sp := span d.type i (i + 1)
  let data := (List.range (sp.2.2 - sp.2.1)).map (fun o => b.elems.get (hd * 2048 + sp.2.1 + o) 0)
  let sc := if d.group = 0 then some 0 else scaleExp (b.scales.get (hd * 128 + i / d.group) 0).toNat
  laneValues d.type (elemAt d.type data (i - sp.1)) sc

/-- One heddle's reduction: each weft element with its warp element, in ascending order (R145). -/
def reduce (b : Bank) (d : Desc) (hd : Nat) (elems : List (Nat × List Num)) (f : Fell) : Fell :=
  elems.foldl (fun f e =>
    (b.values d hd e.1).foldl (fun f y => e.2.foldl (fun f x => f.add (x.mul y)) f) f) f

/-- A MAC's products enter fell f of every heddle whose channel the warp holds (R126, R133, R151). -/
def Loom.macs (l : Loom) (t : Tile) (d : Desc) (f : Nat) (wefts : List (List (Nat × List Num))) : Loom :=
  let rows := (t.shape t.warp).rows.toNat
  { l with
    fells := (List.range 256).foldl (fun tab hd =>
      let elems := wefts.getD (t.tieup.stream hd) []
      if elems.isEmpty || decide (rows ≤ t.tieup.channel hd) then tab
      else
        let k := 2 * hd + f
        tab.put k (reduce (l.bank t.bank) d hd elems (tab.get k Fell.cleared)) Fell.cleared) l.fells,
    undrained := l.undrained.put f true false }

/-- The MAC waits for its bank, from its earliest possible issue on (R99). -/
def Here.awaitBank (h : Here) (t : Tile) : State :=
  h.setQ { h.q with tile := some { t with waiting := some (t.waiting.getD h.s.beat) } }

/-- MAC (R133). A length of zero issues no beat (R153). -/
def execMac (a : At) (w : TWord) (s : State) : Out :=
  s.issueT a w 0x21 (macOk w) "MAC" (fun h =>
    match h.q.tile with
    | none => h.go h.q
    | some t =>
      let row := (h.q.getB w.x.val).toNat
      let k0 := (h.q.getB w.y.val).toNat
      let kl := (h.q.getB w.z.val).toNat
      let wd := h.desc t.warp
      let f := w.sel.toNat % 2
      if ones (h.q.getB w.z.val) then h.trap (Trap.seq 0x0320)
      else if bankCapacity wd.type < k0 + kl then h.trap (Trap.seq 0x0321)
      else match eachOk (fun d => h.weft t d row k0 (k0 + kl)) (rangeFrom w.d1.toNat t.tieup.streams) with
        | .error e => h.trap e
        | .ok wefts =>
          if (wefts.flatMap (fun v => v.reads)).any (fun r => h.x.readHeld h.l h.a r.1 r.2) then h.hold
          else
            let q := if wefts.any (fun v => v.masked) then h.q.setMasked else h.q
            if kl = 0 then h.go q
            else if !h.l.bankReady t.bank then h.awaitBank t
            else
              let beats := ceilDiv kl (min (perBeat (h.desc w.d1.toNat).type) (perBeat wd.type))
              let s := h.go q
              (s.modLoom a.loom (fun l => l.macs t wd f (wefts.map (fun v => v.elems)))).count (.loomBeats a.loom) beats)

/-! ### DRAIN -/

/-- What the drain of one stream writes, its flags, and whether a row or channel was masked. -/
structure Drained where
  writes : List (Nat × List Byte)
  flags : Flg
  masked : Bool

/-- The requantisation of a channel (R133, R164, R165). -/
def Here.requant (h : Here) (t : Tile) (d2 ch : Nat) : Requant × Bool :=
  if d2 = 0 then (Requant.unit, false)
  else
    let r := reqRecOf (h.t.word d2)
    if !r.perChannel then (r.value, r.rect)
    else match t.sets.find? (fun e => e.word == d2) with
      | none => (Requant.unit, r.rect)
      | some e => (e.table.get ch Requant.unit, r.rect)

/-- How an output element rounds: stochastically under SR, keyed by stream and step (R91). -/
def Here.mode (h : Here) (w : TWord) (e : Nat) : Mode :=
  if w.sel.getLsbD 1 then
    let key := philoxKey h.k.seed.toNat (h.q.getB w.y.val).toNat
    let step := (h.q.getB w.z.val).toNat
    .stoch (philoxWord (step % 2 ^ 32) (step / 2 ^ 32) (e / 4 % 2 ^ 32) w.tag.toNat key.1 key.2 e)
  else .rne

/-- Groups of a list of n values each. -/
def groupsOf {α : Type} (n : Nat) (l : List α) (fuel : Nat) : List (List α) :=
  match fuel with
  | 0 => []
  | k + 1 => if l.isEmpty then [] else l.take n :: groupsOf n (l.drop n) k

/-- The address of an output written at an offset added to an A register's. -/
def Here.produce (h : Here) (areg : Nat) (off n : Nat) : Except Trap Nat :=
  let w := h.place areg
  let base : Int := match w with | none => 0 | some p => p.off
  h.k.access h.a w (base + off) n

/-- The drain of fell f of one stream into a row of descriptor d (R152, R169 to R171). -/
def Here.drainStream (h : Here) (w : TWord) (t : Tile) (stream row : Nat) : Except Trap Drained :=
  let d := w.d1.toNat + stream
  let k := h.desc d
  let sh := t.shape d
  let r := row + k.rowoff
  let nch := t.tieup.channels
  let cols := sh.cols.toNat
  let lim := min nch (min cols (if t.warp = 0 then nch else (t.shape t.warp).rows.toNat))
  if sh.rows.toNat ≤ r then .ok { writes := [], flags := Flg.none, masked := true }
  else if lim = 0 then .ok { writes := [], flags := Flg.none, masked := true }
  else
    let n := elemBytes k.type lim
    match h.produce k.addr (r * k.stride) n with
    | .error e => .error e
    | .ok addr =>
      let vals := (List.range lim).map (fun ch =>
        let f := h.l.fells.get (2 * t.tieup.heddle stream ch + w.sel.toNat % 2) Fell.cleared
        let rq := h.requant t w.d2.toNat ch
        f.requant rq.1 rq.2)
      let old := h.bytes addr n
      let tail := fun (bs : List Byte) => if lim = cols then zeroTail k.type bs lim else bs
      let flagsOf := fun (codes : List (Nat × Flg)) =>
        codes.foldl (fun f c => f.or c.2) (vals.foldl (fun f v => f.or v.2) Flg.none)
      let write := fun (codes : List (Nat × Flg)) =>
        tail ((codes.zipIdx).foldl (fun bs c => putElem k.type bs c.2 c.1.1) old)
      if k.group = 0 then
        let codes := (vals.zipIdx).map (fun v => toElem k.type (h.mode w (r * cols + v.2)) v.1.1)
        .ok { writes := [(addr, write codes)], flags := flagsOf codes, masked := decide (lim < nch) }
      else
        let groups := (groupsOf k.group (vals.map (fun v => v.1)) lim).map (groupCodes k.type)
        let codes := groups.flatMap (fun g => g.2)
        match h.produce k.addr (k.scales + r * ceilDiv cols k.group) groups.length with
        | .error e => .error e
        | .ok sa =>
          .ok { writes := [(addr, write codes), (sa, groups.map (fun g => BitVec.ofNat 8 g.1))], flags := flagsOf codes,
                masked := decide (lim < nch) }

/-- A drain to fell images: every heddle's fell f, in two blocks, into the row of D1 (R84, R85, R160). -/
def Here.drainImages (h : Here) (w : TWord) (t : Tile) (row : Nat) : Except Trap Drained :=
  let k := h.desc w.d1.toNat
  let r := row + k.rowoff
  if (t.shape w.d1.toNat).rows.toNat ≤ r then .ok { writes := [], flags := Flg.none, masked := true }
  else match h.produce k.addr (r * k.stride) 8192 with
    | .error e => .error e
    | .ok addr =>
      let fs := (List.range 256).map (fun hd => h.l.fells.get (2 * hd + w.sel.toNat % 2) Fell.cleared)
      let src := loomUnit h.a.loom 2
      .ok { writes := [(addr, imageBlock src (fs.take 156) ++ imageBlock src (fs.drop 156))], flags := Flg.none, masked := false }

/-- Fell f of every heddle is left cleared (R133). -/
def Loom.clearFells (l : Loom) (f : Nat) : Loom :=
  { l with fells := l.fells.filter (fun e => e.1 % 2 != f), undrained := l.undrained.put f false false }

/-- DRAIN (R133, R169). -/
def execDrain (a : At) (w : TWord) (s : State) : Out :=
  s.issueT a w 0x22 (drainOk w) "DRAIN" (fun h =>
    match h.q.tile with
    | none => h.go h.q
    | some t =>
      let row := (h.q.getB w.x.val).toNat
      let streams := if w.sel.getLsbD 2 then eachOk (fun _ => h.drainImages w t row) [()]
        else eachOk (fun k => h.drainStream w t k row) (List.range t.tieup.streams)
      match streams with
      | .error e => h.trap e
      | .ok ds =>
        let writes := ds.flatMap (fun d => d.writes)
        if writes.any (fun e => h.x.writeHeld h.l h.a e.1 e.2.length) then h.hold
        else
          let q := h.q.orFlags (bits w.sel.toNat 3 2) (ds.foldl (fun f d => f.or d.flags) Flg.none)
          let q := if ds.any (fun d => d.masked) then q.setMasked else q
          let s := (h.go q).modLoom a.loom (fun l => l.clearFells (w.sel.toNat % 2))
          writes.foldl (fun s e => s.putAt (.loom a.loom) e.1 e.2) s)

/-! ### TEND, completion, watchdog -/

/-- TEND (R133): the tile closes once its MOVEs have landed, by TILE_COMPLETION. -/
def execTend (a : At) (w : TWord) (s : State) : Out :=
  s.issueT a w 0x23 (tendOk w) "TEND" (fun h =>
    match h.q.tile with
    | none => h.go h.q
    | some t =>
      if h.l.undrained.any (fun e => e.2) then h.trap (Trap.seq 0x0326)
      else if w.sel.getLsbD 0 then
        let pl := h.place w.x.val
        h.writing pl (match pl with | none => 0 | some p => p.off) 16 (fun addr =>
          h.go { h.q with tile := some { t with closing := some (some addr) } })
      else h.go { h.q with tile := some { t with closing := some none } })

/-- The score of a page-table entry after a tile (R219): SCORE − SCORE × 2^(−D) + μ, no decay where D is 0. -/
def newScore (score mu : BitVec 32) (decay : Nat) : BitVec 32 :=
  let sc := ofF32 score
  let x := if decay = 0 then sc else sc.add (sc.scale (-(decay : Int))).neg
  (toF32 (x.add (ofF32 mu))).1

/-- The scores of a tile go back to the entries that are still present (R217, R219). -/
def Pool.score (k : Pool) (e : Nat × BitVec 32) : Pool :=
  let p := k.entry e.1
  if p.state = 1 then
    let d := match k.seqs.find? (e.1 / 2 ^ 32) with | none => 0 | some y => y.decay
    k.setEntry e.1 { p with score := newScore p.score e.2 d }
  else k

/-- The context, if any, whose open tile on a loom satisfies f. -/
def Loom.tileOf (l : Loom) (f : Seq → Tile → Bool) : Option (Fin 8 × Tile) :=
  (List.finRange 8).findSome? (fun c =>
    match (l.seq c).tile with
    | none => none
    | some t => if f (l.seq c) t then some (c, t) else none)

/-- The code that stops a sequencer at a tile end because its context was faulted elsewhere (R155). -/
def State.stopAtEnd (s : State) (a : At) : State :=
  match (s.loom a.loom).part with
  | none => s
  | some p =>
    match s.part? p with
    | none => s
    | some x =>
      match (x.ctx a.ctx).fault with
      | none => s
      | some k => match (s.seq a).run with | .ended => s | .faulted _ => s | _ => s.stopSeq a k

/-- TILE_COMPLETION (R104, R114, R133): every MOVE of the tile has landed; WSTAT's record is written, the vector registers
and the vector fell read zero again, and the tile counts. -/
def execTileCompletion (g : Fin 256) (s : State) : Out :=
  match (s.loom g).tileOf (fun q t => t.closing.isSome && !q.moves.any (fun m => m.inTile)) with
  | none => .next s
  | some (c, t) =>
    let a : At := { loom := g, ctx := c }
    let s := match (s.loom g).part with
      | none => s
      | some p => s.modPart p (fun x =>
          ({ x with pool := t.scores.foldl Pool.score x.pool } : Part).dropSnapshots t.snapshots)
    let s := s.modSeq a (fun q => { q with tile := none, tiles := q.tiles + 1 })
    let s := match t.closing.getD none with
      | none => s
      | some addr => s.putAt (.loom g) addr (leBytes 8 (s.seq a).st.toNat ++ leBytes 8 (s.seq a).tiles.toNat)
    let s := (s.modLoom g (fun l => 
      { l with v := [], vfell := Fell.cleared, fells := [], undrained := [], tileDone := true })).count (.loomTiles g) 1
    .next ((s.releaseFills g).stopAtEnd a)

/-- A check of the loom fails (R101 to R105): its record, the open tile poisoned, the sequencer stopped; the safe state
follows when the record is handled (R376). -/
def State.loomCheckFails (s : State) (a : At) (kind code detail : Nat) : State :=
  match (s.loom a.loom).part with
  | none => s.report (loomUnit a.loom kind) code detail
  | some p =>
    ((s.report (loomUnit a.loom kind) code (detail + attribution p a.ctx)).poison a).stopSeq a (BitVec.ofNat 16 code)

/-- TILE_WATCHDOG_EXPIRY (R105): 450,000 beats after the tile's start; the detail says whether it waited for its bank. -/
def execTileWatchdogExpiry (g : Fin 256) (s : State) : Out :=
  match (s.loom g).tileOf (fun _ t => decide (t.start + 450000 ≤ s.beat)) with
  | none => .next s
  | some (c, t) =>
    let a : At := { loom := g, ctx := c }
    let waiting := if t.waiting.isSome && !(s.loom g).bankReady t.bank then 1 else 0
    .next ((s.setFld (.loomCheck g) Fl.loomCheck_WATCHDOG 1).loomCheckFails a 7 0x0306 waiting)

end Sys2Proof.Machine
end

