-- ==== Sys2Proof/Machine/Tiers.lean ====
section
/-! DEFINITION. Sys2Proof/Machine/Tiers.lean: storage errors (05 R103, 15 R299, R309), stacks and their evacuation (15 R306, R308),
far devices, their staging, write-back and removal (15 R290 to R295, R307, R308; 22 R423). -/

namespace Sys2Proof.Machine

open Sys2Proof

/-- The memory controller of a stack (R383). -/
def stackUnit (k : Fin 32) : Nat := millUnit (Fin.ofNat 8 (k.val / 4)) (0x11 + k.val % 4)
def farUnit (n : Fin 4) : Nat := beamUnit (0x24 + n.val)

/-- Registers of a stack. -/
def memEccOf (k : Fin 32) : Reg := .memEcc (Fin.ofNat 8 (k.val / 4)) (Fin.ofNat 4 k.val)

/-! ### Storage errors -/

/-- The mill-store carve, with the offset in it, that a mill-store address lies in: carves stand in order of partition and
context (log entry 36). -/
def State.millCarveAt (s : State) (addr : Nat) : Option (Fin 16 × Fin 8 × Nat) :=
  ((List.finRange 16).flatMap (fun p => (List.finRange 8).map (fun c => (p, c)))).foldl
    (fun (r : Option (Fin 16 × Fin 8 × Nat) × Nat) pc =>
      let n := match s.part? pc.1 with | none => 0 | some x => x.cfg.millCarve pc.2
      (if r.1.isNone && decide (r.2 ≤ addr) && decide (addr < r.2 + n) then some (pc.1, pc.2, addr - r.2) else r.1, r.2 + n))
    (none, 0) |>.1

/-- SECDED_CORRECTED (R103, R309). The first correction of a pick is recorded, once for a loom, a stack or a far port; a mill
store has no counter and no code for one (log entry 36). -/
def execSecdedCorrected (at_ : EccPlace) (s : State) : Out :=
  if !at_.inRange then .refused (.illFormed "SECDED_CORRECTED")
  else .next (
    let loom := fun (g : Fin 256) (addr kind : Nat) =>
      ((s.bump (.loomEcc g) Fl.loomEcc_CORRECTED 1).setFld (.loomEcc g) Fl.loomEcc_LAST_ADDR addr).reportOnce
        (loomUnit g 0, 0x030A, 0) (loomUnit g kind) 0x030A 0
    match at_ with
    | .loomStore g addr => loom g addr.toNat 3
    | .loomArray g => loom g 0 2
    | .millStore _ _ => s
    | .near k gr =>
      ((s.bump (memEccOf k) Fl.memEcc_CORRECTED 1).setFld (memEccOf k) Fl.memEcc_LAST_GRANULE
        (match gr with | none => 0 | some e => e.2.toNat)).reportFirst (stackUnit k) 0x0505 0 0
    | .far n _ _ => (s.bump (.farCount n) Fl.farCount_CORRECTED 1).reportFirst (farUnit n) 0x0505 0 0)

/-- SECDED_UNCORRECTABLE (R103, R299): the block's side word is marked bad, in the loom the tile is poisoned. An error in a
reserved region marks no block of cloth space; one in a mill store is recorded as a near-tier error of it (log entry 36). -/
def execSecdedUncorrectable (at_ : EccPlace) (s : State) : Out :=
  if !at_.inRange then .refused (.illFormed "SECDED_UNCORRECTABLE")
  else .next (match at_ with
    | .loomStore g addr =>
      let s := (s.setFld (.loomEcc g) Fl.loomEcc_STORE_UE 1).setFld (.loomEcc g) Fl.loomEcc_LAST_ADDR addr.toNat
      (s.setBlockBad (.loom g) (addr.toNat / 4096) true).loomCheckFails
        { loom := g, ctx := match (s.loom g).tileOf (fun _ _ => true) with | some (c, _) => c | none => (s.loom g).lastCtx } 3 0x0304
        addr.toNat
    | .loomArray g =>
      let s := (s.setFld (.loomEcc g) Fl.loomEcc_ARRAY_UE 1).setFld (.loomEcc g) Fl.loomEcc_LAST_ADDR 0
      s.loomCheckFails
        { loom := g, ctx := match (s.loom g).tileOf (fun _ _ => true) with | some (c, _) => c | none => (s.loom g).lastCtx } 2 0x0305 0
    | .millStore m addr =>
      let s := match s.millCarveAt addr.toNat with
        | none => s
        | some (p, c, o) => s.setBlockBad (.mill m p c) (o / 4096) true
      s.report (millUnit m 0x10) 0x0504 (addr.toNat / 4096)
    | .near k gr =>
      let g := match gr with | none => 0 | some e => e.2.toNat
      let s := ((s.bump (memEccOf k) Fl.memEcc_UNCORRECTED 1).setFld (memEccOf k) Fl.memEcc_UE_SEEN 1).setFld (memEccOf k)
        Fl.memEcc_LAST_GRANULE g
      let s := match gr with | none => s | some e => s.setBlockBad (.cloth e.1) e.2.toNat true
      s.report (stackUnit k) 0x0504 g
    | .far n p g =>
      ((s.bump (.farCount n) Fl.farCount_POISON 1).setBlockBad (.cloth p) g.toNat true).report (farUnit n) 0x0506 g.toNat)

/-! ### Evacuation (R306) -/

/-- MEM_EVAC of the mill of a stack. -/
def evacReg (k : Fin 32) : Reg := .memEvac (Fin.ofNat 8 (k.val / 4))

def State.evacStatus (s : State) (k : Fin 32) (status remaining : Nat) : State :=
  (s.setFld (evacReg k) Fl.memEvac_STATUS status).setFld (evacReg k) Fl.memEvac_REMAINING remaining

/-- An operation is refused with 0x0509. -/
def State.evacRefused (s : State) (k : Fin 32) : State := (s.evacStatus k 3 0).report (stackUnit k) 0x0509 0

/-- Free 2 MiB units on a list of stacks. -/
def State.freeOn (s : State) (l : List (Fin 32)) : Nat := l.foldl (fun n k => n + s.stackFree k) 0

/-- 2 MiB units that a stack's share of a partition's spread carves takes. -/
def State.spreadShare (s : State) (x : Part) (m : Fin 8) : Nat :=
  if !x.cfg.mills.contains m then 0
  else
    let spread := (x.cfg.carves.filter (fun v => !v.far && v.placement == 0x40)).foldl (fun n v => n + v.len) 0
    ceilDiv (ceilDiv spread (max 1 x.cfg.mills.length)) (pageBytes * max 1 (s.usableStacks m).length)

/-- The stacks that can take a stack's granules hold free frames for all of them: for spread carves the partition's other
stacks, for the rest the mill's other stacks (R306). -/
def State.evacFits (s : State) (k : Fin 32) : Bool :=
  let m : Fin 8 := Fin.ofNat 8 (k.val / 4)
  let others := (s.usableStacks m).filter (fun i => i != k)
  let spread := s.parts.foldl (fun n e => n + s.spreadShare e.2 m) 0
  let elsewhere := s.parts.all (fun e =>
    let l := (e.2.cfg.mills.flatMap s.usableStacks).filter (fun i => i != k)
    decide (s.spreadShare e.2 m ≤ s.freeOn l))
  decide (s.stackCarved k - spread ≤ s.freeOn others) && elsewhere

/-- A move of granules begins, or ends at once where there are none. -/
def State.startMoves (s : State) (k : Fin 32) (during after n : Nat) : State :=
  if n = 0 then (s.setStack k after).evacStatus k 2 0
  else
    let s := (s.setStack k during).evacStatus k 1 n
    { s with mem := { s.mem with evac := some (k, n) } }

/-- Granules that a stack holds, or is to hold again (512 to a 2 MiB unit). -/
def State.granulesOn (s : State) (k : Fin 32) : Nat := 512 * s.stackCarved k

/-- A write of MEM_EVAC (R306). -/
def State.writeEvac (s : State) (m : Fin 8) (v : Word) : State :=
  let k := stackOf m (Fl.memEvac_STACK.get v)
  let op := Fl.memEvac_OP.get v
  let s := s.setFld (.memEvac m) Fl.memEvac_STACK (Fl.memEvac_STACK.get v)
  if op = 0 then s
  else if op = 1 then
    if s.stack k ≠ 2 ∨ s.mem.evac.isSome ∨ !s.evacFits k then s.evacRefused k else s.startMoves k 3 4 (s.granulesOn k)
  else if op = 2 then
    if (s.stack k ≠ 4 ∧ s.stack k ≠ 6) ∨ s.mem.recal.isSome then s.evacRefused k
    else { (s.evacStatus k 4 0) with mem := { s.mem with recal := some k } }
  else if s.stack k ≠ 4 ∨ s.mem.evac.isSome ∨ s.mem.recal = some k then s.evacRefused k
  else
    let t := s.setStack k 5
    s.startMoves k 5 2 (t.granulesOn k)

/-- EVACUATION_GRANULE_MOVE (R306): the mill's move goes on by one granule; a granule whose CRC fails moves with its bad side word
and is reported. -/
def execEvacuationGranuleMove (mill : Fin 8) (crcOk : Bool) (s : State) : Out :=
  match s.mem.evac with
  | none => .next s
  | some (k, n) =>
    if k.val / 4 ≠ mill.val then .next s
    else
      let s := if crcOk then s else s.report (stackUnit k) 0x0501 0
      if n ≤ 1 then
        let s := (s.setStack k (if s.stack k = 5 then 2 else 4)).evacStatus k 2 0
        .next { s with mem := { s.mem with evac := none } }
      else
        let s := s.evacStatus k 1 (n - 1)
        .next { s with mem := { s.mem with evac := some (k, n - 1) } }

/-- STACK_FAILURE (R308): what ran on the stack ends. -/
def execStackFailure (stack : Fin 32) (s : State) : Out :=
  if s.stack stack = 6 then .next s
  else
    let on := match s.mem.evac with | some (k, _) => k == stack | none => false
    let s := { s with mem := { s.mem with
      evac := if on then none else s.mem.evac, recal := if s.mem.recal = some stack then none else s.mem.recal } }
    .next ((s.setStack stack 6).report (stackUnit stack) 0x0507 0)

/-- STACK_RECALIBRATION_COMPLETE (R306): the calibration is committed and the stack is out; a recalibration that fails is a
training that fails (R308). -/
def execStackRecalibrationComplete (stack : Fin 32) (ok : Bool) (s : State) : Out :=
  if s.mem.recal ≠ some stack then .next s
  else
    let s := { s with mem := { s.mem with recal := none } }
    .next (if ok then ((s.setStack stack 4).evacStatus stack 2 0).calibrate stack.val
      else ((s.setStack stack 6).evacStatus stack 0 0).report (stackUnit stack) 0x0507 0)

/-! ### Far pages (R291 to R294) -/

/-- Every far-home page of every partition, in order of partition and page. -/
def State.farPages (s : State) : List (Fin 16 × Nat × Page) :=
  (List.finRange 16).flatMap (fun p => match s.part? p with
    | none => []
    | some x => x.cloth.pages.map (fun e => (p, e.1, e.2)))

def State.pagesOn (s : State) (n : Fin 4) : Nat := (s.farPages.filter (fun e => e.2.2.port == n.val)).length

/-- Carvable capacity of a device of so many GiB: 255 of 256 parts hold pages (R290), in GiB and in 2 MiB pages. -/
def FarPort.gib (k : FarPort) : Nat := k.capacity * 255 / 256
def FarPort.pages (k : FarPort) : Nat := k.capacity * 510
def State.freePages (s : State) (n : Fin 4) : Nat :=
  if (s.farPort n).state = 2 then (s.farPort n).pages - s.pagesOn n else 0

/-- STAGING_COMPLETE (R292). -/
def execStagingComplete (p : Fin 16) (page : BitVec 27) (s : State) : Out :=
  match s.part? p with
  | none => .next s
  | some x =>
    match x.cloth.pages.find? page.toNat with
    | none => .next s
    | some g => .next (if g.staging then s.staged p page.toNat else s)

/-- FAR_CMD STATUS and REMAINING. -/
def State.farStatus (s : State) (status remaining : Nat) : State :=
  (s.setFld .farCmd Fl.farCmd_STATUS status).setFld .farCmd Fl.farCmd_REMAINING remaining

/-- A flush is done when no page waits in it. -/
def State.noteFlush (s : State) : State :=
  if !s.mem.flushing then s
  else
    let n := (s.farPages.filter (fun e => e.2.2.flush)).length
    if n = 0 then { (s.farStatus 2 0) with mem := { s.mem with flushing := false } } else s.farStatus 1 n

/-- A write-back is acknowledged: the granules written since stay dirty; an evicted page's frames are freed once it is clean
(R293). -/
def Page.written (g : Page) : Page :=
  let h := { g with writing := false, dirty := g.again, again := [], unwritten := false, fails := 0, flush := false }
  if !h.evict then h else if h.dirty.isEmpty then { h with staged := none, evict := false } else { h with writing := true }

/-- WRITE_BACK_COMPLETE (R293). -/
def execWriteBackComplete (p : Fin 16) (page : BitVec 27) (s : State) : Out :=
  match s.part? p with
  | none => .next s
  | some x =>
    match x.cloth.pages.find? page.toNat with
    | none => .next s
    | some g =>
      if !g.writing then .next s
      else .next ((s.modPage p page.toNat Page.written).bump (.memStage (Fin.ofNat 8 g.mill)) Fl.memStage_WRITEBACKS 1).noteFlush

/-- A far port whose device is lost (R308). -/
def State.farLost (s : State) (n : Fin 4) : State :=
  let s := s.setFarPort n { s.farPort n with state := 5, perst := false }
  let s := if s.mem.removal = some n then { (s.farStatus 0 0) with mem := { s.mem with removal := none } } else s
  s.report (farUnit n) 0x0508 0

/-- A write-back that the device has not completed: the page stays staged and dirty (R308). -/
def Page.notWritten (g : Page) : Page :=
  { g with writing := false, fails := g.fails + 1, again := [],
           dirty := g.again.foldl (fun t e => t.put e.1 true false) g.dirty }

/-- WRITE_BACK_FAILURE (R308): the third in succession for one page loses the port. -/
def execWriteBackFailure (p : Fin 16) (page : BitVec 27) (s : State) : Out :=
  match s.part? p with
  | none => .next s
  | some x =>
    match x.cloth.pages.find? page.toNat with
    | none => .next s
    | some g =>
      let n : Fin 4 := Fin.ofNat 4 g.port
      if !g.writing then .next s
      else
        let s := s.modPage p page.toNat Page.notWritten
        .next (if 2 ≤ g.fails then s.farLost n
          else (s.bump (.farCount n) Fl.farCount_WB_FAIL 1).report (farUnit n) 0x050A 0)

/-- Failed write-backs are tried again at the next boundary (R308). -/
def State.retryWriteBacks (s : State) : State :=
  s.farPages.foldl (fun s e =>
    let up := (s.farPort (Fin.ofNat 4 e.2.2.port)).state
    if e.2.2.fails = 0 ∨ e.2.2.writing ∨ (up ≠ 2 ∧ up ≠ 3) then s else s.writeBack e.1 e.2.1 false) s

/-! ### Far ports (R290, R307, R308, R423) -/

/-- A refused far-tier command. -/
def State.farRefused (s : State) (n : Fin 4) : State := (s.farStatus 3 0).report (farUnit n) 0x0509 0

/-- The port's last page has moved off: it reads removable and its link is taken down (R307). -/
def State.removable (s : State) (n : Fin 4) : State :=
  let s := (s.setFarPort n { s.farPort n with state := 4 }).farStatus 2 0
  { s with mem := { s.mem with removal := none } }

/-- Pages flushed: those with granules to write back (R294). -/
def State.flush (s : State) : State :=
  let l := s.farPages.filter (fun e => !e.2.2.dirty.isEmpty || e.2.2.writing)
  let s := l.foldl (fun s e => (s.writeBack e.1 e.2.1 false).modPage e.1 e.2.1 (fun g => { g with flush := true })) s
  ({ s with mem := { s.mem with flushing := true } } : State).noteFlush

/-- A write of FAR_CMD (R294, R307, R423). -/
def State.writeFarCmd (s : State) (v : Word) : State :=
  let n : Fin 4 := Fin.ofNat 4 (Fl.farCmd_PORT.get v)
  let op := Fl.farCmd_OP.get v
  let k := s.farPort n
  let s := s.setFld .farCmd Fl.farCmd_PORT n.val
  if op = 0 then s
  else if op = 1 then
    let room := ((List.finRange 4).filter (fun i => i != n)).foldl (fun t i => t + s.freePages i) 0
    if s.mem.removal.isSome ∨ s.mem.evac.isSome ∨ s.mem.flushing ∨ k.state ≠ 2 ∨ room < s.pagesOn n then s.farRefused n
    else if s.pagesOn n = 0 then s.removable n
    else
      let s := (s.setFarPort n { k with state := 3 }).farStatus 1 (s.pagesOn n)
      { s with mem := { s.mem with removal := some n } }
  else if op = 2 then
    if k.state = 1 ∨ k.state = 2 ∨ k.state = 3 then s.farStatus 2 0
    else (s.setFarPort n { k with state := 1, clock := true, perst := false }).farStatus 1 0
  else if s.mem.removal.isSome ∨ s.mem.flushing then s.farRefused n
  else s.flush

/-- The next up port after one, in increasing order, with a free page (R307). -/
def State.nextPort (s : State) (n : Fin 4) : Option (Fin 4) :=
  ((List.range 3).map (fun i => Fin.ofNat 4 (n.val + 1 + i))).find? (fun i => decide (0 < s.freePages i))

/-- FAR_PAGE_MOVE (R307): one page is written back, copied and switched. -/
def execFarPageMove (port : Fin 4) (s : State) : Out :=
  if s.mem.removal ≠ some port then .next s
  else match s.farPages.find? (fun e => e.2.2.port == port.val) with
    | none => .next (s.removable port)
    | some (p, k, g) =>
      match s.nextPort port with
      | none => .next s
      | some other =>
        let s := if g.dirty.isEmpty then s else s.bump (.memStage (Fin.ofNat 8 g.mill)) Fl.memStage_WRITEBACKS 1
        let s := s.modPage p k (fun g =>
          { (if g.dirty.isEmpty then g else { g with dirty := [], again := [], writing := false, unwritten := false, fails := 0,
                                                     staged := if g.evict then none else g.staged, evict := false })
            with port := other.val })
        .next (if s.pagesOn port = 0 then s.removable port else s.farStatus 1 (s.pagesOn port))

/-- PERST_RELEASE (R423). -/
def execPerstRelease (port : Fin 4) (s : State) : Out :=
  let k := s.farPort port
  .next (if k.state = 1 && k.clock then s.setFarPort port { k with perst := true } else s)

/-- FAR_PORT_TRAINED (R290): up with a single logical device of up to 4 TiB, or failed. -/
def execFarPortTrained (port : Fin 4) (ok : Bool) (gib : BitVec 13) (s : State) : Out :=
  let k := s.farPort port
  if k.state ≠ 1 ∨ !k.perst then .next s
  else
    let good := ok && decide (gib.toNat ≤ 4096)
    let s := s.setFarPort port (if good then { k with state := 2, capacity := gib.toNat } else { k with state := 5, perst := false })
    let s := if good then s.calibrate (192 + port.val) else s
    .next (if s.fld .farCmd Fl.farCmd_PORT = port.val && !s.mem.flushing && s.mem.removal.isNone then s.farStatus 2 0 else s)

/-- FAR_DEVICE_LOST (R308): the link of a port that was up goes down. -/
def execFarDeviceLost (port : Fin 4) (s : State) : Out :=
  .next (if (s.farPort port).state = 2 || (s.farPort port).state = 3 then s.farLost port else s)

/-- FAR_DEVICE_PRESENCE_CHANGE (R423): a device pulled from a removable port leaves the port down. -/
def execFarDevicePresenceChange (port : Fin 4) (present : Bool) (s : State) : Out :=
  let k := s.farPort port
  if k.present = present then .next s
  else
    let s := s.setFarPort port { k with present := present }
    if present then .next s
    else if k.state = 4 then .next (s.setFarPort port { k with present := false, state := 0, capacity := 0, clock := false, perst := false })
    else .next (s.farLost port)

end Sys2Proof.Machine
end

