-- ==== Sys2Proof/Machine/Transfer.lean ====
section
/-! DEFINITION. Sys2Proof/Machine/Transfer.lean: transfers in 1 KiB units, of a draft or of firmware (17 R348; 20 R402). -/

namespace Sys2Proof.Machine

open Sys2Proof

/-- The longest transfer. -/
def transferMax : Nat := 0x10000000

/-- The payload of a BEGIN, of a DATA, and of a message without one. -/
def formBegin : List Fit := [.count 4, .zero 4]
def formData : List Fit := [.any 4, .count 4]

/-- A transfer is opened: BUSY while another origin's is open; its own is discarded. -/
def beginTransfer (old : Option Transfer) (r : Staged) : Except Answer Transfer :=
  let o := hdrOrigin r.msg.hdr
  let n := r.num 0 4
  if transferMax < n then .error (.field 0)
  else match old with
    | none => .ok { origin := o, total := n, units := [], bytes := [] }
    | some t => if t.origin = o then .ok { origin := o, total := n, units := [], bytes := [] } else .error .busy

/-- A chunk at its offset: multiples of 1,024, but that it may end at the total length. -/
def dataTransfer (old : Option Transfer) (r : Staged) : Except Answer Transfer :=
  let off := r.num 0 4
  let len := r.num 4 4
  match old with
  | none => .error (.field 0)
  | some t =>
    if t.origin ≠ hdrOrigin r.msg.hdr then .error (.field 0)
    else if off % 1024 ≠ 0 ∨ t.total < off then .error (.field 0)
    else if t.total < off + len ∨ (len % 1024 ≠ 0 ∧ off + len ≠ t.total) ∨ r.payload.length ≠ 8 + len then .error (.field 4)
    else .ok { t with
      units := (rangeFrom (off / 1024) (ceilDiv len 1024)).foldl (fun u i => u.put i true false) t.units,
      bytes := putBytes t.bytes off (r.payload.drop 8) }

/-- Every 1 KiB unit has been written. -/
def Transfer.complete (t : Transfer) : Bool := (List.range (ceilDiv t.total 1024)).all (fun i => t.units.get i false)

/-- The bytes of a complete transfer. -/
def Transfer.content (t : Transfer) : List Byte := (List.range t.total).map (fun i => t.bytes.get i 0)

/-- The transfer that an END of an origin closes. -/
def endTransfer (old : Option Transfer) (r : Staged) : Option (List Byte) :=
  match old with
  | none => none
  | some t => if t.origin = hdrOrigin r.msg.hdr && t.complete then some t.content else none

end Sys2Proof.Machine
end

