-- ==== Sys2Proof/Machine/Service.lean ====
section
/-! DEFINITION. Sys2Proof/Machine/Service.lean: management's service messages (20 R402 to R410): firmware, the network record, fences,
link retraining, compaction, telemetry and stored accounting records. -/

namespace Sys2Proof.Machine

open Sys2Proof

/-- A message type of the management plane alone (R410). -/
def mgmtType (code : Nat) (form : List Fit) (tail : Bool) : MsgType :=
  { code := code, control := false, mgmt := true, authentic := false, form := form, tail := tail }

/-! ### Firmware (R402 to R405) -/

/-- FW_BEGIN (R402). -/
def execFwBegin (m : Msg) (s : State) : Out :=
  s.septa (mgmtType 0x0300 formBegin false) m (fun r s =>
    match s.store.running with
    | some (_, _, false, _) => (s, .busy)
    | _ =>
      match beginTransfer s.store.transfer r with
      | .error a => (s, a)
      | .ok t => ({ s with store := { s.store with transfer := some t } }, .done []))

/-- FW_DATA (R402). -/
def execFwData (m : Msg) (s : State) : Out :=
  s.septa (mgmtType 0x0301 formData true) m (fun r s =>
    match dataTransfer s.store.transfer r with
    | .error a => (s, a)
    | .ok t => ({ s with store := { s.store with transfer := some t } }, .done []))

/-- FW_END (R402): the transfer closes unless a unit is missing or the store is full (log entry 37). -/
def execFwEnd (m : Msg) (s : State) : Out :=
  s.septa (mgmtType 0x0302 [] false) m (fun r s =>
    match endTransfer s.store.transfer r with
    | none => (s, .field 0xFFFF)
    | some bs =>
      let shut := fun (s : State) => { s with store := { s.store with transfer := none } }
      if !imageOk s.fuses.count bs then ((shut s).report (beamUnit 0x28) 0x0808 0, .field 0xFFFF)
      else
        let (t, ok) := s.commitImage bs
        if ok then (shut t, .done []) else (t, .busy))

/-- Management firmware restarts alone (R403, R414): the ROM chooses an image without the journal scan; nothing else changes. -/
def State.restartFirmware (s : State) : State :=
  let (s, ok) := s.startImage
  let s := s.setFld .moduleState Fl.moduleState_CAUSE 3
  if ok then s else s.setFld .moduleState Fl.moduleState_PHASE 6

/-- FW_RESTART (R403). -/
def execFwRestart (m : Msg) (s : State) : Out :=
  s.septa (mgmtType 0x0303 [] false) m (fun _ s =>
    if s.net.transfer.isSome ∨ s.store.transfer.isSome ∨ !s.draft.panels.isEmpty ∨ s.fld .pickMode Fl.pickMode_PHASE ≠ 0 then (s, .busy)
    else (s.restartFirmware, .done []))

/-- FW_CONFIRM (R405). -/
def execFwConfirm (m : Msg) (s : State) : Out :=
  s.septa (mgmtType 0x0304 [] false) m (fun _ s =>
    let (s, ok) := s.confirmImage
    (s, if ok then .done [] else .busy))

/-- MGMT_WATCHDOG_EXPIRY (R414): while management firmware runs. -/
def execMgmtWatchdogExpiry (s : State) : Out := .next (if s.store.running.isSome then s.restartFirmware else s)

/-! ### Stored objects (R406) -/

/-- NET_SAVE: the three management endpoint registers. -/
def execNetSave (m : Msg) (s : State) : Out :=
  s.septa (mgmtType 0x0318 [] false) m (fun _ s =>
    let (s, ok) := s.commit [.write (objectOf 7 0) (leBytes 8 (s.reg .netMgmt).toNat ++ leBytes 8 (s.reg .netMgmtAddrHi).toNat
      ++ leBytes 8 (s.reg .netMgmtAddrLo).toNat)]
    (s, if ok then .done [] else .busy))

/-- Fields of eight bytes turned for the wire (R2). -/
def wire8 (bs : List Byte) (fuel : Nat) : List Byte :=
  match fuel with
  | 0 => []
  | k + 1 => if bs.isEmpty then [] else (bs.take 8).reverse ++ wire8 (bs.drop 8) k

/-- ACCT_READ: partition, context, reserved, final pick and the record. -/
def execAcctRead (m : Msg) (s : State) : Out :=
  s.septa (mgmtType 0x0331 [.any 4, .zero 4] false) m (fun r s =>
    let n := r.num 0 4
    match if n < 2 ^ 24 then s.store.content (objectOf 0x0A n) else none with
    | none => (s, .field 0)
    | some c => (s, .done (slice c 0 8 ++ wire8 (slice c 8 136) 17)))

/-! ### Fences (R407) -/

/-- What a FENCE or UNFENCE names: looms, links and mills as bit maps. -/
def fenceOf (r : Staged) : Except Answer (Nat × Nat × Nat) :=
  let kind := r.num 0 1
  let n := r.num 2 2
  if kind = 1 then if n < 256 then .ok (2 ^ n, 0, 0) else .error (.field 2)
  else if kind = 2 then if n < 96 then .ok (0, 2 ^ n, 0) else .error (.field 2)
  else if kind = 3 then
    if n < 8 then
      let links := (List.finRange 20).map (fun e => (endLink (Fin.ofNat 8 n) e).val)
      .ok ((2 ^ 32 - 1) * 2 ^ (32 * n), links.foldl (fun t i => setBits t i 1 1) 0, 2 ^ n)
    else .error (.field 2)
  else .error (.field 0)

/-- A named loom belongs to a partition or is held for a pending panel draft, or a partition holds credits on a named link. -/
def State.fenceBusy (s : State) (looms links : Nat) : Bool :=
  let cfgs := s.parts.map (fun e => e.2.cfg)
  (cfgs ++ s.draft.panels.map (fun k => k.cfg)).any (fun k => k.looms.any (fun g => bit looms g))
    || cfgs.any (fun k => k.credits.any (fun c => bit links c.link && decide (0 < c.credits)))

def formFence : List Fit := [.any 1, .zero 1, .any 2, .zero 4]

/-- FENCE (R407): staged. -/
def execFence (m : Msg) (s : State) : Out :=
  s.septa (mgmtType 0x0320 formFence false) m (fun r s =>
    match fenceOf r with
    | .error a => (s, a)
    | .ok (looms, links, _) => (s, if s.fenceBusy looms links then .busy else .staged))

/-- UNFENCE (R407): staged. -/
def execUnfence (m : Msg) (s : State) : Out :=
  s.septa (mgmtType 0x0321 formFence false) m (fun r s =>
    match fenceOf r with
    | .error a => (s, a)
    | .ok _ => (s, .staged))

/-- Bits set in a map, or cleared. -/
def withBits (on : Bool) (a b : Nat) : Nat := if on then a ||| b else a - (a &&& b)

/-- A FENCE or UNFENCE takes effect at a boundary: status and field of its outcome (R346, R407). -/
def State.applyFence (s : State) (r : Staged) (on : Bool) : State × Nat × Nat :=
  match fenceOf r with
  | .error _ => (s, 2, 0)
  | .ok (looms, links, mills) =>
    if on && s.fenceBusy looms links then (s, 2, 2)
    else
      let k := s.store
      let (s, ok) := s.commit [.write (objectOf 9 0)
        (fenceBytes (withBits on k.fenceLooms looms) (withBits on k.fenceLinks links) (withBits on k.fenceMills mills))]
      (s, if ok then 0 else 7, if ok then 0 else 0xFFFF)

/-! ### Links and compaction (R22, R400) -/

/-- LINK_RETRAIN (R22, R410): the reply follows the outcome. A link that is down may be retrained too (log entry 37). -/
def execLinkRetrain (m : Msg) (s : State) : Out :=
  s.septa (mgmtType 0x0322 [.any 1, .zero 7] false) m (fun r s =>
    let n := r.num 0 1
    if 96 ≤ n then (s, .field 0)
    else
      let i : Fin 96 := Fin.ofNat 96 n
      let k := s.link i
      if k.training then (s, .busy) else (s.setLink i { k with training := true }, .later n))

/-- STORE_COMPACT_NOW (R400). -/
def execStoreCompactNow (m : Msg) (s : State) : Out :=
  s.septa (mgmtType 0x0328 [] false) m (fun _ s => ({ s with store := { s.store with wanted := true } }, .done []))

/-! ### Telemetry (R409) -/

/-- n free bytes: what a sensor reads is open (log entry 5). -/
def State.drawBytes (s : State) (n : Nat) : List Byte × State :=
  (List.range n).foldl (fun (r : List Byte × State) _ => let (v, s) := r.2.draw 8; (r.1 ++ [v], s)) ([], s)

/-- STORE_STATUS (20). -/
def State.storeWord (s : State) : Word :=
  let k := s.store
  BitVec.ofNat 64 (k.occupied + k.live / 2 ^ 20 * 2 ^ 12 + s.compacting.toNat * 2 ^ 25 + k.over75.toNat * 2 ^ 26 + k.full.toNat * 2 ^ 27)

/-- The block of a telemetry group. The arithmetic clock is open, up to its ceiling. -/
def State.telemetryBlock (s : State) (i : Nat) : List Byte × State :=
  if i = 0 then s.drawBytes 72
  else if i = 1 then let (b, s) := s.drawBytes 41; (b ++ List.replicate 7 0, s)
  else if i = 2 then
    let (v, s) := s.draw 16
    (beBytes 2 (v.toNat % (s.tele.ceiling + 1)) ++ beBytes 2 s.tele.cap ++ beBytes 2 s.tele.ceiling ++ [0, 0], s)
  else if i = 3 then
    ((List.range 24).map (fun b => BitVec.ofNat 8 ((List.range 4).foldl (fun n j =>
      n + (s.link (Fin.ofNat 96 (4 * b + j))).width * 4 ^ j) 0)), s)
  else if i = 4 then
    ((List.finRange 32).flatMap (fun k => beBytes 8 (s.reg (.memTraffic (Fin.ofNat 8 (k.val / 4)) (Fin.ofNat 4 k.val))).toNat), s)
  else (beBytes 8 s.storeWord.toNat, s)

/-- Each group of the set is sampled (R409). -/
def State.sampleTelemetry (s : State) : State :=
  let mask := s.tele.mask
  let (bs, s) := ((List.range 6).filter (fun i => mask.getLsbD i)).foldl
    (fun (r : List Byte × State) i => let (b, s) := r.2.telemetryBlock i; (r.1 ++ b, s)) ([], s)
  { s with tele := { s.tele with sample := some (s.now, mask, bs) } }

/-- TELEMETRY_READ (R409): the last sample; before the first, pick 0 and no group (log entry 37). -/
def execTelemetryRead (m : Msg) (s : State) : Out :=
  s.septa (mgmtType 0x0330 [] false) m (fun _ s =>
    match s.tele.sample with
    | none => (s, .done (List.replicate 16 0))
    | some (p, k, bs) => (s, .done (beBytes 8 p.toNat ++ beBytes 8 k.toNat ++ bs)))

end Sys2Proof.Machine
end

