-- ==== Sys2Proof/Machine/Arming.lean ====
section
/-! DEFINITION. Sys2Proof/Machine/Arming.lean: arming and stopping a swatch (19 R388, R394), and the results that a recording keeps and a
replay compares (19 R387, R392, R393). -/

namespace Sys2Proof.Machine

open Sys2Proof

/-! ### Arming (R388, R394) -/

/-- SWATCH_ARM: the ring lies in a carve of the header's CONTEXT, which the partition's next start checks. -/
def execSwatchArm (m : Msg) (s : State) : Out :=
  s.septa (mgmtType 0x0500 [.any 1, .zero 7, .any 8, .count 8] false) m (fun r s =>
    match r.part?, r.ctx? with
    | none, _ => (s, .target 4)
    | some _, none => (s, .target 5)
    | some p, some c =>
      let mode := r.num 0 1
      if mode ≠ 1 ∧ mode ≠ 2 then (s, .field 0)
      else if s.safety.armings.has p.val then (s, .busy)
      else
        let a : Arming := { replay := mode == 2, ctx := c, base := r.num 8 8, len := r.num 16 8 }
        ({ s with safety := { s.safety with armings := s.safety.armings.ins p.val a } }, .done []))

/-- SWATCH_DISARM: an arming not yet applied is cancelled; with none there is nothing to cancel. -/
def execSwatchDisarm (m : Msg) (s : State) : Out :=
  s.septa (mgmtType 0x0502 [] false) m (fun r s =>
    match r.part? with
    | none => (s, .target 4)
    | some p => ({ s with safety := { s.safety with armings := s.safety.armings.del p.val } }, .done []))

/-- SWATCH_STOP. -/
def execSwatchStop (m : Msg) (s : State) : Out :=
  s.septa (mgmtType 0x0501 [] false) m (fun r s =>
    match r.part?.bind s.part? with
    | none => (s, .target 4)
    | some _ => (s, .staged))

/-- A stop at its boundary: a recording ends; with none that runs the request is refused. -/
def State.applyStop (s : State) (p : Fin 16) : Option State :=
  match s.part? p with
  | none => none
  | some x => if x.recording then some (s.endRecording p 1) else none

/-! ### Results (R387, R392, R393) -/

/-- Two RESULT bodies are of one result: kind, queue pair, number. -/
def sameResult (a b : List Byte) : Bool := slice a 0 16 == slice b 0 16

/-- A sequence under TOLERATE is live: whether a mismatch is one of its outputs is then open (R393). -/
def Part.tolerates (x : Part) : Bool := x.pool.seqs.any (fun e => e.2.live && e.2.tolerate)

/-- A mismatch (0x090A): the record's index, the token or the queue pair, and EXPECTED. -/
def State.mismatch (s : State) (p : Fin 16) (index : Nat) (body : List Byte) : State :=
  let (v, s) := s.draw 1
  let expected := match s.part? p with | none => 0 | some x => if x.tolerates then v.toNat else 0
  let what := if leNat (slice body 0 1) = 1 then leNat (slice body 2 2) else leNat (slice body 8 8)
  (s.bump (.safeSwatch p) Fl.safeSwatch_MISMATCHES 1).report (beamUnit 0x29) 0x090A
    (attributionPart p + expected + index % 2 ^ 31 * 2 + what * 2 ^ 32)

/-- Digests formed are compared with the records of the same results, as far as both are there. -/
def State.compareResults (s : State) (p : Fin 16) (fuel : Nat) : State :=
  match fuel with
  | 0 => s
  | k + 1 =>
    match s.part? p with
    | none => s
    | some x =>
      match x.swatch with
      | none => s
      | some w =>
        match w.formed.find? (fun f => w.expected.any (fun e => sameResult e.2 f)) with
        | none => s
        | some f =>
          match w.expected.find? (fun e => sameResult e.2 f) with
          | none => s
          | some e =>
            let t := s.setPart p { x with swatch := some { w with formed := w.formed.erase f, expected := w.expected.erase e } }
            (if slice e.2 0 48 = slice f 0 48 then t else t.mismatch p e.1 e.2).compareResults p k

/-- A result is formed: a recording keeps it, a replay compares it (R387, R392). -/
def State.result (s : State) (p : Fin 16) (pick : Word) (body : List Byte) : State :=
  match s.part? p with
  | none => s
  | some x =>
    match x.swatch with
    | none => s
    | some w =>
      if w.replay then
        (s.setPart p { x with swatch := some { w with formed := w.formed ++ [body] } }).compareResults p (w.formed.length + 1)
      else s.recordSwatch p 6 0 pick body

end Sys2Proof.Machine
end

