-- ==== Sys2Proof/Machine/Codec.lean ====
section
/-! DEFINITION. Sys2Proof/Machine/Codec.lean: coded streams (14 R267 to R274): headers, records, code tables, decoding with
its damage codes, and the block compressor's table and encoding (R273, R280), as functions of bytes. -/

namespace Sys2Proof.Machine

open Sys2Proof

/-! ### Code tables -/

/-- Code length of symbol i among the 129 length bytes (R270). -/
def codeLen (lens : List Byte) (i : Nat) : Nat := bits ((lens.getD (i / 2) 0).toNat) (4 * (i % 2)) 4

/-- The symbols used, by length and then by value (R272). -/
def sortedSymbols (lens : List Byte) : List (Nat × Nat) :=
  (rangeFrom 1 15).flatMap (fun n => ((List.range 257).filter (fun i => codeLen lens i == n)).map (fun i => (i, n)))

/-- Canonical codes: (symbol, length, code), the first all zeros (R272). -/
def assignCodes (prevCode prevLen : Nat) (first : Bool) (syms : List (Nat × Nat)) : List (Nat × Nat × Nat) :=
  match syms with
  | [] => []
  | (i, n) :: rest =>
    let c := if first then 0 else (prevCode + 1) * 2 ^ (n - prevLen)
    (i, n, c) :: assignCodes c n false rest

def codes (lens : List Byte) : List (Nat × Nat × Nat) := assignCodes 0 0 true (sortedSymbols lens)

/-- Σ 2^(15 − length) over the used symbols, to compare with 2^15 (R271). -/
def kraft (syms : List (Nat × Nat)) : Nat := syms.foldl (fun n e => n + 2 ^ (15 - e.2)) 0

/-- A 256-byte code table is valid (R270, R271); a reserved bit makes it invalid (R12). -/
def tableValid (t : List Byte) : Bool :=
  let lens := slice t 0x10 129
  let syms := sortedSymbols lens
  let longest := syms.foldl (fun n e => max n e.2) 0
  leNat (slice t 0 4) == crc32c lens && leNat (slice t 4 2) == syms.length && (t.getD 6 0).toNat == longest
    && decide (1 ≤ syms.length) && decide (kraft syms ≤ 2 ^ 15)
    && (syms.length != 1 || longest == 1)
    && allZero (slice t 7 9 ++ slice t 0x91 111) && bits ((lens.getD 128 0).toNat) 4 4 == 0

/-! ### Stream headers -/

/-- A stream header (R267). -/
structure StreamHead where
  tables : Nat
  records : Nat
  rawTotal : Nat
  recordsOffset : Nat
  streamLength : Nat
  list : List (Nat × Nat)
  deriving DecidableEq, Repr

/-- Entries of a list are pairwise different. -/
def distinct (l : List Nat) : Bool :=
  match l with
  | [] => true
  | x :: rest => !rest.contains x && distinct rest

/-- Reads and checks a 192-byte stream header (R267). -/
def readStreamHead (b : List Byte) : Option StreamHead :=
  let n := (b.getD 1 0).toNat
  let h : StreamHead :=
    { tables := n, records := leNat (slice b 4 4), rawTotal := leNat (slice b 8 8), recordsOffset := leNat (slice b 0x10 4),
      streamLength := leNat (slice b 0x14 4),
      list := (List.range n).map (fun i => (leNat (slice b (0x40 + 8 * i) 4), leNat (slice b (0x44 + 8 * i) 4))) }
  if (b.getD 0 0).toNat = 1 && decide (n ≤ 16) && allZero (slice b 2 2) && allZero (slice b 0x18 40)
      && allZero (slice b (0x40 + 8 * n) (128 - 8 * n))
      && decide (1 ≤ h.rawTotal) && h.rawTotal != 2 ^ 64 - 1 && h.records == ceilDiv h.rawTotal 4096
      && h.records != 2 ^ 32 - 1 && h.streamLength != 2 ^ 32 - 1
      && h.recordsOffset % 64 == 0 && h.streamLength % 64 == 0 && decide (192 ≤ h.recordsOffset)
      && decide (h.recordsOffset ≤ h.streamLength)
      && h.list.all (fun e => e.1 % 64 == 0 && decide (192 ≤ e.1) && decide (e.1 + 256 ≤ h.recordsOffset))
      && distinct (h.list.map (fun e => e.2)) then some h
  else none

/-! ### Decoding a record -/

/-- Bit i of a payload: bit 7 − (i mod 8) of byte i ÷ 8 (R272). -/
def payloadBits (bs : List Byte) : List Bool :=
  bs.flatMap (fun b => [b.getLsbD 7, b.getLsbD 6, b.getLsbD 5, b.getLsbD 4, b.getLsbD 3, b.getLsbD 2, b.getLsbD 1, b.getLsbD 0])

/-- The most significant bit first. -/
def msbNat (acc : Nat) (l : List Bool) : Nat :=
  match l with
  | [] => acc
  | b :: rest => msbNat (2 * acc + b.toNat) rest

/-- The first symbol of a bit string: symbol and bits taken; or none with the damage code: 0x0205 when it would read past
the end, 0x0204 when no code begins so. -/
def takeCode (cs : List (Nat × Nat × Nat)) (n acc fuel : Nat) (l : List Bool) : Except Nat (Nat × List Bool) :=
  match fuel, l with
  | 0, _ => .error 0x0204
  | _, [] => if cs.any (fun e => decide (n < e.2.1) && e.2.2 / 2 ^ (e.2.1 - n) == acc) then .error 0x0205 else .error 0x0204
  | j + 1, b :: rest =>
    let acc := 2 * acc + b.toNat
    let n := n + 1
    match cs.find? (fun e => e.2.1 == n && e.2.2 == acc) with
    | some e => .ok (e.1, rest)
    | none => takeCode cs n acc j rest

/-- Decodes `symbols` symbols of at most `room` output bytes (R274 check 2): the bytes and the bits left over. -/
def takeSymbols (cs : List (Nat × Nat × Nat)) (symbols room : Nat) (l : List Bool) : Except Nat (List Byte × List Bool) :=
  match symbols with
  | 0 => .ok ([], l)
  | j + 1 =>
    match takeCode cs 0 0 15 l with
    | .error e => .error e
    | .ok (sym, rest) =>
      let piece : Except Nat (List Byte × List Bool) :=
        if sym < 256 then .ok ([BitVec.ofNat 8 sym], rest)
        else if rest.length < 8 then .error 0x0205
        else .ok (List.replicate (msbNat 0 (rest.take 8) + 1) 0, rest.drop 8)
      match piece with
      | .error e => .error e
      | .ok (bs, rest) =>
        if room < bs.length then .error 0x0206
        else match takeSymbols cs j (room - bs.length) rest with
          | .error e => .error e
          | .ok (more, left) => .ok (bs ++ more, left)

/-- A record header (R268). -/
structure RecHead where
  kind : Nat
  table : Nat
  rawLength : Nat
  symbols : Nat
  codedBits : Nat
  crc : Nat
  deriving DecidableEq, Repr

/-- Reads a record header and checks it against its stream (R268, R274 check 1); `want` is the RAW_LENGTH it must have. -/
def readRecHead (b : List Byte) (tables want : Nat) : Option RecHead :=
  let h : RecHead :=
    { kind := (b.getD 0 0).toNat, table := (b.getD 1 0).toNat, rawLength := leNat (slice b 2 2), symbols := leNat (slice b 4 2),
      codedBits := leNat (slice b 6 2), crc := leNat (slice b 8 4) }
  let coded := h.kind == 2 || h.kind == 3
  if decide (1 ≤ h.kind) && decide (h.kind ≤ 4) && allZero (slice b 12 4) && h.rawLength == want
      && (if coded then decide (h.table < tables) && decide (1 ≤ h.symbols) && decide (h.symbols ≤ h.rawLength)
            && decide (1 ≤ h.codedBits) && decide (h.codedBits ≤ 7 * h.rawLength)
          else h.table == 0 && h.symbols == 0 && h.codedBits == 0) then some h
  else none

/-- Payload bytes of a record. -/
def RecHead.payload (h : RecHead) : Nat :=
  if h.kind = 1 then h.rawLength else if h.kind = 4 then 0 else ceilDiv h.codedBits 8

/-- The record's size, padded to a multiple of 64 (R268). -/
def RecHead.size (h : RecHead) : Nat := 64 * ceilDiv (16 + h.payload) 64

/-- Whether a record reads its base block (R269). -/
def RecHead.usesBase (h : RecHead) : Bool := h.kind == 2 || h.kind == 4

/-- The raw bytes of a record, from its payload, its base block and its table's lengths (R269, R274 checks 2 to 4). -/
def recordBytes (h : RecHead) (payload base lens : List Byte) : Except Nat (List Byte) :=
  let sum := fun (bs : List Byte) => if crc32c bs == h.crc then Except.ok bs else .error 0x0207
  if h.kind = 1 then sum (slice payload 0 h.rawLength)
  else if h.kind = 4 then sum (slice base 0 h.rawLength)
  else
    match takeSymbols (codes lens) h.symbols h.rawLength ((payloadBits payload).take h.codedBits) with
    | .error e => .error e
    | .ok (bs, left) =>
      if left.length ≠ 0 then .error 0x0205
      else if bs.length ≠ h.rawLength then .error 0x0206
      else sum (if h.kind = 3 then bs else (bs.zip (slice base 0 h.rawLength)).map (fun e => e.1 + e.2))

/-- RAW_LENGTH that record i of a stream must have (R268). -/
def StreamHead.want (h : StreamHead) (i : Nat) : Nat :=
  if i + 1 < h.records then 4096 else h.rawTotal - 4096 * (h.records - 1)

/-! ### The compressor -/

/-- The symbol sequence of a block: (symbol, escape length − 1) (R280). -/
def zeroRun (n fuel : Nat) : List (Nat × Nat) :=
  match fuel with
  | 0 => []
  | j + 1 =>
    if 256 ≤ n then (256, 255) :: zeroRun (n - 256) j
    else if 4 ≤ n then [(256, n - 1)]
    else List.replicate n (0, 0)

def symbolsOf (zeros : Nat) (bs : List Byte) : List (Nat × Nat) :=
  let flush := if 4 ≤ zeros then zeroRun zeros 17 else List.replicate zeros (0, 0)
  match bs with
  | [] => flush
  | b :: rest => if b = 0 then symbolsOf (zeros + 1) rest else flush ++ (b.toNat, 0) :: symbolsOf 0 rest

/-- The 4 KiB blocks of a byte string. -/
def chunks (n fuel : Nat) (bs : List Byte) : List (List Byte) :=
  match fuel with
  | 0 => []
  | j + 1 => if bs.isEmpty then [] else bs.take n :: chunks n j (bs.drop n)

/-- How often each symbol occurs. -/
def histogram (ss : List (Nat × Nat)) : Tab Nat := ss.foldl (fun t e => t.put e.1 (t.get e.1 0 + 1) 0) []

/-- A node of the code tree: weight, key and the leaves below it with their depths (R273). -/
structure Node where
  weight : Nat
  key : Nat
  leaves : List (Nat × Nat)

def Node.before (a b : Node) : Bool := decide (a.weight < b.weight) || (a.weight == b.weight && decide (a.key < b.key))

def insertNode (n : Node) (l : List Node) : List Node :=
  match l with
  | [] => [n]
  | m :: rest => if n.before m then n :: m :: rest else m :: insertNode n rest

/-- Merges the two lowest nodes until one is left (R273 step 2); n counts the merged nodes. -/
def mergeNodes (n fuel : Nat) (l : List Node) : List (Nat × Nat) :=
  match fuel, l with
  | 0, _ => []
  | _, [] => []
  | _, [a] => a.leaves
  | j + 1, a :: b :: rest =>
    mergeNodes (n + 1) j (insertNode
      { weight := a.weight + b.weight, key := 257 + n, leaves := (a.leaves ++ b.leaves).map (fun e => (e.1, e.2 + 1)) } rest)

/-- The leaf whose length step 3 raises: the longest below 15, then the lowest count, then the highest symbol (R273). -/
def raiseOne (h : Tab Nat) (l : List (Nat × Nat)) : List (Nat × Nat) :=
  let worse := fun (a b : Nat × Nat) =>
    decide (a.2 < b.2) || (a.2 == b.2 && (decide (h.get b.1 0 < h.get a.1 0) || (h.get b.1 0 == h.get a.1 0 && decide (a.1 < b.1))))
  match l.filter (fun e => decide (e.2 < 15)) with
  | [] => l
  | e :: rest =>
    let pick := rest.foldl (fun a b => if worse a b then b else a) e
    l.map (fun x => if x.1 = pick.1 then (x.1, x.2 + 1) else x)

def limitLengths (h : Tab Nat) (fuel : Nat) (l : List (Nat × Nat)) : List (Nat × Nat) :=
  match fuel with
  | 0 => l
  | j + 1 => if kraft l ≤ 2 ^ 15 then l else limitLengths h j (raiseOne h l)

/-- Code lengths built from a histogram (R273). -/
def buildLengths (h : Tab Nat) : List (Nat × Nat) :=
  match h with
  | [(i, _)] => [(i, 1)]
  | _ =>
    let l := mergeNodes 0 257 (h.foldl (fun l e => insertNode { weight := e.2, key := e.1, leaves := [(e.1, 0)] } l) [])
    limitLengths h 4096 (l.map (fun e => (e.1, min e.2 15)))

/-- The 129 length bytes (R270). -/
def lengthBytes (l : List (Nat × Nat)) : List Byte :=
  let at_ := fun i => match l.find? (fun e => e.1 == i) with | none => 0 | some e => e.2
  (List.range 129).map (fun j => BitVec.ofNat 8 (at_ (2 * j) + (if j < 128 then 16 * at_ (2 * j + 1) else 0)))

/-- The 256-byte code table of code lengths (R270). -/
def tableBytes (l : List (Nat × Nat)) : List Byte :=
  let lens := lengthBytes l
  leBytes 4 (crc32c lens) ++ leBytes 2 l.length ++ [BitVec.ofNat 8 (l.foldl (fun n e => max n e.2) 0)] ++ List.replicate 9 0
    ++ lens ++ List.replicate 111 0

/-- n bits of a value, most significant first. -/
def msbBits (v n : Nat) : List Bool := (List.range n).map (fun i => bit v (n - 1 - i))

/-- Packs bits into bytes, the last padded with zeros (R272). -/
def packBits (fuel : Nat) (l : List Bool) : List Byte :=
  match fuel with
  | 0 => []
  | j + 1 => if l.isEmpty then [] else
      let h := l.take 8
      BitVec.ofNat 8 (msbNat 0 (h ++ List.replicate (8 - h.length) false)) :: packBits j (l.drop 8)

/-- One record of a compressed stream: CODED at no more than 7 × RAW_LENGTH bits, else FLAT (R280). -/
def encodeBlock (cs : List (Nat × Nat × Nat)) (b : List Byte) : List Byte :=
  let ss := symbolsOf 0 b
  let bitsOf := ss.flatMap (fun e =>
    match cs.find? (fun c => c.1 == e.1) with
    | none => []
    | some c => msbBits c.2.2 c.2.1 ++ (if e.1 = 256 then msbBits e.2 8 else []))
  let coded := decide (bitsOf.length ≤ 7 * b.length)
  let head := [if coded then 3 else 1, 0] ++ leBytes 2 b.length ++ leBytes 2 (if coded then ss.length else 0)
    ++ leBytes 2 (if coded then bitsOf.length else 0) ++ leBytes 4 (crc32c b) ++ List.replicate 4 0
  let body := if coded then packBits 4096 bitsOf else b
  let n := 16 + body.length
  head ++ body ++ List.replicate (64 * ceilDiv n 64 - n) 0

/-- A compressed stream, with its code table's bytes and the number of records coded and flat (R280). -/
def compress (raw : List Byte) : List Byte × List Byte × Nat × Nat :=
  let blocks := chunks 4096 (raw.length + 1) raw
  let table := tableBytes (buildLengths (histogram (blocks.flatMap (symbolsOf 0))))
  let cs := codes (slice table 0x10 129)
  let recs := blocks.map (encodeBlock cs)
  let body := recs.flatten
  let coded := (recs.filter (fun r => r.headD 0 == 3)).length
  let head := [1, 1, 0, 0] ++ leBytes 4 blocks.length ++ leBytes 8 raw.length ++ leBytes 4 448 ++ leBytes 4 (448 + body.length)
    ++ List.replicate 40 0 ++ leBytes 4 192 ++ leBytes 4 (leNat (slice table 0 4)) ++ List.replicate 120 0
  (head ++ table ++ body, table, coded, recs.length - coded)

end Sys2Proof.Machine
end

