-- ==== Sys2Proof/Machine/Slots.lean ====
section
/-! DEFINITION. Sys2Proof/Machine/Slots.lean: the sixteen code-table slots of an expander or compressor (14 R277, R283). -/

namespace Sys2Proof.Machine

open Sys2Proof

def TableSlot.empty : TableSlot := { loaded := false, id := 0, lengths := [], use := 0 }

/-- TABLE_ID and the 129 length bytes of a code table (R270). -/
def tableId (t : List Byte) : BitVec 32 := BitVec.ofNat 32 (leNat (slice t 0 4))
def tableLens (t : List Byte) : List Byte := slice t 0x10 129

/-- The slot where a table is resident: the same TABLE_ID and length bytes (R277). -/
def residentSlot (d : Tab TableSlot) (t : List Byte) : Option Nat :=
  (List.range 16).find? (fun i =>
    let e := d.get i TableSlot.empty
    e.loaded && e.id == tableId t && e.lengths == tableLens t)

/-- The slot that a load takes: the lowest empty one, else the lowest with a use count of zero; never one in `avoid` (R277
step 1). -/
def freeSlot (d : Tab TableSlot) (avoid : List Nat) : Option Nat :=
  match (List.range 16).find? (fun i => !(d.get i TableSlot.empty).loaded) with
  | some i => some i
  | none => (List.range 16).find? (fun i => (d.get i TableSlot.empty).use == 0 && !avoid.contains i)

/-- What became of the tables a request lists: their slots with the number loaded, or a refused load (R277). -/
inductive Loaded where
  | slots (d : Tab TableSlot) (used : List Nat) (loads : Nat)
  | refused (d : Tab TableSlot) (loads : Nat)

/-- Each listed table that is not resident is loaded (R277 step 1). -/
def loadTables (d : Tab TableSlot) (used : List Nat) (loads : Nat) (ts : List (List Byte)) : Loaded :=
  match ts with
  | [] => .slots d used loads
  | t :: rest =>
    match residentSlot d t with
    | some i => loadTables d (used ++ [i]) loads rest
    | none =>
      match freeSlot d used with
      | none => .refused d loads
      | some i =>
        loadTables (d.put i { loaded := true, id := tableId t, lengths := tableLens t, use := 0 } TableSlot.empty)
          (used ++ [i]) (loads + 1) rest

/-- Use counts raised, and lowered again (R277 steps 2 and 3). -/
def raiseUse (d : Tab TableSlot) (used : List Nat) : Tab TableSlot :=
  used.foldl (fun d i => let e := d.get i TableSlot.empty; d.put i { e with use := e.use + 1 } TableSlot.empty) d
def lowerUse (d : Tab TableSlot) (used : List Nat) : Tab TableSlot :=
  used.foldl (fun d i => let e := d.get i TableSlot.empty; d.put i { e with use := e.use - 1 } TableSlot.empty) d

/-- One record of a stream that starts at byte `start` of a storage (R268, R269, R274): its raw bytes and where the next
record begins, or the damage code. `base` gives a base block's first bytes, or the code that its read fails with; `lens` the
length bytes of a listed table. -/
def readRecord (bytes : Nat → Nat → List Byte) (hd : StreamHead) (offset i : Nat) (coded : Nat → Option Nat)
    (base : Nat → Nat → Except Nat (List Byte)) (lens : Nat → List Byte) : Except Nat (List Byte × Nat) :=
  match readRecHead (bytes offset 16) hd.tables (hd.want i) with
  | none => .error 0x0203
  | some r =>
    if hd.streamLength < offset + 16 + r.payload then .error 0x0203
    else match coded r.kind with
      | some code => .error code
      | none =>
        match (if r.usesBase then base i r.rawLength else .ok []) with
        | .error e => .error e
        | .ok b =>
          match recordBytes r (bytes (offset + 16) r.payload) b (lens r.table) with
          | .error e => .error e
          | .ok raw => .ok (raw, offset + r.size)

/-- The raw bytes of n records from record i on, block by block, and the damage that stops them, if any: its code and record
(R274). -/
def readRecords (bytes : Nat → Nat → List Byte) (hd : StreamHead) (coded : Nat → Option Nat)
    (base : Nat → Nat → Except Nat (List Byte)) (lens : Nat → List Byte) (n offset i : Nat) :
    List (List Byte) × Option (Nat × Nat) :=
  match n with
  | 0 => ([], none)
  | k + 1 =>
    match readRecord bytes hd offset i coded base lens with
    | .error e => ([], some (e, i))
    | .ok (raw, next) =>
      let rest := readRecords bytes hd coded base lens k next (i + 1)
      (raw :: rest.1, rest.2)

/-- The length bytes of table j of a stream (R267). -/
def streamLens (bytes : Nat → Nat → List Byte) (hd : StreamHead) (j : Nat) : List Byte :=
  tableLens (bytes (hd.list.getD j (0, 0)).1 256)

end Sys2Proof.Machine
end

