-- ==== Sys2Proof/Machine/Moves.lean ====
section
/-! DEFINITION. Sys2Proof/Machine/Moves.lean: MOVE in its five forms, the block compressor, and threads (06 R135, 07 R157, 14
R280 to R284, 15 R299, R300, R305). -/

namespace Sys2Proof.Machine

open Sys2Proof

/-! ### Guards -/

/-- The first byte of an extent of n bytes beyond its buffer's window (R305). -/
def Place.beyond (w : Place) (n : Nat) : Option Nat :=
  if w.off + n ≤ w.len then none else some (w.base + max w.off w.len)

/-- An extent of n bytes lies in the carves it may lie in (R112, R286). -/
def PartCfg.carveTrap (k : PartCfg) (a : At) (st : Store) (addr n : Nat) : Option Trap :=
  match st with
  | .loom _ =>
    let c := k.loomCarve a.ctx a.loom
    if addr < c.1 ∨ c.1 + c.2 < addr + n then some (Trap.of 0x0307 3) else none
  | .mill _ _ c => if k.millCarve c < addr + n then some (Trap.guard 0x0503 (max addr (k.millCarve c))) else none
  | .cloth _ =>
    match k.firstOutside a.ctx addr n (k.carves.length + 1) with
    | none => none
    | some b => some (Trap.guard 0x0503 b)

/-- The check of a whole extent at issue: its buffer's guard in a multi-mill partition (R305), then the carves. A buffer index
beyond the table is beyond every window (log entry 6). -/
def PartCfg.extentTrap (k : PartCfg) (a : At) (w : Option Place) (n : Nat) : Option Trap :=
  match w with
  | none => some (Trap.guard (if k.singleMill then 0x0503 else 0x0502) 0)
  | some w =>
    match (if k.singleMill then none else w.beyond n) with
    | some b => some (Trap.guard 0x0502 b)
    | none => k.carveTrap a w.store w.addr n

/-- The unit that serves a cloth granule: its stack's controller, or the far port that holds its page (R296, R383). -/
def State.granuleUnit (s : State) (p : Fin 16) (addr : Nat) : Nat :=
  match s.part? p with
  | none => beamUnit 0x28
  | some x =>
    match x.cfg.carves.find? (fun v => decide (v.base ≤ addr) && decide (addr < v.base + v.len)) with
    | none => beamUnit 0x28
    | some v =>
      let near := fun (_ : Unit) =>
        let k := s.granuleStack x.cfg v.placement (addr / 4096)
        millUnit (Fin.ofNat 8 (k.val / 4)) (0x11 + k.val % 4)
      if v.far then
        match x.pageAt addr with
        | none => near ()
        | some (_, g) => if g.staged.isSome then near () else beamUnit (0x24 + g.port)
      else near ()

/-- The unit of a storage that checks a block (R300, R383). -/
def State.storeUnit (s : State) (st : Store) (addr : Nat) : Nat :=
  match st with
  | .loom g => loomUnit g 3
  | .mill m _ _ => millUnit m 0x10
  | .cloth p => s.granuleUnit p addr

/-- A context faults on a loom, reported by any unit. -/
def State.faultBy (s : State) (a : At) (unit code detail : Nat) : State :=
  match (s.loom a.loom).part with
  | none => s
  | some p => s.faultCtx p a.ctx (some a.loom) unit code detail

/-- A block that fails before any of its bytes leaves: its protection tag does not verify (R363), or a block that is read in
part fails its CRC (R300). The code and the address. -/
def State.readFails (s : State) (st : Store) (addr n : Nat) : Option (Nat × Nat) :=
  match (blocksOf addr n).find? (fun b => s.tagBad st b) with
  | some b => some (0x0805, 4096 * b)
  | none =>
    match (blocksOf addr n).find? (fun b => s.blockBad st b && !(wholeBlocks addr n).contains b) with
    | some b => some (0x0501, 4096 * b)
    | none => none

/-- A failing read faults the context; tag failures are counted (R363). -/
def State.readFault (s : State) (a : At) (st : Store) (e : Nat × Nat) : State :=
  let s := if e.1 = 0x0805 then s.bump .secCount Fl.secCount_TAG_FAIL 1 else s
  s.faultBy a (s.storeUnit st e.2) e.1 0

/-- The runs of n bytes from an address that lie in damaged blocks, counted from that address. -/
def State.badRuns (s : State) (st : Store) (addr n : Nat) : List (Nat × Nat) :=
  ((blocksOf addr n).filter (fun b => s.blockBad st b)).map (fun b =>
    let lo := max addr (4096 * b)
    (lo - addr, min (addr + n) (4096 * b + 4096) - lo))

/-- Every block that such a run reaches at the destination is damaged too: a copy carries the side words (R135, R300). -/
def State.carryBad (s : State) (st : Store) (addr : Nat) (runs : List (Nat × Nat)) : State :=
  runs.foldl (fun s r => (blocksOf (addr + r.1) r.2).foldl (fun s b => s.setBlockBad st b true) s) s

/-! ### MOVE at issue -/

def MoveKind.ofFn (n : Nat) : MoveKind :=
  if n = 0 then .copy else if n = 1 then .compress else if n = 2 then .expand else if n = 3 then .strided else .zero

/-- Bytes of the extent of a strided run (R305). -/
def stridedSpan (rows stride n : Nat) : Nat := if n = 0 then 0 else (rows - 1) * stride + n

/-- The largest stream that n raw bytes can give (R282). -/
def largestStream (n : Nat) : Nat := 448 + 4160 * ceilDiv n 4096

/-- A misaligned address of a compress or expand MOVE (0x020C, R282). -/
def misaligned (kind : MoveKind) (dst src : Nat) : Bool :=
  match kind with
  | .compress => src % 4096 != 0 || dst % 64 != 0
  | .expand => src % 64 != 0 || dst % 4096 != 0
  | _ => false

/-- An access to a protected carve without a region secret (R363). -/
def Here.locked (h : Here) (w : Option Place) (n : Nat) : Bool :=
  match w with
  | none => false
  | some w => h.s.locked h.p h.k w.store w.addr n

/-- An extent's loom-store bytes that an earlier access has yet to write, or to read or write (R111). -/
def Here.extentHeld (h : Here) (w : Option Place) (n : Nat) (write : Bool) : Bool :=
  match w with
  | none => false
  | some w =>
    match w.store with
    | .loom _ => if write then h.x.writeHeld h.l h.a w.addr n else h.x.readHeld h.l h.a w.addr n
    | _ => false

def extentOf (w : Option Place) (n : Nat) : Extent :=
  match w with
  | none => { store := .cloth 0, addr := 0, len := 0 }
  | some w => { store := w.store, addr := w.addr, len := n }

/-- MOVE issues (R135): its extents are checked whole, and it is left to land. -/
def Here.move (h : Here) (w : SWord) : State :=
  let kind := MoveKind.ofFn w.fn.toNat
  let n := (h.q.getB w.z.val).toNat
  let i := w.imm.toNat
  let rows := bits i 0 16
  let dst := h.place w.x.val
  let src := h.place w.y.val
  let dn := match kind with
    | .strided => stridedSpan rows (bits i 40 24) n
    | .compress => largestStream n
    | _ => n
  let sn := match kind with
    | .strided => stridedSpan rows (bits i 16 24) n
    | .expand => 192
    | .zero => 0
    | _ => n
  let srcTrap := if kind = .zero then none else h.k.extentTrap h.a src sn
  if ones (h.q.getB w.z.val) then h.trap (Trap.seq 0x0320)
  else match srcTrap with
    | some t => h.trap t
    | none =>
      match h.k.extentTrap h.a dst dn with
      | some t => h.trap t
      | none =>
        let addr := fun (p : Option Place) => match p with | none => 0 | some p => p.addr
        if !h.k.singleMill && misaligned kind (addr dst) (addr src) then h.trap (Trap.of 0x020C 0x16)
        else if (kind != .zero && h.locked src sn) || h.locked dst dn then h.trap (Trap.of 0x0806 0x28)
        else
          let room := match src with | none => 0 | some p => p.len - p.off
          let sn := if kind = .expand then room else sn
          if (kind != .zero && h.extentHeld src sn false) || h.extentHeld dst dn true then h.hold
          else
            let m : Move :=
              { kind := kind, dst := extentOf dst dn, src := extentOf (if kind = .zero then none else src) sn, rows := rows,
                srcStride := bits i 16 24, dstStride := bits i 40 24, len := n, inTile := h.q.tile.isSome,
                word := h.q.pc.toNat }
            h.go { h.q with moves := h.q.moves ++ [m] }

def execMoveCopy (a : At) (w : SWord) (s : State) : Out := s.issueS a w 0x30 (moveOk 0 w) "MOVE_COPY" (fun h => h.move w)
def execMoveCompress (a : At) (w : SWord) (s : State) : Out :=
  s.issueS a w 0x30 (moveOk 1 w) "MOVE_COMPRESS" (fun h => h.move w)
def execMoveExpand (a : At) (w : SWord) (s : State) : Out :=
  s.issueS a w 0x30 (moveOk 2 w) "MOVE_EXPAND" (fun h => h.move w)
def execMoveStrided (a : At) (w : SWord) (s : State) : Out :=
  s.issueS a w 0x30 (moveOk 3 w) "MOVE_STRIDED" (fun h => h.move w)
def execMoveZero (a : At) (w : SWord) (s : State) : Out := s.issueS a w 0x30 (moveOk 4 w) "MOVE_ZERO" (fun h => h.move w)

/-! ### MOVE as it lands -/

/-- Bytes and damage of one run, copied (R135). -/
def State.copyRun (s : State) (a : At) (dst src : Store) (da sa n : Nat) : State :=
  let bs := s.bytesAt src sa n
  let bad := s.badRuns src sa n
  ((s.load_ (some a) src sa n).store_ dst da bs).carryBad dst da bad

/-- A copy lands, or faults having written nothing. -/
def State.landCopy (s : State) (a : At) (m : Move) : State :=
  match s.readFails m.src.store m.src.addr m.len with
  | some e => s.readFault a m.src.store e
  | none => s.copyRun a m.dst.store m.src.store m.dst.addr m.src.addr m.len

/-- A strided copy lands, row by row; every row's checks come first. -/
def State.landStrided (s : State) (a : At) (m : Move) : State :=
  match (List.range m.rows).findSome? (fun r => s.readFails m.src.store (m.src.addr + r * m.srcStride) m.len) with
  | some e => s.readFault a m.src.store e
  | none =>
    (List.range m.rows).foldl (fun t r =>
      let sa := m.src.addr + r * m.srcStride
      let da := m.dst.addr + r * m.dstStride
      (((t.load_ (some a) m.src.store sa m.len).store_ m.dst.store da (s.bytesAt m.src.store sa m.len)).carryBad m.dst.store da
        (s.badRuns m.src.store sa m.len))) s

/-- A compressor request ends in a fault of class 0x02 (R285). -/
def State.bcFault (s : State) (a : At) (code : Nat) : State :=
  let m := millOf a.loom.val
  (s.bump (.bcCount m) Fl.bcCount_DAMAGED 1).faultBy a (millUnit m 0x16) code 0

def State.bcSlots (s : State) (m : Fin 8) : Tab TableSlot := s.mem.bc.get m.val []
def State.setBcSlots (s : State) (m : Fin 8) (d : Tab TableSlot) : State :=
  { s with mem := { s.mem with bc := s.mem.bc.put m.val d [] } }

/-- COMPRESS (R280): every source block is checked, the stream is written. A length of 0 gives no stream (log entry 28). -/
def State.landCompress (s : State) (a : At) (m : Move) : State :=
  let mill := millOf a.loom.val
  if m.len = 0 then s
  else match (blocksOf m.src.addr m.len).find? (fun b => s.tagBad m.src.store b) with
    | some b => s.readFault a m.src.store (0x0805, 4096 * b)
    | none =>
      if s.anyBad m.src.store m.src.addr m.len then s.bcFault a 0x0208
      else
        let r := compress (s.bytesAt m.src.store m.src.addr m.len)
        let s := (s.load_ (some a) m.src.store m.src.addr m.len).store_ m.dst.store m.dst.addr r.1
        let s := match loadTables (s.bcSlots mill) [] 0 [r.2.1] with
          | .slots d _ _ => s.setBcSlots mill d
          | .refused d _ => (s.setBcSlots mill d).bump (.bcCount mill) Fl.bcCount_SLOT_WAITS 1
        (s.bump (.bcCount mill) Fl.bcCount_CODED_BLOCKS r.2.2.1).bump (.bcCount mill) Fl.bcCount_FLAT_BLOCKS r.2.2.2

/-- Blocks of a decoded stream, written one after another (R281). -/
def State.putBlocks (s : State) (st : Store) (addr : Nat) (bs : List (List Byte)) : State :=
  match bs with
  | [] => s
  | b :: rest => (s.store_ st addr b).putBlocks st (addr + 4096) rest

/-- EXPAND (R281): header, tables, then block by block; the blocks before a failing one stand. -/
def State.landExpand (s : State) (a : At) (m : Move) : State :=
  let mill := millOf a.loom.val
  let bytes := fun (o n : Nat) => s.bytesAt m.src.store (m.src.addr + o) n
  match (if m.src.len < 192 then none else readStreamHead (bytes 0 192)) with
  | none => s.bcFault a 0x0201
  | some hd =>
    if m.src.len < hd.streamLength ∨ hd.rawTotal ≠ m.len then s.bcFault a 0x0201
    else match (blocksOf m.src.addr hd.streamLength).find? (fun b => s.tagBad m.src.store b) with
      | some b => s.readFault a m.src.store (0x0805, 4096 * b)
      | none =>
        let tables := hd.list.map (fun e => bytes e.1 256)
        if tables.any (fun t => !tableValid t) then s.bcFault a 0x0202
        else
          let r := readRecords bytes hd (fun kind => if kind == 2 || kind == 4 then some 0x020B else none)
            (fun _ _ => .ok []) (streamLens bytes hd) hd.records hd.recordsOffset 0
          let s := s.load_ (some a) m.src.store m.src.addr hd.streamLength
          let s := match loadTables (s.bcSlots mill) [] 0 tables with
            | .slots d _ _ => s.setBcSlots mill d
            | .refused d _ => (s.setBcSlots mill d).bump (.bcCount mill) Fl.bcCount_SLOT_WAITS 1
          let s := s.putBlocks m.dst.store m.dst.addr r.1
          match r.2 with
          | none => s
          | some (code, _) => s.bcFault a code

/-- MOVE_COMPLETE (R135): the oldest MOVE of a context on a loom lands. -/
def execMoveComplete (a : At) (s : State) : Out :=
  match (s.seq a).moves with
  | [] => .next s
  | m :: rest =>
    let s := s.modSeq a (fun q => { q with moves := rest })
    .next (match m.kind with
      | .copy => s.landCopy a m
      | .strided => s.landStrided a m
      | .zero => s.store_ m.dst.store m.dst.addr (List.replicate m.len 0)
      | .compress => s.landCompress a m
      | .expand => s.landExpand a m)

/-! ### Threads (R157) -/

/-- The THREADS record a context names by index (R135). -/
def PartCfg.thread? (k : PartCfg) (c : Fin 8) (i : Nat) : Option ThreadCfg := (k.threads.filter (fun t => t.ctx == c.val))[i]?

def threadKey (c : Fin 8) (i : Nat) : Nat := c.val * 65536 + i

/-- TSEND (R157): the bytes go onto the thread, to the receiver's loom. -/
def execTsend (a : At) (w : SWord) (s : State) : Out :=
  s.issueS a w 0x31 (tsendOk w) "TSEND" (fun h =>
    let n := (h.q.getB w.z.val).toNat
    let src := h.place w.x.val
    if ones (h.q.getB w.z.val) then h.trap (Trap.seq 0x0320)
    else match h.k.thread? a.ctx w.fn.toNat with
      | none => h.go h.q
      | some t =>
        h.reading src (match src with | none => 0 | some p => p.off) n (fun addr =>
          let key := threadKey a.ctx w.fn.toNat
          (h.go h.q).modLoom (Fin.ofNat 256 t.dst) (fun l => { l with
            threads := l.threads.put key (l.threads.get key [] ++ [(h.s.bytesAt (.loom a.loom) addr n, h.s.badRuns (.loom a.loom) addr n)]) [] })))

/-- The oldest bytes of a thread arrive at a TRECV of n bytes (R157): they are written, or, where the sender sent another
number, discarded with 0x0342. `q` is the sequencer as it stands once the TRECV is done. -/
def State.receive (s : State) (a : At) (key addr buf n : Nat) (q : Seq) : State :=
  match (s.loom a.loom).threads.get key [] with
  | [] => s
  | (bs, bad) :: rest =>
    let s := s.modLoom a.loom (fun l => { l with threads := l.threads.put key rest [] })
    if bs.length ≠ n then s.trap a { Trap.seq 0x0342 with buffer := buf, value := bs.length }
    else ((s.setSeq a q.next).putAt (.loom a.loom) addr bs).carryBad (.loom a.loom) addr bad

/-- TRECV (R157): takes what has landed, or waits for it. -/
def execTrecv (a : At) (w : SWord) (s : State) : Out :=
  s.issueS a w 0x32 (tsendOk w) "TRECV" (fun h =>
    let n := (h.q.getB w.z.val).toNat
    let dst := h.place w.x.val
    if ones (h.q.getB w.z.val) then h.trap (Trap.seq 0x0320)
    else h.writing dst (match dst with | none => 0 | some p => p.off) n (fun addr =>
      let key := threadKey a.ctx w.fn.toNat
      match h.l.threads.get key [] with
      | [] => h.setQ { h.q with run := .waiting (.thread w.fn.toNat (h.q.getA w.x.val) n) }
      | _ => h.s.receive a key addr ((dst.map Place.buf).getD 0) n h.q))

/-- TRECV_LANDED (R157). -/
def execTrecvLanded (a : At) (s : State) : Out :=
  match s.resuming a with
  | some (p, x, .thread i v n) =>
    match x.cfg.tread? a.ctx a.loom with
    | none => .next s
    | some t =>
      let dst := x.cfg.place p a t v
      match x.cfg.access a dst (match dst with | none => 0 | some p => p.off) n with
      | .error e => .next (s.trap a e)
      | .ok addr =>
        .next (s.receive a (threadKey a.ctx i) addr ((dst.map Place.buf).getD 0) n { s.seq a with run := .running })
  | _ => .next s

end Sys2Proof.Machine
end

