-- ==== Sys2Proof/Machine/Pages.lean ====
section
/-! DEFINITION. Sys2Proof/Machine/Pages.lean: the frames of a page pool and the tables of its sequences as they are opened,
closed, forked and joined (11 R207, R210, R213, R214; 12 R234, R239, R242). -/

namespace Sys2Proof.Machine

open Sys2Proof

/-- The lowest s with [s, s + n) below the limit and nothing busy in it. -/
def findRun (busy : Nat → Bool) (limit n fuel s : Nat) : Option Nat :=
  match fuel with
  | 0 => none
  | k + 1 =>
    if limit < s + n then none
    else match (rangeFrom s n).find? busy with
      | none => some s
      | some b => findRun busy limit n k (b + 1)

def lowestRun (busy : Nat → Bool) (limit n : Nat) : Option Nat := findRun busy limit n (limit + 1) 0

/-- A frame that is neither present, nor a table's, nor awaiting its deferred release. -/
def Pool.isFree (k : Pool) (f : Nat) : Bool := (k.frame f).state == 0

/-- Free frames of a pool of n. -/
def Pool.freeFrames (k : Pool) (n : Nat) : Nat := n - (k.frames.filter (fun e => e.2.state != 0)).length

/-- A frame of a table run: pinned and in the table state (R213). -/
def Frame.table : Frame := { refs := 0, state := 2, pinned := true, holds := 0, deferred := false }

/-- The frames of a table run are taken, and freed. -/
def Pool.takeRun (k : Pool) (f n : Nat) : Pool := (rangeFrom f n).foldl (fun k i => k.setFrame i Frame.table) k
def Pool.freeRun (k : Pool) (f n : Nat) : Pool := (rangeFrom f n).foldl (fun k i => k.setFrame i Frame.free) k

/-- Frames that a table run needs (R213). -/
def tableFrames (layers heads limit frame : Nat) : Nat := ceilDiv (layers * heads * 16 * ceilDiv limit 256) (max 1 frame)

/-- The entries of a sequence's tables, by key. -/
def Pool.tableOf (k : Pool) (id : Nat) : Tab PageEntry := k.tables.filter (fun e => e.1 / 2 ^ 32 == id)
def Pool.dropTable (k : Pool) (id : Nat) : Pool := { k with tables := k.tables.filter (fun e => e.1 / 2 ^ 32 != id) }

/-- The references of a sequence's present entries go (R214). -/
def Pool.releaseRefs (k : Pool) (id : Nat) : Pool :=
  (k.tableOf id).foldl (fun k e => if e.2.state = 1 then k.release e.2.page else k) k

/-- A sequence closes: its references and its table run go, and its entry is zeroised (R214). -/
def Pool.closeSeq (k : Pool) (id : Nat) : Pool :=
  match k.seq? id with
  | none => k
  | some e =>
    let k := ((k.releaseRefs id).dropTable id).freeRun e.tableFrame e.tableFrames
    { k with seqs := k.seqs.del id }

/-- The sequence bound to a stream. -/
def Pool.boundTo (k : Pool) (stream : Nat) : Option (Nat × SeqEntry) :=
  List.find? (fun (e : Nat × SeqEntry) => e.2.live && e.2.bound && e.2.stream == stream) k.seqs

/-- A frame that a FORK may take: free, or to be freed when a snapshot ends (R234). -/
def Pool.freeForFork (k : Pool) (f : Nat) : Bool := k.isFree f || (k.frame f).deferred

/-- Table runs for n children of tables of m frames, lowest first, each taken before the next is sought (R234). -/
def Pool.forkRuns (k : Pool) (frames m n : Nat) : Option (List Nat) :=
  match n with
  | 0 => some []
  | j + 1 =>
    match lowestRun (fun f => !k.freeForFork f) frames m with
    | none => none
    | some f => ((k.takeRun f m).forkRuns frames m j).map (fun l => f :: l)

/-- A child's sequence: the parent's entry and tables copied into the child's run, every present page gaining a reference
unless its count would pass 65,535 (R239). -/
def Pool.forkSeq (k : Pool) (id child run : Nat) : Pool :=
  match k.seq? id with
  | none => k
  | some e =>
    let k := (k.takeRun run e.tableFrames).setSeq child { e with tableFrame := run, stream := child, skips := 0 }
    (k.tableOf id).foldl (fun k x =>
      let key := child * 2 ^ 32 + x.1 % 2 ^ 32
      if x.2.state = 1 then
        let f := k.frame x.2.page
        if f.refs < 65535 then (k.setFrame x.2.page { f with refs := f.refs + 1 }).setEntry key x.2
        else k.setEntry key { x.2 with state := 2 }
      else k.setEntry key x.2) k

/-- A joined child's sequence becomes its parent's (R242 steps 3 and 5). -/
def Pool.joinSeq (k : Pool) (x y : Nat) : Pool :=
  match k.seq? x, k.seq? y with
  | some ex, some ey =>
    let k := ((k.releaseRefs x).dropTable x).freeRun ex.tableFrame ex.tableFrames
    let moved := k.tableOf y
    let k := moved.foldl (fun k e => k.setEntry (x * 2 ^ 32 + e.1 % 2 ^ 32) e.2) (k.dropTable y)
    let k := k.setSeq x { ex with
      tableFrame := ey.tableFrame, tableFrames := ey.tableFrames, length := ey.length, skips := ey.skips,
      tolerate := ey.tolerate, share := ey.share, pin := ey.pin, starved := ey.starved, atLimit := ey.atLimit }
    { k with seqs := k.seqs.del y }
  | _, _ => k

end Sys2Proof.Machine
end

