-- ==== Sys2Proof/Machine/Kv.lean ====
section
/-! DEFINITION. Sys2Proof/Machine/Kv.lean: KV pages in their frames, and the instructions that append to and regenerate them:
SCATTER and PGFILL (11 R209, R222 to R228; 12 R240). -/

namespace Sys2Proof.Machine

open Sys2Proof

/-! ### Pages (R208, R209, R212) -/

/-- What FORMAT says of a page: head dimension, the element type code, and bytes of scales per token and half (0 without). -/
structure PageFmt where
  hd : Nat
  type : Nat
  scales : Nat
  deriving DecidableEq, Repr

def pageFmt (format : Nat) : PageFmt :=
  let hd := if bits format 0 2 = 0 then 64 else if bits format 0 2 = 1 then 128 else 256
  let k := bits format 2 2
  { hd := hd, type := if k = 1 then 3 else if k = 3 then 9 else 2, scales := if k = 2 then hd / 32 else 0 }

/-- Bytes of one token's keys, or values. -/
def PageFmt.row (f : PageFmt) : Nat := f.hd * elemBits f.type / 8

/-- Bytes of a page (R209). -/
def PageFmt.size (f : PageFmt) : Nat := 4096 + 512 * f.row + (if f.scales = 0 then 0 else 4096)

/-- Offsets of token t's keys and values, and of their scales: `v` for values. -/
def PageFmt.rowAt (f : PageFmt) (v : Bool) (t : Nat) : Nat := 4096 + (if v then 256 * f.row else 0) + t * f.row
def PageFmt.scaleAt (f : PageFmt) (v : Bool) (t : Nat) : Nat :=
  4096 + 512 * f.row + (if v then 256 * f.scales else 0) + t * f.scales

/-- Bytes of the pool at an offset of a frame of `fz` bytes. -/
def Pool.read (k : Pool) (fz page off n : Nat) : List Byte := (List.range n).map (fun i => k.bytes.get (page * fz + off + i) 0)
def Pool.write (k : Pool) (fz page off : Nat) (bs : List Byte) : Pool :=
  { k with bytes := putBytes k.bytes (page * fz + off) bs, bad := rewrite k.bad (page * fz + off) bs.length }

/-- A frame taken for a page starts with zeros in every byte (R209: the reserved bytes). -/
def Pool.clearFrame (k : Pool) (fz page : Nat) : Pool :=
  { k with bytes := k.bytes.filter (fun e => e.1 / max 1 fz != page),
           bad := k.bad.filter (fun e => e.1 * 4096 / max 1 fz != page) }

/-- The header fields of a page before its token IDs (R209). -/
def pageHeader (parent : Nat) (tag : BitVec 32) (layer head format count : Nat) : List Byte :=
  leBytes 8 parent ++ leBytes 4 tag.toNat ++ leBytes 2 layer ++ leBytes 1 head ++ leBytes 1 format ++ leBytes 2 count

/-- What a page's hash covers (R227): its parent's hash, MODEL_TAG, layer, head, FORMAT and the 256 token IDs. -/
def pageHash (key : BitVec 128) (parent : Nat) (tag : BitVec 32) (layer head format : Nat) (tokens : List Byte) : Nat :=
  (sipHash key (leBytes 8 parent ++ leBytes 4 tag.toNat ++ leBytes 2 layer ++ leBytes 1 head ++ leBytes 1 format
    ++ tokens)).toNat

/-! ### Reports (R220, R225) -/

/-- A sequence has a record in the next report; `skipped` where it skipped a page. -/
def Part.touchSeq (x : Part) (id : Nat) (skipped : Bool) : Part :=
  x.eachDest (fun d => { d with
    seqs := if d.seqs.contains id then d.seqs else id :: d.seqs,
    skipped := if skipped && !d.skipped.contains id then id :: d.skipped else d.skipped })

/-- A sequence-table entry is rewritten; a change of STARVED or AT_LIMIT goes into the next report. -/
def Part.setSeqEntry (x : Part) (id : Nat) (e : SeqEntry) : Part :=
  let y := { x with pool := x.pool.setSeq id e }
  match x.pool.seq? id with
  | none => y
  | some o => if o.starved = e.starved && o.atLimit = e.atLimit then y else y.touchSeq id false

/-! ### Staging records (R222) -/

/-- One item of a staging record. -/
structure Item where
  layer : Nat
  head : Nat
  keys : Word
  values : Word
  deriving DecidableEq, Repr

/-- The items of a staging record and its token source; none for a malformed one. -/
def stagingItems (e : SeqEntry) (bs : List Byte) (items : Nat) : Option (List Item) :=
  let l := (List.range items).map (fun i =>
    let o := 16 + 24 * i
    ({ layer := leNat (slice bs o 2), head := leNat (slice bs (o + 2) 1), keys := BitVec.ofNat 64 (leNat (slice bs (o + 8) 8)),
       values := BitVec.ofNat 64 (leNat (slice bs (o + 16) 8)) } : Item))
  let reserved := slice bs 2 6 ++ (List.range items).flatMap (fun i => slice bs (16 + 24 * i + 3) 5)
  let keys := l.map (fun i => (i.layer, i.head))
  if allZero reserved && l.all (fun i => decide (i.layer < e.layers) && decide (i.head < e.heads))
      && keys.eraseDups.length == keys.length then some l else none

/-- Bytes that n tokens take at K_SRC or V_SRC: rows, then scales. -/
def PageFmt.source (f : PageFmt) (n : Nat) : Nat := n * f.row + n * f.scales

/-- A malformed staging record, and the context engine's other faults (R231). -/
def Trap.engine (code : Nat) : Trap := Trap.of code 0x15

/-- A source named in the form of an A register: its place, its extent inside the buffer's window (R436). -/
def Here.source (h : Here) (v : Word) (n : Nat) : Option Place :=
  match h.k.place h.p h.a h.t v with
  | none => none
  | some w => if w.off + n ≤ w.len then some w else none

/-- The sources of a staging record, in order: token IDs, then each item's keys and values (R222). -/
structure Sources where
  items : List Item
  places : List (Place × Nat)
  deriving DecidableEq, Repr

/-- Reads the staging record at A[Y] for n tokens of a sequence. -/
def Here.staging (h : Here) (w : SWord) (e : SeqEntry) (n : Nat) (one : Bool) : Except Trap (Sources × (Place × Nat)) :=
  let bad := Except.error (Trap.engine 0x0404)
  let rec1 := h.q.getA w.y.val
  match h.source rec1 16 with
  | none => bad
  | some p =>
    let items := leNat ((h.s.bytesAt p.store p.addr 2))
    if items = 0 || e.layers * e.heads < items || (one && items != 1) then bad
    else match h.source rec1 (16 + 24 * items) with
      | none => bad
      | some p =>
        let bs := h.s.bytesAt p.store p.addr (16 + 24 * items)
        match stagingItems e bs items with
        | none => bad
        | some its =>
          let f := pageFmt e.format
          let want := (BitVec.ofNat 64 (leNat (slice bs 8 8)), 4 * n)
            :: its.flatMap (fun i => [(i.keys, f.source n), (i.values, f.source n)])
          let got := want.map (fun x => (h.source x.1 x.2, x.2))
          if got.any (fun x => x.1.isNone) then bad
          else .ok ({ items := its, places := got.filterMap (fun x => x.1.map (fun p => (p, x.2))) }, (p, 16 + 24 * items))

/-- A block of a source that does not verify (R300, R363). -/
def Here.sourceFails (h : Here) (l : List (Place × Nat)) : Option Trap :=
  if l.any (fun p => h.s.locked h.p h.k p.1.store p.1.addr p.2) then some (Trap.of 0x0806 0x28)
  else if l.any (fun p => h.s.anyTagBad p.1.store p.1.addr p.2) then some (Trap.of 0x0805 0x15)
  else if l.any (fun p => h.s.anyBad p.1.store p.1.addr p.2) then some (Trap.engine 0x0501)
  else none

/-- A source in the loom store that an earlier instruction has yet to write (R111). -/
def Here.sourceHeld (h : Here) (l : List (Place × Nat)) : Bool := l.any (fun p => h.extentHeld (some p.1) p.2 false)

/-- The bytes of source i. -/
def Here.sourceBytes (h : Here) (l : List (Place × Nat)) (i : Nat) : List Byte :=
  match l[i]? with
  | none => []
  | some p => h.s.bytesAt p.1.store p.1.addr p.2

/-! ### Frames and drops (R223, R224) -/

/-- The entries that a droppable page has: present, count 1, unpinned (R223), with its key; entries in `busy` are being
written or evicted. -/
def Pool.droppable (k : Pool) (busy : List Nat) : List (Nat × PageEntry) :=
  k.tables.filter (fun e =>
    e.2.state == 1 && (k.frame e.2.page).refs == 1 && !(k.frame e.2.page).pinned && !busy.contains e.1)

/-- Lower score first, ties to the lower page ID (R224). -/
def beforeDrop (a b : Nat × PageEntry) : Bool :=
  let x := ofF32 a.2.score
  let y := ofF32 b.2.score
  x.lt y || (!y.lt x && decide (a.2.page < b.2.page))

def leastEntry (before : Nat × PageEntry → Nat × PageEntry → Bool) (l : List (Nat × PageEntry)) : Option (Nat × PageEntry) :=
  match l with
  | [] => none
  | e :: rest => some (rest.foldl (fun a b => if before b a then b else a) e)

/-- A drop: the entry is marked dropped and its frame may be reused at once (R224). -/
def Pool.drop (k : Pool) (e : Nat × PageEntry) : Pool :=
  ((k.dropBucket e.2.page).setEntry e.1 { e.2 with state := 2, inTree := false }).setFrame e.2.page Frame.free

/-- n drops, with the frames they give. -/
def Pool.drops (k : Pool) (busy : List Nat) (n : Nat) : Pool × List Nat :=
  match n with
  | 0 => (k, [])
  | j + 1 =>
    match leastEntry beforeDrop ((k.droppable busy).filter (fun e => (k.frame e.2.page).holds == 0)) with
    | none => (k, [])
    | some e =>
      let r := (k.drop e).drops busy j
      (r.1, e.2.page :: r.2)

/-- Evictions of one table for a budget of b entries, of which `opened` are new: the lowest scores among the entries not being
appended to, ties to the lower position (R223). -/
def Pool.evictions (k : Pool) (id table budget opened first : Nat) : List (Nat × PageEntry) :=
  let base := tableKey id table 0
  let here := (k.tableOf id).filter (fun e => decide (base ≤ e.1) && decide (e.1 < base + 4096) && (e.2.state == 1 || e.2.state == 2))
  let excess := here.length + opened - budget
  if budget = 0 then []
  else
    let free := here.filter (fun e => decide (e.1 < base + first))
    let before := fun (a b : Nat × PageEntry) => let x := ofF32 a.2.score; let y := ofF32 b.2.score; x.lt y || (!y.lt x && decide (a.1 < b.1))
    (List.range excess).foldl (fun (r : List (Nat × PageEntry)) _ =>
      match leastEntry before (free.filter (fun e => !r.contains e)) with
      | none => r
      | some e => r ++ [e]) []

/-- An evicted entry: a present one loses its reference (R223). -/
def Pool.evict (k : Pool) (e : Nat × PageEntry) : Pool :=
  let k := if e.2.state = 1 then k.release e.2.page else k
  k.setEntry e.1 { e.2 with state := 3, inTree := false }

/-- The frames of n pages: the lowest free frames, then those of dropped pages, then those the evictions have freed. -/
def Pool.takeFrames (k : Pool) (pages n : Nat) (busy : List Nat) (evicted : List (Nat × PageEntry)) : Pool × List Nat :=
  let free := (List.range pages).filter (fun f => k.isFree f)
  let k1 := evicted.foldl Pool.evict k
  let freed := (List.range pages).filter (fun f => k1.isFree f && !k.isFree f)
  let a := free.take n
  let d := k1.drops busy (n - a.length - freed.length)
  (d.1, (a ++ d.2 ++ freed).take n)

/-- Whether n frames are to be had: now, after a snapshot ends, or not at all (R223 step 3, R224). -/
inductive Room where
  | now | later | never
  deriving DecidableEq, Repr

def Pool.room (k : Pool) (pages n : Nat) (busy : List Nat) (evicted : List (Nat × PageEntry)) : Room :=
  let k1 := evicted.foldl Pool.evict k
  let drop := k1.droppable busy
  let held := (List.range pages).filter (fun f => (k1.frame f).deferred)
  let free := ((List.range pages).filter (fun f => k1.isFree f)).length
  if free + held.length + drop.length < n then .never
  else if free + (drop.filter (fun e => (k1.frame e.2.page).holds == 0)).length < n then .later
  else .now

/-! ### Appending (R223, R227, R240) -/

/-- The positions that an append of n tokens writes, and the tokens [lo, hi) of the append that each gets. -/
def appendSpans (length n : Nat) : List (Nat × Nat × Nat) :=
  if n = 0 then []
  else (rangeFrom (length / 256) ((length + n - 1) / 256 + 1 - length / 256)).map (fun i =>
    (i, max length (256 * i) - length, min (length + n) (256 * i + 256) - length))

/-- An append opens a page at an entry: one not yet present, or one whose page is shared (R223, R240). -/
def Pool.opens (k : Pool) (key : Nat) : Bool :=
  let e := k.entry key
  e.state == 0 || (e.state == 1 && decide (1 < (k.frame e.page).refs))

/-- The hash that a page's successor takes as its parent's: 0 before position 0; none where the previous page is not there to
give it (log entry 33). -/
def Pool.parentHash (k : Pool) (fz id table pos : Nat) (sq : SeqEntry) : Option Nat :=
  if pos = 0 then some 0
  else
    let e := k.entry (tableKey id table (pos - 1))
    if e.state = 1 then
      some (pageHash k.key (leNat (k.read fz e.page 0 8)) sq.modelTag (table / max 1 sq.heads) (table % max 1 sq.heads) sq.format
        (k.read fz e.page 0x400 1024))
    else none

/-- Writes tokens [lo, hi) of an append into a page at token t0 on: token IDs, rows, scales and the header's count. -/
def Pool.fillPage (k : Pool) (fz page : Nat) (f : PageFmt) (hdr : Nat → List Byte) (t0 lo hi n : Nat)
    (tokens keys values : List Byte) : Pool :=
  let m := hi - lo
  let k := k.write fz page 0 (hdr (t0 + m))
  let k := k.write fz page (0x400 + 4 * t0) (slice tokens (4 * lo) (4 * m))
  let half := fun (k : Pool) (v : Bool) (src : List Byte) =>
    let k := k.write fz page (f.rowAt v t0) (slice src (lo * f.row) (m * f.row))
    if f.scales = 0 then k else k.write fz page (f.scaleAt v t0) (slice src (n * f.row + lo * f.scales) (m * f.scales))
  half (half k false keys) true values

/-- One page of one table takes its tokens; frames are given in order (R223 steps 4 and 5, R240). A dropped entry's count
rises, its page being regenerated later; an evicted one stays as it is (log entry 33). -/
def Pool.appendPage (r : Pool × List Nat) (fz id table : Nat) (sq : SeqEntry) (n : Nat) (sp : Nat × Nat × Nat)
    (tokens keys values : List Byte) : Pool × List Nat :=
  let k := r.1
  let key := tableKey id table sp.1
  let e := k.entry key
  let t0 := (sq.length + sp.2.1) % 256
  let count := t0 + (sp.2.2 - sp.2.1)
  let f := pageFmt sq.format
  let parent := (k.parentHash fz id table sp.1 sq).getD 0
  let hdr := fun (c : Nat) => pageHeader parent sq.modelTag (table / max 1 sq.heads) (table % max 1 sq.heads) sq.format c
  if e.state = 2 then (k.setEntry key { e with count := count }, r.2)
  else if e.state = 3 then r
  else
    let shared := e.state == 1 && decide (1 < (k.frame e.page).refs)
    let opened := e.state == 0 || shared
    let page := if opened then r.2.headD 0 else e.page
    let k :=
      if !opened then k
      else
        let k := k.clearFrame fz page
        let k := if shared then (k.write fz page 0 (k.read fz e.page 0 fz)).release e.page else k
        k.setFrame page { refs := 1, state := 1, pinned := sq.pin, holds := 0, deferred := false }
    let k := k.fillPage fz page f hdr t0 sp.2.1 sp.2.2 n tokens keys values
    (k.setEntry key { e with page := page, count := count, state := 1, inTree := if shared then false else e.inTree },
     if opened then r.2.drop 1 else r.2)

/-- A page filled to 256 tokens under SHARE meets the prefix tree (R227): the pool, and whether it was a confirmed hit. -/
def Pool.sharePage (k : Pool) (fz id table pos : Nat) (sq : SeqEntry) : Pool × Nat :=
  let key := tableKey id table pos
  let e := k.entry key
  if e.state ≠ 1 ∨ e.count ≠ 256 then (k, 0)
  else match k.parentHash fz id table pos sq with
    | none => (k, 0)
    | some parent =>
      let tokens := k.read fz e.page 0x400 1024
      let h := pageHash k.key parent sq.modelTag (table / max 1 sq.heads) (table % max 1 sq.heads) sq.format tokens
      let hit := match k.buckets.find? h with
        | none => none
        | some f =>
          if f != e.page && k.read fz f 0 18 == k.read fz e.page 0 18 && k.read fz f 0x400 1024 == tokens
              && decide ((k.frame f).refs < 65535) && (k.frame f).state == 1 then some f else none
      match hit with
      | some f =>
        let k := (k.setFrame f { k.frame f with refs := (k.frame f).refs + 1 }).release e.page
        (k.setEntry key { e with page := f, inTree := true }, 1)
      | none =>
        let k := { k with buckets := k.buckets.ins h e.page }
        ((k.setFrame e.page { k.frame e.page with pinned := true }).setEntry key { e with inTree := true }, 0)

/-- Positions of a table that an append fills to 256 tokens. -/
def filled (spans : List (Nat × Nat × Nat)) (length : Nat) : List Nat :=
  (spans.filter (fun sp => (length + sp.2.2) % 256 == 0)).map (fun sp => sp.1)

/-- A count of page events on the pool home (CXE_PAGE_COUNT). -/
def State.pageCount (s : State) (p : Fin 16) (k : PartCfg) (f : Fld) (n : Nat) : State := s.bump (.cxePageCount k.home p) f n

/-- A SCATTER or PGFILL finds no frame (R225, R228). -/
def Here.starved (h : Here) (id : Nat) (e : SeqEntry) : State :=
  let s := (h.s.setPart h.p (h.x.setSeqEntry id { e with starved := true })).pageCount h.p h.k Fl.cxePageCount_STARVED 1
  ({ h with s := s } : Here).go (h.q.setCond .starved 0)

/-- SCATTER once its sources are in hand (R223). -/
def Here.scatter (h : Here) (w : SWord) (id : Nat) (e : SeqEntry) (n : Nat) (src : Sources) : State :=
  let k := h.x.pool
  let fz := h.k.pools.frame
  let f := pageFmt e.format
  let spans := appendSpans e.length n
  let tables := src.items.map (fun i => i.layer * e.heads + i.head)
  let keys := tables.flatMap (fun t => spans.map (fun sp => tableKey id t sp.1))
  if e.limit < e.length + n then
    ({ h with s := h.s.setPart h.p (h.x.setSeqEntry id { e with atLimit := true }) } : Here).go (h.q.setCond .seqLimit 0)
  else if keys.any (fun i => (k.entry i).damaged) then h.trap (Trap.engine 0x0403)
  else
    let opened := keys.filter k.opens
    let newIn := fun (t : Nat) => (spans.filter (fun sp => (k.entry (tableKey id t sp.1)).state == 0)).length
    let evicted := tables.flatMap (fun t => k.evictions id t e.budget (newIn t) (e.length / 256))
    let busy := keys ++ evicted.map (fun x => x.1)
    match k.room h.k.pools.pages opened.length busy evicted with
    | .never => h.starved id e
    | .later => h.setQ { h.q with run := .waiting (.scatter false w) }
    | .now =>
      if h.k.pools.staging * 4096 < src.items.length * 2 * f.source n then h.trap (Trap.engine 0x0405)
      else
        let before := (k.droppable busy).length
        let took := k.takeFrames h.k.pools.pages opened.length busy evicted
        let drops := before - (took.1.droppable busy).length
        let wrote := (tables.zipIdx).foldl (fun r t => spans.foldl (fun r sp =>
          Pool.appendPage r fz id t.1 e n sp (h.sourceBytes src.places 0) (h.sourceBytes src.places (1 + 2 * t.2))
            (h.sourceBytes src.places (2 + 2 * t.2))) r) took
        let shared := if e.share then
            tables.foldl (fun r t => (filled spans e.length).foldl (fun (r : Pool × Nat) i =>
              let y := r.1.sharePage fz id t i e
              (y.1, r.2 + y.2)) r) (wrote.1, 0)
          else (wrote.1, 0)
        let x := ({ h.x with pool := shared.1 } : Part).setSeqEntry id { e with length := e.length + n, starved := false }
        let s := h.s.setPart h.p x
        let s := ((s.pageCount h.p h.k Fl.cxePageCount_DROPS drops).pageCount h.p h.k Fl.cxePageCount_EVICTIONS evicted.length).pageCount
          h.p h.k Fl.cxePageCount_PREFIX_HITS shared.2
        ({ h with s := s } : Here).go (h.q.setCond .ok 0)

/-- The sequence that an instruction names (R142). -/
def Here.sequence (h : Here) (i : Nat) : Nat × Option SeqEntry :=
  let id := (h.q.getB i).toNat % 65536
  (id, h.x.pool.seq? id)

/-- SCATTER from its checks on. -/
def Here.doScatter (h : Here) (w : SWord) : State :=
  let n := (h.q.getB w.z.val).toNat
  if ones (h.q.getB w.z.val) then h.trap (Trap.seq 0x0320)
  else match h.sequence w.x.val with
    | (_, none) => h.trap (Trap.seq 0x0325)
    | (id, some e) =>
      -- a count that passes the limit reads no sources: the staging record would hold more rows than any sequence may
      match h.staging w e (min n 1048576) false with
      | .error t => h.trap t
      | .ok (src, rec1) =>
        if h.sourceHeld (rec1 :: src.places) then h.hold
        else match h.sourceFails (rec1 :: src.places) with
          | some t => h.trap t
          | none => h.scatter w id e n src

/-- PGFILL from its checks on (R228). -/
def Here.doPgfill (h : Here) (w : SWord) : State :=
  let pos := (h.q.getB w.z.val).toNat
  match h.sequence w.x.val with
  | (_, none) => h.trap (Trap.seq 0x0325)
  | (id, some e) =>
    match h.staging w e 0 true with
    | .error t => h.trap t
    | .ok (first, rec1) =>
      let item := first.items.headD { layer := 0, head := 0, keys := 0, values := 0 }
      let table := item.layer * e.heads + item.head
      let key := tableKey id table pos
      let k := h.x.pool
      let en := if pos < e.entries then k.entry key else PageEntry.empty
      if en.damaged then h.trap (Trap.engine 0x0403)
      else if en.state = 1 then h.go (h.q.setCond .ok 0)
      else if en.state ≠ 2 then h.trap (Trap.engine 0x0405)
      else match h.staging w e en.count true with
        | .error t => h.trap t
        | .ok (src, _) =>
          if h.sourceHeld (rec1 :: src.places) then h.hold
          else match h.sourceFails (rec1 :: src.places) with
            | some t => h.trap t
            | none =>
              match k.room h.k.pools.pages 1 [key] [] with
              | .never => h.starved id e
              | .later => h.setQ { h.q with run := .waiting (.scatter true w) }
              | .now =>
                let fz := h.k.pools.frame
                let f := pageFmt e.format
                let drops := if k.freeFrames h.k.pools.pages = 0 then 1 else 0
                let took := k.takeFrames h.k.pools.pages 1 [key] []
                let page := took.2.headD 0
                let parent := (took.1.parentHash fz id table pos e).getD 0
                let hdr := fun (c : Nat) => pageHeader parent e.modelTag item.layer item.head e.format c
                let pool := ((took.1.clearFrame fz page).fillPage fz page f hdr 0 0 en.count en.count
                  (h.sourceBytes src.places 0) (h.sourceBytes src.places 1) (h.sourceBytes src.places 2)).setFrame page
                    { refs := 1, state := 1, pinned := e.pin, holds := 0, deferred := false }
                let x := { h.x with pool := pool.setEntry key { en with page := page, state := 1 } }
                let s := ((h.s.setPart h.p x).pageCount h.p h.k Fl.cxePageCount_PGFILLS 1).pageCount h.p h.k Fl.cxePageCount_DROPS drops
                ({ h with s := s } : Here).go (h.q.setCond .ok 0)

def execScatter (a : At) (w : SWord) (s : State) : Out := s.issueS a w 0x66 (scatterOk w) "SCATTER" (fun h => h.doScatter w)
def execPgfill (a : At) (w : SWord) (s : State) : Out := s.issueS a w 0x67 (scatterOk w) "PGFILL" (fun h => h.doPgfill w)

/-- SCATTER_RESUME (R224): a snapshot's page release lets a waiting SCATTER or PGFILL go on. -/
def execScatterResume (a : At) (s : State) : Out :=
  match s.resuming a with
  | some (p, x, .scatter fill w) =>
    match x.cfg.tread? a.ctx a.loom with
    | none => .next s
    | some t =>
      let h : Here := { s := s.setSeq a { s.seq a with run := .running }, a := a, p := p, x := x, t := t }
      .next (if fill then h.doPgfill w else h.doScatter w)
  | _ => .next s

end Sys2Proof.Machine
end

