-- ==== Sys2Proof/Machine/Elementary.lean ====
section
/-! DEFINITION. Sys2Proof/Machine/Elementary.lean: the elementary functions of the vector unit (05 R106, R107). For each the
spec states the error in ulps and no more: the result is a free value (log entry 21) among the FP32 values within that error,
which the model finds from the exact result to more than a hundred bits. -/

namespace Sys2Proof.Machine

open Sys2Proof

/-! ### Fixed point: integers in units of 2^-512 -/

def one512 : Int := 2 ^ 512
def mul512 (a b : Int) : Int := a * b / one512

/-- Σ over k = n down to 1 of the Horner form 1 + r/k × (…), which is e^r. -/
def expHorner (r : Int) (n : Nat) (acc : Int) : Int :=
  match n with
  | 0 => acc
  | k + 1 => expHorner r k (one512 + mul512 r acc / (k + 1))

/-- Σ z^(2j+1) ÷ (2j + 1), with alternating signs where `alt`, from the power p = z^(2j+1), j counting up. -/
def oddSeries (z2 : Int) (alt : Bool) (n j : Nat) (p : Int) : Int :=
  match n with
  | 0 => 0
  | k + 1 => p / (2 * j + 1) + (if alt then -1 else 1) * oddSeries z2 alt k (j + 1) (mul512 p z2)

/-- atanh z for |z| ≤ 1/3. -/
def atanh512 (z : Int) : Int := oddSeries (mul512 z z) false 170 0 z

def ln2 : Int := 2 * atanh512 (one512 / 3)

/-- arctan(1 ÷ q) in units of 2^-672, by n terms. -/
def atanInv (q n : Nat) : Int :=
  (List.range n).foldl (fun (s : Int) j =>
    s + (if j % 2 = 0 then 1 else -1) * ((2 ^ 672 / (q ^ (2 * j + 1) * (2 * j + 1)) : Nat) : Int)) 0

/-- π in units of 2^-672. -/
def pi672 : Int := 16 * atanInv 5 160 - 4 * atanInv 239 50

/-- m × 2^e in units of 2^-512. -/
def fix512 (neg : Bool) (m : Nat) (e : Int) : Int := sig neg m * 2 ^ (512 + e).toNat

/-- e^x for |x| ≤ 200, as significand and exponent. -/
def expFix (x : Int) : Int × Int :=
  let k := (2 * x + ln2) / (2 * ln2)
  (expHorner (x - k * ln2) 130 one512, k - 512)

/-- The same in units of 2^-512. -/
def expFix512 (x : Int) : Int :=
  let r := expFix x
  if 0 ≤ r.2 + 512 then r.1 * 2 ^ (r.2 + 512).toNat else r.1 / 2 ^ (-(r.2 + 512)).toNat

/-- Stand-ins for results beyond every FP32 value, below the smallest, and just below 1. -/
def numHuge : Num := .fin false 1 1000
def numTiny : Num := .fin false 1 (-1000)
def numUnder1 : Num := .fin false (2 ^ 100 - 1) (-100)

/-- |x| is more than n. -/
def beyond (m : Nat) (e : Int) (n : Nat) : Bool := (Num.fin false n 0).lt (.fin false m e)

def expNum (neg : Bool) (m : Nat) (e : Int) : Num :=
  if beyond m e 200 then (if neg then numTiny else numHuge)
  else let r := expFix (fix512 neg m e); .ofInt r.1 r.2

def exp2Num (neg : Bool) (m : Nat) (e : Int) : Num :=
  if beyond m e 300 then (if neg then numTiny else numHuge)
  else
    let x := fix512 neg m e
    let k := (2 * x + one512) / (2 * one512)
    .ofInt (expHorner (mul512 (x - k * one512) ln2) 130 one512) (k - 512)

/-- The natural logarithm of m × 2^e, m not zero, in units of 2^-512. -/
def logFix (m : Nat) (e : Int) : Int :=
  let k := Nat.log2 m
  let up := decide (3 * 2 ^ k < 2 * m)
  let f : Int := (m : Int) * one512 / 2 ^ (if up then k + 1 else k)
  2 * atanh512 ((f - one512) * one512 / (f + one512)) + ((if up then k + 1 else k : Nat) + e) * ln2

def tanhNum (neg : Bool) (m : Nat) (e : Int) : Num :=
  let t :=
    if beyond m e 40 then numUnder1
    else let w := expFix512 (2 * fix512 false m e); .ofInt ((w - one512) * one512 / (w + one512)) (-512)
  if neg then t.neg else t

def sigmoidNum (neg : Bool) (m : Nat) (e : Int) : Num :=
  if beyond m e 200 then (if neg then numTiny else numUnder1)
  else .ofInt (one512 * one512 / (one512 + expFix512 (fix512 (!neg) m e))) (-512)

/-- Σ (−1)^n x^(2n+1) ÷ (n! (2n+1)), from the power p = (−1)^n x^(2n+1) ÷ n!. -/
def erfSeries (x2 : Int) (n j : Nat) (p : Int) : Int :=
  match n with
  | 0 => 0
  | k + 1 => p / (2 * j + 1) + erfSeries x2 k (j + 1) (-(mul512 p x2) / (j + 1))

def erfNum (neg : Bool) (m : Nat) (e : Int) : Num :=
  let t :=
    if beyond m e 6 then numUnder1
    else
      let x := fix512 false m e
      let root : Int := isqrt (pi672 * 2 ^ 352).toNat 514 0
      .ofInt (2 * erfSeries (mul512 x x) 340 0 x * one512 / root) (-512)
  if neg then t.neg else t

/-- Σ (−1)^n t^(2n+s) ÷ (2n+s)!, from a term. -/
def trigSeries (t2 : Int) (n j : Nat) (p : Int) : Int :=
  match n with
  | 0 => 0
  | k + 1 => p + trigSeries t2 k (j + 2) (-(mul512 p t2) / ((j + 1) * (j + 2)))

/-- Quarter turns q and the rest t, |t| ≤ π/4, of a finite argument, and the sine of the argument plus `add` quarter turns. -/
def sinNum (neg : Bool) (m : Nat) (e : Int) (add : Int) : Num :=
  let x : Int := sig neg m * 2 ^ (672 + e).toNat
  let q := (4 * x + pi672) / (2 * pi672)
  let t := (2 * x - q * pi672) / 2 ^ 161
  let t2 := mul512 t t
  let k := (q + add) % 4
  let v := if k % 2 = 0 then trigSeries t2 70 1 t else trigSeries t2 70 0 one512
  .ofInt (if 2 ≤ k then -v else v) (-512)

/-! ### The value within the stated error -/

/-- An FP32 code is a finite value of the result's sign within k ulps of it (R106). -/
def withinUlps (k : Nat) (a : Num) (c : BitVec 32) : Bool :=
  match a, ofF32 c with
  | .fin n m e, .fin n' m' e' =>
    if m = 0 then m' == 0
    else
      let u := max (topBit m e) (-126) - 23
      let d := (Num.add (.fin n m e) (Num.neg (.fin n' m' e'))).abs
      n == n' && d.lt (.fin false (k * (2 ^ 30 - 1)) (u - 30))
  | _, _ => false

/-- A result known within k ulps: the free value where it is one that the error allows, else the nearest. -/
def openResult (k : Nat) (a : Num) (free : BitVec 32) : BitVec 32 × Flg :=
  let r := toF32 a
  if r.2.overflow || !withinUlps k a free then r else (free, Flg.none)

/-- Functions 0x000F to 0x0019 of VOP (R106, R107, R137). -/
def vectorFn (fn : Nat) (v : BitVec 32) : BitVec 32 × Flg :=
  let free := Config.vectorFn fn v
  let x := ofF32 v
  match x with
  | .nan => toF32 .nan
  | .inf n =>
    if fn = 0x0F then toF32 (.fin n 0 0)
    else if fn = 0x10 then toF32 (if n then .nan else .zero)
    else if fn = 0x11 ∨ fn = 0x12 then toF32 (if n then .zero else .inf false)
    else if fn = 0x13 ∨ fn = 0x14 then toF32 (if n then .nan else .inf false)
    else if fn = 0x15 ∨ fn = 0x17 then toF32 (.ofInt (if n then -1 else 1) 0)
    else if fn = 0x16 then toF32 (if n then .zero else .ofInt 1 0)
    else toF32 .nan
  | .fin n m e =>
    if m = 0 then
      if fn = 0x0F ∨ fn = 0x10 then toF32 (.inf n)
      else if fn = 0x11 ∨ fn = 0x12 ∨ fn = 0x19 then toF32 (.ofInt 1 0)
      else if fn = 0x13 ∨ fn = 0x14 then toF32 (.inf true)
      else if fn = 0x16 then toF32 (.ofInt 1 (-1))
      else (v, Flg.none)
    else if fn = 0x0F then openResult 1 ((Num.ofInt 1 0).div x) free
    else if fn = 0x10 then (if n then toF32 .nan else openResult 1 ((Num.ofInt 1 0).div x.sqrt) free)
    else if fn = 0x11 then openResult 1 (expNum n m e) free
    else if fn = 0x12 then openResult 1 (exp2Num n m e) free
    else if fn = 0x13 then
      if n then toF32 .nan
      else if x.eq (.ofInt 1 0) then toF32 .zero
      else openResult 1 (.ofInt (logFix m e) (-512)) free
    else if fn = 0x14 then
      if n then toF32 .nan
      else if x.eq (.ofInt 1 0) then toF32 .zero
      else openResult 1 (.ofInt (logFix m e * one512 / ln2) (-512)) free
    else if fn = 0x15 then openResult 2 (tanhNum n m e) free
    else if fn = 0x16 then openResult 2 (sigmoidNum n m e) free
    else if fn = 0x17 then openResult 2 (erfNum n m e) free
    else if fn = 0x18 then openResult 2 (sinNum n m e 0) free
    else openResult 2 (sinNum n m e 1) free

end Sys2Proof.Machine
end

