-- ==== Sys2Proof/Machine/Scalar.lean ====
section
/-! DEFINITION. Sys2Proof/Machine/Scalar.lean: the control instructions (06 R131) and the scalar instructions (R132). -/

namespace Sys2Proof.Machine

open Sys2Proof

/-- NOP (R131). -/
def execNop (a : At) (w : SWord) (s : State) : Out :=
  s.issueS a w 0x00 (nopOk w) "NOP" (fun h => h.go h.q)

/-- JMP (R131). -/
def execJmp (a : At) (w : JWord) (s : State) : Out :=
  s.issueJ a w 0x01 (jmpOk w) "JMP" (fun h => h.setQ (h.q.jump w.target))

/-- BST (R131): if COND is the named condition code, or, with ANY, if COND is not OK. -/
def execBst (a : At) (w : JWord) (s : State) : Out :=
  s.issueJ a w 0x02 (bstOk w) "BST" (fun h =>
    let hit := h.q.cond == w.imm.toNat || w.opt12 && h.q.cond != 0
    h.setQ (if hit then h.q.jump w.target else h.q.next))

/-- LOOP (R131): a count of 0 continues after the ENDLOOP; otherwise the loop is pushed and its index register is 0. -/
def execLoop (a : At) (w : JWord) (s : State) : Out :=
  s.issueJ a w 0x03 (loopOk w) "LOOP" (fun h =>
    let n := h.q.getB w.x.val
    if ones n then h.trap (Trap.seq 0x0320)
    else if n == 0 then h.setQ (h.q.jump (w.target + 1))
    else h.go ({ h.q with loops := { count := n, reg := w.y.val, start := h.q.pc } :: h.q.loops }.putB w.y.val 0))

/-- ENDLOOP (R131): the index is what its register holds (R116; log entry 7). -/
def execEndloop (a : At) (w : JWord) (s : State) : Out :=
  s.issueJ a w 0x04 (endloopOk w) "ENDLOOP" (fun h =>
    match h.q.loops with
    | [] => h.go h.q
    | e :: rest =>
      let i := h.q.getB e.reg + 1
      if i.toNat < e.count.toNat then h.setQ ((h.q.putB e.reg i).jump (w.target + 1))
      else h.go { h.q with loops := rest })

/-- END (R131): this context's treadling on this loom stops. -/
def execEndT (a : At) (w : SWord) (s : State) : Out :=
  s.issueS a w 0x05 (nopOk w) "END" (fun h => h.go { h.q with run := .ended })

/-- MOVI (R132). -/
def execMovi (a : At) (w : SWord) (s : State) : Out :=
  s.issueS a w 0x10 (moviOk w) "MOVI" (fun h =>
    h.go (if w.opt12 then h.q.putA w.x.val w.imm else h.q.putB w.x.val w.imm))

/-- A shift of ALU; the spec states no result for 64 places or more (log entry 8). -/
def aluShift (fn : Nat) (y z v : Word) : Word :=
  if z.toNat < 64 then v else BitVec.ofNat 64 (Config.shiftBeyond fn y.toNat z.toNat)

/-- The functions of ALU (R132). None is a division by zero. -/
def aluFn (fn : Nat) (y z : Word) : Option Word :=
  if fn = 0 then some (y + z)
  else if fn = 1 then some (y - z)
  else if fn = 2 then some (y * z)
  else if fn = 3 then (if z = 0 then none else some (y / z))
  else if fn = 4 then some (aluShift 4 y z (y <<< z.toNat))
  else if fn = 5 then some (aluShift 5 y z (y >>> z.toNat))
  else if fn = 6 then some (y &&& z)
  else if fn = 7 then some (y ||| z)
  else if fn = 8 then some (y ^^^ z)
  else if fn = 9 then some (if y.toNat < z.toNat then y else z)
  else some (if y.toNat < z.toNat then z else y)

/-- The second source of ALU and CMP: IMM in place of B[Z] under OPT[12] (R132). -/
def Here.second (h : Here) (w : SWord) : Word := if w.opt12 then w.imm else h.q.getB w.z.val

/-- ALU (R132). -/
def execAlu (a : At) (w : SWord) (s : State) : Out :=
  s.issueS a w 0x11 (aluOk w) "ALU" (fun h =>
    match aluFn w.fn.toNat (h.q.getB w.y.val) (h.second w) with
    | none => h.trap (Trap.seq 0x0323)
    | some v => h.go (h.q.putB w.x.val v))

/-- The comparisons of CMP (R132). -/
def cmpFn (fn : Nat) (y z : Word) : Bool :=
  if fn = 0 then y == z
  else if fn = 1 then y != z
  else if fn = 2 then decide (y.toNat < z.toNat)
  else if fn = 3 then decide (y.toNat ≤ z.toNat)
  else if fn = 4 then decide (y.toInt < z.toInt)
  else decide (y.toInt ≤ z.toInt)

/-- CMP (R132). -/
def execCmp (a : At) (w : SWord) (s : State) : Out :=
  s.issueS a w 0x12 (cmpOk w) "CMP" (fun h =>
    h.go (h.q.putP (Fin.ofNat 8 w.x.val) (cmpFn w.fn.toNat (h.q.getB w.y.val) (h.second w))))

/-- The functions of PLOGIC (R132). -/
def plogicFn (fn : Nat) (y z : Bool) : Bool :=
  if fn = 0 then y && z else if fn = 1 then y || z else if fn = 2 then y != z else y && !z

/-- PLOGIC (R132). -/
def execPlogic (a : At) (w : SWord) (s : State) : Out :=
  s.issueS a w 0x13 (plogicOk w) "PLOGIC" (fun h =>
    h.go (h.q.putP (Fin.ofNat 8 w.x.val)
      (plogicFn w.fn.toNat (h.q.getP (Fin.ofNat 8 w.y.val)) (h.q.getP (Fin.ofNat 8 w.z.val)))))

/-- ABIND (R132): the buffer with offset 0. -/
def execAbind (a : At) (w : SWord) (s : State) : Out :=
  s.issueS a w 0x14 (abindOk w) "ABIND" (fun h => h.go (h.q.putA w.x.val (BitVec.ofNat 64 (bits w.imm.toNat 0 16))))

/-- AADD (R132): the product of B[Z] with the signed IMM wraps modulo 2^64 and is added, as a signed value, to the offset. -/
def execAadd (a : At) (w : SWord) (s : State) : Out :=
  s.issueS a w 0x15 (aaddOk w) "AADD" (fun h =>
    let v := h.q.getA w.y.val
    let o : Int := (bits v.toNat 16 48 : Int) + (h.q.getB w.z.val * w.imm).toInt
    if o < 0 ∨ 2 ^ 48 ≤ o then h.trap (Trap.seq 0x0322)
    else h.go (h.q.putA w.x.val (BitVec.ofNat 64 (bits v.toNat 0 16 + o.toNat * 2 ^ 16))))

/-- The offset of LDB, STB, VLD and VST from the buffer's start: A[Y]'s offset plus the signed IMM (R132, R136). -/
def Here.offset (h : Here) (w : SWord) : Int := (bits (h.q.getA w.y.val).toNat 16 48 : Int) + w.imm.toInt

/-- An address is a multiple of n: judged on the loom-store address where there is one, else on the offset (R144). -/
def Here.aligned (h : Here) (w : SWord) (n : Nat) : Bool :=
  let base : Int := match h.place w.y.val with | none => 0 | some p => p.base
  (base + h.offset w) % n == 0

/-- LDB (R132). -/
def execLdb (a : At) (w : SWord) (s : State) : Out :=
  s.issueS a w 0x16 (ldbOk w) "LDB" (fun h =>
    if !h.aligned w 8 then h.trap (Trap.seq 0x0327)
    else h.reading (h.place w.y.val) (h.offset w) 8 (fun addr =>
      h.go (h.q.putB w.x.val (BitVec.ofNat 64 (leNat (h.s.bytesAt (.loom a.loom) addr 8))))))

/-- STB (R132). -/
def execStb (a : At) (w : SWord) (s : State) : Out :=
  s.issueS a w 0x17 (ldbOk w) "STB" (fun h =>
    if !h.aligned w 8 then h.trap (Trap.seq 0x0327)
    else h.writing (h.place w.y.val) (h.offset w) 8 (fun addr =>
      { h with s := h.s.putAt (.loom a.loom) addr (leBytes 8 (h.q.getB w.x.val).toNat) }.go h.q))

end Sys2Proof.Machine
end

