-- ==== Sys2Proof/Machine/Vector.lean ====
section
/-! DEFINITION. Sys2Proof/Machine/Vector.lean: the vector unit (05 R106 to R108) and its instructions (06 R136, R137). -/

namespace Sys2Proof.Machine

open Sys2Proof

/-! ### Registers -/

def Loom.lane (l : Loom) (r i : Nat) : BitVec 32 := l.v.get (r * 64 + i) 0

/-- A register takes 64 lanes. -/
def Loom.setLanes (l : Loom) (r : Nat) (vs : List (BitVec 32)) : Loom :=
  { l with v := (vs.zipIdx).foldl (fun t e => t.put (r * 64 + e.2) e.1 0) l.v }

/-- Value j of a twin-thread register: lane 2j holds lo, lane 2j + 1 hi (05, the vector unit). -/
def Loom.twin (l : Loom) (r j : Nat) : Num := ofTwin (l.lane r (2 * j + 1)) (l.lane r (2 * j))

/-- Lanes with their flags: the values, and the flags together. -/
def laneFlags (rs : List (BitVec 32 × Flg)) : Flg := rs.foldl (fun f r => f.or r.2) Flg.none

/-- The lanes of twin-thread results. -/
def twinLanes (rs : List ((BitVec 32 × BitVec 32) × Flg)) : List (BitVec 32 × Flg) :=
  rs.flatMap (fun r => [(r.1.2, r.2), (r.1.1, Flg.none)])

/-! ### Functions of VOP (R137) -/

/-- Minimum and maximum: a NaN operand gives NaN, and −0 is below +0 (IEEE 754-2019, R107). -/
def minLane (a b : BitVec 32) : BitVec 32 × Flg :=
  let x := ofF32 a
  let y := ofF32 b
  if x.isNan || y.isNan then toF32 .nan
  else (if x.lt y || (x.eq y && x.isNeg) then a else b, Flg.none)
def maxLane (a b : BitVec 32) : BitVec 32 × Flg :=
  let x := ofF32 a
  let y := ofF32 b
  if x.isNan || y.isNan then toF32 .nan
  else (if y.lt x || (x.eq y && !x.isNeg) then a else b, Flg.none)

/-- A lane that holds the answer of a comparison: all ones or zero. -/
def truth (b : Bool) : BitVec 32 := if b then BitVec.allOnes 32 else 0

/-- A shift of an INT32 lane; the spec states no result for 32 places or more (log entry 8). -/
def laneShift (fn : Nat) (y z v : BitVec 32) : BitVec 32 :=
  if z.toNat < 32 then v else BitVec.ofNat 32 (Config.shiftBeyond fn y.toNat z.toNat)

/-- One lane of a function of FP32 or INT32 operands y, z and u. -/
def vopLane (fn : Nat) (y z u : BitVec 32) : BitVec 32 × Flg :=
  let a := ofF32 y
  let b := ofF32 z
  let quiet := fun (v : BitVec 32) => (v, Flg.none)
  if fn = 0x00 then toF32 (a.add b)
  else if fn = 0x01 then toF32 (a.add b.neg)
  else if fn = 0x02 then toF32 (a.mul b)
  else if fn = 0x03 then toF32 ((a.mul b).add (ofF32 u))
  else if fn = 0x04 then minLane y z
  else if fn = 0x05 then maxLane y z
  else if fn = 0x06 then quiet (y &&& 0x7FFFFFFF)
  else if fn = 0x07 then quiet (y ^^^ 0x80000000)
  else if fn = 0x08 then quiet ((y &&& 0x7FFFFFFF) ||| (z &&& 0x80000000))
  else if fn = 0x09 then quiet (truth (a.lt b))
  else if fn = 0x0A then quiet (truth (a.lt b || a.eq b))
  else if fn = 0x0B then quiet (truth (a.eq b))
  else if fn = 0x0C then quiet (if u ≠ 0 then y else z)
  else if fn = 0x0D then toF32 (a.div b)
  else if fn = 0x0E then toF32 a.sqrt
  else if fn ≤ 0x19 then vectorFn fn y
  else if fn = 0x30 then quiet (y + z)
  else if fn = 0x31 then quiet (y - z)
  else if fn = 0x32 then quiet (truth (y.slt z))
  else if fn = 0x33 then quiet (y &&& z)
  else if fn = 0x34 then quiet (y ||| z)
  else if fn = 0x35 then quiet (y ^^^ z)
  else if fn = 0x36 then quiet (laneShift fn y z (y <<< z.toNat))
  else quiet (laneShift fn y z (y.sshiftRight z.toNat))

/-- A twin-thread function (R137): the exact result rounded by R75. -/
def vopTwin (fn : Nat) (y z u : Num) : (BitVec 32 × BitVec 32) × Flg :=
  if fn = 0x20 then toTwin (y.add z)
  else if fn = 0x21 then toTwin (y.add z.neg)
  else if fn = 0x22 then toTwin (y.mul z)
  else toTwin ((y.mul z).add u)

/-- Conversion of a register from type t to type u (R90): an element's code stands in the low bits of its lane, the rest zero;
of 32 twin-thread values the other side stands in lanes 0 to 31 (log entry 30). -/
def Loom.convert (l : Loom) (r t u : Nat) : List (BitVec 32 × Flg) :=
  let src := fun (i : Nat) => if t = 11 then l.twin r i else elemValue t ((l.lane r i).toNat % 2 ^ elemBits t)
  if u = 11 then twinLanes ((List.range 32).map (fun i => toTwin (src i)))
  else if t = 11 then
    (List.range 32).map (fun i => let c := toElem u .rne (src i); (BitVec.ofNat 32 c.1, c.2))
      ++ List.replicate 32 (0, Flg.none)
  else (List.range 64).map (fun i => let c := toElem u .rne (src i); (BitVec.ofNat 32 c.1, c.2))

/-- The 64 lanes that a VOP writes. -/
def Loom.vop (l : Loom) (w : SWord) : List (BitVec 32 × Flg) :=
  let fn := w.fn.toNat
  let i := w.imm.toNat
  let third := bits i 0 5
  if fn = 0x40 then l.convert w.y.val (bits i 8 4) (bits i 12 4)
  else if 0x20 ≤ fn ∧ fn ≤ 0x23 then
    twinLanes ((List.range 32).map (fun j => vopTwin fn (l.twin w.y.val j) (l.twin w.z.val j) (l.twin third j)))
  else (List.range 64).map (fun k => vopLane fn (l.lane w.y.val k) (l.lane w.z.val k) (l.lane third k))

/-- A vector instruction writes a register and ORs its flags into a slot. -/
def Here.vector (h : Here) (x : Nat) (lanes : List (BitVec 32 × Flg)) (slot : Nat) : State :=
  { h with s := h.s.modLoom h.a.loom (fun l => l.setLanes x (lanes.map Prod.fst)) }.go
    (h.q.orFlags slot (laneFlags lanes))

/-- VOP (R136). -/
def execVop (a : At) (w : SWord) (s : State) : Out :=
  s.issueS a w 0x40 (vopOk w) "VOP" (fun h => h.vector w.x.val (h.l.vop w) 0)

/-! ### Loads and stores -/

/-- Elements of a vector load or store, and their bytes. -/
def vecCount (t : Nat) : Nat := if t = 11 then 32 else 64

/-- An address of a vector load or store is a multiple of the element's size in whole bytes (log entry 31). -/
def vecAlign (t : Nat) : Nat := max 1 (elemBits t / 8)

/-- The lanes of loaded elements: FP32 and twin-thread stand as they are, the others become FP32 exactly (R90). -/
def loadLanes (t : Nat) (bs : List Byte) : List (BitVec 32) :=
  if t = 11 then (List.range 32).flatMap (fun j =>
    let c := elemAt 11 bs j
    [BitVec.ofNat 32 c, BitVec.ofNat 32 (c / 2 ^ 32)])
  else (List.range 64).map (fun i =>
    if t = 10 then BitVec.ofNat 32 (elemAt t bs i) else (toF32 (elemValue t (elemAt t bs i))).1)

/-- VLD (R136). -/
def execVld (a : At) (w : SWord) (s : State) : Out :=
  s.issueS a w 0x41 (vldOk w) "VLD" (fun h =>
    let t := w.fn.toNat
    let n := elemBytes t (vecCount t)
    if !h.aligned w (vecAlign t) then h.trap (Trap.seq 0x0327)
    else h.reading (h.place w.y.val) (h.offset w) n (fun addr =>
      h.vector w.x.val ((loadLanes t (h.s.bytesAt (.loom a.loom) addr n)).map (fun v => (v, Flg.none))) 0))

/-- The bytes that a vector register stores as, and their flags (R90). -/
def Loom.storeBytes (l : Loom) (r t : Nat) : List Byte × Flg :=
  let n := vecCount t
  let cs := (List.range n).map (fun i => toElem t .rne (if t = 11 then l.twin r i else ofF32 (l.lane r i)))
  ((cs.zipIdx).foldl (fun bs c => putElem t bs c.2 c.1.1) (List.replicate (elemBytes t n) 0),
   cs.foldl (fun f c => f.or c.2) Flg.none)

/-- VST (R136). -/
def execVst (a : At) (w : SWord) (s : State) : Out :=
  s.issueS a w 0x42 (vstOk w) "VST" (fun h =>
    let t := w.fn.toNat % 16
    let out := h.l.storeBytes w.x.val t
    if !h.aligned w (vecAlign t) then h.trap (Trap.seq 0x0327)
    else h.writing (h.place w.y.val) (h.offset w) out.1.length (fun addr =>
      { h with s := h.s.putAt (.loom a.loom) addr out.1 }.go (h.q.orFlags (bits w.fn.toNat 4 2) out.2)))

/-! ### Reductions -/

/-- The vector fell after every value has entered it (R108). -/
def vfellOf (vs : List Num) : Fell := vs.foldl (fun f v => f.add v) Fell.cleared

/-- The lanes of a reduction, and the vector fell after it, where it uses it. -/
def Loom.vred (l : Loom) (fn y z : Nat) : List (BitVec 32 × Flg) × Option Fell :=
  let pad := fun (rs : List (BitVec 32 × Flg)) => rs ++ List.replicate (64 - rs.length) (0, Flg.none)
  let lanes := List.range 64
  let js := List.range 32
  if fn = 2 then
    (pad [lanes.foldl (fun b i => let r := minLane b.1 (l.lane y i); (r.1, b.2.or r.2)) (l.lane y 0, Flg.none)], none)
  else if fn = 3 then
    (pad [lanes.foldl (fun b i => let r := maxLane b.1 (l.lane y i); (r.1, b.2.or r.2)) (l.lane y 0, Flg.none)], none)
  else
    let f := vfellOf (
      if fn = 0 then lanes.map (fun i => ofF32 (l.lane y i))
      else if fn = 1 then lanes.map (fun i => (ofF32 (l.lane y i)).mul (ofF32 (l.lane z i)))
      else if fn = 4 then js.map (fun j => l.twin y j)
      else js.map (fun j => (l.twin y j).mul (l.twin z j)))
    if fn ≤ 1 then
      let r := toF32 f.value
      (pad [(r.1, r.2.or f.flag)], some f)
    else
      let r := toTwin f.value
      (pad (twinLanes [(r.1, r.2.or f.flag)]), some f)

/-- VRED (R136). -/
def execVred (a : At) (w : SWord) (s : State) : Out :=
  s.issueS a w 0x43 (vredOk w) "VRED" (fun h =>
    let r := h.l.vred w.fn.toNat w.y.val w.z.val
    let h' : Here := { h with s := match r.2 with
      | none => h.s
      | some f => h.s.modLoom a.loom (fun l => { l with vfell := f }) }
    h'.vector w.x.val r.1 0)

/-- VRNG (R91, R136, R243). -/
def execVrng (a : At) (w : SWord) (s : State) : Out :=
  s.issueS a w 0x44 (vrngOk w) "VRNG" (fun h =>
    let key := philoxKey h.k.seed.toNat (h.q.getB w.y.val).toNat
    let step := (h.q.getB w.z.val).toNat
    let site := bits w.imm.toNat 0 16
    let base := bits w.imm.toNat 16 32
    h.vector w.x.val ((List.range 64).map (fun i =>
      (BitVec.ofNat 32 (philoxWord (step % 2 ^ 32) (step / 2 ^ 32) ((base + i / 4) % 2 ^ 32) site key.1 key.2 i), Flg.none))) 0)

end Sys2Proof.Machine
end

