-- ==== Sys2Proof/Machine/Attn.lean ====
section
/-! DEFINITION. Sys2Proof/Machine/Attn.lean: attention tiles through the context engine (11 R216 to R221; 06 R133). -/

namespace Sys2Proof.Machine

open Sys2Proof

/-! ### One query row (R218) -/

/-- The keys, or with `v` the values, of one token of a page, by dimension (R209). -/
def Pool.token (k : Pool) (fz page : Nat) (f : PageFmt) (v : Bool) (t : Nat) : List (List Num) :=
  let row := k.read fz page (f.rowAt v t) f.row
  let scales := k.read fz page (f.scaleAt v t) f.scales
  (List.range f.hd).map (fun d =>
    laneValues f.type (elemAt f.type row d) (if f.scales = 0 then some 0 else scaleExp (scales.getD (d / 32) 0).toNat))

/-- A reduction of paired values in a fell (R80, R145). -/
def dotFell (q k : List (List Num)) : Fell :=
  (q.zip k).foldl (fun f e => e.2.foldl (fun f y => e.1.foldl (fun f x => f.add (x.mul y)) f) f) Fell.cleared

/-- A fell drained to FP32. -/
def Fell.drain32 (f : Fell) : BitVec 32 × Flg :=
  let r := toF32 f.value
  (r.1, r.2.or f.flag)

/-- What one query row gives: the m, l and o of R218, each token's weight, and the flags. -/
structure AttnRow where
  m : BitVec 32
  l : BitVec 32
  o : List (BitVec 32)
  p : List (BitVec 32)
  flags : Flg

/-- One query row against the tokens of the present entries, in position order (R218). -/
def attnRow (q : List (List Num)) (keys values : List (List (List Num))) (hd : Nat) : AttnRow :=
  match keys with
  | [] => { m := 0xFF800000, l := 0, o := List.replicate hd 0, p := [], flags := Flg.none }
  | _ =>
    let s := keys.map (fun k => (dotFell q k).drain32)
    let m := s.foldl (fun b x => let r := maxLane b.1 x.1; (r.1, b.2.or r.2)) (0xFF800000, Flg.none)
    let d := s.map (fun x => toF32 ((ofF32 x.1).add (ofF32 m.1).neg))
    let p := d.map (fun x => vectorFn 0x11 x.1)
    let l := (vfellOf (p.map (fun x => ofF32 x.1))).drain32
    let o := (List.range hd).map (fun i =>
      (dotFell (p.map (fun x => [ofF32 x.1])) (values.map (fun v => v.getD i []))).drain32)
    { m := m.1, l := l.1, o := o.map Prod.fst, p := p.map Prod.fst,
      flags := (((laneFlags s).or m.2).or (laneFlags d)).or ((laneFlags p).or (l.2.or (laneFlags o))) }

/-! ### Attention mass (R219) -/

/-- A sum of quotients as numerator and denominator, none where a term is no number. -/
def addQuotient (t : Option (Int × Nat)) (p l : BitVec 32) : Option (Int × Nat) :=
  match t, ofF32 p, ofF32 l with
  | some (a, b), .fin n m e, .fin n' m' e' =>
    if m' = 0 then none
    else
      let c := sig (n != n') m * 2 ^ (e - e').toNat
      let d := m' * 2 ^ (e' - e).toNat
      some (a * d + c * b, b * d)
  | _, _, _ => none

/-- The attention mass μ of the tokens [lo, lo + n) over the rows (R219). -/
def attnMass (rows : List AttnRow) (lo n : Nat) : BitVec 32 :=
  match rows.foldl (fun t r => ((r.p.drop lo).take n).foldl (fun t p => addQuotient t p r.l) t) (some ((0 : Int), (1 : Nat))) with
  | none => (toF32 .nan).1
  | some (a, b) => (toF32 ((Num.ofInt a 0).div (Num.ofInt (b : Int) 0))).1

/-! ### ATTN -/

/-- Row r of the query descriptor, none where it is masked, and the extents read (R147, R151). -/
def Here.queryRow (h : Here) (t : Tile) (d r : Nat) : Except Trap (Option (List (List Num)) × List (Nat × Nat)) :=
  let k := h.desc d
  let sh := t.shape d
  let n := sh.cols.toNat
  let row := r + k.rowoff
  if sh.rows.toNat ≤ row then .ok (none, [])
  else
    let len := elemBytes k.type n
    match h.consume k.addr (row * k.stride : Nat) len 0x0501 2 with
    | .error e => .error e
    | .ok addr =>
      let data := h.bytes addr len
      if k.group = 0 then
        .ok (some ((List.range n).map (fun i => laneValues k.type (elemAt k.type data i) (some 0))), [(addr, len)])
      else
        let m := ceilDiv n k.group
        match h.consume k.addr (k.scales + row * m : Nat) m 0x0501 2 with
        | .error e => .error e
        | .ok sa =>
          let sc := h.bytes sa m
          .ok (some ((List.range n).map (fun i =>
            laneValues k.type (elemAt k.type data i) (scaleExp (sc.getD (i / k.group) 0).toNat))), [(addr, len), (sa, m)])

/-- The query type pairs with the page type (R216). -/
def queryPairs (f : PageFmt) (type group : Nat) : Bool :=
  if f.type = 9 then type == 9 && group == 0
  else if f.scales ≠ 0 then type == 2 && group == 32
  else (type == 2 || type == 3) && group == 0

/-- The snapshot that an ATTN reads: its tile's, or, where B[X] has changed since the TBEGIN, the table as it stands (log entry
34). The tile holds the snapshots it reads. -/
def Here.attnSnapshot (h : Here) (t : Tile) (v : Word) (layer head : Nat) : Option (Tile × Part × Snapshot) :=
  let same := fun (n : Snapshot) => n.seq == attnSeq v && n.layer == layer && n.head == head && n.first == attnFirst v
    && n.entries.length == attnCount v
  match List.find? same t.snapshots with
  | some n => some (t, h.x, n)
  | none => (h.x.snapshot? v layer head).map (fun n => ({ t with snapshots := t.snapshots ++ [n] }, h.x.holdSnapshot n, n))

/-- The dropped entries of a snapshot are skipped (R220). -/
def Part.skipPages (x : Part) (id n : Nat) : Part :=
  match n, x.pool.seq? id with
  | 0, _ => x
  | _, none => x
  | _, some e => (x.setSeqEntry id { e with skips := satAdd 32 e.skips n }).touchSeq id true

/-- The present entries of a snapshot, with their positions. -/
def Snapshot.present (n : Snapshot) : List (Nat × PageEntry) :=
  ((n.entries.zipIdx).filter (fun e => e.1.state == 1)).map (fun e => (n.first + e.2, e.1))

/-- The attention mass of each present entry, by page-table key, in position order (R219). -/
def Snapshot.masses (n : Snapshot) (table : Nat) (rows : List AttnRow) : List (Nat × BitVec 32) :=
  (n.present.foldl (fun (r : Nat × List (Nat × BitVec 32)) e =>
    (r.1 + e.2.count, r.2 ++ [(tableKey n.seq table e.1, attnMass rows r.1 e.2.count)])) (0, [])).2

/-- The attention tile runs (R218 to R220): every query row is read and computed before a row is written. -/
def Here.attend (h : Here) (w : TWord) (e : SeqEntry) (t : Tile) (x : Part) (n : Snapshot) : State :=
  let f := pageFmt e.format
  let fz := h.k.pools.frame
  let d1 := h.desc w.d1.toNat
  let d2 := h.desc w.d2.toNat
  let r := (t.shape w.d1.toNat).rows.toNat
  let present := n.present
  let blocks := present.flatMap (fun p => rangeFrom (p.2.page * fz / 4096 + 1) (f.size / 4096 - 1))
  match eachOk (fun i => h.queryRow t w.d1.toNat i) (List.range r) with
  | .error e => h.trap e
  | .ok qs =>
    if blocks.any (fun b => x.pool.bad.get b false) then h.trap (Trap.engine 0x0501)
    else if (qs.flatMap (fun q => q.2)).any (fun a => h.x.readHeld h.l h.a a.1 a.2) then h.hold
    else
      let half := fun (v : Bool) => present.flatMap (fun p => (List.range p.2.count).map (fun i => x.pool.token fz p.2.page f v i))
      let keys := half false
      let values := half true
      let inRow := fun (i : Nat) => decide (i + d2.rowoff < (t.shape w.d2.toNat).rows.toNat)
      let rows := (qs.zipIdx).filterMap (fun q => if inRow q.2 then q.1.1.map (fun v => (q.2, attnRow v keys values f.hd)) else none)
      match eachOk (fun (row : Nat × AttnRow) => h.produce d2.addr ((row.1 + d2.rowoff) * d2.stride) (4 * (f.hd + 2))) rows with
      | .error e => h.trap e
      | .ok addrs =>
        if addrs.any (fun a => h.x.writeHeld h.l h.a a (4 * (f.hd + 2))) then h.hold
        else
          let t := { t with scores := t.scores ++ n.masses (n.layer * e.heads + n.head) (rows.map Prod.snd) }
          let q := (h.q.orFlags 0 (rows.foldl (fun g row => g.or row.2.flags) Flg.none)).setCond .ok 0
          let q := if rows.length < r then q.setMasked else q
          let s := h.s.setPart h.p (x.skipPages n.seq (n.entries.filter (fun e => e.state == 2)).length)
          let s := (s.setSeq h.a { q with tile := some t }.next).modLoom h.a.loom (fun l =>
            { l with bank0 := { l.bank0 with ready := false, tag := none }, bank1 := { l.bank1 with ready := false, tag := none } })
          let beats := present.length * rows.length * (2 * ceilDiv f.hd (perBeat d1.type) + 64)
          ((rows.zip addrs).foldl (fun s ra =>
            s.putAt (.loom h.a.loom) ra.2 (([ra.1.2.m, ra.1.2.l] ++ ra.1.2.o).flatMap (fun v => leBytes 4 v.toNat))) s).count
              (.loomBeats h.a.loom) beats

/-- ATTN from its checks on (R216). -/
def Here.doAttn (h : Here) (w : TWord) (t : Tile) : State :=
  let v := h.q.getB w.x.val
  let layer := w.tag.toNat
  let head := w.aux.toNat
  let d1 := h.desc w.d1.toNat
  match h.x.pool.seq? (attnSeq v) with
  | none => h.trap (Trap.engine 0x0401)
  | some e =>
    let f := pageFmt e.format
    let rows := (t.shape w.d1.toNat).rows.toNat
    if e.layers ≤ layer ∨ e.heads ≤ head then h.trap (Trap.engine 0x0401)
    else if bits v.toNat 33 31 ≠ 0 ∨ 16 < attnCount v ∨ !queryPairs f d1.type d1.group
        ∨ (t.shape w.d1.toNat).cols.toNat ≠ f.hd ∨ rows = 0 ∨ 64 < rows ∨ (t.shape w.d2.toNat).cols.toNat < f.hd + 2 then
      h.trap (Trap.engine 0x0402)
    else if h.l.filling 0 || h.l.filling 1 then h.hold
    else match h.attnSnapshot t v layer head with
      | none => h.trap (Trap.engine 0x0401)
      | some (t, x, n) =>
        if n.entries.any (fun e => e.damaged) then h.trap (Trap.engine 0x0403)
        else match (if e.tolerate then none else n.entries.findIdx? (fun e => e.state == 2)) with
          | some i => h.go (h.q.setCond .pageAbsent (n.first + i))
          | none => h.attend w e t x n

/-- ATTN (R133, R216, R218). -/
def execAttn (a : At) (w : TWord) (s : State) : Out :=
  s.issueT a w 0x25 (attnOk w) "ATTN" (fun h =>
    match h.q.tile with
    | none => h.go h.q
    | some t => h.doAttn w t)

end Sys2Proof.Machine
end

