-- ==== Sys2Proof/Machine/Fill.lean ====
section
/-! DEFINITION. Sys2Proof/Machine/Fill.lean: warp fills through the delta expander (05 R99, R100, 14 R275 to R279). -/

namespace Sys2Proof.Machine

open Sys2Proof

/-- DX_LAST, DX_COUNT and the bank's tag after a fault of class 0x02 at a loom's expander (R279, R285). -/
def State.noteDx (s : State) (g : Fin 256) (c : Fin 8) (bank : Fin 2) (code record : Nat) : State :=
  let s := s.setReg (.dxLast g) (BitVec.ofNat 64 (code + record % 2 ^ 32 * 2 ^ 16 + c.val * 2 ^ 48))
  let s := if code = 0x020A then s else s.bump (.dxCount g) Fl.dxCount_DAMAGED 1
  s.modLoom g (fun l => l.setBank bank { l.bank bank with tag := none, ready := false })

/-- A FILL faults at issue with a code of class 0x02. -/
def Here.dxTrap (h : Here) (bank : Fin 2) (code : Nat) : State :=
  { h with s := h.s.noteDx h.a.loom h.a.ctx bank code 0 }.trap (Trap.of code 6)

/-- The open tile computes from a bank (R99, R216). -/
def Seq.usesBank (q : Seq) (b : Fin 2) : Bool :=
  match q.tile with
  | none => false
  | some t => t.attn || (t.warp != 0 && t.bank == b)

/-- Bytes of warp elements, and scale codes, that each channel of a fill contributes (R276). -/
def fillScales (group cols : Nat) : Nat := if group = 0 then 0 else ceilDiv cols group

/-- The FILL joins the expander's queue (R278). -/
def Here.addFill (h : Here) (w : TWord) (bank : Fin 2) (d : Desc) (rows cols z base baseEnd delta deltaEnd : Nat) : State :=
  let f : Fill :=
    { ctx := h.a.ctx, bank := bank, tag := w.tag, tieup := TieUp.ofCode (w.sel.toNat % 4), etype := d.type, group := d.group,
      rows := rows, cols := cols, len := z, stream := w.opt12, base := base, baseEnd := baseEnd, delta := delta,
      deltaEnd := deltaEnd, admitted := false, refused := false,
      heldSince := if h.q.usesBank bank then some h.s.beat else none, slots := [] }
  (h.go h.q).modLoom h.a.loom (fun l => { l with fills := l.fills ++ [f] })

/-- What a FILL's access faults with: outside the carve 0x0307, beyond a guarded window 0x0201 (R112, R154, R275). -/
def Here.fillTrap (h : Here) (bank : Fin 2) (t : Trap) : State :=
  if t.code = 0x0341 then h.dxTrap bank 0x0201 else h.trap t

/-- FILL (R133, R275, R276): layout, then the raw run's window, or the stream's header against its buffer and Z. -/
def execFill (a : At) (w : TWord) (s : State) : Out :=
  s.issueT a w 0x24 (fillOk w) "FILL" (fun h =>
    let bank : Fin 2 := if bit w.sel.toNat 2 then 1 else 0
    let d := h.desc w.d1.toNat
    let rows := (h.q.getB d.rows).toNat
    let cols := (h.q.getB d.cols).toNat
    let z := (h.q.getB w.z.val).toNat
    let elems := elemBytes d.type cols
    let scales := fillScales d.group cols
    let src := h.place w.x.val
    let off := fun (p : Option Place) => match p with | none => 0 | some p => p.off
    if ones (h.q.getB w.z.val) || ones (h.q.getB d.rows) || ones (h.q.getB d.cols) then h.trap (Trap.seq 0x0320)
    else if z ≠ rows * (elems + scales) ∨ (TieUp.ofCode (w.sel.toNat % 4)).channels < rows ∨ 2048 < elems ∨ 128 < scales then
      h.dxTrap bank 0x020A
    else if w.opt12 then
      let st := h.place w.y.val
      match h.k.access h.a st (off st) 192 with
      | .error t => h.fillTrap bank t
      | .ok delta =>
        if h.x.readHeld h.l h.a delta 192 then h.hold
        else match readStreamHead (h.bytes delta 192), st with
          | some hd, some p =>
            if hd.rawTotal ≠ z ∨ p.base + p.len < delta + hd.streamLength then h.dxTrap bank 0x0201
            else if h.x.readHeld h.l h.a delta hd.streamLength then h.hold
            else
              let b := match src with | none => (0, 0) | some q => (q.addr, q.base + q.len)
              if h.x.readHeld h.l h.a b.1 z then h.hold
              else h.addFill w bank d rows cols z b.1 b.2 delta (delta + hd.streamLength)
          | _, _ => h.dxTrap bank 0x0201
    else
      match h.k.access h.a src (off src) z with
      | .error t => h.fillTrap bank t
      | .ok base =>
        if h.x.readHeld h.l h.a base z then h.hold else h.addFill w bank d rows cols z base (base + z) 0 0)

/-- A fill is stopped: it leaves the queue, its use counts are lowered, its bank's tag is invalidated (R100, R277, R279). -/
def Loom.stopFill (l : Loom) (i : Nat) : Loom :=
  match l.fills[i]? with
  | none => l
  | some f =>
    { l.setBank f.bank { l.bank f.bank with tag := none, ready := false } with
      fills := l.fills.eraseIdx i, dx := if f.admitted then lowerUse l.dx f.slots else l.dx }

/-- A fill of the expander is stopped by a fault of class 0x02 (R279, R285). -/
def State.fillFault (s : State) (g : Fin 256) (i : Nat) (code record : Nat) : State :=
  match (s.loom g).fills[i]? with
  | none => s
  | some f => ((s.modLoom g (fun l => l.stopFill i)).noteDx g f.ctx f.bank code record).faultAt { loom := g, ctx := f.ctx } 6 code 0

/-- The fill that the expander may admit: the first not admitted, when fewer than two are, and, after a refused load, when
none is (R277, R278). -/
def Loom.toAdmit (l : Loom) : Option Nat :=
  let n := (l.fills.filter (fun f => f.admitted)).length
  match l.fills.findIdx? (fun f => !f.admitted) with
  | none => none
  | some i =>
    match l.fills[i]? with
    | none => none
    | some f => if decide (n < 2) && (!f.refused || n == 0) then some i else none

/-- FILL_ADMIT (R277, R278). -/
def execFillAdmit (g : Fin 256) (s : State) : Out :=
  let l := s.loom g
  match l.toAdmit with
  | none => .next s
  | some i =>
    match l.fills[i]? with
    | none => .next s
    | some f =>
      let bytes := fun (o n : Nat) => s.bytesAt (.loom g) (f.delta + o) n
      let tables := if f.stream then
          match readStreamHead (bytes 0 192) with
          | none => []
          | some hd => hd.list.map (fun e => bytes e.1 256)
        else []
      if tables.any (fun t => !tableValid t) then .next (s.fillFault g i 0x0202 0)
      else match loadTables l.dx [] 0 tables with
        | .refused d n =>
          let s := s.setLoom g { l with dx := d, fills := l.fills.set i { f with refused := true } }
          .next ((s.bump (.dxCount g) Fl.dxCount_TABLE_LOADS n).bump (.dxCount g) Fl.dxCount_SLOT_WAITS 1)
        | .slots d used n =>
          let s := s.setLoom g { l with dx := raiseUse d used, dxCtx := f.ctx, dxBank := f.bank,
                                        fills := l.fills.set i { f with admitted := true, slots := used } }
          .next (s.bump (.dxCount g) Fl.dxCount_TABLE_LOADS n)

/-- The base block of record i of a stream fill (R269, R275): its bytes, or the code that its read fails with. -/
def State.fillBase (s : State) (k : PartCfg) (g : Fin 256) (f : Fill) (i n : Nat) : Except Nat (List Byte) :=
  let c := k.loomCarve f.ctx g
  let at_ := f.base + 4096 * i
  if c.1 + c.2 < at_ + n then .error 0x0307
  else if f.baseEnd < at_ + n then .error 0x0201
  else if s.anyBad (.loom g) at_ n then .error 0x0208
  else .ok (s.bytesAt (.loom g) at_ n)

/-- The raw bytes a fill writes, and the damage that stops it, if any: its code and record or block (R274, R275, R279). -/
def State.fillBytes (s : State) (k : PartCfg) (g : Fin 256) (f : Fill) : List Byte × Option (Nat × Nat) :=
  if f.stream then
    let bytes := fun (o n : Nat) => s.bytesAt (.loom g) (f.delta + o) n
    match readStreamHead (bytes 0 192) with
    | none => ([], some (0x0201, 0))
    | some hd =>
      let coded := fun kind => if k.holdsProtected f.ctx && (kind == 2 || kind == 3) then some 0x0209 else none
      let r := readRecords bytes hd coded (s.fillBase k g f) (streamLens bytes hd) hd.records hd.recordsOffset 0
      (r.1.flatten, r.2)
  else
    match (List.range (ceilDiv f.len 4096)).find? (fun i => s.anyBad (.loom g) (f.base + 4096 * i) (min 4096 (f.len - 4096 * i))) with
    | some i => ([], some (0x0208, i))
    | none => (s.bytesAt (.loom g) f.base f.len, none)

/-- The fill that the expander serves for a bank: the first in its queue, admitted, its bank free to write (R99). -/
def Loom.serving (l : Loom) (bank : Fin 2) : Option Fill :=
  match l.fills with
  | [] => none
  | f :: _ => if f.admitted && f.bank == bank then some f else none

/-- A fill's raw bytes in the bank: each channel's elements and scale codes in every harness that holds it (R276). -/
def Bank.filled (b : Bank) (f : Fill) (raw : List Byte) : Bank :=
  let elems := elemBytes f.etype f.cols
  let scales := fillScales f.group f.cols
  let heddles := (List.range 256).filter (fun hd => decide (f.tieup.channel hd < f.rows))
  let at_ := fun hd => f.tieup.channel hd * (elems + scales)
  { ready := true,
    tag := some { ctx := f.ctx, tag := f.tag, tieup := f.tieup, etype := f.etype, group := f.group },
    elems := heddles.foldl (fun t hd => putBytes t (hd * 2048) (slice raw (at_ hd) elems)) b.elems,
    scales := heddles.foldl (fun t hd => putBytes t (hd * 128) (slice raw (at_ hd + elems) scales)) b.scales }

/-- A tile that waited for the bank may issue: its wait is counted (R99). -/
def State.endWait (s : State) (g : Fin 256) (bank : Fin 2) : State :=
  match (s.loom g).tileOf (fun _ t => t.warp != 0 && t.bank == bank) with
  | none => s
  | some (c, t) =>
    match t.waiting with
    | none => s
    | some b =>
      (s.modSeq { loom := g, ctx := c } (fun q => { q with tile := some { t with waiting := none } })).bump (.loomStall g)
        Fl.loomStall_BANK_WAIT (s.beat - b)

/-- BANK_READY (R99, R278): the last write of the fill lands. -/
def execBankReady (g : Fin 256) (bank : Fin 2) (s : State) : Out :=
  let l := s.loom g
  match l.serving bank, l.part with
  | some f, some p =>
    match s.part? p with
    | none => .next s
    | some x =>
      if f.heldSince.isSome then .next s
      else match s.fillBytes x.cfg g f with
        | (_, some _) => .next s
        | (raw, none) =>
          let s := s.modLoom g (fun l =>
            { l.setBank bank ((l.bank bank).filled f raw) with fills := l.fills.drop 1, dx := lowerUse l.dx f.slots })
          .next (if (s.loom g).bankReady bank then s.endWait g bank else s)
  | _, _ => .next s

/-- FILL_DAMAGE (R274, R279): the expander meets the damage that the fill it serves holds. -/
def execFillDamage (g : Fin 256) (bank : Fin 2) (s : State) : Out :=
  let l := s.loom g
  match l.serving bank, l.part with
  | some f, some p =>
    match s.part? p with
    | none => .next s
    | some x =>
      match (s.fillBytes x.cfg g f).2 with
      | none => .next s
      | some (code, record) =>
        if code = 0x0307 then .next ((s.modLoom g (fun l => l.stopFill 0)).faultAt { loom := g, ctx := f.ctx } 3 code 0)
        else .next (s.fillFault g 0 code record)
  | _, _ => .next s

end Sys2Proof.Machine
end

