-- ==== Sys2Proof/Machine/Checks.lean ====
section
/-! DEFINITION. Sys2Proof/Machine/Checks.lean: the checks in the loom (05 R101 to R103), the loom's self-test (19 R380, R381) and
its switch between contexts (16 R316 to R318). -/

namespace Sys2Proof.Machine

open Sys2Proof

/-! ### Checks (R101 to R103) -/

/-- The context whose tile is in progress on a loom, or the last that ran one (LOOM_STATUS CONTEXT). -/
def State.loomCtx (s : State) (g : Fin 256) : At :=
  { loom := g, ctx := match (s.loom g).tileOf (fun _ _ => true) with | some (c, _) => c | none => (s.loom g).lastCtx }

/-- RESIDUE_MISMATCH (R101). -/
def execResidueMismatch (g : Fin 256) (harness : Fin 4) (heddle : Fin 64) (fell : Fin 2) (stateCopy : Bool) (s : State) : Out :=
  let r := Reg.loomCheck g
  let s := (((s.bump r Fl.loomCheck_RESIDUE_FAULTS 1).setFld r Fl.loomCheck_LAST_HARNESS harness.val).setFld r
    Fl.loomCheck_LAST_HEDDLE heddle.val).setFld r Fl.loomCheck_LAST_FELL fell.val
  .next (s.loomCheckFails (s.loomCtx g) 2 0x0301
    (harness.val + heddle.val * 2 ^ 2 + fell.val * 2 ^ 8 + (if stateCopy then 2 ^ 9 else 0)))

/-- LOCKSTEP_MISMATCH (R103): the loom stops. -/
def execLockstepMismatch (g : Fin 256) (s : State) : Out :=
  let s := s.setFld (.loomCheck g) Fl.loomCheck_LOCKSTEP 1
  .next ((s.loomCheckFails (s.loomCtx g) 1 0x0302 0).modLoom g (fun l => { l with stopped := true }))

/-- DRAIN_ROUNDER_MISMATCH (R102): it comes in place of the DRAIN whose rounders differ, so no output is written. -/
def execDrainRounderMismatch (g : Fin 256) (s : State) : Out :=
  let s := s.setFld (.loomCheck g) Fl.loomCheck_DRAIN_MISMATCH 1
  .next (s.loomCheckFails (s.loomCtx g) 2 0x0303 0)

/-! ### Switching (R316 to R318) -/

/-- The fills that a switch stops: their banks' tags are invalidated, and each stop counts in REFILLS (R100, R279). -/
def Loom.stopFills (l : Loom) (n : Nat) : Loom :=
  match n with
  | 0 => l
  | k + 1 => (l.stopFill 0).stopFills k

/-- The greatest switch delay that no slice overrun makes (R318). -/
def maxDelay : Nat := 225000

/-- A loom has switched `d` beats after the boundary: SCHED_SWITCH, and a slice overrun if it is late (R318). -/
def State.noteSwitch (s : State) (p : Fin 16) (d : Nat) : State :=
  let r := Reg.schedSwitch p
  let first := s.fld r Fl.schedSwitch_LATE_LOOMS == 0
  let s := s.setFld r Fl.schedSwitch_MAX_DELAY (max (s.fld r Fl.schedSwitch_MAX_DELAY) (min d (2 ^ 32 - 1)))
  let s := s.modPart p (fun x => x.eachDest (fun k => { k with maxDelay := max k.maxDelay (min d (2 ^ 32 - 1)) }))
  if d ≤ maxDelay then s
  else
    let s := s.bump r Fl.schedSwitch_LATE_LOOMS 1
    match s.part? p with
    | none => s
    | some x =>
      let c := x.outgoing.getD 0
      let x := if first then x.modCtx c (fun k => { k with acct := { k.acct with overruns := k.acct.overruns + 1 } }) else x
      let x := x.eachDest (fun k => { k with overrun := true })
      (s.setPart p x).reportFirst (beamUnit 0x21) 0x0A01 p.val (min d (2 ^ 32 - 1) + c.val * 2 ^ 32)

/-- CONTEXT_SWITCH (R316): the loom takes up its partition's entry, at the first moment the rule gives. -/
def execContextSwitch (g : Fin 256) (s : State) : Out :=
  let l := s.loom g
  match l.part with
  | none => .next s
  | some p =>
    match s.part? p with
    | none => .next s
    | some x =>
      if !x.started || !l.switchDue x then .next s
      else
        let n := l.fills.length
        let s := (s.setLoom g { l.stopFills n with entry := x.entry, tileDone := false }).bump (.loomStall g)
          Fl.loomStall_REFILLS n
        .next (s.noteSwitch p s.sinceBoundary)

/-! ### Self-test (R380, R381) -/

/-- SAFE_TEST_g (R381). -/
def State.testResult (s : State) (g : Fin 256) (result : Nat) (pick : Word) : State :=
  (s.setFld (.safeTest g) Fl.safeTest_RESULT result).setFld (.safeTest g) Fl.safeTest_PICK (pick.toNat % 2 ^ 62)

/-- LOOM_SELF_TEST (R380): once the switch to an honoured test entry has completed, one test in the slot. What the march test
leaves in the banks can be read by no tile before a fill, and stands as at reset (log entry 4). -/
def execLoomSelfTest (g : Fin 256) (s : State) : Out :=
  let l := s.loom g
  match l.part with
  | none => .next s
  | some p =>
    match s.part? p with
    | none => .next s
    | some x =>
      let pick := s.pickFor x
      let done := s.fld (.safeTest g) Fl.safeTest_RESULT != 0 && s.fld (.safeTest g) Fl.safeTest_PICK == pick.toNat % 2 ^ 62
      if l.entry != .test || x.entry != .test || l.failed || l.stopped || l.safeStop || l.test.isSome || done then .next s
      else .next (s.setLoom g { l with test := some pick, bank0 := Bank.reset, bank1 := Bank.reset, fells := [], undrained := [],
                                       v := [], vfell := Fell.cleared })

/-- The pick of a test that is still in its slot, or past it. -/
def State.testIn (s : State) (g : Fin 256) (late : Bool) : Option Word :=
  match (s.loom g).test, (s.loom g).part with
  | some n, some p =>
    match s.part? p with
    | none => none
    | some x => if (n != s.pickFor x) == late then some n else none
  | _, _ => none

/-- LOOM_SELF_TEST_END (R381): a loom that fails stops, and its partition goes to the safe state when the record is handled. -/
def execLoomSelfTestEnd (g : Fin 256) (pass : Bool) (block : BitVec 8) (s : State) : Out :=
  match s.testIn g false with
  | none => .next s
  | some n =>
    let s := (s.modLoom g (fun l => { l with test := none, stopped := l.stopped || !pass })).testResult g (if pass then 1 else 2) n
    .next (if pass then s
      else (s.bump .safeCount Fl.safeCount_TESTS_FAILED 1).report (loomUnit g 2) 0x0901 block.toNat)

/-- SELF_TEST_ABANDON (R381): a test that has not finished at the boundary ending its pick. -/
def execSelfTestAbandon (g : Fin 256) (s : State) : Out :=
  match s.testIn g true with
  | none => .next s
  | some n =>
    let s := (s.modLoom g (fun l => { l with test := none })).testResult g 3 n
    .next ((s.bump .safeCount Fl.safeCount_TESTS_ABANDONED 1).report (loomUnit g 2) 0x0908 0)

end Sys2Proof.Machine
end

