-- ==== Sys2Proof/Machine/Safe.lean ====
section
/-! DEFINITION. Sys2Proof/Machine/Safe.lean: the safety controller: monitors (19 R372), the queue of fault records (R373), the fault
window and the safe state (R375 to R378). -/

namespace Sys2Proof.Machine

open Sys2Proof

/-! ### Monitors and duplicated units (R372, R383) -/

/-- The unit that watches a domain; a stack's temperature is reported for its memory controller (log entry 29). -/
def domainUnit (d : Domain) : Nat :=
  match d with
  | .loom g => loomUnit g 5
  | .mill m => millUnit m 0x1C
  | .stack k => stackUnit k
  | .beam => beamUnit 0x2D

def dieUnit (d : DieDomain) : Nat :=
  match d with
  | .mill m => millUnit m 0x1A
  | .beam => beamUnit 0x1A

def dupUnit (e : DupEngine) : Nat :=
  match e with
  | .creel => beamUnit 0x22
  | .network => beamUnit 0x23
  | .scheduler => beamUnit 0x21
  | .context m => millUnit m 0x15
  | .prefetch m => millUnit m 0x18
  | .home m => millUnit m 0x1B

def execClockOutOfTolerance (d : DieDomain) (s : State) : Out := .next (s.report (dieUnit d) 0x0904 0)

/-- SUPPLY_OUT_OF_TOLERANCE (R372): a loom, a mill or the beam die; detail: rail [7:0], reading [39:8] (log entry 29). -/
def execSupplyOutOfTolerance (d : Domain) (rail : BitVec 8) (reading : BitVec 32) (s : State) : Out :=
  match d with
  | .stack _ => .refused (.illFormed "SUPPLY_OUT_OF_TOLERANCE")
  | _ => .next (s.report (domainUnit d) 0x0905 (rail.toNat + reading.toNat * 2 ^ 8))

def execJunctionOverTemperature (d : Domain) (s : State) : Out := .next (s.report (domainUnit d) 0x0906 0)
def execJunctionWarning (d : Domain) (s : State) : Out := .next (s.report (domainUnit d) 0x0907 0)
def execDuplicatedEngineMismatch (e : DupEngine) (s : State) : Out := .next (s.report (dupUnit e) 0x090C 0)
def execSafetyControllerMismatch (s : State) : Out := .next (s.report (beamUnit 0x29) 0x0902 0)

/-- PAGE_STATE_UE (R210): an error in the page-state memory of a partition's pool home. -/
def execPageStateUe (p : Fin 16) (s : State) : Out :=
  match s.part? p with
  | none => .next s
  | some x => .next (s.report (millUnit x.cfg.home 0x1B) 0x0406 (attributionPart p))

/-- QUEUE_STORE_UE (R312): one record for every partition that owns a queue in the failing word. -/
def execQueueStoreUe (owners : List (Fin 16)) (s : State) : Out :=
  .next (owners.foldl (fun s p => if (s.part? p).isSome then s.report (beamUnit 0x21) 0x0A02 (attributionPart p) else s) s)

/-! ### The window (R375) -/

/-- Beats of the bound of the mechanism that reports a code, rounded up (R372, R375). -/
def faultBound (code : Nat) : Nat :=
  if 0x0301 ≤ code ∧ code ≤ 0x0305 ∨ code = 0x0406 ∨ code = 0x090C ∨ code = 0x0A02 then 2273
  else if code = 0x0306 ∨ code = 0x0906 then 452250
  else if code = 0x0603 then 229050
  else if code = 0x0902 then 23
  else if code = 0x0903 then 2250000
  else if code = 0x0904 then 6750
  else if code = 0x0905 then 4500
  else 0

/-- Beats of a pick period, rounded down. -/
def State.periodBeats (s : State) : Nat := s.fld .pickPeriod Fl.pickPeriod_PERIOD_NS * 9 / 4

/-- The pick and beat that lie `n` beats before a beat of a pick; not before pick 0, nor before boot (R375). -/
def windowStart (period : Nat) (pick : Word) (beat n fuel : Nat) : Word × Nat :=
  match fuel with
  | 0 => (pick, beat - n)
  | k + 1 =>
    if n ≤ beat ∨ pick = 0 ∨ pick = BitVec.allOnes 64 ∨ period = 0 then (pick, beat - n)
    else windowStart period (pick - 1) (beat + period) n k

def State.windowOf (s : State) (r : Record) : Word × Nat :=
  windowStart s.periodBeats r.pick r.beat.toNat (faultBound r.code.toNat) 4

/-! ### The safe state (R376 to R378) -/

/-- The reporting unit's kind, mill and loom (R5, R383). -/
def Record.kind (r : Record) : Nat := r.unit.toNat % 0x80
def Record.mill (r : Record) : Fin 8 := Fin.ofNat 8 (r.unit.toNat / 0x1000)
def Record.loom (r : Record) : Fin 256 := Fin.ofNat 256 (r.unit.toNat / 0x1000 % 8 * 32 + r.unit.toNat / 0x80 % 32)
def Record.onBeam (r : Record) : Bool := r.unit.toNat / 0x1000 == 0xF

/-- The partition that a record attributes (R384). -/
def Record.part (r : Record) : Fin 16 := Fin.ofNat 16 (bits r.detail.toNat 123 4)

/-- A partition holds credits on a link. -/
def PartCfg.credited (k : PartCfg) (i : Nat) : Bool := k.credits.any (fun e => e.link == i && decide (0 < e.credits))

/-- The links of a mill (R19). -/
def millLinks (m : Fin 8) : List Nat := (List.finRange 20).map (fun e => (endLink m e).val)

/-- A partition has a carve page, a staged copy or a reserved region on a mill's stacks. -/
def Part.onStacks (x : Part) (m : Fin 8) : Bool := decide (0 < x.cfg.nearBytes m) || decide (0 < x.stagedOn m)

/-- A partition is in the scope of a mill-level fault (R376). -/
def Part.onMill (x : Part) (m : Fin 8) : Bool :=
  x.cfg.mills.contains m || x.onStacks m || (millLinks m).any x.cfg.credited

/-- A code that puts the whole module in the safe state (R385). -/
def moduleCode (code : Nat) : Bool := code == 0x0604 || code == 0x0902 || code == 0x0903

/-- A safe-state fault affects a partition (R376); where a chapter names the partitions itself (R23, R59, R210, R308, R312, R388)
its words hold. -/
def State.affects (s : State) (r : Record) (p : Fin 16) (x : Part) : Bool :=
  let code := r.code.toNat
  let owner := (s.loom r.loom).part
  if moduleCode code then true
  else if code = 0x0406 ∨ code = 0x0A02 then r.part == p
  else if code = 0x090B then r.part == p && bit r.detail.toNat 0
  else if code = 0x0C02 then x.cfg.critical
  else if code = 0x0507 then x.onStacks r.mill
  else if code = 0x0508 then x.cloth.pages.any (fun e => e.2.port == r.kind - 0x24)
  else if code = 0x0603 then
    let i := r.detail.toNat % 128
    if r.onBeam then x.onMill (linkMill (Fin.ofNat 96 i)) else x.cfg.credited i
  else if (0x0301 ≤ code ∧ code ≤ 0x0306) ∨ code = 0x0901 then owner == some p
  else if code = 0x0904 ∨ code = 0x0905 ∨ code = 0x0906 ∨ code = 0x090C then
    if r.onBeam then true
    else if r.kind < 0x10 then owner.isSome && (owner == some p || x.cfg.mills.contains r.mill)
    else x.onMill r.mill
  else false

/-- The open tiles of a partition are poisoned and its looms stop (R375, R377): a poisoned tile ends at once. -/
def State.stopLooms (s : State) (x : Part) : State :=
  x.cfg.looms.foldl (fun s g =>
    let g : Fin 256 := Fin.ofNat 256 g
    let s := (List.finRange 8).foldl (fun s c => s.poison { loom := g, ctx := c }) s
    s.modLoom g (fun l => { l with safeStop := true })) s

/-- A partition's Creel slots pause (R261, R377). -/
def State.pauseSlots (s : State) (p : Fin 16) : State :=
  (List.range 1024).foldl (fun s i =>
    let i : Fin 1024 := Fin.ofNat 1024 i
    let k := s.slot i
    if k.part = some p ∧ k.state = 1 then
      (s.setSlot i { k with state := 2 }).bump (.creelCount i) Fl.creelCount_PAUSES 1
    else s) s

/-- A partition enters the safe state (R377). -/
def State.enterSafe (s : State) (p : Fin 16) (code : BitVec 16) (w : Word × Nat) : State :=
  match s.part? p with
  | none => s
  | some x =>
    if x.safe.isSome || !x.started then s
    else
      let s := (s.bump .safeCount Fl.safeCount_SAFE_ENTRIES 1).setReg (.safeWindow p) w.1
      let s := (s.endRecording p 1).stopLooms x
      let s := s.modPart p (fun x => { x with
        safe := some code, safeReported := false,
        qps := x.qps.map (fun e => (e.1, if e.2.ringLen = 0 then e.2 else { e.2 with error := true })) })
      (s.pauseSlots p).report (beamUnit 0x29) 0x090D
        (code.toNat + min w.2 (2 ^ 32 - 1) * 2 ^ 16 + w.1.toNat * 2 ^ 48 + attributionPart p)

/-- A fault of effect M: the module-safe phase (R385, R412). -/
def State.enterModuleSafe (s : State) : State :=
  let s := { s with safety := { s.safety with moduleSafe := true } }
  if s.fld .moduleState Fl.moduleState_PHASE = 6 then s else s.setFld .moduleState Fl.moduleState_PHASE 5

/-- What the safety controller does about a record (R376, R377). -/
def State.handleRecord (s : State) (r : Record) : State :=
  let s := if moduleCode r.code.toNat then s.enterModuleSafe else s
  (List.finRange 16).foldl (fun t p =>
    match s.part? p with
    | none => t
    | some x => if s.affects r p x then t.enterSafe p r.code (s.windowOf r) else t) s

/-- The log keeps the last 4,096 records, newest first (SAFE_LOG_INDEX), and a notice is owed (R352). -/
def Safety.logged (k : Safety) (r : Record) : Safety :=
  { k with log := (r :: k.log).take 4096, records := k.records + 1, notices := k.notices ++ [r] }

/-- FAULT_RECORD_ARRIVAL (R373): the oldest record on its way reaches the queue of 4,096; one that finds it full is lost, which is
reported with 0x0903 and puts the module in the safe state. -/
def execFaultRecordArrival (s : State) : Out :=
  match s.safety.flight with
  | [] => .next s
  | r :: rest =>
    if s.safety.queue.length < 4096 then
      .next { s with safety := { (s.safety.logged r) with flight := rest, queue := s.safety.queue ++ [r] } }
    else
      let o := s.record (beamUnit 0x29) 0x0903 0
      .next (({ s with safety := { (s.safety.logged o) with flight := rest } } : State).handleRecord o)

/-- FAULT_RECORD_HANDLED (R376). -/
def execFaultRecordHandled (s : State) : Out :=
  match s.safety.queue with
  | [] => .next s
  | r :: rest => .next (({ s with safety := { s.safety with queue := rest } } : State).handleRecord r)

end Sys2Proof.Machine
end

