-- ==== Sys2Proof/Machine/Ethernet.lean ====
section
/-! DEFINITION. Sys2Proof/Machine/Ethernet.lean: frames that are no message of a plane, and the ports themselves (17 R328 to R333, R353):
address resolution, echo, discarded frames, PFC, MACsec and link. -/

namespace Sys2Proof.Machine

open Sys2Proof

/-! ### Address resolution and echo (R330) -/

/-- A frame is taken on a port with link; on a port in required mode without a secure association it is discarded and counted
(R333). -/
def State.frame (s : State) (f : NetFrame) (k : State → State) : Out :=
  if !(s.port f.port).link then .next s
  else if (s.port f.port).macsec = 1 then .next (s.bump (.netPort f.port) Fl.netPort_MACSEC_DROP 1)
  else .next (k (s.sawFrame f.port.val f.vlan.toNat f.src f.srcMac))

/-- An answer goes to the source MAC address of the frame that asked, on its port. -/
def State.answerFrame (s : State) (f : NetFrame) (kind : PktKind) (payload : List Byte) : State :=
  if s.answersFor f.port f.vlan.toNat f.target then
    s.emit { kind := kind, port := f.port.val, vlan := f.vlan.toNat, mac := some f.srcMac, dst := f.src, dstPort := 0, bytes := payload }
  else s

/-- ARP_REQUEST: answered for the device's own IPv4 addresses. -/
def execArpRequest (f : NetFrame) (s : State) : Out :=
  s.frame f (fun s => if f.target.v4 then s.answerFrame f .arp [] else s)

/-- NEIGHBOR_SOLICITATION: answered for the device's own IPv6 addresses. -/
def execNeighborSolicitation (f : NetFrame) (s : State) : Out :=
  s.frame f (fun s => if f.target.v4 then s else s.answerFrame f .nd [])

/-- ICMP_ECHO_REQUEST: the payload comes back. -/
def execIcmpEchoRequest (f : NetFrame) (s : State) : Out := s.frame f (fun s => s.answerFrame f .icmp f.payload)

/-- ADDRESS_RESOLUTION_REPLY: packets that waited for the address leave. -/
def execAddressResolutionReply (f : NetFrame) (s : State) : Out := s.frame f (fun s => s)

/-! ### Discarded frames (R329, R332, R333, R335) -/

/-- DISCARDED_PACKET: discarded, and counted where the spec names a count. -/
def execDiscardedPacket (port : Fin 8) (why : DiscardKind) (s : State) : Out :=
  if !(s.port port).link then .next s
  else .next <| match why with
    | .noAcceptedKind => s.bump .netCount Fl.netCount_BAD_HEADER 1
    | .icrc => s.bump .netRoceCount Fl.netRoceCount_ICRC_FAIL 1
    | .oversized => s.setPort port { s.port port with oversized := (s.port port).oversized + 1 }
    | .unprotected => if (s.port port).macsec = 0 then s else s.bump (.netPort port) Fl.netPort_MACSEC_DROP 1
    | .fecUncorrected => s.bump (.netPort port) Fl.netPort_FEC_UNCORRECTED 1
    | .unsupportedFrame => s
    | .fragment => s

/-! ### Priority-based flow control (R329) -/

/-- PFC is enabled on a port's bank, and its priority (NET_PORT_CFG). -/
def State.pfc (s : State) (port : Fin 8) : Option (Fin 8) :=
  if bankOf port = 0 then
    if s.fld .netPortCfg Fl.netPortCfg_PFC_A = 1 then some (Fin.ofNat 8 (s.fld .netPortCfg Fl.netPortCfg_PRIO_A)) else none
  else if s.fld .netPortCfg Fl.netPortCfg_PFC_B = 1 then some (Fin.ofNat 8 (s.fld .netPortCfg Fl.netPortCfg_PRIO_B)) else none

/-- PFC_FRAME: pauses the bank's priority on the port, or with a time of 0 resumes it; a pause changes only when bytes leave. -/
def execPfcFrame (port : Fin 8) (enabled : BitVec 8) (quanta : Vector (BitVec 16) 8) (s : State) : Out :=
  let k := s.port port
  if !k.link then .next s
  else if k.macsec = 1 then .next (s.bump (.netPort port) Fl.netPort_MACSEC_DROP 1)
  else match s.pfc port with
    | none => .next s
    | some i => .next (if enabled.getLsbD i.val then s.setPort port { k with paused := quanta[i] != 0 } else s)

/-! ### MACsec (R333, R361) -/

/-- Object of the CAKs (R397), and bytes of one port's entry in it: present, CAK, CKN (log entry 37). -/
def cakObject : BitVec 32 := objectOf 8 0
def cakBytes : Nat := 64

/-- The CAK and CKN enrolled for a port. -/
def StoreUnit.cak (k : StoreUnit) (port : Nat) : Option (List Byte) :=
  match k.content cakObject with
  | none => none
  | some bs =>
    let e := slice bs (cakBytes * port) cakBytes
    if e.getD 0 0 = 1 then some (slice e 16 48) else none

/-- The CAK object with one CAK enrolled on the ports of a mask. -/
def StoreUnit.withCak (k : StoreUnit) (ports : Nat) (key : List Byte) : List Byte :=
  (List.range 8).flatMap (fun i =>
    match (if bit ports i then some key else k.cak i) with
    | none => List.replicate cakBytes 0
    | some e => [1] ++ List.replicate 15 0 ++ e)

/-- MKA starts on a port that has link: required mode, not yet secured, where a CAK is enrolled; else MACsec is off. -/
def State.startMka (s : State) (port : Fin 8) : State :=
  let k := s.port port
  if k.link then s.setPort port { k with macsec := if (s.store.cak port.val).isSome then 1 else 0 } else s

/-- MKA_FRAME: the device takes part as a non-key-server; a frame may install a secure association. -/
def execMkaFrame (port : Fin 8) (frame : List Byte) (s : State) : Out :=
  let k := s.port port
  if !k.link || k.macsec == 0 then .next s
  else match s.store.cak port.val with
    | none => .next s
    | some cak =>
      let s := if Config.mkaInstalls cak frame then s.setPort port { k with macsec := 2 } else s
      .next (s.emit { kind := .mka, port := port.val, vlan := 0, mac := none, dst := { v4 := false, value := 0 }, dstPort := 0,
                      bytes := Config.mkaAnswer cak frame })

/-- MACSEC_SA_LOST. -/
def execMacsecSaLost (port : Fin 8) (s : State) : Out :=
  let k := s.port port
  if !k.link || k.macsec != 2 then .next s
  else .next ((s.setPort port { k with macsec := 1 }).report (beamUnit 0x23) 0x0703 port.val)

/-! ### Link (R328) -/

/-- PORT_LINK_LOST: flows move within the bank; with no port of the bank up the bank is lost. -/
def execPortLinkLost (port : Fin 8) (s : State) : Out :=
  if !(s.port port).link then .next s
  else
    let s := s.setPort port { s.port port with link := false, macsec := 0, paused := false }
    let s := s.report (beamUnit 0x23) 0x0701 port.val
    .next (if (s.upPorts (bankOf port)).isEmpty then s.report (beamUnit 0x23) 0x0702 (bankOf port) else s)

/-- PORT_LINK_UP: the port carries flows again; a port whose CAK is enrolled is in required mode from now. -/
def execPortLinkUp (port : Fin 8) (s : State) : Out :=
  if (s.port port).link || s.power.inReset then .next s
  else .next ((s.setPort port { s.port port with link := true }).startMka port)

end Sys2Proof.Machine
end

