-- ==== Sys2Proof/Machine/DraftRead.lean ====
section
/-! DEFINITION. Sys2Proof/Machine/DraftRead.lean: the draft container (02 R34 to R37, R437): its header, directory and sections, what
each field may hold, and the configuration that a partition's sections give. -/

namespace Sys2Proof.Machine

open Sys2Proof

/-! ### Header and directory (R34) -/

/-- A failing field: its refusal code, the directory index of its section (0xFFFF for the header or the trailer), and its byte
offset in the draft (R40). -/
structure Flaw where
  code : Nat
  index : Nat
  off : Nat
  deriving DecidableEq, Repr

def Flaw.header (code off : Nat) : Flaw := { code := code, index := 0xFFFF, off := off }

/-- A little-endian field (R2). -/
def le (bs : List Byte) (off n : Nat) : Nat := leNat (slice bs off n)

/-- A directory entry. -/
structure Entry where
  index : Nat
  type : Nat
  scope : Nat
  ctx : Nat
  off : Nat
  len : Nat
  digest : Nat
  deriving DecidableEq, Repr

/-- Header fields. -/
def draftKind (bs : List Byte) : Nat := le bs 6 1
def draftTarget (bs : List Byte) : Nat := le bs 7 1
def draftTotal (bs : List Byte) : Nat := le bs 8 4
def draftCount (bs : List Byte) : Nat := le bs 0xC 2
def draftGeneration (bs : List Byte) : Nat := le bs 0x10 8
def draftPick (bs : List Byte) : Nat := le bs 0x18 8
def draftDirectory (bs : List Byte) : Nat := le bs 0x40 4
def draftSignature (bs : List Byte) : Nat := le bs 0x44 4
def draftPanel (bs : List Byte) : Bool := draftKind bs == 2

/-- Where entry i of the directory lies. -/
def entryAt (bs : List Byte) (i : Nat) : Nat := draftDirectory bs + 48 * i

/-- The directory. -/
def draftEntries (bs : List Byte) : List Entry :=
  (List.range (draftCount bs)).map (fun i =>
    let e := bs.drop (entryAt bs i)
    { index := i, type := le e 0 2, scope := le e 2 1, ctx := le e 3 1, off := le e 4 4, len := le e 8 4, digest := le e 0x10 32 })

/-- A section's bytes. -/
def Entry.bytes (e : Entry) (bs : List Byte) : List Byte := (bs.drop e.off).take e.len

/-- Section types (R37): those of one record in one section, and those that name a context. -/
def singleType (t : Nat) : Bool := t == 1 || t == 2 || t == 3 || t == 8 || t == 0xB || t == 0xE
def perCtxType (t : Nat) : Bool := t == 3 || t == 4 || t == 6 || t == 7 || t == 0xC || t == 0xD || t == 0xE

/-! ### What a field may hold (R14, R437) -/

/-- A field of a record: its offset and size, the range that its description gives, and whether it is a count, length or size. -/
structure Col where
  off : Nat
  size : Nat
  lo : Nat
  hi : Nat
  count : Bool
  deriving DecidableEq, Repr

def Col.range (off size lo hi : Nat) : Col := { off := off, size := size, lo := lo, hi := hi, count := false }
def Col.counts (off size lo hi : Nat) : Col := { off := off, size := size, lo := lo, hi := hi, count := true }
def Col.number (off size : Nat) : Col := .counts off size 0 (2 ^ (8 * size) - 1)
def Col.zero (off size : Nat) : Col := .range off size 0 0

/-- How a field of a record breaks its description: the code and the field's offset. -/
def Col.breaks (c : Col) (rb : List Byte) : Option (Nat × Nat) :=
  let v := le rb c.off c.size
  if c.count && v == 2 ^ (8 * c.size) - 1 then some (0x0D08, c.off)
  else if v < c.lo ∨ c.hi < v then some (0x0D07, c.off) else none

/-- Size of a record that starts some bytes, with its padding (R37). -/
def recordSize (t : Nat) (rb : List Byte) : Nat :=
  match t with
  | 0x1 => 48
  | 0x2 => 56
  | 0x3 => roundUp (12 + 3 * le rb 3 1) 8
  | 0x4 => 8
  | 0x5 => 8
  | 0x6 => 24
  | 0x7 => 8
  | 0x8 => 24
  | 0x9 => 32
  | 0xA => 32
  | 0xB => 72
  | 0xC => 24
  | 0xD => roundUp (12 + 19 * le rb 10 2 + 16 * le rb 6 4) 8
  | _ => roundUp (3 + 18 * le rb 1 2) 8

/-- The counts that frame a record of variable length. -/
def framingCols (t : Nat) : List Col :=
  match t with
  | 0x3 => [.counts 3 1 0 32]
  | 0xD => [.number 6 4, .number 10 2]
  | 0xE => [.number 1 2]
  | _ => []

/-- The fields of a record (R37), in the order listed, its padding last. -/
def recordCols (t : Nat) (rb : List Byte) : List Col :=
  match t with
  | 0x1 => [.zero 44 4]
  | 0x2 => [.range 32 8 0 3, .counts 48 1 1 8, .zero 49 7]
  | 0x3 =>
    let n := le rb 3 1
    [.range 0 2 1 255, .counts 2 1 0 64, .counts 3 1 0 32]
      ++ (List.range n).flatMap (fun i => [.range (4 + 3 * i) 1 0 7, .counts (5 + 3 * i) 2 1 4096])
      ++ [.number (4 + 3 * n) 4, .number (8 + 3 * n) 4, .zero (12 + 3 * n) (recordSize t rb - (12 + 3 * n))]
  | 0x4 => [.range 0 2 0 255, .range 2 2 0 255, .range 4 1 1 3, .range 5 2 8 255, .zero 7 1]
  | 0x5 => [.range 0 2 0 255, .range 2 1 0 7, .zero 3 5]
  | 0x6 => [.number 8 8, .range 16 1 1 2, .range 18 2 0 7, .zero 20 4]
  | 0x7 => [.range 0 1 0 95, .number 1 2, .zero 4 4]
  | 0x8 => [.counts 0 4 0 65536, .number 4 4, .counts 8 4 0 65536, .number 12 4, .number 16 4, .zero 20 4]
  | 0x9 => [.range 0 2 0 1023, .range 2 1 1 7, .number 3 2, .number 5 2, .number 15 4, .number 19 4, .range 23 1 0 7, .zero 25 7]
  | 0xA => [.range 0 1 1 2, .range 1 1 1 3, .range 2 2 0 4094, .counts 23 2 0 4096, .zero 25 7]
  | 0xB => [.counts 0 1 1 64, .counts 1 2 1 65534, .zero 67 5]
  | 0xC => [.number 2 4, .number 6 4, .number 10 4, .number 14 2, .number 16 2, .zero 18 6]
  | 0xD =>
    let n := le rb 10 2
    let w := le rb 6 4
    [.range 0 2 0 255, .number 6 4, .number 10 2]
      ++ (List.range n).flatMap (fun i => [.number (22 + 19 * i) 8, .range (30 + 19 * i) 1 0 21])
      ++ [.zero (12 + 19 * n + 16 * w) (recordSize t rb - (12 + 19 * n + 16 * w))]
  | _ =>
    let n := le rb 1 2
    [.range 0 1 0 15, .number 1 2] ++ (List.range n).map (fun i => .number (13 + 18 * i) 8)
      ++ [.zero (3 + 18 * n) (recordSize t rb - (3 + 18 * n))]

/-- The codes that R37 and its chapters give beside a range: placements, route tags (R38), address families (R331), plan entries,
operation descriptors (R172). -/
def recordCodes (t : Nat) (rb : List Byte) : Option (Nat × Nat) :=
  match t with
  | 0x6 =>
    let v := le rb 17 1
    if v ≤ 7 ∨ v = 0x40 then none else some (0x0D07, 17)
  | 0x7 =>
    let v := le rb 3 1
    if bits v 4 3 ≠ 0 ∨ (v < 0x80 ∧ bits v 0 4 ≠ 0) then some (0x0D07, 3) else none
  | 0xA =>
    let f := le rb 4 1
    if f ≠ 4 ∧ f ≠ 6 then some (0x0D07, 4)
    else if f = 4 ∧ !allZero (slice rb 9 12) then some (0x0D07, 5) else none
  | 0xB =>
    let l := le rb 0 1
    ((List.range 64).find? (fun i =>
      let v := le rb (3 + i) 1
      !(decide (v ≤ 7) || v == 0x10 || v == 0x20) || (decide (l ≤ i) && v != 0x10))).map (fun i => (0x0D07, 3 + i))
  | 0xC =>
    let v := le rb 0 2
    let kind := bits v 0 3
    let pad := bits v 3 2
    if 2048 ≤ v ∨ pad = 3 ∨ (kind = 0 ∧ v ≠ 0) ∨ (kind = 7 ∧ bits v 5 6 ≠ 0) then some (0x0D07, 0) else none
  | _ => none

/-- How a record breaks the descriptions of its fields. -/
def recordBreaks (t : Nat) (rb : List Byte) : Option (Nat × Nat) :=
  match (recordCols t rb).findSome? (fun c => c.breaks rb) with
  | some b => some b
  | none => recordCodes t rb

/-! ### Framing (step 6 of R40) -/

/-- Offsets of a section's records; else what breaks its framing. -/
def frameRecords (t : Nat) (bs : List Byte) (off fuel : Nat) : Except (Nat × Nat) (List Nat) :=
  match fuel with
  | 0 => .ok []
  | n + 1 =>
    if bs.length ≤ off then .ok []
    else
      let rb := bs.drop off
      match (framingCols t).findSome? (fun c => c.breaks rb) with
      | some b => .error (b.1, off + b.2)
      | none =>
        let k := recordSize t rb
        if bs.length < off + k then .error (0x0D21, off)
        else match frameRecords t bs (off + k) n with
          | .error b => .error b
          | .ok l => .ok (off :: l)

def Entry.frame (e : Entry) (bs : List Byte) : Except (Nat × Nat) (List Nat) := frameRecords e.type (e.bytes bs) 0 (e.len + 1)

/-- A record in its section: its bytes begin the list. -/
structure Row where
  entry : Entry
  off : Nat
  bytes : List Byte
  deriving DecidableEq, Repr

/-- A flaw at a field of a record. -/
def Row.flaw (r : Row) (code field : Nat) : Flaw := { code := code, index := r.entry.index, off := r.entry.off + r.off + field }

/-- The record breaks the description of a field. -/
def Row.breaks (r : Row) : Option Flaw := (recordBreaks r.entry.type r.bytes).map (fun b => r.flaw b.1 b.2)

/-- A field of a record. -/
def Row.num (r : Row) (off n : Nat) : Nat := le r.bytes off n

/-- The records of an entry. -/
def Entry.rows (e : Entry) (bs : List Byte) : List Row :=
  match e.frame bs with
  | .error _ => []
  | .ok l => l.map (fun o => { entry := e, off := o, bytes := (e.bytes bs).drop o })

/-- The records of one type of a scope, in directory and record order. -/
def rowsOf (bs : List Byte) (scope type : Nat) : List Row :=
  ((draftEntries bs).filter (fun e => e.scope == scope && e.type == type)).flatMap (fun e => e.rows bs)

/-- The scopes of a draft's partitions, rising: the directory is sorted by scope. -/
def draftParts (bs : List Byte) : List Nat := (((draftEntries bs).map (fun e => e.scope)).filter (fun p => p < 16)).eraseDups

/-! ### The configuration (R37) -/

/-- The numbers of the bits set in the first n bits. -/
def bitsSet (v n : Nat) : List Nat := (List.range n).filter (fun i => bit v i)

def ctxCfgOf (r : Row) : CtxCfg :=
  let n := r.num 3 1
  { weight := r.num 0 2, sems := r.num 2 1,
    queues := (List.range n).map (fun i => { dest := r.num (4 + 3 * i) 1, depth := r.num (5 + 3 * i) 2 }),
    loomUnits := r.num (4 + 3 * n) 4, millUnits := r.num (8 + 3 * n) 4 }

def treadCfgOf (r : Row) : TreadCfg :=
  let n := r.num 10 2
  let w := r.num 6 4
  { ctx := r.entry.ctx, loom := r.num 0 2, entry := r.num 2 4, words := w,
    buffers := (List.range n).map (fun i =>
      { carve := r.num (12 + 19 * i) 2, off := r.num (14 + 19 * i) 8, len := r.num (22 + 19 * i) 8, align := r.num (30 + 19 * i) 1 }),
    code := slice r.bytes (12 + 19 * n) (16 * w) }

def carveCfgOf (r : Row) : CarveCfg :=
  let f := r.num 18 2
  { ctx := r.entry.ctx, base := r.num 0 8, len := r.num 8 8, far := r.num 16 1 == 2, placement := r.num 17 1,
    prot := bit f 0, compressible := bit f 1, retain := bit f 2 }

/-- The IPv4 or IPv6 address of sixteen bytes in network order (R3, R331). -/
def draftAddr (family : Nat) (bs : List Byte) : Addr :=
  if family = 4 then { v4 := true, value := BitVec.ofNat 128 (beNat (bs.take 4)) }
  else { v4 := false, value := BitVec.ofNat 128 (beNat (bs.take 16)) }

def endpointCfgOf (r : Row) : EndpointCfg :=
  { plane := r.num 0 1, banks := r.num 1 1, vlan := r.num 2 2, addr := draftAddr (r.num 4 1) (slice r.bytes 5 16),
    port := r.num 21 2, qps := r.num 23 2 }

def creelCfgOf (r : Row) : CreelCfg :=
  { slot := r.num 0 2, format := r.num 2 1, width := r.num 3 2, height := r.num 5 2, ringBase := r.num 7 8, ringLen := r.num 15 4,
    jitter := r.num 19 4, ctx := r.num 23 1, queue := r.num 24 1 }

def orderCfgOf (r : Row) : OrderCfg :=
  { ctx := r.entry.ctx, lead := r.num 0 1,
    layers := (List.range (r.num 1 2)).map (fun i =>
      { carve := r.num (3 + 18 * i) 2, off := r.num (5 + 18 * i) 8, len := r.num (13 + 18 * i) 8 }) }

/-- The partition measurement (R36). -/
def draftMeasure (bs : List Byte) (p : Nat) : BitVec 256 :=
  sha256 (((draftEntries bs).filter (fun e => e.scope == p)).flatMap (fun e => slice (bs.drop (entryAt bs e.index)) 0 48))

/-- The configuration of a partition, with a given frame size of its pool (R208). -/
def draftCfg (bs : List Byte) (p frame : Nat) : PartCfg :=
  let rows := fun (t : Nat) => rowsOf bs p t
  let one := fun (t : Nat) => (rows t).headD { entry := { index := 0, type := t, scope := p, ctx := 0, off := 0, len := 0, digest := 0 },
                                               off := 0, bytes := [] }
  let part := one 2
  let pools := one 8
  let plan := one 0xB
  { looms := bitsSet (part.num 0 32) 256, critical := bit (part.num 32 8) 0, maskMode := bit (part.num 32 8) 1,
    seed := BitVec.ofNat 64 (part.num 40 8), nctx := part.num 48 1, ctxs := (rows 3).map ctxCfgOf,
    threads := (rows 4).map (fun r => { ctx := r.entry.ctx, src := r.num 0 2, dst := r.num 2 2, width := 32 * 2 ^ r.num 4 1,
                                        latency := r.num 5 2 }),
    tieups := (rows 5).map (fun r => { loom := r.num 0 2, modes := r.num 2 1 }), carves := (rows 6).map carveCfgOf,
    credits := (rows 7).map (fun r => { ctx := r.entry.ctx, link := r.num 0 1, credits := r.num 1 2, tag := r.num 3 1 }),
    pools := { streams := pools.num 0 4, slots := pools.num 4 4, seqs := pools.num 8 4, pages := pools.num 12 4,
               staging := pools.num 16 4, frame := frame },
    creel := (rows 9).map creelCfgOf, endpoints := (rows 0xA).map endpointCfgOf,
    plan := { len := plan.num 0 1, stride := plan.num 1 2, entries := (List.range 64).map (fun i => plan.num (3 + i) 1) },
    ceilings := (rows 0xC).map (fun r => { ctx := r.entry.ctx, desc := r.num 0 2, m := r.num 2 4, n := r.num 6 4, k := r.num 10 4,
                                           width := r.num 14 2, height := r.num 16 2 }),
    treads := (rows 0xD).map treadCfgOf, orders := (rows 0xE).map orderCfgOf,
    measure := draftMeasure bs p, generation := BitVec.ofNat 64 (draftGeneration bs) }

end Sys2Proof.Machine
end

