-- ==== Sys2Proof/Machine/Checker.lean ====
section
/-! DEFINITION. Sys2Proof/Machine/Checker.lean: step 18 of the loader (02 R40): whether every treadling word decodes (06 R119, R120,
R123, R124; 08 R164), the structure of a treadling (06 R121, R129), and who uses what (06 R138 to R142; 10 R186, R195; 11 R211;
12 R232; 14 R275, R284; 16 R313). -/

namespace Sys2Proof.Machine

open Sys2Proof

/-! ### One word (R119, R120) -/

/-- Fields of a code word. -/
def wOp (n : Nat) : Nat := bits n 0 8
def wX (n : Nat) : Nat := bits n 16 5
def wY (n : Nat) : Nat := bits n 21 5
def wZ (n : Nat) : Nat := bits n 26 5
def wFn (n : Nat) : Nat := bits n 32 16
def wTarget (n : Nat) : Nat := bits n 32 32
def wImm (n : Nat) : Nat := bits n 64 64
def wD1 (n : Nat) : Nat := bits n 32 20
def wD2 (n : Nat) : Nat := bits n 64 20
def wAux (n : Nat) : Nat := bits n 52 12
def wTag (n : Nat) : Nat := bits n 104 16
def wSel (n : Nat) : Nat := bits n 120 8

/-- PRED 0 and PNEG 0: the word always runs; PRED 0 and PNEG 1: it never does. -/
def wAlways (n : Nat) : Bool := bits n 8 4 == 0
def wNever (n : Nat) : Bool := bits n 8 4 == 8

/-- No field of the word carries a reserved code: combinations of valid fields are left to `wordDecodes`. -/
def wordFields (n : Nat) : Bool :=
  let s := SWord.ofCode n
  let j := JWord.ofCode n
  let t := TWord.ofCode n
  let any := fun (w : JWord) => { w with pred := 0, pneg := false : JWord }
  wOp n == 0xF0 || !bit n 31 &&
    if wOp n = 0x00 ∨ wOp n = 0x05 then nopOk s
    else if wOp n = 0x01 then bits n 26 5 == 0 && jmpOk j
    else if wOp n = 0x02 then bits n 26 5 == 0 && bstOk j
    else if wOp n = 0x03 then bits n 26 5 == 0 && loopOk (any j)
    else if wOp n = 0x04 then bits n 26 5 == 0 && endloopOk (any j)
    else if wOp n = 0x10 then moviOk s
    else if wOp n = 0x11 then aluOk s
    else if wOp n = 0x12 then cmpOk (if s.x = 0 then { s with x := 1 } else s)
    else if wOp n = 0x13 then plogicOk (if s.x = 0 then { s with x := 1 } else s)
    else if wOp n = 0x14 then abindOk s
    else if wOp n = 0x15 then aaddOk s
    else if wOp n = 0x16 ∨ wOp n = 0x17 then ldbOk s
    else if wOp n = 0x20 then tbeginOk { t with pred := 0, pneg := false, d2 := if bits t.sel.toNat 3 2 ≠ 0 ∧ t.d2 = 0 then 1 else t.d2 }
    else if wOp n = 0x21 then macOk { t with d1 := 1 }
    else if wOp n = 0x22 then
      if bit t.sel.toNat 2 then drainOk { t with d1 := 1, sel := BitVec.ofNat 8 (setBits t.sel.toNat 2 1 0) }
      else drainOk { t with d1 := 1 }
    else if wOp n = 0x23 then tendOk { t with pred := 0, pneg := false }
    else if wOp n = 0x24 then fillOk { t with d1 := 1 }
    else if wOp n = 0x25 then attnOk { t with d1 := 1, d2 := 1 }
    else if wOp n = 0x30 then decide (wFn n ≤ 4) && moveOk (wFn n) s
    else if wOp n = 0x31 ∨ wOp n = 0x32 then tsendOk s
    else if wOp n = 0x40 then vopOk s
    else if wOp n = 0x41 then vldOk s
    else if wOp n = 0x42 then vstOk s
    else if wOp n = 0x43 then vredOk s
    else if wOp n = 0x44 then vrngOk s
    else if wOp n = 0x50 ∨ wOp n = 0x51 then sigOk s
    else if wOp n = 0x52 then decide (s.x.val < 16) && putOk { s with x := 0 }
    else if wOp n = 0x53 then decide (s.x.val < 16) && takeOk { s with x := 0 }
    else if wOp n = 0x54 then waitspOk s
    else if wOp n = 0x55 then pwaitOk s
    else if wOp n = 0x56 ∨ wOp n = 0x60 ∨ wOp n = 0x65 then doneOk s
    else if wOp n = 0x61 then soutOk s
    else if wOp n = 0x62 then sstepOk (if s.y = 0 then { s with y := 1 } else s)
    else if wOp n = 0x63 then forkOk { s with imm := 0 }
    else if wOp n = 0x64 then pruneOk s
    else if wOp n = 0x66 ∨ wOp n = 0x67 then scatterOk s
    else false

/-- The fields of a word whose fields are each valid go together (R120, R121, R133, R138, R166). -/
def wordDecodes (n : Nat) : Bool :=
  let s := SWord.ofCode n
  let t := TWord.ofCode n
    if wOp n = 0x03 ∨ wOp n = 0x04 then wAlways n
    else if wOp n = 0x12 then cmpOk s
    else if wOp n = 0x13 then plogicOk s
    else if wOp n = 0x20 then tbeginOk t
    else if wOp n = 0x21 then macOk t
    else if wOp n = 0x22 then drainOk t
    else if wOp n = 0x23 then tendOk t
    else if wOp n = 0x24 then fillOk t
    else if wOp n = 0x25 then attnOk t
    else if wOp n = 0x52 then putOk s
    else if wOp n = 0x53 then takeOk s
    else if wOp n = 0x62 then sstepOk s
    else if wOp n = 0x63 then forkOk s
    else true

/-- An all-ones count stands in a word: the count of SIG and SWAIT, the rows of a strided MOVE (R14). -/
def wordOnes (n : Nat) : Bool :=
  let op := wOp n
  ((op == 0x50 || op == 0x51) && wImm n == 2 ^ 64 - 1) || (op == 0x30 && wFn n == 3 && wImm n % 65536 == 65535)

/-- What one word is refused with. -/
def wordFault (n : Nat) : Option Nat :=
  if wordOnes n then some 0x0D08 else if !wordFields n then some 0x0D07 else if !wordDecodes n then some 0x0D15 else none

/-! ### Descriptor words and requantisation records (R123, R124, R164) -/

/-- A descriptor word's refusal. -/
def descFault (n : Nat) : Option Nat :=
  let d := descOf n
  let g := bits n 20 2
  if bits n 8 8 ≠ 0 ∨ 0xC < d.type ∨ bits n 34 14 ≠ 0 ∨ d.rowoff = 65535 then some 0x0D07
  else
    let must0 := d.type == 0 || d.type == 1 || decide (8 ≤ d.type)
    let must1 := decide (4 ≤ d.type) && decide (d.type ≤ 7)
    if (must0 && g != 0) || (must1 && g == 0) || (g == 0 && d.scales != 0) || (d.type == 0xC && d.stride % 8192 != 0) then some 0x0D15
    else none

/-- A requantisation record's refusal. -/
def reqFault (n : Nat) : Option Nat :=
  let mode := bits n 16 2
  if bits n 8 8 ≠ 0 ∨ 1 < mode ∨ bits n 23 9 ≠ 0 then some 0x0D07
  else if (mode = 0 ∧ bits n 18 4 ≠ 0) ∨ (mode = 1 ∧ bits n 32 96 ≠ 0) then some 0x0D15 else none

/-- Two descriptors pair in one reduction (R71, R72, R95). -/
def pairs (a b : Desc) : Bool :=
  let t := fun (x y : Nat) => (a.type == x && b.type == y) || (a.type == y && b.type == x)
  a.group == b.group
    && ((a.type == b.type && decide (a.type ≤ 0xA)) || t 2 3 || t 4 5 || t 0xA 0xB)

/-! ### The flow of control (R121, R129, R131) -/

/-- What holds on every path to a word: the open tile, the open loops with the tile each was opened in, the words that may have
written COND last, and the buffers that each A register may name. -/
structure Flow where
  tile : Option Nat
  loops : List (Nat × Option Nat)
  setters : List Nat
  bufs : List (List Nat)
  deriving DecidableEq, Repr

/-- At the entry word nothing is open and every register is zero (R117). -/
def Flow.entry : Flow := { tile := none, loops := [], setters := [], bufs := List.replicate 16 [0] }

/-- The union of two sets of numbers, in rising order. -/
def unionOf (a b : List Nat) : List Nat := b.foldl (fun l x => if l.contains x then l else (l.filter (fun y => y < x)) ++ [x] ++ l.filter (fun y => x < y)) a

def Flow.join (a b : Flow) : Flow :=
  { a with setters := unionOf a.setters b.setters, bufs := List.zipWith unionOf a.bufs b.bufs }

/-- Where an opcode may stand (R130): T inside a tile only, O outside only. -/
def insideOnly (op : Nat) : Bool := op == 0x21 || op == 0x22 || op == 0x23 || op == 0x25 || (decide (0x40 ≤ op) && decide (op ≤ 0x44))
def outsideOnly (op : Nat) : Bool := op == 0x05 || op == 0x20 || (decide (0x50 ≤ op) && decide (op ≤ 0x56)) || (decide (0x60 ≤ op) && decide (op ≤ 0x67))

/-- Opcodes that write COND (R127, R128). -/
def setsStatus (op : Nat) : Bool := op == 0x20 || op == 0x25 || op == 0x52 || op == 0x53 || op == 0x63 || op == 0x66 || op == 0x67

/-- The buffers that each A register may name after word n. -/
def Flow.bind (f : Flow) (n : Nat) : List (List Nat) :=
  let put := fun (l : List Nat) => f.bufs.set (wX n) l
  let out :=
      if wOp n = 0x10 then if bit n 12 then put [wImm n % 65536] else f.bufs
      else if wOp n = 0x14 then put [wImm n % 65536]
      else if wOp n = 0x15 then put (f.bufs.getD (wY n) [])
      else f.bufs
  if wAlways n then out else if wNever n then f.bufs else List.zipWith unionOf out f.bufs

/-- A tile that a BST on BANK_STALE leaves as never opened (R129, R134): only the open tile's TBEGIN can have written COND. -/
def Flow.staleOf (f : Flow) (n : Nat) : Bool :=
  match f.tile with
  | none => false
  | some t => wOp n == 0x02 && f.setters == [t] && (bit n 12 || wImm n % 256 == 1)

/-- The words that may follow word i, with what holds there; none where the word breaks the structure (R121). -/
def Flow.nexts (f : Flow) (code : Nat → Nat) (i : Nat) : Option (List (Nat × Flow)) :=
  let n := code i
  let op := wOp n
  let t := wTarget n
  let g : Flow := { f with
    setters := if setsStatus op && !wNever n then (if wAlways n then [i] else unionOf f.setters [i]) else f.setters,
    bufs := f.bind n }
  if op = 0xF0 ∨ (insideOnly op ∧ f.tile.isNone) ∨ (outsideOnly op ∧ f.tile.isSome) then none
  else
      if op = 0x01 then some (if wNever n then [(i + 1, g)] else if wAlways n then [(t, g)] else [(t, g), (i + 1, g)])
      else if op = 0x02 then some (if wNever n then [(i + 1, g)] else [(t, if f.staleOf n then { g with tile := none } else g), (i + 1, g)])
      else if op = 0x03 then
        if wOp (code t) ≠ 0x04 ∨ wTarget (code t) ≠ i ∨ 8 ≤ f.loops.length then none
        else some [(i + 1, { g with loops := (i, f.tile) :: f.loops }), (t + 1, g)]
      else if op = 0x04 then
        match f.loops with
        | [] => none
        | l :: rest =>
          if l.1 ≠ t ∨ wTarget (code t) ≠ i ∨ l.2 ≠ f.tile then none else some [(t + 1, g), (i + 1, { g with loops := rest })]
      else if op = 0x05 then some (if wAlways n then [] else [(i + 1, g)])
      else if op = 0x20 then some [(i + 1, { g with tile := some i })]
      else if op = 0x23 then if f.loops.any (fun l => l.2 == f.tile) then none else some [(i + 1, { g with tile := none })]
      else some [(i + 1, g)]

/-- The flow at every word that is reached, by word index, and the first word that breaks the structure. -/
structure Flows where
  at_ : Tab Flow
  bad : Option Nat

def Flow.blank : Flow := { tile := none, loops := [], setters := [], bufs := [] }

/-- One successor is met: its flow joins what is known there, or breaks it. -/
def Flows.meet (fs : Flows × List Nat) (words : Nat) (from_ : Nat) (e : Nat × Flow) : Flows × List Nat :=
  if fs.1.bad.isSome then fs
  else if words ≤ e.1 then ({ fs.1 with bad := some from_ }, fs.2)
  else match fs.1.at_.find? e.1 with
    | none => ({ fs.1 with at_ := fs.1.at_.ins e.1 e.2 }, fs.2 ++ [e.1])
    | some f =>
      if f.tile ≠ e.2.tile ∨ f.loops ≠ e.2.loops then ({ fs.1 with bad := some e.1 }, fs.2)
      else
        let j := f.join e.2
        if j = f then fs else ({ fs.1 with at_ := fs.1.at_.ins e.1 j }, fs.2 ++ [e.1])

/-- Follows every path from the words listed. -/
def Flows.run (fs : Flows) (code : Nat → Nat) (words : Nat) (work : List Nat) (fuel : Nat) : Flows :=
  match fuel, work with
  | 0, _ => fs
  | _, [] => fs
  | k + 1, i :: rest =>
    if fs.bad.isSome then fs
    else match (fs.at_.get i Flow.blank).nexts code i with
      | none => { fs with bad := some i }
      | some l =>
        let out := l.foldl (fun a e => Flows.meet a words i e) (fs, rest)
        out.1.run code words out.2 k

/-- The code word at an index of a treadling, read once. -/
def TreadCfg.table (t : TreadCfg) : List Nat := (List.range t.words).map t.word

/-- The flows of a treadling. -/
def TreadCfg.flows (t : TreadCfg) : Flows :=
  let l := t.table
  if t.words ≤ t.entry ∨ wOp (l.getD t.entry 0) = 0xF0 then { at_ := [], bad := some t.entry }
  else
    let n := t.words + 1
    Flows.run { at_ := [(t.entry, Flow.entry)], bad := none } (fun i => l.getD i 0xF0) t.words [t.entry] (64 * n * n)

/-- Words of open tiles from which every path reaches the TEND: those whose next words are all outside the tile or known to;
ENDLOOP goes on from its end (R121). -/
def closes (fs : Tab Flow) (code : Nat → Nat) (known : List Nat) (fuel : Nat) : List Nat :=
  match fuel with
  | 0 => known
  | k + 1 =>
    let more := fs.filter (fun e => e.2.tile.isSome && !known.contains e.1
      && (match e.2.nexts code e.1 with
          | none => false
          | some l => (if wOp (code e.1) = 4 then l.drop 1 else l).all (fun x => x.2.tile.isNone || known.contains x.1)))
    if more.isEmpty then known else closes fs code (known ++ more.map (fun e => e.1)) k

/-! ### One treadling (R120, R121, R129, R133, R135, R138, R148, R166, R171, R216, R284) -/

/-- A partition's treadling under check. -/
structure Check where
  cfg : PartCfg
  tread : TreadCfg
  code : List Nat
  flows : Tab Flow

def Check.word (c : Check) (i : Nat) : Nat := c.code.getD i 0xF0
def Check.ctx (c : Check) : Fin 8 := Fin.ofNat 8 c.tread.ctx
def Check.ctxCfg (c : Check) : CtxCfg := c.cfg.ctx c.ctx

/-- A D field names a descriptor word that its layout allows; else the refusal and the word it stands in. -/
def Check.desc (c : Check) (i d : Nat) (fault : Nat → Option Nat) : Option (Nat × Nat) :=
  if d = 0 ∨ c.tread.words ≤ d ∨ wOp (c.word d) ≠ 0xF0 then some (0x0D15, i)
  else (fault (c.word d)).map (fun code => (code, d))

/-- The descriptors d to d + n − 1, and what each must be. -/
def Check.descs (c : Check) (i d n : Nat) (ok : Desc → Bool) : Option (Nat × Nat) :=
  (rangeFrom d n).findSome? (fun e =>
    match c.desc i e descFault with
    | some b => some b
    | none => if ok (descOf (c.word e)) then none else some (0x0D15, i))

def refuseIf (b : Bool) (i : Nat) : Option (Nat × Nat) := if b then some (0x0D15, i) else none

/-- Tie-up of a TBEGIN's or FILL's SEL, with its weft streams and its channels per stream (R96, R126). -/
def selStreams (n : Nat) : Nat := 2 ^ (wSel n % 4)
def selChannels (n : Nat) : Nat := 256 / 2 ^ (wSel n % 4)

/-- The shape of a BST on BANK_STALE: a FILL of the TBEGIN's bank, tag, tie-up and warp descriptor, then a JMP to it (R129). -/
def Check.staleShape (c : Check) (f tb : Nat) : Bool :=
  let t := c.word tb
  let n := c.word f
  let j := c.word (f + 1)
  wOp n == 0x24 && wAlways n && wSel n % 8 == wSel t % 8 && wTag n == wTag t && wD1 n == wD1 t
    && wOp j == 0x01 && wAlways j && wTarget j == tb

/-- The shape of a BST on QFULL: a WAITSP on the PUT's queue, then a JMP to it. -/
def Check.fullShape (c : Check) (f put : Nat) : Bool :=
  let n := c.word f
  let j := c.word (f + 1)
  wOp n == 0x54 && wAlways n && wFn n % 32 == wFn (c.word put) % 32 && wOp j == 0x01 && wAlways j && wTarget j == put

/-- A buffer that compression must not touch, and one that no stream may be coded into (R135, R284). -/
def Check.guarded (c : Check) (b : Nat) : Bool :=
  match c.tread.buffers[b]? with
  | none => false
  | some k =>
    if k.carve < 2 then c.cfg.holdsProtected c.ctx
    else match (c.cfg.carvesOf c.ctx)[k.carve - 2]? with | none => false | some v => v.prot
def Check.uncoded (c : Check) (b : Nat) : Bool :=
  match c.tread.buffers[b]? with
  | none => false
  | some k => decide (2 ≤ k.carve) && (match (c.cfg.carvesOf c.ctx)[k.carve - 2]? with | none => false | some v => !v.compressible)

/-- Words of one opcode that are reached in the tile opened at word t. -/
def Check.inTile (c : Check) (t op : Nat) : List Nat :=
  (c.flows.filter (fun e => e.2.tile == some t && wOp (c.word e.1) == op)).map (fun e => e.1)

/-- What one reached word is refused with beside its own fields. -/
def Check.atWord (c : Check) (i : Nat) (f : Flow) : Option (Nat × Nat) :=
  let n := c.word i
  let k := c.ctxCfg
  let tb := match f.tile with | none => 0 | some t => c.word t
    if wOp n = 0x02 then
      let asked := fun (x : Nat) => bit n 12 || wImm n % 256 == x
      let bad := f.setters.any (fun j =>
        (wOp (c.word j) == 0x20 && asked 1 && !c.staleShape (wTarget n) j) || (wOp (c.word j) == 0x52 && asked 2 && !c.fullShape (wTarget n) j))
      refuseIf (bad && !wNever n) i
    else if wOp n = 0x14 then refuseIf (decide (c.tread.buffers.length ≤ wImm n)) i
    else if wOp n = 0x20 then
      (refuseIf (((c.cfg.ceilings.filter (fun e => e.ctx == c.tread.ctx))[wAux n]?).isNone) i
        <|> (if wD1 n = 0 then none else c.descs i (wD1 n) 1 (fun d => d.type != 0xC)))
        <|> (if bits (wSel n) 3 2 = 0 then none else c.descs i (wD2 n) 1 (fun d => d.type == 0xC))
    else if wOp n = 0x21 then
      if wD1 tb = 0 then some (0x0D15, i)
      else c.descs i (wD1 n) (selStreams tb) (fun d => pairs d (descOf (c.word (wD1 tb))))
    else if wOp n = 0x22 then
      let img := bit (wSel n) 2
      let sr := bit (wSel n) 1
      (c.descs i (wD1 n) (if img then 1 else selStreams tb) (fun d =>
          (d.type == 0xC) == img && !(sr && (d.group != 0 || d.type == 0xB)) && decide (d.group ≤ selChannels tb)))
        <|> (if wD2 n = 0 then none else c.desc i (wD2 n) reqFault)
    else if wOp n = 0x24 then
      let outside := fun (reg : Nat) => (f.bufs.getD (reg % 16) []).any (fun b =>
        match c.tread.buffers[b]? with | none => false | some k => k.carve != 0)
      refuseIf (outside (wX n) || (bit n 12 && outside (wY n))) i <|> c.descs i (wD1 n) 1 (fun d => d.type != 0xC)
    else if wOp n = 0x25 then
      (refuseIf (wSel tb % 4 != 0 || wD1 tb != 0) i <|> c.descs i (wD1 n) 1 (fun _ => true)) <|> c.descs i (wD2 n) 1 (fun d => d.type == 0xA)
    else if wOp n = 0x30 then
      let dst := f.bufs.getD (wX n) []
      let src := f.bufs.getD (wY n) []
      refuseIf ((wFn n == 1 || wFn n == 2) && ((dst ++ src).any c.guarded || (wFn n == 1 && dst.any c.uncoded))) i
    else if wOp n = 0x31 ∨ wOp n = 0x32 then
      match (c.cfg.threads.filter (fun t => t.ctx == c.tread.ctx))[wFn n]? with
      | none => some (0x0D07, i)
      | some t => refuseIf ((if wOp n = 0x31 then t.src else t.dst) != c.tread.loom) i
    else if wOp n = 0x50 ∨ wOp n = 0x51 then refuseIf (decide (k.sems ≤ wFn n)) i
    else if wOp n = 0x52 ∨ wOp n = 0x54 then refuseIf (decide (k.queues.length ≤ wFn n)) i
    else if wOp n = 0x53 then
      match (c.cfg.ctxs.getD (wFn n / 32) CtxCfg.none).queues[wFn n % 32]? with
      | none => some (0x0D15, i)
      | some q => refuseIf (q.dest != c.tread.ctx) i
    else if wOp n = 0x62 ∨ wOp n = 0x63 ∨ wOp n = 0x64 ∨ wOp n = 0x65 then refuseIf c.cfg.maskMode i
    else none

/-- Rules of a whole tile: two requantisation records at most, no MAC beside an ATTN (R121, R166). -/
def Check.atTile (c : Check) (t : Nat) : Option (Nat × Nat) :=
  let drains := c.inTile t 0x22
  let recs := ((drains.map (fun i => wD2 (c.word i))).filter (fun d => d != 0)).eraseDups
  let macs := c.inTile t 0x21
  if 2 < recs.length then some (0x0D15, drains.getLast?.getD t)
  else match macs with
    | [] => none
    | i :: _ => refuseIf (!(c.inTile t 0x25).isEmpty) i

/-- The descriptor words that D fields name, and those that D2 of a DRAIN names (R164). -/
def Check.named (c : Check) : List Nat × List Nat :=
  c.flows.foldl (fun acc e =>
    let n := c.word e.1
    let tb := match e.2.tile with | none => 0 | some t => c.word t
      if wOp n = 0x20 then ((if wD1 n = 0 then [] else [wD1 n]) ++ (if bits (wSel n) 3 2 = 0 then [] else [wD2 n]) ++ acc.1, acc.2)
      else if wOp n = 0x21 then (rangeFrom (wD1 n) (selStreams tb) ++ acc.1, acc.2)
      else if wOp n = 0x22 then (rangeFrom (wD1 n) (if bit (wSel n) 2 then 1 else selStreams tb) ++ acc.1, if wD2 n = 0 then acc.2 else wD2 n :: acc.2)
      else if wOp n = 0x24 then (wD1 n :: acc.1, acc.2)
      else if wOp n = 0x25 then (wD1 n :: wD2 n :: acc.1, acc.2)
      else acc) ([], [])

/-- A buffer whose carve index names no carve (R132; log entry 22). -/
def Check.buffers (c : Check) : Bool :=
  c.tread.buffers.any (fun b =>
    match c.cfg.bufferAt 0 { loom := Fin.ofNat 256 c.tread.loom, ctx := c.ctx } b with
    | none => true
    | some _ => false)

/-- A treadling's refusal at step 18: the code and the word. -/
def checkTread (k : PartCfg) (t : TreadCfg) : Option (Nat × Nat) :=
  let l := t.table
  match (l.zipIdx).findSome? (fun e => (wordFault e.1).map (fun code => (code, e.2))) with
  | some b => some b
  | none =>
    let fs := t.flows
    match fs.bad with
    | some i => some (0x0D15, i)
    | none =>
      let c : Check := { cfg := k, tread := t, code := l, flows := fs.at_ }
      let named := c.named
      let open_ := (fs.at_.filter (fun e => e.2.tile.isSome)).map (fun e => e.1)
      let closing := closes fs.at_ c.word [] (t.words + 1)
      (((fs.at_.findSome? (fun e => c.atWord e.1 e.2)
        <|> (fs.at_.filter (fun e => wOp (c.word e.1) == 0x20)).findSome? (fun e => c.atTile e.1))
        <|> (named.1.find? (fun d => named.2.contains d)).map (fun d => (0x0D15, d)))
        <|> (open_.find? (fun i => !closing.contains i)).map (fun i => (0x0D15, i)))
        <|> (if c.buffers then some (0x0D15, t.entry) else none)

/-- A tie-up that a treadling uses and its loom does not permit (R96). -/
def tieupFault (k : PartCfg) (t : TreadCfg) : Option (Nat × Nat) :=
  let ok := (k.tieups.filter (fun e => e.loom == t.loom)).foldl (fun n e => n ||| e.modes) 0
  (List.find? (fun (e : Nat × Flow) =>
    let n := t.word e.1
    (wOp n == 0x20 || wOp n == 0x24) && !bit ok (wSel n % 4)) t.flows.at_).map (fun e => (0x0D0C, e.1))

/-! ### Who uses what, over the treadlings of a partition (R140, R141, R195, R211, R232, R313) -/

/-- A use of a thing: its looms must be one. The thing is named by a kind, an owner and an index. -/
structure Use where
  kind : Nat
  owner : Nat
  index : Nat
  loom : Nat
  ctx : Nat
  word : Nat
  deriving DecidableEq, Repr

/-- The uses of a treadling's reached words: 0 PUT, 1 TAKE, 2 SWAIT, 3 TAKE with a deadline, 4 SSTEP, 5 FORK, PRUNE and JOIN,
6 SCATTER and PGFILL, 7 ATTN by layer and head. -/
def TreadCfg.uses (t : TreadCfg) : List Use :=
  t.flows.at_.flatMap (fun e =>
    let n := t.word e.1
    let use := fun (kind owner index : Nat) => ({ kind := kind, owner := owner, index := index, loom := t.loom, ctx := t.ctx, word := e.1 } : Use)
      if wOp n = 0x52 then [use 0 t.ctx (wFn n)]
      else if wOp n = 0x53 then use 1 (wFn n / 32) (wFn n % 32) :: (if bit n 12 then [use 3 (wFn n / 32) (wFn n % 32)] else [])
      else if wOp n = 0x51 then [use 2 t.ctx (wFn n)]
      else if wOp n = 0x62 then [use 4 t.ctx 0]
      else if wOp n = 0x63 ∨ wOp n = 0x64 ∨ wOp n = 0x65 then [use 5 0 0]
      else if wOp n = 0x66 ∨ wOp n = 0x67 then [use 6 t.ctx 0]
      else if wOp n = 0x25 then [use 7 (wTag n) (wAux n)]
      else [])

/-- A CREEL_SLOTS record names a queue (R313). -/
def PartCfg.creelFed (k : PartCfg) (ctx queue : Nat) : Bool := k.creel.any (fun c => c.ctx == ctx && c.queue == queue)

/-- Another use in the list forbids this one. -/
def Use.clashes (u v : Use) (mask : Bool) : Bool :=
  let same := u.owner == v.owner && u.index == v.index
  let apart := u.loom != v.loom
  let at_ := fun (a b : Nat) => u.kind == a && v.kind == b
  ((at_ 0 0 || at_ 1 1 || at_ 2 2 || at_ 4 4) && same && apart) || (at_ 3 0 && same) || ((at_ 5 5 || at_ 6 5) && apart)
    || (at_ 6 6 && (u.ctx != v.ctx || apart)) || (at_ 6 7 && u.ctx != v.ctx) || (at_ 7 7 && (u.ctx != v.ctx || (same && apart)))
    || ((at_ 6 4 || at_ 5 4) && !mask && u.ctx == v.ctx && apart)

/-- The first use that another forbids, or whose queue is Creel-fed though a PUT names it: its treadling and word. -/
def PartCfg.useFault (k : PartCfg) : Option Use :=
  let us := k.treads.flatMap (fun t => t.uses)
  us.find? (fun u => us.any (fun v => u.clashes v k.maskMode) || (u.kind == 0 && k.creelFed u.owner u.index))

end Sys2Proof.Machine
end

