-- ==== Sys2Proof/Machine/Bounds.lean ====
section
/-! DEFINITION. Sys2Proof/Machine/Bounds.lean: the bounds that the loader gives the B and A registers at every word of a treadling (06
R122, 07 R149, 14 R282): by the MOVI values and the arithmetic that reach them, over every loop bound and branch, and by the
CEILINGS record that a TBEGIN names. The spec states what is bounded and by what; how closely the loader follows the
arithmetic is a reading (log entry 22). -/

namespace Sys2Proof.Machine

open Sys2Proof

/-! ### Spans -/

/-- The values lo, lo + step, … up to hi; a step of 0 is one value. -/
structure Span where
  lo : Nat
  hi : Nat
  step : Nat
  deriving DecidableEq, Repr

def Span.one (n : Nat) : Span := { lo := n, hi := n, step := 0 }
def Span.upTo (n : Nat) : Span := { lo := 0, hi := n, step := if n = 0 then 0 else 1 }

/-- The distance of two numbers. -/
def apart (a b : Nat) : Nat := (a - b) + (b - a)

def Span.join (a b : Span) : Span :=
  { lo := min a.lo b.lo, hi := max a.hi b.hi, step := Nat.gcd (Nat.gcd a.step b.step) (apart a.lo b.lo) }

/-- Every value of a is a value of b. -/
def Span.within (a b : Span) : Bool :=
  decide (b.lo ≤ a.lo) && decide (a.hi ≤ b.hi)
    && (if b.step = 0 then a.step == 0 else a.step % b.step == 0 && apart a.lo b.lo % b.step == 0)

/-- A bound: none for a value that data decides (R149). -/
abbrev Bnd := Option Span

def Bnd.join (a b : Bnd) : Bnd := match a, b with | some x, some y => some (x.join y) | _, _ => none
def Bnd.within (a b : Bnd) : Bool := match a, b with | _, none => true | none, some _ => false | some x, some y => x.within y
def Bnd.hi (a : Bnd) : Option Nat := a.map (fun s => s.hi)

/-- Exact results from lo to hi as 64-bit values (R132). -/
def Span.word (lo hi : Int) (step : Nat) : Span :=
  let m : Int := 2 ^ 64
  if lo / m = hi / m then { lo := (lo % m).toNat, hi := (hi % m).toNat, step := if lo = hi then 0 else step }
  else
    let g := Nat.gcd step (2 ^ 64)
    { lo := (lo % g).toNat, hi := 2 ^ 64 - 1, step := g }

/-- Bits that a number needs. -/
def bitLength (n : Nat) : Nat := if n = 0 then 0 else Nat.log2 n + 1

/-- A function of ALU on bounded values (R132). -/
def Span.alu (fn : Nat) (a b : Span) : Span :=
  let g := Nat.gcd a.step b.step
  if fn = 0 then Span.word (a.lo + b.lo) (a.hi + b.hi) g
  else if fn = 1 then Span.word ((a.lo : Int) - b.hi) ((a.hi : Int) - b.lo) g
  else if fn = 2 then
    Span.word (a.lo * b.lo : Nat) (a.hi * b.hi : Nat) (Nat.gcd (Nat.gcd (a.lo * b.step) (b.lo * a.step)) (a.step * b.step))
  else if fn = 3 then
    let one := a.step == 0 && b.step == 0
    { lo := a.lo / max 1 b.hi, hi := a.hi / max 1 b.lo, step := if one then 0 else 1 }
  else if fn = 4 then
    if 64 ≤ b.hi then Span.upTo (2 ^ 64 - 1)
    else Span.word (a.lo * 2 ^ b.lo : Nat) (a.hi * 2 ^ b.hi : Nat)
      (if b.step = 0 then a.step * 2 ^ b.lo else Nat.gcd a.lo a.step * 2 ^ b.lo)
  else if fn = 5 then
    if 64 ≤ b.hi then Span.upTo (2 ^ 64 - 1)
    else { lo := a.lo / 2 ^ b.hi, hi := a.hi / 2 ^ b.lo, step := if a.step == 0 && b.step == 0 then 0 else 1 }
  else if fn = 6 then
    if a.step = 0 ∧ b.step = 0 then Span.one (a.lo &&& b.lo)
    else
      let masked := fun (x : Span) (c : Nat) =>
        let low := 2 ^ 64 - c
        if c ≠ 0 ∧ low = 2 ^ Nat.log2 low then ({ lo := x.lo / low * low, hi := x.hi / low * low, step := low } : Span)
        else { lo := 0, hi := min x.hi c, step := 1 }
      if b.step = 0 then masked a b.lo else if a.step = 0 then masked b a.lo else { lo := 0, hi := min a.hi b.hi, step := 1 }
  else if fn = 7 ∨ fn = 8 then
    if a.step = 0 ∧ b.step = 0 then Span.one (if fn = 7 then a.lo ||| b.lo else a.lo ^^^ b.lo)
    else { lo := 0, hi := 2 ^ bitLength (max a.hi b.hi) - 1, step := 1 }
  else if fn = 9 then
    if a.hi ≤ b.lo then a else if b.hi ≤ a.lo then b
    else { lo := min a.lo b.lo, hi := min a.hi b.hi, step := Nat.gcd g (apart a.lo b.lo) }
  else
    if a.hi ≤ b.lo then b else if b.hi ≤ a.lo then a
    else { lo := max a.lo b.lo, hi := max a.hi b.hi, step := 1 }

/-- ALU: an unbounded value becomes bounded only through an unsigned minimum (R149). -/
def Bnd.alu (fn : Nat) (a b : Bnd) : Bnd :=
  match a, b with
  | some x, some y => some (Span.alu fn x y)
  | some x, none => if fn = 9 then some (Span.upTo x.hi) else none
  | none, some y => if fn = 9 then some (Span.upTo y.hi) else none
  | none, none => none

/-- The offset of AADD, which a fault keeps from 0 to 2⁴⁸ − 1. -/
def Bnd.advance (off z : Bnd) (m : Int) : Bnd :=
  match off, z with
  | some o, some z =>
    let p := m * z.lo
    let q := m * z.hi
    if 2 ^ 63 ≤ p.natAbs ∨ 2 ^ 63 ≤ q.natAbs then none
    else
      let g := Nat.gcd o.step (z.step * m.natAbs)
      let lo := (o.lo : Int) + min p q
      let hi := (o.hi : Int) + max p q
      let up := if lo < 0 then (if g = 0 then 0 else ceilDiv lo.natAbs g * g - lo.natAbs) else lo.toNat
      let top := min hi.toNat (2 ^ 48 - 1)
      some { lo := min up top, hi := top, step := if up < top then g else 0 }
  | _, _ => none

/-! ### Registers at a word -/

/-- Bounds of the sixteen B registers and of the offsets of the sixteen A registers. -/
structure Env where
  b : List Bnd
  a : List Bnd
  deriving DecidableEq, Repr

/-- At the entry word every register is zero (R117). -/
def Env.entry : Env := { b := List.replicate 16 (some (Span.one 0)), a := List.replicate 16 (some (Span.one 0)) }

def Env.getB (e : Env) (i : Nat) : Bnd := e.b.getD (i % 16) none
def Env.getA (e : Env) (i : Nat) : Bnd := e.a.getD (i % 16) none
def Env.setB (e : Env) (i : Nat) (v : Bnd) : Env := { e with b := e.b.set (i % 16) v }
def Env.setA (e : Env) (i : Nat) (v : Bnd) : Env := { e with a := e.a.set (i % 16) v }

/-- Register by register. -/
def Env.zip (f : Bnd → Bnd → Bnd) (e d : Env) : Env := { b := List.zipWith f e.b d.b, a := List.zipWith f e.a d.a }
def Env.join (e d : Env) : Env := e.zip Bnd.join d
def Env.within (e d : Env) : Bool := (List.zipWith Bnd.within e.b d.b ++ List.zipWith Bnd.within e.a d.a).all id

/-- Registers of d that pass those of e become unbounded. -/
def Env.widen (e d : Env) : Env := e.zip (fun x y => if Bnd.within y x then x else none) d

/-- What a word leaves in the registers when it runs (R132, R138, R142). -/
def Env.run (e : Env) (n : Nat) : Env :=
  let op := wOp n
  let z := if bit n 12 then some (Span.one (wImm n)) else e.getB (wZ n)
    if op = 0x10 then if bit n 12 then e.setA (wX n) (some (Span.one (wImm n / 65536))) else e.setB (wX n) (some (Span.one (wImm n)))
    else if op = 0x11 then e.setB (wX n) (Bnd.alu (wFn n) (e.getB (wY n)) z)
    else if op = 0x14 then e.setA (wX n) (some (Span.one 0))
    else if op = 0x15 then e.setA (wX n) (Bnd.advance (e.getA (wY n)) (e.getB (wZ n)) (sext 64 (wImm n)))
    else if op = 0x16 then e.setB (wX n) none
    else if op = 0x53 then (((e.setB (wX n) none).setB (wX n + 1) none).setB (wX n + 2) none).setB (wX n + 3) none
    else if op = 0x62 ∨ op = 0x63 then e.setB (wZ n) none
    else e

/-- A word that its predicate may skip leaves either. -/
def Env.after (e : Env) (n : Nat) : Env :=
  if wNever n then e else if wAlways n then e.run n else e.join (e.run n)

/-- A value that a ceiling bounds. -/
def Bnd.cap (a : Bnd) (n : Nat) : Bnd :=
  match a with
  | none => some (Span.upTo n)
  | some s => if s.hi ≤ n then a else some { s with lo := min s.lo n, hi := n }

/-- The ceilings of a descriptor's ROWS and COLS by its role (R148). -/
def Role.caps (r : Role) (c : CeilCfg) : Nat × Option Nat :=
  match r with
  | .warp => (c.n, some c.k)
  | .weft => (c.m, some c.k)
  | .out => (c.m, some c.n)
  | .img => (c.m, none)

/-- After a TBEGIN, the registers that its tile's descriptors name hold at most their ceilings (R122, R148). -/
def Env.latch (e : Env) (code : Nat → Nat) (roles : List (Nat × Role)) (c : CeilCfg) : Env :=
  roles.foldl (fun e r =>
    let d := descOf (code r.1)
    let caps := r.2.caps c
    let e := e.setB d.rows ((e.getB d.rows).cap caps.1)
    match caps.2 with
    | none => e
    | some n => e.setB d.cols ((e.getB d.cols).cap n)) e

/-! ### Loops -/

/-- A register that a pass of a loop changes, after n − 1 passes at most, each changing it as the first does. -/
def Bnd.passes (pre post : Bnd) (n : Nat) : Bnd :=
  match pre, post with
  | some p, some q =>
    if q.within p then pre
    else
      let down := (n - 1) * (p.lo - q.lo)
      let hi := p.hi + (n - 1) * (q.hi - p.hi)
      if p.lo < down ∨ 2 ^ 64 ≤ hi then none
      else some { lo := p.lo - down, hi := hi, step := Nat.gcd (Nat.gcd p.step q.step) (apart p.lo q.lo) }
  | _, _ => none

/-- One pass more, from the bounds of n − 1 passes, changes the register no further than the first did. -/
def Bnd.steady (pre post cand last : Bnd) : Bool :=
  match pre, post, cand, last with
  | _, _, none, _ => true
  | some p, some q, some c, some l =>
    l.within { lo := c.lo - (p.lo - q.lo), hi := c.hi + (q.hi - p.hi), step := Nat.gcd c.step (apart p.lo q.lo) }
  | _, _, _, _ => false

def Env.passes (pre post : Env) (n : Nat) : Env :=
  { b := List.zipWith (fun x y => Bnd.passes x y n) pre.b post.b,
    a := (List.zipWith (fun x y => Bnd.passes x y n) pre.a post.a).map (fun x =>
      x.map (fun s => { s with hi := min s.hi (2 ^ 48 - 1) })) }

def Env.steady (pre post cand last : Env) : Bool :=
  let f := fun (l m : List Bnd) (c d : List Bnd) =>
    (List.range 16).all (fun i => Bnd.steady (l.getD i none) (m.getD i none) (c.getD i none) (d.getD i none))
  f pre.b post.b cand.b last.b && f pre.a post.a cand.a last.a

/-- What a run through some words tells: the bounds at each, and those at the ENDLOOP that ends them, if it is reached. -/
structure Pass where
  at_ : Tab Env
  out : Option Env

/-- Passes through a loop until no register passes its bounds: one that a pass changes becomes unbounded. -/
def settle (body : Env → Pass) (reg : Nat) (index : Bnd) (cur : Env) (fuel : Nat) : Pass :=
  match fuel with
  | 0 => body cur
  | k + 1 =>
    let p := body cur
    match p.out with
    | none => p
    | some o =>
      let o := o.setB reg index
      if o.within cur then p else settle body reg index (cur.widen o) k

/-- The bounds of a loop whose words a pass runs through, from those at its LOOP: at its words, and after it. The index is at most
the count less 1 at every word up to its first write (R131). -/
def loopPass (body : Env → Pass) (word : Nat) (e : Env) : Tab Env × Env :=
  let count := e.getB (wX word)
  let reg := wY word
  let index : Bnd := count.map (fun s => Span.upTo (s.hi - 1))
  let start := e.setB reg index
  let leave := fun (p : Pass) => match p.out with
    | none => e
    | some o => match count with
      | some s => if 0 < s.lo then o else e.join o
      | none => e.join o
  if count = some (Span.one 0) then ([], e)
  else
    let p := body start
    match p.out with
    | none => (p.at_, leave p)
    | some o =>
      let o := o.setB reg index
      if o.within start then (p.at_, leave p)
      else
        let far : Option Pass := match count with
          | none => none
          | some s =>
            let cand := start.passes o s.hi
            let q := body cand
            match q.out with
            | none => none
            | some l => if start.steady o cand (l.setB reg index) then some q else none
        let q := far.getD (settle body reg index start 40)
        (q.at_, leave q)

/-- Where a word leads with what bounds, whether it ends the words in hand, and what it tells of the words of a loop. -/
structure Lead where
  nexts : List (Nat × Env)
  out : Option Env
  inner : Tab Env

/-- Bounds in hand, by word, with how often each has grown. -/
structure Walk where
  at_ : Tab Env
  grown : Tab Nat
  out : Option Env

/-- A word is met with bounds: they join those it has; after six times a register that still grows is unbounded. -/
def Walk.meet (w : Walk × List Nat) (e : Nat × Env) : Walk × List Nat :=
  match w.1.at_.find? e.1 with
  | none => ({ w.1 with at_ := w.1.at_.ins e.1 e.2 }, w.2 ++ [e.1])
  | some old =>
    if e.2.within old then w
    else
      let n := w.1.grown.get e.1 0 + 1
      let new := if n ≤ 6 then old.join e.2 else old.widen e.2
      ({ w.1 with at_ := w.1.at_.ins e.1 new, grown := w.1.grown.ins e.1 n }, if w.2.contains e.1 then w.2 else w.2 ++ [e.1])

def Walk.run (lead : Nat → Env → Lead) (w : Walk) (work : List Nat) (fuel : Nat) : Walk :=
  match fuel, work with
  | 0, _ => w
  | _, [] => w
  | k + 1, i :: rest =>
    let l := lead i (w.at_.get i Env.entry)
    let out := match w.out, l.out with | some a, some b => some (a.join b) | none, x => x | x, none => x
    let w := { w with out := out, at_ := l.inner.foldl (fun t e => t.ins e.1 e.2) w.at_ }
    let m := l.nexts.foldl Walk.meet (w, rest)
    m.1.run lead m.2 k

/-- The bounds at the words reached from an entry without leaving the loop it lies in. -/
def Check.bounds (c : Check) (depth : Nat) : Nat → Env → Pass :=
  match depth with
  | 0 => fun _ _ => { at_ := [], out := none }
  | d + 1 => fun entry start =>
    let roles := fun (i : Nat) => c.tread.roles i (TieUp.ofCode (wSel (c.word i) % 4))
    let lead := fun (i : Nat) (e : Env) =>
      let n := c.word i
      if wOp n = 0x03 then
        let r := loopPass (c.bounds d (i + 1)) n e
        ({ nexts := [(wTarget n + 1, r.2)], out := none, inner := r.1 } : Lead)
      else if wOp n = 0x04 then { nexts := [], out := some e, inner := [] }
      else
        let e := if wOp n = 0x20 then e.latch c.word (roles i) (c.cfg.ceiling c.ctx (wAux n)) else e.after n
        { nexts := (((c.flows.get i Flow.blank).nexts c.word i).getD []).map (fun x => (x.1, e)), out := none, inner := [] }
    let w := Walk.run lead { at_ := [(entry, start)], grown := [], out := none } [entry] (400 * (c.tread.words + 1))
    { at_ := w.at_, out := w.out }

/-- The bounds at every word that a treadling reaches. -/
def Check.allBounds (c : Check) : Tab Env := (c.bounds 9 c.tread.entry Env.entry).at_

end Sys2Proof.Machine
end

