-- ==== Sys2Proof/Machine/Routes.lean ====
section
/-! DEFINITION. Sys2Proof/Machine/Routes.lean: the routes of a context's traffic between mills, and the credits on their links (01 R19,
R20; 02 R38), with the planning rates of its paths (15 R304). -/

namespace Sys2Proof.Machine

open Sys2Proof

/-! ### Routes -/

/-- Links of the hop that leaves mill a in a direction: 0 rising, 1 falling (R19). -/
def hopLinks (a dir : Nat) : List Nat := rangeFrom (8 * (if dir = 0 then a % 8 else (a + 7) % 8)) 8

/-- The hops from mill a to mill d in a direction. -/
def hops (a d dir fuel : Nat) : List (List Nat) :=
  match fuel with
  | 0 => []
  | n + 1 => if a = d then [] else hopLinks a dir :: hops ((if dir = 0 then a + 1 else a + 7) % 8) d dir n

/-- The direction of the shorter arc, rising where both have four hops. -/
def shorter (a d : Nat) : Nat := if (d + 8 - a) % 8 ≤ 4 then 0 else 1

/-- CREDITS records of a context; the direction it fixes toward a mill. -/
def PartCfg.creditsOf (k : PartCfg) (c : Nat) : List CreditCfg := k.credits.filter (fun e => e.ctx == c)
def PartCfg.fixed (k : PartCfg) (c d : Nat) : Option Nat :=
  ((k.creditsOf c).find? (fun e => bit e.tag 7 && bits e.tag 0 3 == d)).map (fun e => bits e.tag 3 1)

/-- The route in force of a context between two mills: its hops. -/
def PartCfg.route (k : PartCfg) (c a d : Nat) : List (List Nat) := hops a d ((k.fixed c d).getD (shorter a d)) 8

/-- The mills of a context (R38). -/
def PartCfg.millsOf (k : PartCfg) (c : Nat) : List Nat :=
  (k.mills.map (fun m => m.val)).filter (fun m =>
    k.treads.any (fun t => t.ctx == c && t.loom / 32 == m)
      || k.carves.any (fun v => v.ctx == c && (v.placement == m || v.placement == 0x40)))

/-! ### Planning rates (R304) -/

/-- Links of a hop on which a context holds credits. -/
def PartCfg.creditedOn (k : PartCfg) (c : Nat) (hop : List Nat) : Nat :=
  (hop.filter (fun i => (k.creditsOf c).any (fun e => e.link == i && decide (0 < e.credits)))).length

/-- Hops from mill a to mill d, and the credited links of the hop that has the fewest. -/
def PartCfg.reach (k : PartCfg) (c a d : Nat) : Nat × Nat :=
  let hs := k.route c a d
  (hs.length, (hs.map (k.creditedOn c)).foldl min 8)

/-- Bytes per beat and latency of near frames placed on a mill or spread, from a mill: for a spread carve the mill of the
partition with the most hops, and of those the fewest credited links. -/
def PartCfg.nearRate (k : PartCfg) (c a placement : Nat) : Nat × Nat :=
  let ends := (if placement = 0x40 then k.mills.map (fun m => m.val) else [placement]).map (k.reach c a)
  let far := (ends.map (fun e => e.1)).foldl max 0
  if far = 0 then (1456, 180)
  else (min 1456 (56 * ((ends.filter (fun e => e.1 == far)).map (fun e => e.2)).foldl min 8), 180 + 40 * far)

/-- Bytes per beat and latency of the storage of a buffer, from a loom. -/
def PartCfg.rate (k : PartCfg) (t : TreadCfg) (b : BufCfg) : Nat × Nat :=
  if b.carve = 0 then (128, 16)
  else if b.carve = 1 then (512, 16)
  else match (k.carvesOf (Fin.ofNat 8 t.ctx))[b.carve - 2]? with
    | none => (48, 1100)
    | some v => if v.far then (48, 1100) else k.nearRate t.ctx (t.loom / 32) v.placement

/-- Beats of n bytes at one end of a path; an end that no link of the context reaches takes them never. -/
def pathBeats (n : Nat) (r : Nat × Nat) : Nat := r.2 + (if r.1 = 0 then 2 ^ 32 else ceilDiv n r.1)

end Sys2Proof.Machine
end

