-- ==== Sys2Proof/Machine/Lengths.lean ====
section
/-! DEFINITION. Sys2Proof/Machine/Lengths.lean: the static length of a tile (06 R122, step 19 of 02 R40), in beats from its TBEGIN,
which is beat 0: the sequencer and its issue queue (R118), the harnesses and the drain port (05 R97, R98), the preload (07
R160), channel tables (08 R167), vector results (05 R106), MOVEs and threads at their planning rates (15 R304, 07 R157), and
pages (11 R221). -/

namespace Sys2Proof.Machine

open Sys2Proof

/-- The largest static length (R122). -/
def maxTile : Nat := 225000

/-! ### Clocks -/

/-- The beats that decide when the next instruction of a tile can do what: the sequencer's next issue, the first beat in which
the harnesses are free, no first issue before it, the last issue into either fell, the first beat in which the drain port is
free, the last landing, the beats in which the entries of the issue queue leave it, and the vector unit and its results. -/
structure Clocks where
  seq : Nat
  free : Nat
  first : Nat
  last : Nat × Nat
  port : Nat
  land : Nat
  queue : List Nat
  vfree : Nat
  vready : List Nat
  deriving DecidableEq, Repr

/-- Pointwise later, the newest entries of two queues side by side. -/
def laterQueue (a b : List Nat) : List Nat :=
  let n := max a.length b.length
  let pad := fun (l : List Nat) => List.replicate (n - l.length) 0 ++ l
  List.zipWith max (pad a) (pad b)

/-- Under a branch whose arm is not known, every clock takes the later arm's. -/
def Clocks.join (a b : Clocks) : Clocks :=
  { seq := max a.seq b.seq, free := max a.free b.free, first := max a.first b.first,
    last := (max a.last.1 b.last.1, max a.last.2 b.last.2), port := max a.port b.port, land := max a.land b.land,
    queue := laterQueue a.queue b.queue, vfree := max a.vfree b.vfree, vready := List.zipWith max a.vready b.vready }

/-- The beat in which an instruction that enters the queue issues: it has eight entries (R118). -/
def Clocks.room (k : Clocks) : Nat :=
  let waiting := k.queue.filter (fun e => decide (k.seq < e))
  if waiting.length < 8 then k.seq else waiting.getD (waiting.length - 8) k.seq

/-- It enters in beat b and leaves, in program order, in beat e or later. -/
def Clocks.enter (k : Clocks) (b e : Nat) : Clocks :=
  let q := k.queue.filter (fun e => decide (b < e))
  { k with seq := b + 1, queue := q ++ [max e (q.getLast?.getD 0)] }

/-! ### Instructions -/

/-- Lanes per beat and latency of a VOP function (R106, R137). -/
def vopTimes (fn : Nat) : Nat × Nat :=
  if fn = 0x0D ∨ fn = 0x0E then (16, 16)
  else if fn = 0x0F ∨ fn = 0x10 then (64, 10)
  else if 0x11 ≤ fn ∧ fn ≤ 0x14 then (64, 12)
  else if 0x15 ≤ fn ∧ fn ≤ 0x19 then (64, 14)
  else if 0x20 ≤ fn ∧ fn ≤ 0x23 then (32, 8)
  else if 0x30 ≤ fn ∧ fn ≤ 0x37 then (64, 2)
  else (64, 4)

/-- The same of a VRED function. -/
def vredTimes (fn : Nat) : Nat × Nat := if fn = 2 ∨ fn = 3 then (64, 8) else (64, 10)

/-- A vector instruction issues once the registers it reads have their results (R118). -/
def Clocks.vector (k : Clocks) (reads : List Nat) (write : Option Nat) (t : Nat × Nat) : Clocks :=
  let b := reads.foldl (fun b r => max b (k.vready.getD r 0)) (max k.seq k.vfree)
  let busy := ceilDiv 64 t.1
  { k with seq := b + 1, vfree := b + busy,
           vready := match write with | none => k.vready | some x => k.vready.set x (b + busy - 1 + t.2) }

/-- A tile and what its words are counted with. -/
structure Timed where
  chk : Check
  envs : Tab Env
  tb : Nat

def Timed.env (t : Timed) (i : Nat) : Env := t.envs.get i Env.entry
def Timed.bufs (t : Timed) (i reg : Nat) : List BufCfg :=
  ((t.chk.flows.get i Flow.blank).bufs.getD (reg % 16) []).filterMap (fun b => t.chk.tread.buffers[b]?)

/-- Beats of a length at the slowest buffer that an A register may name. -/
def Timed.beatsAt (t : Timed) (i reg n : Nat) : Nat :=
  ((t.bufs i reg).map (fun b => pathBeats n (t.chk.cfg.rate t.chk.tread b))).foldl max 0

/-- MAC: ⌈kₗ ÷ e⌉ issue beats, kₗ at most the bank's capacity (R133). -/
def Timed.mac (t : Timed) (i : Nat) (k : Clocks) : Clocks :=
  let n := t.chk.word i
  let warp := descOf (t.chk.word (wD1 (t.chk.word t.tb)))
  let cap := bankCapacity warp.type
  let kl := min cap (((t.env i).getB (wZ n)).hi.getD cap)
  let beats := ceilDiv kl (min (perBeat (descOf (t.chk.word (wD1 n))).type) (perBeat warp.type))
  let b := k.room
  let start := max (b + 1) (max k.free k.first)
  let k := k.enter b start
  if beats = 0 then k
  else
    let e := start + beats - 1
    { k with free := e + 1, last := if bit (wSel n) 0 then (k.last.1, e) else (e, k.last.2), land := max k.land (e + 7) }

/-- DRAIN: from the beat after the fell's last update; a beat at the port for each KiB (R98). -/
def Timed.drain (t : Timed) (i : Nat) (k : Clocks) : Clocks :=
  let n := t.chk.word i
  let m := TieUp.ofCode (wSel (t.chk.word t.tb) % 4)
  let rows := if bit (wSel n) 2 then 8
    else max 1 (ceilDiv (m.streams * elemBytes (descOf (t.chk.word (wD1 n))).type m.channels) 1024)
  let b := k.room
  let start := max (b + 1) ((if bit (wSel n) 0 then k.last.2 else k.last.1) + 7)
  let write := max (start + 3) k.port
  let k := k.enter b start
  { k with port := write + rows, land := max k.land (write + rows - 1) }

/-- ATTN: c pages one after another (R221). -/
def Timed.attn (t : Timed) (i : Nat) (k : Clocks) : Clocks :=
  let n := t.chk.word i
  let d := descOf (t.chk.word (wD1 n))
  let ceil := t.chk.cfg.ceiling t.chk.ctx (wAux (t.chk.word t.tb))
  let hd := ceil.k
  let r := min 64 (min ceil.m (((t.env t.tb).getB d.rows).hi.getD 64))
  let c := match ((t.env i).getB (wX n)).hi with
    | none => 16
    | some v => if 2 ^ 33 ≤ v then 16 else min 16 (v / 2 ^ 28)
  let fk := 256 * hd * (if d.type = 9 then 2 else 1) / 128 + (if d.group = 0 then 0 else 256 * hd / 32 / 128)
  let beats := c * (2 * (fk + r * hd / perBeat d.type) + 8 * hd + 64 * r + 4 * r)
  let b := k.room
  let start := max (max 16 (b + 1)) k.free
  let k := k.enter b start
  { k with free := start + beats, land := max k.land (start + beats + 9) }

/-- MOVE: it lands its path's latency and ⌈bytes ÷ rate⌉ beats after it leaves the queue, at the slower end (R304). -/
def Timed.move (t : Timed) (i : Nat) (k : Clocks) : Clocks :=
  let n := t.chk.word i
  let len := (((t.env i).getB (wZ n)).hi.getD 0) * (if wFn n = 3 then wImm n % 65536 else 1)
  let b := k.room
  let k := k.enter b (b + 1)
  let go := k.queue.getLast?.getD b
  let beats := max (t.beatsAt i (wX n) len) (if wFn n = 4 then 0 else t.beatsAt i (wY n) len)
  { k with land := max k.land (go + beats) }

/-- TSEND and TRECV: the last byte lands λ + ⌈L ÷ min(w, 128)⌉ beats after the issue (R122, R157). -/
def Timed.thread (t : Timed) (i : Nat) (k : Clocks) : Clocks :=
  let n := t.chk.word i
  let len := ((t.env i).getB (wZ n)).hi.getD 0
  match (t.chk.cfg.threads.filter (fun e => e.ctx == t.chk.tread.ctx))[wFn n]? with
  | none => { k with seq := k.seq + 1 }
  | some e => { k with seq := k.seq + 1, land := max k.land (k.seq + pathBeats len (min e.width 128, e.latency)) }

/-- One word that is no LOOP, ENDLOOP or TEND. A word that its predicate skips takes one beat. -/
def Timed.word (t : Timed) (i : Nat) (k : Clocks) : Clocks :=
  let n := t.chk.word i
  let op := wOp n
    if wNever n then { k with seq := k.seq + 1 }
    else if op = 0x21 then t.mac i k
    else if op = 0x22 then t.drain i k
    else if op = 0x24 then let b := k.room; k.enter b (b + 1)
    else if op = 0x25 then t.attn i k
    else if op = 0x30 then t.move i k
    else if op = 0x31 ∨ op = 0x32 then t.thread i k
    else if op = 0x40 then
      let third := if vopTernary (wFn n) then [wImm n % 32] else []
      let second := if vopUnary (wFn n) then [] else [wZ n]
      k.vector ([wY n] ++ second ++ third) (some (wX n)) (vopTimes (wFn n))
    else if op = 0x42 then k.vector [wX n] none (64, 1)
    else if op = 0x43 then k.vector ([wY n] ++ (if wFn n = 1 ∨ wFn n = 5 then [wZ n] else [])) (some (wX n)) (vredTimes (wFn n))
    else { k with seq := k.seq + 1 }

/-! ### Paths -/

/-- Clocks as they stand at words, and where the words in hand ended: at the ENDLOOP of their loop, or at the TEND. -/
structure Timing where
  at_ : Tab Clocks
  back : Option Clocks
  done : Option Nat

def Timing.meet (w : Timing) (i : Nat) (k : Clocks) : Timing :=
  { w with at_ := w.at_.ins i (match w.at_.find? i with | none => k | some o => o.join k) }

/-- The passes of a loop, one after another; a tile that is too long already is followed no further. -/
def passes (body : Clocks → Option Clocks) (n : Nat) (k : Clocks) : Clocks :=
  match n with
  | 0 => k
  | m + 1 =>
    if maxTile < k.seq ∨ maxTile < k.free ∨ maxTile < k.land then k
    else match body k with
      | none => k
      | some k => passes body m k

/-- The words of a tile whose open loops are `loops`, from one of them, in an order in which every word follows those that lead to it. -/
def Timed.follow (t : Timed) (order : List Nat) (depth : Nat) : (loops : List (Nat × Option Nat)) → Nat → Clocks → Timing :=
  match depth with
  | 0 => fun _ _ _ => { at_ := [], back := none, done := none }
  | d + 1 => fun loops entry k =>
    order.foldl (fun w i =>
      let f := t.chk.flows.get i Flow.blank
      match w.at_.find? i with
      | none => w
      | some k =>
        if f.loops ≠ loops ∨ f.tile ≠ some t.tb then w
        else
          let n := t.chk.word i
          let tick := { k with seq := k.seq + 1 }
          if wOp n = 0x03 then
            let count := ((t.env i).getB (wX n)).hi.getD 0
            let body := fun k => (t.follow order d ((i, f.tile) :: loops) (i + 1) k).back
            w.meet (wTarget n + 1) (passes body count tick)
          else if wOp n = 0x04 then { w with back := some (match w.back with | none => tick | some o => o.join tick) }
          else if wOp n = 0x23 then { w with done := some (max (w.done.getD 0) (max k.seq k.land)) }
          else
            let k := t.word i k
            ((f.nexts t.chk.word i).getD []).foldl (fun w x => w.meet x.1 k) w) { at_ := [(entry, k)], back := none, done := none }

/-- The static length of the tile that word tb opens: its beats from TBEGIN to the completion of its TEND. -/
def Timed.length (t : Timed) (order : List Nat) : Nat :=
  let n := t.chk.word t.tb
  let m := TieUp.ofCode (wSel n % 4)
  let tables := ((t.chk.tread.records t.tb).filter (fun d => (reqRecOf (t.chk.word d)).perChannel)).length
  let reads := 256 * ((if bit (wSel n) 3 then 1 else 0) + (if bit (wSel n) 4 then 1 else 0)) + tables * (32 * (16 * m.channels) / 1024)
  let k : Clocks := { seq := 1, free := 0, first := reads, last := (0, 0), port := 0, land := reads, queue := [], vfree := 0,
                      vready := List.replicate 32 0 }
  match (t.follow order 10 ((t.chk.flows.get t.tb Flow.blank).loops) (t.tb + 1) k).done with
  | none => 0
  | some e => e + 1

/-! ### Steps 18 and 19 -/

/-- A treadling's reached words, ready for the checks that follow the structure. -/
def PartCfg.check (k : PartCfg) (t : TreadCfg) : Check := { cfg := k, tread := t, code := t.table, flows := t.flows.at_ }

/-- A loop of a tile whose count cannot be bounded, or a MOVE, TSEND or TRECV of a tile whose length cannot: it does not decode
(R122). -/
def lengthFault (k : PartCfg) (t : TreadCfg) : Option (Nat × Nat) :=
  let c := k.check t
  let envs := c.allBounds
  (List.find? (fun (e : Nat × Flow) =>
    let n := c.word e.1
    let b := envs.get e.1 Env.entry
    e.2.tile.isSome && !wNever n
      && ((wOp n == 0x03 && (b.getB (wX n)).isNone) || (decide (0x30 ≤ wOp n) && decide (wOp n ≤ 0x32) && (b.getB (wZ n)).isNone))) c.flows).map
    (fun e => (0x0D15, e.1))

/-- The first tile of a treadling that is too long (0x0D16), by its TBEGIN. -/
def tooLong (k : PartCfg) (t : TreadCfg) : Option (Nat × Nat) :=
  let c := k.check t
  let envs := c.allBounds
  let order := (closes c.flows c.word [] (t.words + 1)).reverse
  (List.find? (fun (e : Nat × Flow) => wOp (c.word e.1) == 0x20
    && decide (maxTile < ({ chk := c, envs := envs, tb := e.1 } : Timed).length order)) c.flows).map (fun e => (0x0D16, e.1))

end Sys2Proof.Machine
end

