-- ==== Sys2Proof/Machine/Mapping.lean ====
section
/-! DEFINITION. Sys2Proof/Machine/Mapping.lean: mapping verification of a single-mill partition (02 R42, R436; 07 R149; 14 R282): every
set of addresses that an instruction can touch lies in its buffer, for every loop bound and every shape up to its ceiling. -/

namespace Sys2Proof.Machine

open Sys2Proof

/-- One word under verification: its bounds and the buffers its A registers may name. -/
structure Mapped where
  chk : Check
  env : Env
  flow : Flow
  word : Nat

def Mapped.bufs (m : Mapped) (reg : Nat) : List Nat := m.flow.bufs.getD (reg % 16) []

/-- Every access of n bytes at `off` past an A register lies in its buffer's window; with `loom` the buffer must be one of the
loom store. An address formed from an unbounded value does not (R149). -/
def Mapped.fits (m : Mapped) (reg : Nat) (off : Int) (n : Option Nat) (loom : Bool) : Bool :=
  match m.env.getA reg, n with
  | some s, some n =>
    n == 0 || (m.bufs reg).all (fun b =>
      match m.chk.tread.buffers[b]? with
      | none => false
      | some k => (!loom || k.carve == 0) && decide (0 ≤ (s.lo : Int) + off) && decide ((s.hi : Int) + off + n ≤ k.len))
  | _, _ => false

/-- Every address an A register presents is a multiple of a power of two (R282). -/
def Mapped.aligned (m : Mapped) (reg unit : Nat) : Bool :=
  match m.env.getA reg with
  | none => false
  | some s => s.step % unit == 0 && (m.bufs reg).all (fun b =>
      match m.chk.tread.buffers[b]? with
      | none => false
      | some k =>
        match m.chk.cfg.bufferAt 0 { loom := Fin.ofNat 256 m.chk.tread.loom, ctx := m.chk.ctx } k with
        | none => false
        | some (_, base) => (base + s.lo) % unit == 0)

/-- Rows 0 to `rows` − 1, and elements 0 to `cols` − 1 of each, of a descriptor's tensor with COLS of at most `width` (R125). -/
def Mapped.tensor (m : Mapped) (d : Desc) (rows cols width : Nat) : Bool :=
  rows == 0 || cols == 0
    || (m.fits d.addr 0 (some ((rows - 1) * d.stride + (span d.type 0 cols).2.2)) true
        && (d.group == 0 || m.fits d.addr d.scales (some ((rows - 1) * ceilDiv width d.group + ceilDiv cols d.group)) true))

/-- Rows that a row index reaches: none beyond the ceiling (R149). -/
def Mapped.rows (m : Mapped) (reg : Nat) (d : Desc) (ceil : Nat) : Nat :=
  match (m.env.getB reg).hi with
  | none => ceil
  | some r => min ceil (r + d.rowoff + 1)

/-- A word's addresses, lengths and counts are those of its buffers. -/
def Mapped.ok (m : Mapped) : Bool :=
  let n := m.word
  let op := wOp n
  let e := m.env
  let code := m.chk.word
  let tbWord := match m.flow.tile with | none => n | some t => code t
  let ceil := m.chk.cfg.ceiling m.chk.ctx (wAux tbWord)
  let tie := TieUp.ofCode (wSel tbWord % 4)
  let len := (e.getB (wZ n)).hi
    if wNever n then true
    else if op = 0x03 then (e.getB (wX n)).isSome
    else if op = 0x16 ∨ op = 0x17 then m.fits (wY n) (sext 64 (wImm n)) (some 8) true
    else if op = 0x20 then
      !(bit (wSel n) 3 || bit (wSel n) 4)
        || m.fits (descOf (code (wD2 n))).addr (if bit (wSel n) 3 then 0 else 8192)
             (some (if bit (wSel n) 3 && bit (wSel n) 4 then 16384 else 8192)) true
    else if op = 0x21 then
      let kl := match (e.getB (wY n)).hi, len with | some a, some b => min ceil.k (a + b) | _, _ => ceil.k
      (rangeFrom (wD1 n) tie.streams).all (fun d => m.tensor (descOf (code d)) (m.rows (wX n) (descOf (code d)) ceil.m) kl ceil.k)
    else if op = 0x22 then
      if bit (wSel n) 2 then
        let d := descOf (code (wD1 n))
        let rows := m.rows (wX n) d ceil.m
        rows == 0 || m.fits d.addr 0 (some ((rows - 1) * d.stride + 8192)) true
      else (rangeFrom (wD1 n) tie.streams).all (fun d =>
        m.tensor (descOf (code d)) (m.rows (wX n) (descOf (code d)) ceil.m) (min tie.channels ceil.n) ceil.n)
    else if op = 0x23 then !bit (wSel n) 0 || m.fits (wX n) 0 (some 16) true
    else if op = 0x24 then m.fits (wX n) 0 len true
    else if op = 0x25 then
      m.tensor (descOf (code (wD1 n))) (min 64 ceil.m) ceil.k ceil.k && m.tensor (descOf (code (wD2 n))) (min 64 ceil.m) ceil.n ceil.n
    else if op = 0x30 then
      let both := fun (d s : Option Nat) => m.fits (wX n) 0 d false && m.fits (wY n) 0 s false
        if wFn n = 1 then both (len.map largestStream) len && m.aligned (wY n) 4096 && m.aligned (wX n) 64
        else if wFn n = 2 then m.fits (wX n) 0 len false && (e.getA (wY n)).isSome && m.aligned (wX n) 4096 && m.aligned (wY n) 64
        else if wFn n = 3 then
          let rows := wImm n % 65536
          both (len.map (stridedSpan rows (bits (wImm n) 40 24))) (len.map (stridedSpan rows (bits (wImm n) 16 24)))
        else if wFn n = 4 then m.fits (wX n) 0 len false
        else both len len
    else if op = 0x31 ∨ op = 0x32 then m.fits (wX n) 0 len true
    else if op = 0x41 ∨ op = 0x42 then
      m.fits (wY n) (sext 64 (wImm n)) (some (elemBytes (wFn n % 16) (vecCount (wFn n % 16)))) true
    else true

/-- The channel tables that a TBEGIN loads lie in their buffers (08 R165, R168). -/
def Mapped.tables (m : Mapped) (i : Nat) : Bool :=
  let tie := TieUp.ofCode (wSel m.word % 4)
  (m.chk.tread.records i).all (fun d =>
    let r := reqRecOf (m.chk.word d)
    !r.perChannel ||
      match m.env.getA r.table with
      | none => false
      | some s =>
        let low : Span := { lo := s.lo / 4096 * 4096, hi := s.hi / 4096 * 4096, step := 0 }
        ({ m with env := m.env.setA r.table (some low) } : Mapped).fits r.table 0 (some (16 * tie.channels)) true)

/-- The first word of a treadling whose addresses are not all its buffers' (0x0D17). -/
def mappingFault (k : PartCfg) (t : TreadCfg) : Option (Nat × Nat) :=
  let c := k.check t
  let envs := c.allBounds
  (List.find? (fun (e : Nat × Flow) =>
    let m : Mapped := { chk := c, env := envs.get e.1 Env.entry, flow := e.2, word := c.word e.1 }
    !m.ok || (wOp m.word == 0x20 && !m.tables e.1)) c.flows).map (fun e => (0x0D17, e.1))

/-- A buffer whose base its alignment exponent does not allow (R132, R42). -/
def bufferAligned (k : PartCfg) (t : TreadCfg) (b : BufCfg) : Bool :=
  match k.bufferAt 0 { loom := Fin.ofNat 256 t.loom, ctx := Fin.ofNat 8 t.ctx } b with
  | none => false
  | some (_, base) => base % 2 ^ b.align == 0

end Sys2Proof.Machine
end

