-- ==== Sys2Proof/Machine/Loader.lean ====
section
/-! DEFINITION. Sys2Proof/Machine/Loader.lean: the draft loader's checks, in order (02 R34 to R43, R437). Where a step can break in
several ways, the order within it, and the field that a check of several fields names, are readings (log entry 39). -/

namespace Sys2Proof.Machine

open Sys2Proof

/-- A draft in the loader's hands: the state it is judged in, its bytes, the pick in which its last byte arrived, and the partitions
that it does not replace. -/
structure Load where
  s : State
  bs : List Byte
  pick : Word
  others : List (Nat × PartCfg)
  cfgs : List (Nat × PartCfg)

def Load.panel (l : Load) : Bool := draftPanel l.bs
def Load.entries (l : Load) : List Entry := draftEntries l.bs
def Load.rows (l : Load) (p t : Nat) : List Row := rowsOf l.bs p t

/-- The first flaw of a list of checks. -/
def firstFlaw (l : List (Option Flaw)) : Option Flaw := l.findSome? id

def flawIf (b : Bool) (f : Flaw) : Option Flaw := if b then some f else none

/-- A flaw in a directory entry. -/
def Load.entryFlaw (l : Load) (e : Entry) (code field : Nat) : Flaw := { code := code, index := e.index, off := entryAt l.bs e.index + field }

/-! ### Steps 1 to 4: the header and the signature -/

/-- MAGIC and VERSION, then what the header alone shows (R34). -/
def Load.step1 (l : Load) : Option Flaw :=
  let h := fun (code off : Nat) => Flaw.header code off
  let kind := draftKind l.bs
  let full := kind == 1
  firstFlaw [
    flawIf (le l.bs 0 4 != 0x54465244) (h 0x0D01 0), flawIf (le l.bs 4 2 != 1) (h 0x0D01 4),
    flawIf (kind != 1 && kind != 2) (h 0x0D07 6),
    flawIf (decide (15 < draftTarget l.bs) || (full && draftTarget l.bs != 0)) (h 0x0D07 7),
    flawIf (draftTotal l.bs == 2 ^ 32 - 1) (h 0x0D08 8),
    flawIf (draftCount l.bs == 0xFFFF) (h 0x0D08 0xC), flawIf (draftCount l.bs == 0 || decide (4096 < draftCount l.bs)) (h 0x0D07 0xC),
    flawIf (le l.bs 0xE 2 != 0) (h 0x0D07 0xE),
    flawIf (draftPick l.bs == 2 ^ 64 - 1) (h 0x0D08 0x18), flawIf (full && draftPick l.bs != 0) (h 0x0D07 0x18),
    flawIf (full && le l.bs 0x20 32 != 0) (h 0x0D07 0x20),
    flawIf (!allZero (slice l.bs 0x50 48)) (h 0x0D07 0x50)]

def Load.step2 (l : Load) : Option Flaw :=
  let n := draftTotal l.bs
  flawIf (decide (0x10000000 < n) || n != l.bs.length || n != draftSignature l.bs + 7856) (Flaw.header 0x0D02 8)

/-- The enrolled draft-signer keys (R39, R368), and those whose digest begins with SIGNER_ID. -/
def State.signers (s : State) : List (List Byte) := (rangeFrom 1 8).filterMap (fun i => s.store.content (objectOf 8 i))
def Load.keys (l : Load) : List (List Byte) := l.s.signers.filter (fun k => (sha k).take 8 == slice l.bs 0x48 8)

/-- A public key as stored. -/
def publicKey (bs : List Byte) : BitVec 256 := BitVec.ofNat 256 (beNat bs)

def Load.step3 (l : Load) : Option Flaw := flawIf l.keys.isEmpty (Flaw.header 0x0D04 0x48)
def Load.step4 (l : Load) : Option Flaw :=
  let n := draftSignature l.bs
  flawIf (!l.keys.any (fun k => Config.slhVerify (publicKey k) (l.bs.take n) (slice l.bs n 7856))) (Flaw.header 0x0D03 n)

/-! ### Steps 5 to 7: directory, digests, framing, sections -/

/-- A directory entry by itself (R34, R35, R37). -/
def Load.entryBreaks (l : Load) (e : Entry) : Option Flaw :=
  let first := draftDirectory l.bs + 48 * draftCount l.bs
  firstFlaw [
    flawIf (e.type == 0 || decide (0xE < e.type)) (l.entryFlaw e 0x0D07 0),
    flawIf (!(decide (e.scope ≤ 15) || e.scope == 0x40) || (e.type == 1) != (e.scope == 0x40)) (l.entryFlaw e 0x0D07 2),
    flawIf (decide (7 < e.ctx) || (e.ctx != 0 && !perCtxType e.type)) (l.entryFlaw e 0x0D07 3),
    flawIf (e.len == 2 ^ 32 - 1) (l.entryFlaw e 0x0D08 8), flawIf (e.len == 0) (l.entryFlaw e 0x0D07 8),
    flawIf (le l.bs (entryAt l.bs e.index + 0xC) 4 != 0) (l.entryFlaw e 0x0D07 0xC),
    flawIf (e.off % 64 != 0 || decide (e.off < first) || decide (draftSignature l.bs < e.off + e.len)) (l.entryFlaw e 0x0D06 4)]

/-- Entry a comes before entry b (R35). -/
def Entry.before (a b : Entry) : Bool :=
  decide (a.scope < b.scope) || (a.scope == b.scope && (decide (a.type < b.type) || (a.type == b.type
    && (decide (a.ctx < b.ctx) || (a.ctx == b.ctx && decide (a.off < b.off))))))

def Entry.meets (a b : Entry) : Bool := a.index != b.index && decide (a.off < b.off + b.len) && decide (b.off < a.off + a.len)

def Load.step5 (l : Load) : Option Flaw :=
  let d := draftDirectory l.bs
  let es := l.entries
  firstFlaw [
    flawIf (d % 64 != 0 || decide (d < 128) || decide (draftSignature l.bs < d + 48 * draftCount l.bs)) (Flaw.header 0x0D06 0x40),
    es.findSome? l.entryBreaks,
    ((es.zip (es.drop 1)).find? (fun e => !e.1.before e.2)).map (fun e => l.entryFlaw e.2 0x0D06 0),
    (es.find? (fun e => es.any (fun f => decide (f.index < e.index) && e.meets f))).map (fun e => l.entryFlaw e 0x0D06 4)]

def Load.step6 (l : Load) : Option Flaw :=
  firstFlaw [
    (l.entries.find? (fun e => leNat (sha (e.bytes l.bs)) != e.digest)).map (fun e => l.entryFlaw e 0x0D05 0x10),
    l.entries.findSome? (fun e => match e.frame l.bs with
      | .error b => some { code := b.1, index := e.index, off := e.off + b.2 }
      | .ok _ => none)]

/-- The scopes whose sections this draft gives. -/
def Load.parts (l : Load) : List Nat := if l.panel then [draftTarget l.bs] else draftParts l.bs

/-- The entries of one type and context of a scope. -/
def Load.of (l : Load) (p t c : Nat) : List Entry := l.entries.filter (fun e => e.scope == p && e.type == t && e.ctx == c)

/-- A section that must be there is missing. -/
def missing : Flaw := Flaw.header 0x0D09 0xC

/-- Contexts of a partition (R37). -/
def Load.nctx (l : Load) (p : Nat) : Nat := match l.rows p 2 with | [] => 0 | r :: _ => r.num 48 1

/-- Sections of a partition (R35). -/
def Load.sections (l : Load) (p : Nat) : Option Flaw :=
  let mine := l.entries.filter (fun e => e.scope == p)
  let n := l.nctx p
  firstFlaw [
    flawIf ((l.of p 2 0).isEmpty || (l.of p 8 0).isEmpty || (l.of p 0xB 0).isEmpty) missing,
    (mine.find? (fun e => singleType e.type && mine.any (fun f => decide (f.index < e.index) && f.type == e.type && f.ctx == e.ctx))).map
      (fun e => l.entryFlaw e 0x0D09 0),
    (mine.find? (fun e => singleType e.type && (e.rows l.bs).length != 1)).map (fun e => l.entryFlaw e 0x0D09 8),
    (l.rows p 2).findSome? (fun r => ((Col.counts 48 1 1 8).breaks r.bytes).map (fun b => r.flaw b.1 b.2)),
    flawIf ((List.range n).any (fun c => (l.of p 3 c).isEmpty)) missing,
    (mine.find? (fun e => perCtxType e.type && decide (n ≤ e.ctx))).map (fun e => l.entryFlaw e 0x0D09 3),
    (l.rows p 0xD).findSome? (fun r => ((Col.range 0 2 0 255).breaks r.bytes).map (fun b => r.flaw b.1 b.2)),
    ((l.rows p 0xD).find? (fun r => (l.rows p 0xD).any (fun q =>
      q.entry.ctx == r.entry.ctx && q.num 0 2 == r.num 0 2 && (decide (q.entry.index < r.entry.index) || (q.entry.index == r.entry.index && decide (q.off < r.off)))))).map
      (fun r => r.flaw 0x0D09 0)]

def Load.step7 (l : Load) : Option Flaw :=
  let module := l.of 0x40 1 0
  firstFlaw [
    flawIf (!l.panel && module.isEmpty) missing,
    if l.panel then none else (module.drop 1).head?.map (fun e => l.entryFlaw e 0x0D09 0),
    if l.panel then none else (module.find? (fun e => (e.rows l.bs).length != 1)).map (fun e => l.entryFlaw e 0x0D09 8),
    l.parts.findSome? l.sections,
    if l.panel then (l.entries.find? (fun e => e.scope != draftTarget l.bs)).map (fun e => l.entryFlaw e 0x0D1A 2) else none]

/-! ### Step 8: kind and state -/

/-- The pending panel draft for a partition. -/
def State.panel? (s : State) (p : Nat) : Option Panel := s.draft.panels.find? (fun k => k.part.val == p)

/-- A pick lies in the window of a panel draft effective at e (R48). -/
def inPanelWindow (e n : Word) : Bool := n == e || n == e + 1

def Load.step8 (l : Load) : Option Flaw :=
  let s := l.s
  if !l.panel then flawIf (!s.parts.isEmpty) (Flaw.header 0x0D1E 6)
  else
    let p := draftTarget l.bs
    let e : Word := BitVec.ofNat 64 (draftPick l.bs)
    let live := match s.part? (Fin.ofNat 16 p) with | none => false | some x => decide (x.cfg.measure.toNat = leNat (slice l.bs 0x20 32).reverse)
    firstFlaw [
      flawIf (!live) (Flaw.header 0x0D19 0x20),
      flawIf (decide (draftPick l.bs < l.pick.toNat + 2)) (Flaw.header 0x0D1B 0x18),
      flawIf ((s.panel? p).isSome) (Flaw.header 0x0D1C 7),
      flawIf (match s.pick.change with | none => false | some c => inPanelWindow e c.pick) (Flaw.header 0x0D1C 0x18)]

/-! ### Steps 9 to 12: looms, threads, stores, carves -/

/-- Each record of a type, of every partition of the draft, keeps to the descriptions of its fields. -/
def Load.described (l : Load) (t : Nat) : Option Flaw := l.parts.findSome? (fun p => (l.rows p t).findSome? (fun r => r.breaks))

/-- Each partition of the draft with its configuration and its PARTITION record. -/
def Load.each (l : Load) (f : Nat → PartCfg → Row → Option Flaw) : Option Flaw :=
  l.cfgs.findSome? (fun e => match l.rows e.1 2 with | [] => none | r :: _ => f e.1 e.2 r)

/-- Fence maps of the draft's MODULE section; a panel draft leaves those of the loaded full draft (R407). -/
def Load.fenceLooms (l : Load) : BitVec 256 :=
  if l.panel then l.s.draft.fenceLooms else match l.rows 0x40 1 with | [] => 0 | r :: _ => BitVec.ofNat 256 (r.num 0 32)
def Load.fenceLinks (l : Load) : BitVec 96 :=
  if l.panel then l.s.draft.fenceLinks else match l.rows 0x40 1 with | [] => 0 | r :: _ => BitVec.ofNat 96 (r.num 32 12)

/-- A loom that no draft may name: fenced, or failed at boot. -/
def Load.loomOut (l : Load) (g : Nat) : Bool :=
  bit l.s.store.fenceLooms g || l.fenceLooms.getLsbD g || (l.s.loom (Fin.ofNat 256 g)).failed

/-- Looms that a pending panel draft adds are held for it (R45). -/
def Panel.adds (k : Panel) (s : State) : List Nat :=
  match s.part? k.part with | none => k.cfg.looms | some x => k.cfg.looms.filter (fun g => !x.cfg.looms.contains g)
def Panel.addsLinks (k : Panel) (s : State) : List Nat :=
  let links := k.cfg.credits.map (fun c => c.link)
  match s.part? k.part with
  | none => links
  | some x => links.filter (fun i => !x.cfg.credits.any (fun c => c.link == i))
def Load.heldBy (l : Load) (f : Panel → State → List Nat) : List Nat :=
  (l.s.draft.panels.filter (fun k => !(l.panel && k.part.val == draftTarget l.bs))).flatMap (fun k => f k l.s)

def Load.step9 (l : Load) : Option Flaw :=
  firstFlaw [
    if l.panel then none else (l.rows 0x40 1).findSome? (fun r => r.breaks),
    l.described 2,
    l.each (fun p k r =>
      let theirs := (l.others ++ l.cfgs.filter (fun e => e.1 != p)).flatMap (fun e => e.2.looms)
      firstFlaw [
        flawIf k.looms.isEmpty (r.flaw 0x0D0A 0),
        flawIf (k.looms.any (fun g => l.loomOut g || theirs.contains g)) (r.flaw 0x0D0A 0),
        ((l.rows p 0xD).find? (fun t => !k.looms.contains (t.num 0 2))).map (fun t => t.flaw 0x0D0A 0),
        flawIf (k.looms.any (fun g => (l.heldBy Panel.adds).contains g)) (r.flaw 0x0D1C 0)])]

def Load.step10 (l : Load) : Option Flaw :=
  firstFlaw [
    l.described 4,
    l.each (fun p k r =>
      firstFlaw [
        ((l.rows p 4).find? (fun t =>
          let a := t.num 0 2
          let b := t.num 2 2
          !(k.looms.contains a && k.looms.contains b && a / 32 == b / 32))).map (fun t => t.flaw 0x0D0B 0),
        flawIf (!k.threads.isEmpty && !Config.threadsFit l.bs p) (((l.rows p 4).headD r).flaw 0x0D0B 0)])]

/-- 4 KiB units of mill store that configurations carve on a mill (R37). -/
def millUnits (l : List (Nat × PartCfg)) (m : Fin 8) : Nat :=
  l.foldl (fun n e => if e.2.mills.contains m then n + (e.2.ctxs.foldl (fun n c => n + c.millUnits) 0) else n) 0

def Load.step11 (l : Load) : Option Flaw :=
  firstFlaw [
    l.described 3, l.described 0xD,
    l.each (fun p k r =>
      firstFlaw [
        (l.rows p 0xD).findSome? (fun t =>
          let c := k.loomCarve (Fin.ofNat 8 t.entry.ctx) (Fin.ofNat 256 (t.num 0 2))
          flawIf (decide (c.2 < 16 * t.num 6 4) || decide (0x600000 < c.1 + c.2)) (t.flaw 0x0D0D 6)),
        flawIf (k.mills.any (fun m => decide (24576 < millUnits (l.others ++ l.cfgs) m))) (r.flaw 0x0D0E 0)])]

/-- Far ports that are up (R290). -/
def State.upFar (s : State) : List (Fin 4) := (List.finRange 4).filter (fun i => (s.farPort i).state == 2)

/-- Far pages of configurations. -/
def farPages (l : List (Nat × PartCfg)) : Nat :=
  l.foldl (fun n e => (e.2.carves.filter (fun v => v.far)).foldl (fun n v => n + v.len / pageBytes) n) 0

/-- What a mill's stacks must hold at a step: at 12 the carves, the map regions and the smallest staging shares; from 14 the stream
home and the pools; from 15 the Creel's regions (R187, R207, R252, R288). -/
def PartCfg.needs (k : PartCfg) (step : Nat) (m : Fin 8) : Nat :=
  let k' : PartCfg := { k with
    creel := if step < 15 then [] else k.creel,
    pools := if step < 14 then { streams := 0, slots := 0, seqs := 0, pages := 0, staging := 0, frame := 0 } else k.pools }
  k'.nearBytes m + 16 * pageBytes * ((List.finRange 8).filter (fun c => k.stagesOn c m)).length

def Load.full (l : Load) (step : Nat) (m : Fin 8) : Bool :=
  decide (stackBytes * (l.s.usableStacks m).length < (l.others.foldl (fun n e => n + e.2.needs 15 m) 0) + l.cfgs.foldl (fun n e => n + e.2.needs step m) 0)

/-- The draft's needs do not fit the stacks of a mill: the code of the step (R288). -/
def Load.capacity (l : Load) (step code : Nat) : Option Flaw :=
  l.each (fun _ k r => flawIf (((List.finRange 8).filter (fun m => decide (0 < k.needs step m))).any (fun m => l.full step m)) (r.flaw code 0))

/-- Two carves overlap. -/
def CarveCfg.meets (a b : CarveCfg) : Bool := decide (a.base < b.base + b.len) && decide (b.base < a.base + a.len)

/-- A CARVE record by itself (R286, R287). -/
def Load.carveBreaks (l : Load) (k : PartCfg) (r : Row) : Option Flaw :=
  let v := carveCfgOf r
  firstFlaw [
    flawIf (v.base % pageBytes != 0 || v.base == 0 || decide (2 ^ 48 < v.base + v.len)) (r.flaw 0x0D0F 0),
    flawIf (v.len % pageBytes != 0) (r.flaw 0x0D0F 8),
    flawIf (decide (v.placement < 8) && !k.mills.any (fun m => m.val == v.placement)) (r.flaw 0x0D0F 17),
    flawIf (v.far && v.placement == 0x40) (r.flaw 0x0D0F 17),
    flawIf (v.far && v.prot && l.s.upFar.isEmpty) (r.flaw 0x0D0F 16)]

def Load.step12 (l : Load) : Option Flaw :=
  firstFlaw [
    l.described 6,
    l.each (fun p k r =>
      let rows := l.rows p 6
      firstFlaw [
        rows.findSome? (l.carveBreaks k),
        (rows.zipIdx).findSome? (fun e =>
          flawIf ((rows.take e.2).any (fun q => (carveCfgOf q).meets (carveCfgOf e.1))) (e.1.flaw 0x0D0F 0)),
        (rows.find? (fun q => (carveCfgOf q).prot && (carveCfgOf q).compressible)).map (fun q => q.flaw 0x0D1F 18),
        flawIf (k.carves.any (fun v => v.far) && decide ((l.s.upFar.map (fun i => (l.s.farPort i).pages)).foldl (· + ·) 0
          < farPages (l.others ++ l.cfgs))) (r.flaw 0x0D0F 0)]),
    l.capacity 12 0x0D0F]

/-! ### Step 13: credits and routes (R20, R38) -/

/-- The hops of all routes in force of a context, and the links on which its credits are admissible. -/
def PartCfg.hopsOf (k : PartCfg) (c : Nat) : List (List Nat) :=
  (k.millsOf c).flatMap (fun a => (k.millsOf c).flatMap (fun d => k.route c a d))
def PartCfg.admissible (k : PartCfg) (c : Nat) : List Nat :=
  (k.hopsOf c).flatten ++ (k.millsOf c).flatMap (fun m => rangeFrom (64 + 4 * m) 4)

/-- A link that is fenced or down. -/
def Load.linkOut (l : Load) (i : Nat) : Bool :=
  bit l.s.store.fenceLinks i || l.fenceLinks.getLsbD i || (l.s.link (Fin.ofNat 96 i)).width == 0

/-- Credits that configurations hold on a link, per direction. -/
def linkCredits (l : List (Nat × PartCfg)) (i : Nat) : Nat :=
  l.foldl (fun n e => (e.2.credits.filter (fun c => c.link == i)).foldl (fun n c => n + c.credits) n) 0

def Load.step13 (l : Load) : Option Flaw :=
  firstFlaw [
    l.described 7,
    l.each (fun p k r =>
      let rows := l.rows p 7
      firstFlaw [
        (rows.find? (fun q => let t := q.num 3 1; bit t 7 && (k.fixed q.entry.ctx (bits t 0 3)).getD 0 != bits t 3 1)).map (fun q => q.flaw 0x0D10 3),
        (rows.find? (fun q => !(k.admissible q.entry.ctx).contains (q.num 0 1) || l.linkOut (q.num 0 1))).map (fun q => q.flaw 0x0D10 0),
        flawIf ((List.range k.nctx).any (fun c => (k.hopsOf c).any (fun h =>
          !h.any (fun i => !l.linkOut i && (k.creditsOf c).any (fun e => e.link == i && decide (0 < e.credits)))))) (r.flaw 0x0D10 0),
        (rows.find? (fun q => decide (Config.linkBuffer < linkCredits (l.others ++ l.cfgs) (q.num 0 1)))).map (fun q => q.flaw 0x0D10 1),
        (rows.find? (fun q => (l.heldBy Panel.addsLinks).contains (q.num 0 1))).map (fun q => q.flaw 0x0D1C 0)])]

/-! ### Step 14: pools and ceilings (R173, R186, R208, R210, R312) -/

/-- The page size that an ATTN at a word names, none where R208 accepts none. -/
def PartCfg.pageSize (k : PartCfg) (t : TreadCfg) (i : Nat) (f : Flow) : Option Nat :=
  let tb := match f.tile with | none => 0 | some j => t.word j
  let hd := ((k.ceilings.filter (fun e => e.ctx == t.ctx)).getD (wAux tb) { ctx := 0, desc := 0, m := 0, n := 0, k := 0, width := 0, height := 0 }).k
  let d := descOf (t.word (wD1 (t.word i)))
  let plain := (d.type == 2 || d.type == 3 || d.type == 9) && d.group == 0
  if (hd == 64 || hd == 128 || hd == 256) && (plain || (d.type == 2 && d.group == 32)) then
    some (4096 + 512 * hd * (if d.type = 9 then 2 else 1) + (if d.group = 0 then 0 else 4096))
  else none

/-- The ATTN words of a treadling with what each names. -/
def PartCfg.attns (k : PartCfg) (t : TreadCfg) : List (Nat × Option Nat) :=
  (t.flows.at_.filter (fun e => wOp (t.word e.1) == 0x25)).map (fun e => (e.1, k.pageSize t e.1 e.2))

/-- The frame size of a partition's pool (R208). -/
def PartCfg.frameSize (k : PartCfg) : Nat := (k.treads.flatMap (fun t => k.attns t)).foldl (fun n e => max n (e.2.getD 0)) 0

/-- An operation descriptor with its extents (R173). -/
def ceilingBreaks (r : Row) : Option Flaw :=
  let v := r.num 0 2
  let kind := bits v 0 3
  let w := r.num 14 2
  let h := r.num 16 2
  let f := 2 * 2 ^ bits v 3 2
  firstFlaw [
    flawIf (kind != 0 && (w == 0 || h == 0)) (r.flaw 0x0D11 (if w = 0 then 14 else 16)),
    flawIf (kind == 7 && (w % f != 0 || h % f != 0)) (r.flaw 0x0D11 (if w % f ≠ 0 then 14 else 16)),
    flawIf (decide (1 ≤ kind) && decide (kind ≤ 6) && bits v 3 2 == 2 && (decide (w ≤ bits v 5 6) || decide (h ≤ bits v 5 6))) (r.flaw 0x0D18 0)]

/-- Where the code of a treadling record begins in it. -/
def codeAt (r : Row) : Nat := 12 + 19 * r.num 10 2

/-- The TREADLING record of a treadling. -/
def Load.treadRow (l : Load) (p : Nat) (t : TreadCfg) (r : Row) : Row :=
  ((l.rows p 0xD).find? (fun q => q.entry.ctx == t.ctx && q.num 0 2 == t.loom)).getD r

def Load.step14 (l : Load) : Option Flaw :=
  let all := l.others ++ l.cfgs
  firstFlaw [
    l.described 8, l.described 0xC,
    l.each (fun p k r =>
      let q := (l.rows p 8).headD r
      firstFlaw [
        flawIf (k.maskMode && k.pools.streams != 0) (q.flaw 0x0D11 0),
        flawIf ((!k.maskMode && k.pools.slots != 0) || decide (65536 < k.pools.slots)) (q.flaw 0x0D11 4),
        (l.rows p 0xC).findSome? ceilingBreaks,
        k.treads.findSome? (fun t => ((k.attns t).find? (fun e => e.2.isNone)).map (fun e =>
          let tr := l.treadRow p t r
          tr.flaw 0x0D11 (codeAt tr + 16 * e.1))),
        flawIf (decide (1048576 < (all.filter (fun e => e.2.home == k.home)).foldl (fun n e => n + e.2.pools.pages) 0)) (q.flaw 0x0D11 12),
        flawIf (decide (262144 < all.foldl (fun n e => n + e.2.ctxs.foldl (fun n c => n + c.queues.foldl (fun n x => n + x.depth) 0) 0) 0))
          (((l.rows p 3).headD r).flaw 0x0D11 3)]),
    l.capacity 14 0x0D11]

/-! ### Steps 15 to 17: Creel slots, endpoints, pick plan -/

/-- The largest ceiling of a format (R245); zero is none. -/
def creelSizeOk (format n : Nat) : Bool := decide (1 ≤ n) && decide (n ≤ (if format = 7 then 65536 else 8192))

/-- A slot that takes protected content (R247). -/
def sealedFormat (f : Nat) : Bool := f == 2 || f == 3 || f == 5 || f == 6 || f == 7

def Load.creelBreaks (l : Load) (p : Nat) (k : PartCfg) (r : Row) (earlier : List Row) : Option Flaw :=
  let c := creelCfgOf r
  let ctx : Fin 8 := Fin.ofNat 8 c.ctx
  let others := l.others.flatMap (fun e => e.2.creel) ++ (l.cfgs.filter (fun e => decide (e.1 < p))).flatMap (fun e => e.2.creel)
  firstFlaw [
    flawIf (others.any (fun d => d.slot == c.slot) || earlier.any (fun d => d.num 0 2 == c.slot)) (r.flaw 0x0D12 0),
    flawIf (!creelSizeOk c.format c.width) (r.flaw 0x0D12 3), flawIf (!creelSizeOk c.format c.height) (r.flaw 0x0D12 5),
    flawIf (decide (k.nctx ≤ c.ctx) || !k.inCarve ctx c.ringBase c.ringLen (fun _ => true)) (r.flaw 0x0D12 7),
    flawIf (!sealedFormat c.format && k.inCarve ctx c.ringBase c.ringLen (fun v => v.prot)) (r.flaw 0x0D12 2),
    flawIf (match (k.ctx ctx).queues[c.queue]? with | none => true | some q => q.dest != c.ctx) (r.flaw 0x0D12 24)]

def Load.step15 (l : Load) : Option Flaw :=
  firstFlaw [
    l.described 9,
    l.each (fun p k _ =>
      let rows := l.rows p 9
      (rows.zipIdx).findSome? (fun e => l.creelBreaks p k e.1 (rows.take e.2))),
    l.capacity 15 0x0D12]

/-- Two endpoints that stand at one place (R331). -/
def EndpointCfg.clashes (a b : EndpointCfg) : Bool := (a.banks &&& b.banks) != 0 && a.vlan == b.vlan && a.addr == b.addr

/-- Port and queue pairs that the plane does not permit: the field's offset. -/
def EndpointCfg.breaks (e : EndpointCfg) : Option Nat :=
  if e.plane = 1 then (if e.port ≠ 47510 then some 21 else if e.qps ≠ 0 then some 23 else none)
  else if (1 ≤ e.port ∧ e.port ≤ 1023) ∨ e.port = 65535 then some 21 else none

def Load.step16 (l : Load) : Option Flaw :=
  let qps := fun (x : List (Nat × PartCfg)) => x.foldl (fun n e => n + e.2.endpoints.foldl (fun n d => n + d.qps) 0) 0
  firstFlaw [
    l.described 0xA,
    l.each (fun p _ _ =>
      let rows := l.rows p 0xA
      let theirs := l.s.mgmtEndpoint :: l.others.flatMap (fun e => e.2.endpoints)
        ++ (l.cfgs.filter (fun e => decide (e.1 < p))).flatMap (fun e => e.2.endpoints)
      (rows.zipIdx).findSome? (fun e =>
        let d := endpointCfgOf e.1
        firstFlaw [
          flawIf ((theirs ++ (rows.take e.2).map endpointCfgOf).any (fun o => d.clashes o)) (e.1.flaw 0x0D13 5),
          d.breaks.map (fun off => e.1.flaw 0x0D13 off)])),
    l.each (fun p _ r => flawIf (decide (4096 < qps (l.others ++ l.cfgs))) (((l.rows p 0xA).headD r).flaw 0x0D11 23))]

def Load.step17 (l : Load) : Option Flaw :=
  firstFlaw [
    l.described 0xB,
    l.each (fun p k r =>
      let q := (l.rows p 0xB).headD r
      let es := k.plan.entries.take k.plan.len
      let t := (es.filter (fun e => e == 0x20)).length
      firstFlaw [
        (es.zipIdx.find? (fun e => decide (e.1 < 8) && decide (k.nctx ≤ e.1))).map (fun e => q.flaw 0x0D14 (3 + e.2)),
        flawIf (decide (k.plan.len * k.plan.stride < 1000 * t)) (q.flaw 0x0D14 1)])]

/-! ### Steps 18 to 21: treadlings, layer order, mapping -/

/-- A flaw at a word of a treadling. -/
def Load.wordFlaw (l : Load) (p : Nat) (r : Row) (t : TreadCfg) (b : Nat × Nat) : Flaw :=
  let tr := l.treadRow p t r
  tr.flaw b.1 (codeAt tr + 16 * b.2)

def Load.step18 (l : Load) : Option Flaw :=
  firstFlaw [
    l.described 5,
    l.each (fun p k r =>
      firstFlaw [
        k.treads.findSome? (fun t => (checkTread k t <|> lengthFault k t).map (l.wordFlaw p r t)),
        k.useFault.map (fun u => l.wordFlaw p r
          ((k.treads.find? (fun t => t.ctx == u.ctx && t.loom == u.loom)).getD { ctx := 0, loom := 0, entry := 0, words := 0, buffers := [], code := [] })
          (0x0D15, u.word)),
        k.treads.findSome? (fun t => (tieupFault k t).map (l.wordFlaw p r t))])]

def Load.step19 (l : Load) : Option Flaw :=
  l.each (fun p k r => k.treads.findSome? (fun t => (tooLong k t).map (l.wordFlaw p r t)))

/-- A layer whose weight carve or range is not the context's (R37, R132). -/
def layerBreaks (k : PartCfg) (r : Row) : Option Flaw :=
  ((orderCfgOf r).layers.zipIdx).findSome? (fun e =>
    match (if e.1.carve < 2 then none else (k.carvesOf (Fin.ofNat 8 r.entry.ctx))[e.1.carve - 2]?) with
    | none => some (r.flaw 0x0D20 (3 + 18 * e.2))
    | some v => flawIf (decide (v.len < e.1.off + e.1.len)) (r.flaw 0x0D20 (5 + 18 * e.2)))

def Load.step20 (l : Load) : Option Flaw :=
  firstFlaw [l.described 0xE, l.each (fun p k _ => (l.rows p 0xE).findSome? (layerBreaks k))]

/-- A buffer that passes the end of its storage (R15, R42). -/
def bufferFits (k : PartCfg) (t : TreadCfg) (b : BufCfg) : Bool :=
  let c : Fin 8 := Fin.ofNat 8 t.ctx
  let room := if b.carve = 0 then (k.loomCarve c (Fin.ofNat 256 t.loom)).2 else if b.carve = 1 then k.millCarve c
    else match (k.carvesOf c)[b.carve - 2]? with | none => 0 | some v => v.len
  decide (b.off + b.len ≤ room)

def Load.step21 (l : Load) : Option Flaw :=
  l.each (fun p k r =>
    if !k.singleMill then none
    else firstFlaw [
      (l.rows p 0xD).findSome? (fun r =>
        ((treadCfgOf r).buffers.zipIdx).findSome? (fun e => firstFlaw [
          flawIf (!bufferFits k (treadCfgOf r) e.1) (r.flaw 0x0D17 (22 + 19 * e.2)),
          flawIf (!bufferAligned k (treadCfgOf r) e.1) (r.flaw 0x0D17 (30 + 19 * e.2))])),
      k.treads.findSome? (fun t => (mappingFault k t).map (l.wordFlaw p r t))])

/-! ### The whole check (R40) -/

/-- The first step that refuses, with its flaw, among steps numbered from n on. -/
def firstStep (l : List (Load → Option Flaw)) (d : Load) (n : Nat) : Option (Nat × Flaw) :=
  match l with
  | [] => none
  | f :: rest =>
    match f d with
    | some b => some (n, b)
    | none => firstStep rest d (n + 1)

/-- Steps 1 to 6 (R406), and all of them. -/
def headSteps : List (Load → Option Flaw) := [Load.step1, Load.step2, Load.step3, Load.step4, Load.step5, Load.step6]
def bodySteps : List (Load → Option Flaw) :=
  [Load.step7, Load.step8, Load.step9, Load.step10, Load.step11, Load.step12, Load.step13, Load.step14, Load.step15, Load.step16,
   Load.step17, Load.step18, Load.step19, Load.step20, Load.step21]

/-- The configurations of a draft's partitions, once its framing holds. -/
def draftCfgs (bs : List Byte) : List (Nat × PartCfg) :=
  ((if draftPanel bs then [draftTarget bs] else draftParts bs)).map (fun p =>
    let k := draftCfg bs p 0
    (p, { k with pools := { k.pools with frame := k.frameSize } }))

/-- A draft before its sections are read. -/
def State.load (s : State) (bs : List Byte) (pick : Word) : Load := { s := s, bs := bs, pick := pick, others := [], cfgs := [] }

/-- Partitions that a draft leaves as they are. -/
def State.others (s : State) (bs : List Byte) : List (Nat × PartCfg) :=
  (s.parts.filter (fun e => !(draftPanel bs && e.1 == draftTarget bs))).map (fun e => (e.1, e.2.cfg))

/-- The loader's verdict on a draft: the step that refuses it and its flaw, or its partitions. -/
def State.judge (s : State) (bs : List Byte) (pick : Word) : Except (Nat × Flaw) (List (Nat × PartCfg)) :=
  let l := s.load bs pick
  match firstStep headSteps l 1 with
  | some b => .error b
  | none =>
    let l := { l with others := s.others bs, cfgs := draftCfgs bs }
    match firstStep bodySteps l 7 with
    | some b => .error b
    | none => .ok l.cfgs

end Sys2Proof.Machine
end

