-- ==== Sys2Proof/Machine/Partition.lean ====
section
/-! DEFINITION. Sys2Proof/Machine/Partition.lean: how a partition comes to exist, starts, is cleared and ends (02 R44, R46; 05 R112 to
R114; 06 R117; 10 R187; 11 R207; 15 R291, R295; 16 R310, R326; 18 R363; 19 R388). -/

namespace Sys2Proof.Machine

open Sys2Proof

/-! ### Fresh parts -/

/-- The pages of a far-home carve in order, each on the first port in turn whose device has room (R291): k counts from the carve's
base, `free` holds the free pages by port, `up` the ports whose device is up. -/
def assignPages (up : List (Fin 4)) (v : CarveCfg) (n k : Nat) (free : Tab Nat) (pages : Tab Page) : Tab Nat × Tab Page :=
  match n with
  | 0 => (free, pages)
  | m + 1 =>
    let order := (List.range up.length).map (fun i => up.getD ((k + i) % up.length) 0)
    match order.find? (fun i => decide (0 < free.get i.val 0)) with
    | none => (free, pages)
    | some i =>
      let g : Page := { ctx := v.ctx, mill := v.placement, port := i.val, staged := none, staging := false, dirty := [], unwritten := true,
                        writing := false, evict := false, flush := false, again := [], fails := 0 }
      assignPages up v m (k + 1) (free.put i.val (free.get i.val 0 - 1) 0) (pages.ins (v.base / pageBytes + k) g)

/-- The pages of the far-home carves listed, beside those that are kept. -/
def State.farMap (s : State) (vs : List CarveCfg) (kept : Tab Page) : Tab Page :=
  let free : Tab Nat := (List.finRange 4).foldl (fun t i => t.put i.val (s.freePages i) 0) []
  ((vs.filter (fun v => v.far)).foldl (fun a v => assignPages s.upFar v (v.len / pageBytes) 0 a.1 a.2) (free, kept)).2

def Cloth.empty : Cloth :=
  { bytes := [], bad := [], tagBad := [], under := none, written := [], pages := [], stagings := 0, cursors := [] }

/-- A zeroised pool under a prefix-tree key (R207, R227). -/
def Pool.fresh (key : BitVec 128) : Pool := { seqs := [], bytes := [], bad := [], frames := [], tables := [], buckets := [], key := key }

/-- A partition that has not started. -/
def Part.fresh (k : PartCfg) (key : BitVec 128) (cloth : Cloth) (dests : Tab Dest) (recent : Dest) : Part :=
  { cfg := k, start := none, due := none, stopping := none, safe := none, safeReported := false, position := 0, code := 0x10, entry := .idle, cycles := 0,
    outgoing := none, streams := [], homeQueue := [], copies := [], pool := Pool.fresh key, cloth := cloth, ctxs := [], dests := dests, recent := recent,
    ended := [], qps := [], swatch := none }

/-! ### Looms and treadlings -/

/-- A loom that no partition holds: what it was is cleared; a failure at boot, the last context and tie-up, and the boot test stay. -/
def Loom.free (l : Loom) : Loom := { Loom.reset with failed := l.failed, lastCtx := l.lastCtx, lastTieup := l.lastTieup, dx := l.dx, dxCtx := l.dxCtx, dxBank := l.dxBank }

/-- The treadling code of every context of a partition on a loom, each at the start of its carve (R112). -/
def PartCfg.loadCode (k : PartCfg) (g : Fin 256) : Tab Byte :=
  (k.treads.filter (fun t => t.loom == g.val)).foldl (fun m t => putBytes m (k.loomCarve (Fin.ofNat 8 t.ctx) g).1 t.code) []

/-- A partition's treadlings are loaded into its looms, whose stores hold nothing else (R46). -/
def State.loadTreads (s : State) (k : PartCfg) : State :=
  k.looms.foldl (fun s g =>
    let g : Fin 256 := Fin.ofNat 256 g
    s.modLoom g (fun l => { l with store := k.loadCode g, bad := [] })) s

/-- The sequencer states at the start of a partition (R117). -/
def PartCfg.seqs (k : PartCfg) (g : Fin 256) : Tab Seq :=
  (k.treads.filter (fun t => t.loom == g.val)).foldl (fun m t => m.put t.ctx { Seq.zero with pc := BitVec.ofNat 32 t.entry } Seq.zero) []

/-- Looms become the partition's. -/
def State.takeLooms (s : State) (p : Fin 16) (k : PartCfg) : State :=
  k.looms.foldl (fun s g =>
    let g : Fin 256 := Fin.ofNat 256 g
    s.modLoom g (fun l => { l.free with part := some p, store := l.store, bad := l.bad, seqs := k.seqs g })) s

/-- Looms are free again, their stores zeroised. -/
def State.freeLooms (s : State) (looms : List Nat) : State :=
  looms.foldl (fun s g => s.modLoom (Fin.ofNat 256 g) Loom.free) s

/-! ### Stopping and clearing (R46, R113, R310) -/

/-- No loom of the partition has a tile open, and no self-test runs: each has stopped (R46). -/
def State.stoppedAll (s : State) (x : Part) : Bool :=
  x.cfg.looms.all (fun g =>
    let l := s.loom (Fin.ofNat 256 g)
    (l.seqs.all (fun e => e.2.tile.isNone)) && l.test.isNone)

/-- Every queued and open run of the partition is withdrawn, and every other entry discarded (R46, R310). -/
def Part.withdraw (x : Part) (outcome : Nat) : Part :=
  (List.finRange 8).foldl (fun x c => (x.endRuns c outcome 0).modCtx c (fun k => { k with queues := [] })) x

/-- The loom stores and the mill-store carves of a partition are zeroised (R46 step 2). -/
def State.zeroiseStores (s : State) (p : Fin 16) (k : PartCfg) : State :=
  let s := k.looms.foldl (fun s g => s.modLoom (Fin.ofNat 256 g) (fun l => { l with store := [], bad := [] })) s
  let mine := fun (i : Nat) => i % 128 / 8 == p.val
  { s with mem := { s.mem with millStore := s.mem.millStore.keep (fun i _ => !mine i), millBad := s.mem.millBad.keep (fun i _ => !mine i) } }

/-- A carve of the old sections that the new ones keep: an identical record with the retain flag (R46 step 3). -/
def kept (old : PartCfg) (new : PartCfg) : List CarveCfg := old.carves.filter (fun v => v.retain && new.carves.contains v)

/-- A cloth address lies in one of the carves. -/
def inAny (vs : List CarveCfg) (a : Nat) : Bool := vs.any (fun v => decide (v.base ≤ a) && decide (a < v.base + v.len))

/-- What a cloth space holds of some carves; the rest is released and zeroised (R295). -/
def Cloth.only (k : Cloth) (vs : List CarveCfg) : Cloth :=
  let page := fun (n : Nat) => inAny vs (n * 4096)
  { k with
    bytes := k.bytes.keep (fun a _ => inAny vs a), bad := k.bad.keep (fun n _ => page n), tagBad := k.tagBad.keep (fun n _ => page n),
    written := k.written.keep (fun n _ => page n), pages := k.pages.keep (fun n _ => inAny vs (n * pageBytes)), cursors := [] }

/-- Sessions and keys of a partition end (R359, R361, R363). -/
def State.endSession (s : State) (p : Fin 16) : State :=
  { s with sec := { s.sec with
      sessions := s.sec.sessions.del p.val, region := s.sec.region.del p.val, sealKeys := s.sec.sealKeys.del p.val,
      sealIn := s.sec.sealIn.del p.val, sealOut := s.sec.sealOut.del p.val, pendings := s.sec.pendings.del p.val,
      srtp := s.sec.srtp.keep (fun n _ => (s.slot (Fin.ofNat 1024 n)).part != some p) } }

/-- A partition's Creel slots close at once, and are its no longer. -/
def State.freeSlots (s : State) (p : Fin 16) : State :=
  { s with slots := s.slots.keep (fun _ k => k.part != some p) }

/-- The slots that a configuration names are the partition's, closed (R252). -/
def State.takeSlots (s : State) (p : Fin 16) (k : PartCfg) : State :=
  k.creel.foldl (fun s c => s.setSlot (Fin.ofNat 1024 c.slot) { Slot.reset with part := some p }) s

/-- The accounting words of a context (R326), 128 bytes. -/
def acctBytes (k : Acct) : List Byte :=
  leBytes 8 k.submitted ++ leBytes 8 k.refused ++ leBytes 8 k.lastSeq ++ leBytes 8 k.taken ++ leBytes 8 k.done ++ leBytes 8 k.failed
    ++ leBytes 8 k.waitPicks ++ leBytes 8 (k.waitBeats / 2250) ++ leBytes 8 k.preemptions ++ leBytes 8 k.thrash ++ leBytes 8 k.overruns
    ++ leBytes 8 k.epoch ++ List.replicate 32 0

/-- Final accounting records: partition and context, the final pick, the record (R406; log entry 37). -/
def State.storeAccounts (s : State) (p : Fin 16) (x : Part) : State :=
  s.commitAccounts ((List.range x.cfg.nctx).map (fun c =>
    leBytes 1 p.val ++ leBytes 1 c ++ List.replicate 6 0 ++ leBytes 8 s.now.toNat ++ acctBytes (x.ctx (Fin.ofNat 8 c)).acct))

/-! ### Starting (R44, R46, R314, R388) -/

/-- The DRBG answers a request now: its entropy source is healthy, or has failed and no reseed is due (R354). -/
def State.drbgReady (s : State) : Bool := s.sec.entropy == 1 || (s.sec.entropy == 3 && decide (s.sec.requests < 65536))

/-- It answers none before the next reset. -/
def State.drbgOver (s : State) : Bool := s.sec.entropy == 3 && decide (65536 ≤ s.sec.requests)

/-- A draw of the DRBG, open, which is reseeded after every 65,536 requests (R354; log entry 2). -/
def State.drbg (s : State) (w : Nat) : BitVec w × State :=
  let n := if s.sec.entropy == 1 && decide (65536 ≤ s.sec.requests) then 1 else s.sec.requests + 1
  ({ s with sec := { s.sec with requests := n } } : State).draw w

/-- The plan entry at a position (R314), honoured or not. -/
def planEntry (e : Nat) (honoured : Bool) : PlanEntry :=
  if e < 8 then .ctx (Fin.ofNat 8 e) else if e = 0x20 && honoured then .test else .idle

/-- The plan's entry of pick n as it is coded (R314). -/
def PartCfg.codeAt (k : PartCfg) (start n : Nat) : Nat := k.plan.entries.getD ((n - start) % max 1 k.plan.len) 0x10

/-- The entry of pick n of a partition that started at boundary n₀ (R314, R381). -/
def PartCfg.entryAt (k : PartCfg) (start n : Nat) (selfTest : Bool) : PlanEntry :=
  let l := max 1 k.plan.len
  let cycle := (n - start) / l
  planEntry (k.plan.entries.getD ((n - start) % l) 0x10) (selfTest && cycle % max 1 k.plan.stride == k.plan.stride - 1)

/-- The body of a HEADER record (R389). -/
def State.swatchHeader (s : State) (p : Fin 16) (x : Part) (n : Word) : List Byte :=
  leBytes 4 0x48545753 ++ leBytes 2 1 ++ leBytes 1 p.val ++ [0] ++ beBytes 32 x.cfg.measure.toNat ++ leBytes 8 x.cfg.generation.toNat
    ++ leBytes 8 n.toNat ++ leBytes 8 s.fuses.serial.toNat

/-- The ring of an arming lies in a carve of its context, as the new draft has it (R388). -/
def PartCfg.ringOk (k : PartCfg) (a : Arming) : Bool :=
  k.inCarve a.ctx a.base a.len (fun v => v.prot || !k.carves.any (fun v => v.prot)) && decide (4096 < a.len)

/-- The contents of retained carves, recorded at a panel-draft start (R387): the granules that have been written. -/
def State.recordRetained (s : State) (p : Fin 16) (x : Part) (vs : List CarveCfg) : State :=
  (x.cloth.written.filter (fun e => inAny vs (e.1 * 4096))).foldl (fun s e =>
    s.recordCloth p 1 (e.1 * 4096) (s.bytesAt (.cloth p) (e.1 * 4096) 4096) 4097) s

/-- A swatch armed for a partition begins at its start; the arming is used up. -/
def State.beginSwatch (s : State) (p : Fin 16) (n : Word) (retained : List CarveCfg) : State :=
  match s.safety.armings.find? p.val, s.part? p with
  | some a, some x =>
    let s := (({ s with safety := { s.safety with armings := s.safety.armings.del p.val } } : State).setFld (.safeSwatch p) Fl.safeSwatch_MISMATCHES 0).setFld
      (.safeSwatch p) Fl.safeSwatch_TRUNCATED 0
    let w : Swatch := { replay := a.replay, base := a.base, len := a.len, pos := 0, records := 0, bytes := [], ended := false, virtualPick := 0,
                        begun := false, realPick := none, expected := [], formed := [] }
    let fail := s.report (beamUnit 0x29) 0x090B (attributionPart p + a.replay.toNat)
    if !x.cfg.ringOk a then fail
    else if a.replay then
      let h := s.bytesAt (.cloth p) (a.base + 4096) 80
      if s.word64 p a.base ≠ 0 ∧ beNat (slice h 24 32) ≠ x.cfg.measure.toNat then fail
      else s.setPart p { x with swatch := some w, code := 0x10, entry := .idle }
    else
      let s := s.setPart p { x with swatch := some w }
      (s.appendRecord p (swatchRecord 1 0 n (s.swatchHeader p x n))).recordRetained p x retained
  | _, _ => s

/-- A partition starts at boundary n, at position 0 of its plan. -/
def State.startPart (s : State) (p : Fin 16) (n : Word) (retained : List CarveCfg) : State :=
  match s.part? p with
  | none => s
  | some x =>
    let x := { x with
      start := some n, due := none, position := 0, cycles := 0, code := x.cfg.codeAt n.toNat n.toNat, entry := x.cfg.entryAt n.toNat n.toNat s.safety.selfTest,
      ctxs := (List.range x.cfg.nctx).foldl (fun t c => t.put c { Ctx.zero with acct := { Acct.zero with epoch := n.toNat } } Ctx.zero) [] }
    ((s.setPart p x).takeLooms p x.cfg).beginSwatch p n retained

/-- A partition is created by a full draft: everything of it but its start (R44). -/
def State.createPart (s : State) (p : Fin 16) (k : PartCfg) : State :=
  let (key, s) := s.drbg 128
  let cloth := { Cloth.empty with pages := s.farMap k.carves [] }
  (((((s.setPart p (Part.fresh k key cloth [] (Dest.blank false))).freeLooms k.looms).loadTreads k).takeLooms p k).takeSlots p k).emptyWindows p

/-- A partition is replaced by a panel draft's (R46): retained carves and report destinations stay (R349), sessions end (R363). -/
def State.replacePart (s : State) (p : Fin 16) (k : PartCfg) (n : Word) : State :=
  match s.part? p with
  | none => s
  | some x =>
    let keep := kept x.cfg k
    let (key, s) := s.drbg 128
    let cloth := x.cloth.only keep
    let pages := s.farMap (k.carves.filter (fun v => !keep.contains v)) cloth.pages
    let new := Part.fresh k key { cloth with pages := pages } x.dests x.recent
    let s := s.freeLooms (x.cfg.looms.filter (fun g => !k.looms.contains g))
    let retained := keep.any (fun v => v.prot)
    let s : State := { s with sec := { s.sec with
      retained := BitVec.ofNat 16 (setBits s.sec.retained.toNat p.val 1 (if retained then 1 else 0)) } }
    (((s.setPart p new).freeSlots p).takeSlots p k).startPart p n keep

/-- A partition ends by destruction, once its looms have stopped: its storage is zeroised, its looms are free (R310). -/
def State.removePart (s : State) (p : Fin 16) : State :=
  match s.part? p with
  | none => s
  | some x =>
    let s := (((s.storeAccounts p x).zeroiseStores p x.cfg).freeLooms x.cfg.looms).endSession p
    let s := s.freeSlots p
    let s : State := { s with parts := s.parts.del p.val,
                              sec := { s.sec with retained := BitVec.ofNat 16 (setBits s.sec.retained.toNat p.val 1 0) } }
    if s.parts.isEmpty && s.fld .moduleState Fl.moduleState_PHASE == 4 then s.setFld .moduleState Fl.moduleState_PHASE 3 else s

end Sys2Proof.Machine
end

