-- ==== Sys2Proof/Machine/Sync.lean ====
section
/-! DEFINITION. Sys2Proof/Machine/Sync.lean: semaphores, handoff queues, waits for a pick and the end of a run (06 R138 to
R141; 16 R322 to R324). -/

namespace Sys2Proof.Machine

open Sys2Proof

/-! ### Queues -/

def QueueCfg.none : QueueCfg := { dest := 0, depth := 0 }

/-- A queue of a context: its record, and its entries, oldest first. -/
def PartCfg.queueCfg (k : PartCfg) (owner : Fin 8) (i : Nat) : QueueCfg := (k.ctx owner).queues.getD i QueueCfg.none
def Part.queue (x : Part) (owner : Fin 8) (i : Nat) : List QEntry := (x.ctx owner).queues.get i []
def Part.setQueue (x : Part) (owner : Fin 8) (i : Nat) (l : List QEntry) : Part :=
  x.modCtx owner (fun k => { k with queues := k.queues.put i l [] })

/-- The queue has no free entry. -/
def Part.queueFull (x : Part) (owner : Fin 8) (i : Nat) : Bool :=
  decide ((x.cfg.queueCfg owner i).depth ≤ (x.queue owner i).length)

/-- An entry taken counts in the accounting record of the queue's context (R324). -/
def Acct.take (k : Acct) (picks beats : Nat) : Acct :=
  { k with taken := k.taken + 1, waitPicks := k.waitPicks + picks, waitBeats := k.waitBeats + beats }

/-- The taking context takes the oldest entry of a queue: it leaves the queue, is accounted, and opens its run if it is a
run's (R323). -/
def Part.takeEntry (x : Part) (owner : Fin 8) (i : Nat) (taker : Fin 8) (e : QEntry) (now : Word) (beat : Nat) : Part :=
  let y := x.setQueue owner i ((x.queue owner i).drop 1)
  let y := y.modCtx owner (fun k => { k with acct := k.acct.take (now.toNat - e.pick.toNat) (beat - e.beat) })
  if e.run then y.modCtx taker (fun k => { k with runs := k.runs ++ [e.w0] }) else y

/-- The four words of an entry go into four B registers. -/
def Seq.putEntry (q : Seq) (x : Nat) (e : QEntry) : Seq :=
  (((q.putB x e.w0).putB (x + 1) e.w1).putB (x + 2) e.w2).putB (x + 3) e.w3

/-- The oldest entry of a queue, if a TAKE may have it now: not held (R215, R232), and arrived before the deadline (R141). -/
def Part.head? (x : Part) (owner : Fin 8) (i : Nat) (deadline : Option Word) : Option QEntry :=
  match x.queue owner i with
  | [] => none
  | e :: _ =>
    if e.held then none
    else match deadline with
      | none => some e
      | some d => if e.pick.toNat < d.toNat then some e else none

/-- A held oldest entry that arrived before the deadline keeps a TAKE waiting beyond it: it wins once it is released (R141). -/
def Part.headHeld (x : Part) (owner : Fin 8) (i : Nat) (d : Word) : Bool :=
  match x.queue owner i with
  | [] => false
  | e :: _ => e.held && decide (e.pick.toNat < d.toNat)

/-- The deadline has passed and the TAKE takes nothing (R141). -/
def State.takeLate (s : State) (x : Part) (owner : Fin 8) (i : Nat) (deadline : Option Word) : Bool :=
  match deadline with
  | none => false
  | some d => s.passed x d.toNat && !x.headHeld owner i d

/-- A TAKE completes with an entry. -/
def State.took (s : State) (a : At) (p : Fin 16) (x : Part) (owner : Fin 8) (i : Nat) (q : Seq) (reg : Nat) (e : QEntry) : State :=
  (s.setPart p (x.takeEntry owner i a.ctx e (s.pickFor x) s.beat)).setSeq a
    ((q.putEntry reg e).setCond .ok 0).next

/-! ### Semaphores -/

/-- The greatest count of a semaphore (R17, R138). -/
def semMax : Nat := 2 ^ 32 - 2

def Part.sem (x : Part) (c : Fin 8) (i : Nat) : Nat := (x.ctx c).sems.get i 0
def Part.setSem (x : Part) (c : Fin 8) (i n : Nat) : Part := x.modCtx c (fun k => { k with sems := k.sems.put i n 0 })

/-- A sync instruction is held until the MOVEs outside a tile and the SIN and SOUT copies of its context have landed (R135,
R161, R197). -/
def Here.sync (h : Here) (f : State) : State := if h.landing then h.hold else f

/-- SIG (R138). -/
def execSig (a : At) (w : SWord) (s : State) : Out :=
  s.issueS a w 0x50 (sigOk w) "SIG" (fun h =>
    let n := h.x.sem a.ctx w.fn.toNat + w.imm.toNat
    h.sync (if semMax < n then h.trap (Trap.seq 0x0324)
      else { h with s := h.s.setPart h.p (h.x.setSem a.ctx w.fn.toNat n) }.go h.q))

/-- SWAIT (R138). -/
def execSwait (a : At) (w : SWord) (s : State) : Out :=
  s.issueS a w 0x51 (sigOk w) "SWAIT" (fun h =>
    let n := h.x.sem a.ctx w.fn.toNat
    h.sync (if w.imm.toNat ≤ n then { h with s := h.s.setPart h.p (h.x.setSem a.ctx w.fn.toNat (n - w.imm.toNat)) }.go h.q
      else h.setQ { h.q with run := .waiting (.sem w.fn.toNat w.imm.toNat) }))

/-- A waiting sequencer goes on to the next word. -/
def Seq.resume (q : Seq) : Seq := { q with run := .running }.next

/-- SWAIT_RESUME (R138). -/
def execSwaitResume (a : At) (s : State) : Out :=
  match s.resuming a with
  | some (p, x, .sem i n) =>
    if n ≤ x.sem a.ctx i then .next ((s.setPart p (x.setSem a.ctx i (x.sem a.ctx i - n))).setSeq a (s.seq a).resume)
    else .next s
  | _ => .next s

/-- PUT (R138): a full queue sets QFULL and takes nothing. -/
def execPut (a : At) (w : SWord) (s : State) : Out :=
  s.issueS a w 0x52 (putOk w) "PUT" (fun h =>
    let i := w.fn.toNat % 32
    h.sync (if h.x.queueFull a.ctx i then h.go (h.q.setCond .qfull i)
      else
        let b := fun (k : Nat) => h.q.getB (w.x.val + k)
        let e : QEntry := { w0 := b 0, w1 := b 1, w2 := b 2, w3 := b 3, pick := h.s.pickFor h.x, beat := h.s.beat,
                            run := false, held := false }
        { h with s := h.s.setPart h.p (h.x.setQueue a.ctx i (h.x.queue a.ctx i ++ [e])) }.go (h.q.setCond .ok 0)))

/-- Queue index and owner context of a TAKE (R138). -/
def takeQueue (w : SWord) : Nat := w.fn.toNat % 32
def takeOwner (w : SWord) : Fin 8 := Fin.ofNat 8 (bits w.fn.toNat 5 3)

/-- TAKE (R138, R141). -/
def execTake (a : At) (w : SWord) (s : State) : Out :=
  s.issueS a w 0x53 (takeOk w) "TAKE" (fun h =>
    let d := h.q.getB w.y.val
    let deadline := if w.opt12 then some d else none
    let o := takeOwner w
    let i := takeQueue w
    if w.opt12 && ones d then h.trap (Trap.seq 0x0320)
    else h.sync (match h.x.head? o i deadline with
      | some e => h.s.took a h.p h.x o i h.q w.x.val e
      | none =>
        if h.s.takeLate h.x o i deadline then h.go (h.q.setCond .timeout i)
        else h.setQ { h.q with run := .waiting (.entry o.val i w.x.val deadline) }))

/-- TAKE_RESUME (R141). -/
def execTakeResume (a : At) (s : State) : Out :=
  match s.resuming a with
  | some (p, x, .entry o i r d) =>
    match x.head? (Fin.ofNat 8 o) i d with
    | none => .next s
    | some e => .next (s.took a p x (Fin.ofNat 8 o) i { s.seq a with run := .running } r e)
  | _ => .next s

/-- TAKE_TIMEOUT (R141). -/
def execTakeTimeout (a : At) (s : State) : Out :=
  match s.resuming a with
  | some (_, x, .entry o i _ d) =>
    if (x.head? (Fin.ofNat 8 o) i d).isNone && s.takeLate x (Fin.ofNat 8 o) i d then
      .next (s.setSeq a ((s.seq a).setCond .timeout i).resume)
    else .next s
  | _ => .next s

/-- WAITSP (R138). -/
def execWaitsp (a : At) (w : SWord) (s : State) : Out :=
  s.issueS a w 0x54 (waitspOk w) "WAITSP" (fun h =>
    h.sync (if h.x.queueFull a.ctx w.fn.toNat then h.setQ { h.q with run := .waiting (.room w.fn.toNat) } else h.go h.q))

/-- WAITSP_RESUME (R138). -/
def execWaitspResume (a : At) (s : State) : Out :=
  match s.resuming a with
  | some (_, x, .room i) => if x.queueFull a.ctx i then .next s else .next (s.setSeq a (s.seq a).resume)
  | _ => .next s

/-- PWAIT (R138): continues at once if the boundary has passed. -/
def execPwait (a : At) (w : SWord) (s : State) : Out :=
  s.issueS a w 0x55 (pwaitOk w) "PWAIT" (fun h =>
    let n := h.q.getB w.y.val
    if ones n then h.trap (Trap.seq 0x0320)
    else h.sync (if h.s.passed h.x n.toNat then h.go h.q else h.setQ { h.q with run := .waiting (.pick n) }))

/-- DONE (R138, R323): the open run ends done, with its result. -/
def execDone (a : At) (w : SWord) (s : State) : Out :=
  s.issueS a w 0x56 (doneOk w) "DONE" (fun h =>
    let t := h.q.getB w.x.val
    h.sync (if (h.x.ctx a.ctx).runs.contains t then
        let x := (h.x.modCtx a.ctx (fun k => { k with
          runs := k.runs.erase t, acct := { k.acct with done := k.acct.done + 1 } })).note
            (.run 1 (BitVec.ofNat 16 (h.q.getB w.y.val).toNat) t)
        { h with s := h.s.setPart h.p x }.go h.q
      else h.trap (Trap.of 0x0A03 0x21)))

end Sys2Proof.Machine
end

