-- ==== Sys2Proof/Machine/Streams.lean ====
section
/-! DEFINITION. Sys2Proof/Machine/Streams.lean: the stream home and the instructions that use it: SIN, SOUT, SSTEP, FORK, PRUNE
and JOIN (10, 12; 06 R142). -/

namespace Sys2Proof.Machine

open Sys2Proof

/-! ### Entries -/

/-- A stream or slot entry of zeros. -/
def Stream.zero : Stream :=
  { statePtr := 0, partLen := 0, farPtr := 0, parts := 0, live := false, ctx := 0, fp32 := false, nonexp := false,
    outSeen := false, resident := 0, far := 0, shared := 0, step := 0, sinceReset := 0, resetAt := 0, final := 0,
    lastOut := 0, base := 0, cadence := 0, mag := 0, lookahead := 0, status := 0, parent := 0, forkIndex := 0,
    depth := 0, thrash := 0, late := 0, lastReset := 0, kids := 0, releasing := false, behind := none }

/-- Bits of STATUS (R189). -/
def stLate : Nat := 0
def stDamaged : Nat := 1
def stClosing : Nat := 2
def stResetPending : Nat := 3
def stOut : Nat := 4

def Stream.stat (e : Stream) (i : Nat) : Bool := e.status.getLsbD i
def Stream.setStat (e : Stream) (i : Nat) (v : Bool) : Stream :=
  let m : BitVec 8 := BitVec.ofNat 8 (2 ^ i)
  { e with status := if v then e.status ||| m else e.status &&& ~~~m }

/-- A mask with bit p replaced. -/
def setMask (m : BitVec 64) (p : Nat) (v : Bool) : BitVec 64 :=
  let b : BitVec 64 := BitVec.ofNat 64 (2 ^ p)
  if v then m ||| b else m &&& ~~~b

/-- OUT: some part is neither resident nor shared (R189). -/
def Stream.refresh (e : Stream) : Stream :=
  e.setStat stOut ((List.range e.parts).any (fun p => !e.resident.getLsbD p && !e.shared.getLsbD p))

/-- Bytes of a part, and of a record. -/
def Stream.partBytes (e : Stream) : Nat := e.partLen * 4096
def Stream.recordBytes (e : Stream) : Nat := e.parts * e.partBytes

/-- Cloth address of part p of the near or the far record (R196). -/
def Stream.partAt (e : Stream) (far : Bool) (p : Nat) : Nat := (if far then e.farPtr else e.statePtr) + p * e.partBytes

def Part.stream? (x : Part) (id : Nat) : Option Stream :=
  match x.streams.find? id with
  | none => none
  | some e => if e.live then some e else none

/-- Entries of the table, or of the slot table (R186). -/
def PartCfg.streamCount (k : PartCfg) : Nat := if k.maskMode then k.pools.slots else k.pools.streams

/-- A stream has a record in the next report (R205); in mask mode none is kept. -/
def Part.touchStream (x : Part) (id : Nat) : Part :=
  if x.cfg.maskMode then x
  else x.eachDest (fun d => { d with streams := if d.streams.contains id then d.streams else id :: d.streams })

/-- An entry is rewritten, with OUT as it then stands; a change of STATUS goes into the next report. An entry that is not live is
zeroised: its STATUS is 0. -/
def Part.setStream (x : Part) (id : Nat) (e : Stream) : Part :=
  let e := if x.cfg.maskMode then e else e.refresh
  let y := { x with streams := x.streams.ins id e }
  let old : BitVec 8 := match x.streams.find? id with | none => 0 | some o => o.status
  if old = e.status then y else y.touchStream id

/-- The entry is zeroised (R193, R241). -/
def Part.dropStream (x : Part) (id : Nat) : Part := { x with streams := x.streams.del id }

/-- The stream that an instruction of a context names, if it is live and the context's own (R194, R196). The register holds the
ID in bits [15:0] (R243). -/
def streamId (v : Word) : Nat := v.toNat % 65536
def Part.owned? (x : Part) (c : Fin 8) (id : Nat) : Option Stream :=
  match x.stream? id with
  | none => none
  | some e => if e.ctx = c then some e else none

def trapNotLive : Trap := Trap.seq 0x0325

/-! ### SIN and SOUT (R196 to R199) -/

/-- The record that holds a part: the stream's own, or that of the nearest ancestor that does not share it (R238). -/
def Part.ownerOf (x : Part) (e : Stream) (p fuel : Nat) : Stream :=
  match fuel with
  | 0 => e
  | k + 1 =>
    if e.shared.getLsbD p then
      match x.stream? e.parent with
      | none => e
      | some a => x.ownerOf a p k
    else e

/-- The extent of a SIN or SOUT in the loom store: checked against its buffer's window in both regimes, then the carve
(R112, R196, R436). -/
def Here.partExtent (h : Here) (w : Option Place) (n : Nat) : Except Trap Nat :=
  match w with
  | none => .error (Trap.guard 0x0502 0)
  | some w =>
    match w.beyond n with
    | some b => .error (Trap.guard 0x0502 b)
    | none => h.k.access h.a (some w) w.off n

/-- A SIN that copies counts as swap thrash when the last SOUT landed in this pick or the one before (R199). -/
def Stream.thrashes (e : Stream) (now : Word) : Bool := e.outSeen && decide (now.toNat ≤ e.lastOut.toNat + 1)

def State.countThrash (s : State) (p : Fin 16) (x : Part) (id : Nat) (e : Stream) : State :=
  let x := x.setStream id { e with thrash := if x.cfg.maskMode then e.thrash else satAdd 16 e.thrash 1 }
  (s.setPart p (x.modCtx e.ctx (fun k => { k with acct := { k.acct with thrash := k.acct.thrash + 1 } }))).bump
    (.cxeStreamCount x.cfg.home p) Fl.cxeStreamCount_THRASH 1

/-- A copy of the context is in progress on this loom: SIN and SOUT take effect in order (R111, R198). -/
def Here.copying (h : Here) : Bool := h.x.copies.any (fun c => c.loom == h.a.loom && c.ctx == h.a.ctx)

/-- SIN (R197). -/
def execSin (a : At) (w : SWord) (s : State) : Out :=
  s.issueS a w 0x60 (doneOk w) "SIN" (fun h =>
    let id := streamId (h.q.getB w.x.val)
    let rank := h.k.rank a.loom
    if h.copying then h.hold
    else match h.x.owned? a.ctx id with
      | none => h.trap trapNotLive
      | some e =>
        if e.parts ≤ rank then h.trap trapNotLive
        else if e.resident.getLsbD rank then h.go h.q
        else match h.partExtent (h.place w.y.val) e.partBytes with
          | .error t => h.trap t
          | .ok addr =>
            let o := h.x.ownerOf e rank 17
            let record := o.partAt (o.far.getLsbD rank) rank
            if h.s.locked h.p h.k (.cloth h.p) record e.partBytes then h.trap (Trap.of 0x0806 0x28)
            else if h.x.writeHeld h.l a addr e.partBytes then h.hold
            else
              let s := if e.thrashes (h.s.pickFor h.x) then h.s.countThrash h.p h.x id e else h.s
              let c : Copy := { loom := a.loom, ctx := a.ctx, id := id, part := rank, out := false, toFar := false,
                                store := addr, record := record, len := e.partBytes }
              { h with s := s.modPart h.p (fun x => { x with copies := x.copies ++ [c] }) }.go h.q)

/-- SOUT (R198). -/
def execSout (a : At) (w : SWord) (s : State) : Out :=
  s.issueS a w 0x61 (soutOk w) "SOUT" (fun h =>
    let id := streamId (h.q.getB w.x.val)
    let rank := h.k.rank a.loom
    if h.copying then h.hold
    else match h.x.owned? a.ctx id with
      | none => h.trap trapNotLive
      | some e =>
        if e.parts ≤ rank || decide (0 < e.kids) then h.trap trapNotLive
        else if !e.resident.getLsbD rank then h.go h.q
        else match h.partExtent (h.place w.y.val) e.partBytes with
          | .error t => h.trap t
          | .ok addr =>
            let far := w.opt12 && e.farPtr != 0
            let record := e.partAt far rank
            if h.s.locked h.p h.k (.cloth h.p) record e.partBytes then h.trap (Trap.of 0x0806 0x28)
            else if h.x.readHeld h.l a addr e.partBytes then h.hold
            else
              let c : Copy := { loom := a.loom, ctx := a.ctx, id := id, part := rank, out := true, toFar := far,
                                store := addr, record := record, len := e.partBytes }
              { h with s := h.s.modPart h.p (fun x => { x with copies := x.copies ++ [c] }) }.go h.q)

/-- The oldest copy of a context on a loom. -/
def Part.copy? (x : Part) (a : At) (out : Bool) : Option Copy :=
  x.copies.find? (fun c => c.loom == a.loom && c.ctx == a.ctx && c.out == out)

/-- SIN_LANDED (R197): every block of the record is verified; a failure marks the stream damaged and faults the context. -/
def execSinLanded (a : At) (s : State) : Out :=
  match (s.loom a.loom).part with
  | none => .next s
  | some p =>
    match s.part? p with
    | none => .next s
    | some x =>
      match x.copy? a false with
      | none => .next s
      | some c =>
        let y := { x with copies := x.copies.erase c }
        let st : Store := .cloth p
        let fails := s.readFails st c.record c.len
        let bad := (blocksOf c.record c.len).find? (fun b => s.blockBad st b)
        let mark := fun (f : Stream → Stream) => match y.stream? c.id with
          | none => y
          | some e => y.setStream c.id (f e)
        match fails, bad with
        | some e, _ => .next ((s.setPart p y).readFault a st e)
        | none, some b =>
          .next (((s.setPart p (mark (fun e => e.setStat stDamaged true))).bump (.cxeStreamCount x.cfg.home p)
            Fl.cxeStreamCount_DAMAGED 1).faultBy a (s.storeUnit st (4096 * b)) 0x0501 0)
        | none, none =>
          let s := s.setPart p (mark (fun e => { e with resident := setMask e.resident c.part true }))
          let bs := s.bytesAt st c.record c.len
          .next ((s.load_ (some a) st c.record c.len).putAt (.loom a.loom) c.store bs)

/-- SOUT_LANDED (R198). -/
def execSoutLanded (a : At) (s : State) : Out :=
  match (s.loom a.loom).part with
  | none => .next s
  | some p =>
    match s.part? p with
    | none => .next s
    | some x =>
      match x.copy? a true with
      | none => .next s
      | some c =>
        let y := { x with copies := x.copies.erase c }
        let now := s.pickFor x
        let y := match y.stream? c.id with
          | none => y
          | some e => y.setStream c.id { e with
              resident := setMask e.resident c.part false, far := setMask e.far c.part c.toFar,
              shared := setMask e.shared c.part false, lastOut := now, outSeen := true }
        match s.readFails (.loom a.loom) c.store c.len with
        | some e => .next ((s.setPart p { x with copies := x.copies.erase c }).readFault a (.loom a.loom) e)
        | none => .next ((s.setPart p y).copyRun a (.cloth p) (.loom a.loom) c.record c.store c.len)

/-! ### Updates of the stream home (R187, R194, R233 to R242) -/

/-- What the stream home replies to an update. -/
inductive Reply where
  | trap (t : Trap)
  /-- FORK waits for frames whose release a snapshot defers (R234). -/
  | wait
  | done (q : Seq)

/-- SSTEP (R194, R237). -/
def homeStep (p : Fin 16) (x : Part) (a : At) (w : SWord) (q : Seq) (s : State) : State × Reply :=
  let id := streamId (q.getB w.x.val)
  match x.owned? a.ctx id with
  | none => (s, .trap trapNotLive)
  | some e =>
    let n := e.step + 1
    if decide (0 < e.kids) || (e.final != 0 && decide (e.final.toNat < n.toNat)) then (s, .trap trapNotLive)
    else
      let fires := n == e.resetAt
      let e := { e with
        step := n, sinceReset := if fires then 1 else e.sinceReset + 1, lastReset := if fires then n else e.lastReset,
        resetAt := if fires then 0 else e.resetAt }
      let e := if fires then (e.setStat stResetPending false).setStat stDamaged false else e
      (s.setPart p ((x.setStream id e).touchStream id),
       .done ((q.putP (Fin.ofNat 8 w.y.val) fires).putB w.z.val n))

/-- Child i of a fork (R235). -/
def Stream.child (e : Stream) (parent base i : Nat) : Stream :=
  { Stream.zero with
    statePtr := base + i * e.recordBytes, partLen := e.partLen, parts := e.parts, mag := e.mag, lookahead := e.lookahead,
    live := true, ctx := e.ctx, fp32 := e.fp32, nonexp := e.nonexp, shared := BitVec.ofNat 64 (2 ^ e.parts - 1),
    step := e.step, sinceReset := e.sinceReset, lastReset := e.lastReset, parent := parent, forkIndex := i,
    depth := e.depth + 1 }

/-- The run of stream IDs that a FORK takes (R234). -/
def Part.forkIds (x : Part) (bound : Bool) (n : Nat) : Option Nat :=
  let limit := if bound then min x.cfg.pools.streams x.cfg.pools.seqs else x.cfg.pools.streams
  lowestRun (fun i => (x.stream? i).isSome || (bound && (x.pool.seq? i).isSome)) limit n

/-- [a, a + n) lies wholly in one near-home carve of the context; else the first byte that does not (R236). -/
def PartCfg.nearTrap (k : PartCfg) (c : Fin 8) (a n : Nat) : Option Trap :=
  if k.inCarve c a n (fun v => !v.far) then none
  else
    let top := match k.carveAt c a with
      | none => a
      | some v => if v.far then a else v.base + v.len
    some (Trap.guard 0x0503 top)

/-- FORK (R233 to R239). -/
def homeFork (p : Fin 16) (x : Part) (a : At) (w : SWord) (q : Seq) (s : State) : State × Reply :=
  let id := streamId (q.getB w.x.val)
  let n := (q.getB w.y.val).toNat
  let base := w.imm.toNat
  if ones (q.getB w.y.val) then (s, .trap (Trap.seq 0x0320))
  else match x.owned? a.ctx id with
    | none => (s, .trap trapNotLive)
    | some e =>
      if e.stat stClosing || e.resident != 0 then (s, .trap trapNotLive)
      else if n = 0 then (s, .done q)
      else if 256 < n then (s, .done (q.setCond .forkLimit 0))
      else if 15 < e.depth then (s, .done (q.setCond .forkLimit 1))
      else
        let bound := x.pool.boundTo id
        match x.forkIds bound.isSome n with
        | none => (s, .done (q.setCond .tableFull 0))
        | some first =>
          let runs := match bound with
            | none => some []
            | some (_, sq) => x.pool.forkRuns x.cfg.pools.pages sq.tableFrames n
          match runs with
          | none => (s, .done (q.setCond .tableFull 0))
          | some runs =>
            match x.cfg.nearTrap a.ctx base (n * e.recordBytes) with
            | some t => (s, .trap t)
            | none =>
              let frames := match bound with
                | none => []
                | some (_, sq) => runs.flatMap (fun f => rangeFrom f sq.tableFrames)
              if frames.any (fun f => (x.pool.frame f).deferred) then (s, .wait)
              else
                let y := x.setStream id { e with kids := e.kids + n }
                let y := (List.range n).foldl (fun y i => y.setStream (first + i) (e.child id base i)) y
                let pool := match bound with
                  | none => y.pool
                  | some (sid, _) => (runs.zipIdx).foldl (fun k r => k.forkSeq sid (first + r.2) r.1) y.pool
                let y := { y with pool := pool }
                let reg : Reg := .cxeFork x.cfg.home p
                (((s.setPart p y).bump reg Fl.cxeFork_FORKS 1).bump reg Fl.cxeFork_CHILDREN n,
                 .done ((q.putB w.z.val (BitVec.ofNat 64 first)).setCond .ok 0))

/-- The live children of a stream. -/
def Part.childrenOf (x : Part) (id depth : Nat) : List Nat :=
  (x.streams.filter (fun e => e.2.live && e.2.depth == depth + 1 && e.2.parent == id)).map (fun e => e.1)

/-- A stream and its live descendants, deepest first, in increasing ID order within a depth (R241). -/
def Part.family (x : Part) (ids : List Nat) (depth fuel : Nat) : List Nat :=
  match fuel with
  | 0 => ids
  | k + 1 =>
    let next := (x.streams.filter (fun e => e.2.live && e.2.depth == depth + 1 && ids.contains e.2.parent)).map (fun e => e.1)
    if next.isEmpty then ids else x.family next (depth + 1) k ++ ids

/-- One stream is released (R241): its sequence closes, its entry is zeroised, its parent has one live child fewer. -/
def Part.releaseStream (x : Part) (id : Nat) : Part :=
  match x.stream? id with
  | none => x
  | some e =>
    let pool := match x.pool.boundTo id with
      | none => x.pool
      | some (sid, _) => x.pool.closeSeq sid
    let y := { x.dropStream id with pool := pool }
    if e.depth = 0 then y
    else match y.stream? e.parent with
      | none => y
      | some o => y.setStream e.parent { o with kids := o.kids - 1 }

/-- PRUNE (R241). -/
def homePrune (p : Fin 16) (x : Part) (a : At) (w : SWord) (q : Seq) (s : State) : State × Reply :=
  let id := streamId (q.getB w.x.val)
  match x.owned? a.ctx id with
  | none => (s, .trap trapNotLive)
  | some e =>
    if e.depth = 0 then (s, .trap trapNotLive)
    else
      let gone := x.family [id] e.depth 17
      ((s.setPart p (gone.foldl (fun y i => y.releaseStream i) x)).bump (.cxeFork x.cfg.home p) Fl.cxeFork_PRUNED gone.length,
       .done q)

/-- JOIN, step 1: the parent's entry after taking the child's parts, and the copies that the stream home makes (R242). -/
def joinParts (ex ey : Stream) (n : Nat) : Stream × List (Nat × Nat) :=
  (List.range n).foldl (fun r p =>
    if ey.resident.getLsbD p then ({ r.1 with resident := setMask r.1.resident p true }, r.2)
    else if !ey.shared.getLsbD p then
      ({ r.1 with resident := setMask r.1.resident p false, far := setMask r.1.far p false },
       r.2 ++ [(ex.partAt false p, ey.partAt (ey.far.getLsbD p) p)])
    else r) (ex, [])

/-- JOIN (R242). -/
def homeJoin (p : Fin 16) (x : Part) (a : At) (w : SWord) (q : Seq) (s : State) : State × Reply :=
  let ix := streamId (q.getB w.x.val)
  let iy := streamId (q.getB w.y.val)
  match x.owned? a.ctx ix, x.stream? iy with
  | some ex, some ey =>
    if ey.parent != ix || ey.depth != ex.depth + 1 || ey.kids != 0 then (s, .trap trapNotLive)
    else
      let parts := joinParts ex ey ey.parts
      let cancel := parts.1.resetAt != 0 && decide (parts.1.resetAt.toNat ≤ ey.step.toNat)
      let e := { parts.1 with step := ey.step, sinceReset := ey.sinceReset, lastReset := ey.lastReset,
                              resetAt := if cancel then 0 else parts.1.resetAt }
      let e := if cancel then e.setStat stResetPending false else e
      let pool := match x.pool.boundTo ix, x.pool.boundTo iy with
        | some (sx, _), some (sy, _) => x.pool.joinSeq sx sy
        | none, some (sy, _) => x.pool.closeSeq sy
        | _, _ => x.pool
      let others := x.family ((x.childrenOf ix ex.depth).filter (fun i => i != iy)) (ex.depth + 1) 17
      let y := others.foldl (fun y i => y.releaseStream i) ({ x with pool := pool }.setStream ix e)
      let y := (y.dropStream iy)
      let y := match y.stream? ix with
        | none => y
        | some e => (y.setStream ix { e with kids := 0 }).touchStream ix
      let reg : Reg := .cxeFork x.cfg.home p
      let s := ((s.setPart p y).bump reg Fl.cxeFork_PRUNED others.length).bump reg Fl.cxeFork_JOINS 1
      (parts.2.foldl (fun s c => s.copyRun a (.cloth p) (.cloth p) c.1 c.2 ex.partBytes) s, .done q)
  | _, _ => (s, .trap trapNotLive)

/-- An update of the stream home by its opcode. -/
def homeDo (op : Nat) (p : Fin 16) (x : Part) (a : At) (w : SWord) (q : Seq) (s : State) : State × Reply :=
  if op = 0x62 then homeStep p x a w q s
  else if op = 0x63 then homeFork p x a w q s
  else if op = 0x64 then homePrune p x a w q s
  else homeJoin p x a w q s

/-- The reply lands: the instruction completes, faults, or waits for frames. -/
def Reply.land (r : State × Reply) (a : At) (w : SWord) (q : Seq) : State :=
  match r.2 with
  | .trap t => (r.1.setSeq a { q with run := .running }).trap a t
  | .wait => r.1.setSeq a { q with run := .waiting (.fork w) }
  | .done q' => r.1.setSeq a q'.next

/-- An instruction of the stream class: applied at once by a stream home on the loom's own mill, else sent to it (R187). -/
def Here.home (h : Here) (w : SWord) (op : Nat) : State :=
  if h.k.home = h.mill then Reply.land (homeDo op h.p h.x h.a w h.q h.s) h.a w h.q
  else
    let u : HomeUpdate := { at_ := h.a, op := op, w := w }
    let s := h.s.modPart h.p (fun x => { x with homeQueue := x.homeQueue ++ [u] })
    s.setSeq h.a { h.q with run := .waiting .home }

def execSstep (a : At) (w : SWord) (s : State) : Out := s.issueS a w 0x62 (sstepOk w) "SSTEP" (fun h => h.home w 0x62)
def execFork (a : At) (w : SWord) (s : State) : Out := s.issueS a w 0x63 (forkOk w) "FORK" (fun h => h.home w 0x63)
def execPrune (a : At) (w : SWord) (s : State) : Out := s.issueS a w 0x64 (pruneOk w) "PRUNE" (fun h => h.home w 0x64)
def execJoin (a : At) (w : SWord) (s : State) : Out := s.issueS a w 0x65 (doneOk w) "JOIN" (fun h => h.home w 0x65)

/-- STREAM_HOME_UPDATE (R187): the oldest update that has reached the stream home is applied; its reply lands where the
sequencer still waits for it. -/
def execStreamHomeUpdate (p : Fin 16) (s : State) : Out :=
  match s.part? p with
  | none => .next s
  | some x =>
    match x.homeQueue with
    | [] => .next s
    | u :: rest =>
      let x := { x with homeQueue := rest }
      let s := s.setPart p x
      let q := s.seq u.at_
      let r := homeDo u.op p x u.at_ u.w { q with run := .running } s
      if q.run = .waiting .home then .next (Reply.land r u.at_ u.w { q with run := .running }) else .next r.1

/-- FORK_RESUME (R234): the frames that a waiting FORK takes have been released. -/
def execForkResume (a : At) (s : State) : Out :=
  match s.resuming a with
  | some (p, x, .fork w) =>
    let q := { s.seq a with run := .running }
    .next (Reply.land (homeDo 0x63 p x a w q s) a w q)
  | _ => .next s

end Sys2Proof.Machine
end

