-- ==== Sys2Proof/Machine/Requests.lean ====
section
/-! DEFINITION. Sys2Proof/Machine/Requests.lean: the control plane's requests of a partition (17 R344, R345): runs (16 R321, R322), stream
and slot requests (10 R188 to R193, R200), sequence requests (11 R212 to R215; 12 R232) and report destinations (17 R349): what each
checks on arrival, and what it does at the boundary that applies it. -/

namespace Sys2Proof.Machine

open Sys2Proof

/-- A message type of the control plane. -/
def ctrlType (code : Nat) (mgmt : Bool) (form : List Fit) : MsgType :=
  { code := code, control := true, mgmt := mgmt, authentic := false, form := form, tail := false }

/-- The started partition that a request names (R310), else TARGET. -/
def State.target (s : State) (r : Staged) : Except Answer (Fin 16 × Part) :=
  match r.part? with
  | none => .error (.target 4)
  | some p =>
    match s.part? p with
    | none => .error (.target 4)
    | some x => if x.started then .ok (p, x) else .error (.target 4)

/-! ### Requests that fall between runs (R215, R232) -/

/-- A treadling of the partition holds one of these opcodes: its context. -/
def PartCfg.ctxUsing (k : PartCfg) (ops : List Nat) : Option (Fin 8) :=
  (k.treads.find? (fun t => (List.range t.words).any (fun i => ops.contains (t.word i % 256)))).map (fun t => Fin.ofNat 8 t.ctx)

/-- The page context (R211), and the forking loom's context where a treadling holds FORK (R232). -/
def PartCfg.pageCtx (k : PartCfg) : Option (Fin 8) := k.ctxUsing [0x25, 0x66, 0x67]
def PartCfg.forkCtx (k : PartCfg) : Option (Fin 8) := k.ctxUsing [0x63]

/-- The context whose runs a request waits for. -/
def PartCfg.heldBy (k : PartCfg) (type : Nat) : Option (Fin 8) :=
  if 0x0108 ≤ type ∧ type ≤ 0x010A then k.pageCtx
  else if 0x0101 ≤ type ∧ type ≤ 0x0103 then k.forkCtx
  else none

/-- The entries destined for a context that carry runs are changed. -/
def Part.mapRuns (x : Part) (c : Fin 8) (f : QEntry → QEntry) : Part :=
  (List.finRange 8).foldl (fun x o =>
    x.modCtx o (fun k => { k with queues := k.queues.map (fun e =>
      if (x.cfg.queueCfg o e.1).dest = c.val then (e.1, e.2.map (fun q => if q.run then f q else q)) else e) })) x

/-- Queued run entries destined for a context. -/
def Part.queuedRuns (x : Part) (c : Fin 8) : List QEntry :=
  (List.finRange 8).flatMap (fun o =>
    ((x.ctx o).queues.filter (fun e => (x.cfg.queueCfg o e.1).dest == c.val)).flatMap (fun e => e.2.filter (fun q => q.run)))

/-- No run of the context is open, and every run that arrived before pick a has ended (R215; log entry 40). -/
def Part.betweenRuns (x : Part) (c : Fin 8) (a : Word) : Bool :=
  (x.ctx c).runs.isEmpty && (x.queuedRuns c).all (fun q => decide (a.toNat ≤ q.pick.toNat))

/-- Waiting requests hold the context's entries of pick a and later. -/
def State.holdsFrom (s : State) (p : Fin 16) (x : Part) (c : Fin 8) : Option Nat :=
  ((s.net.staged.filter (fun r => r.part? == some p && !r.mgmt && x.cfg.heldBy r.type == some c)).map (fun r => r.pick.toNat)).min?

/-- The held marks of a partition's entries as its waiting requests now stand. -/
def State.markHeld (s : State) (p : Fin 16) : State :=
  s.modPart p (fun x => (List.finRange 8).foldl (fun x c =>
    match s.holdsFrom p x c with
    | none => x.mapRuns c (fun q => { q with held := false })
    | some a => x.mapRuns c (fun q => { q with held := decide (a ≤ q.pick.toNat) })) x)

/-- A staged request of the control plane: BUSY in replay (R392), else staged, its context's entries held. -/
def State.stageFor (s : State) (r : Staged) (refused : Option Nat) : State × Answer :=
  match s.target r with
  | .error a => (s, a)
  | .ok (p, x) =>
    match refused with
    | some off => (s, .field off)
    | none =>
      if x.replaying then (s, .busy)
      else
        let t := ({ s with net := { s.net with staged := s.net.staged ++ [r] } } : State).markHeld p
        ({ t with net := { t.net with staged := s.net.staged } }, .staged)

/-! ### Runs (R321, R322) -/

/-- A queue of a context that the control plane feeds and that is destined for the context (R313). -/
def PartCfg.controlFed (k : PartCfg) (c : Fin 8) (i : Nat) : Bool :=
  match (k.ctx c).queues[i]? with
  | none => false
  | some q => q.dest == c.val && !k.creel.any (fun d => d.ctx == c.val && d.queue == i)
      && !k.treads.any (fun t => t.ctx == c.val && (List.range t.words).any (fun j =>
        t.word j % 256 == 0x52 && bits (t.word j) 32 16 == i))

/-- A context has ended: every treadling of it has (log entry 40). -/
def State.ctxEnded (s : State) (x : Part) (c : Fin 8) : Bool :=
  let ts := x.cfg.treads.filter (fun t => t.ctx == c.val)
  !ts.isEmpty && ts.all (fun t => (s.seq { loom := Fin.ofNat 256 t.loom, ctx := c }).run == .ended)

/-- The status of a submission (R321; log entry 40 for the order). -/
def State.runStatus (s : State) (x : Part) (c : Fin 8) (i : Nat) : Nat :=
  if x.safe.isSome || x.stopping.isSome || s.safety.moduleSafe then 5
  else if (x.ctx c).fault.isSome || s.ctxEnded x c then 4
  else if !x.cfg.controlFed c i then 2
  else if x.queueFull c i then 3
  else 0

/-- The token of a run (R322). -/
def runToken (p : Fin 16) (c : Fin 8) (n : Nat) : Word := BitVec.ofNat 64 (n % 2 ^ 48 + c.val * 2 ^ 48 + p.val * 2 ^ 51)

def runBody (status n : Nat) : List Byte := beBytes 1 status ++ List.replicate 7 0 ++ beBytes 8 n

/-- RUN_SUBMIT. -/
def execRunSubmit (m : Msg) (s : State) : Out :=
  s.septa (ctrlType 0x0100 false [.any 1, .zero 7, .any 8, .any 8]) m (fun r s =>
    match s.target r, r.ctx? with
    | .error _, _ => (s, .done (runBody 1 0))
    | .ok _, none => (s, .done (runBody 1 0))
    | .ok (p, x), some c =>
      if x.cfg.nctx ≤ c.val then (s, .done (runBody 1 0))
      else if x.replaying then (s, .busy)
      else
        let i := r.num 0 1
        let st := s.runStatus x c i
        if st ≠ 0 then
          (s.setPart p (x.modCtx c (fun k => { k with acct := { k.acct with refused := k.acct.refused + 1 } })), .done (runBody st 0))
        else
          let n := (x.ctx c).acct.submitted + 1
          let e : QEntry := { w0 := runToken p c n, w1 := BitVec.ofNat 64 (r.num 8 8), w2 := s.now, w3 := BitVec.ofNat 64 (r.num 16 8),
                              pick := s.now, beat := s.beat, run := true, held := (s.holdsFrom p x c).isSome }
          let y := (x.modCtx c (fun k => { k with acct := { k.acct with submitted := n, lastSeq := r.msg.hdr.sequence.toNat } })).setQueue c i
            (x.queue c i ++ [e])
          ((s.setPart p y).recordEntry p c i e, .done (runBody 0 n)))

/-! ### Streams and slots (R188 to R193, R200) -/

def formStreamOpen : List Fit :=
  [.any 2, .any 1, .any 1, .count 2, .zero 2, .any 8, .any 8, .any 8, .any 4, .count 4, .count 8, .any 1, .zero 7]
def formStreamStep : List Fit := [.any 2, .zero 6, .count 8]
def formId : List Fit := [.any 2, .zero 6]

/-- An FP32 value that is negative or not finite. -/
def badMagnitude (v : Nat) : Bool := bits v 23 8 == 255 || (bit v 31 && bits v 0 31 != 0)

/-- An open's form (R190; log entry 40): the field outside its range. MAG is read in table mode only. -/
def openBreaks (r : Staged) (mask : Bool) : Option Nat :=
  let parts := r.num 2 1
  let far := r.num 16 8
  if parts = 0 ∨ 64 < parts then some 2
  else if 3 < r.num 3 1 then some 3
  else if r.num 4 2 = 0 ∨ 1536 < r.num 4 2 then some 4
  else if r.num 8 8 % 4096 ≠ 0 ∨ 2 ^ 48 ≤ r.num 8 8 then some 8
  else if far % 4096 ≠ 0 ∨ 2 ^ 48 ≤ far then some 16
  else if 2 ^ parts ≤ r.num 24 8 ∨ (far = 0 ∧ r.num 24 8 ≠ 0) then some 24
  else if !mask && badMagnitude (r.num 32 4) then some 32
  else none

def State.maskModeOf (s : State) (r : Staged) : Bool :=
  match s.target r with | .error _ => false | .ok (_, x) => x.cfg.maskMode

/-- STREAM_OPEN (R191). -/
def execStreamOpen (m : Msg) (s : State) : Out :=
  s.septa (ctrlType 0x0101 false formStreamOpen) m (fun r s => s.stageFor r (openBreaks r (s.maskModeOf r)))

/-- STREAM_RESET (R192). -/
def execStreamReset (m : Msg) (s : State) : Out :=
  s.septa (ctrlType 0x0102 false formStreamStep) m (fun r s => s.stageFor r none)

/-- STREAM_CLOSE (R193, R200). -/
def execStreamClose (m : Msg) (s : State) : Out :=
  s.septa (ctrlType 0x0103 false formStreamStep) m (fun r s => s.stageFor r none)

/-- FLAGS of an entry (R188). -/
def Stream.flags (e : Stream) : Nat :=
  e.live.toNat + e.ctx.val * 2 + e.fp32.toNat * 16 + e.nonexp.toNat * 32 + e.outSeen.toNat * 64

/-- A 128-byte stream-table entry, or a 32-byte slot entry, as a reply body: each field big-endian (R2). -/
def Stream.entryBytes (e : Stream) (mask : Bool) : List Byte :=
  let head := beBytes 6 e.statePtr ++ beBytes 2 e.partLen ++ beBytes 6 e.farPtr ++ beBytes 1 e.parts ++ beBytes 1 e.flags
    ++ beBytes 8 e.resident.toNat
  if mask then head ++ beBytes 8 e.lastOut.toNat
  else head ++ beBytes 8 e.far.toNat ++ beBytes 8 e.shared.toNat ++ beBytes 8 e.step.toNat ++ beBytes 8 e.sinceReset.toNat
    ++ beBytes 8 e.resetAt.toNat ++ beBytes 8 e.final.toNat ++ beBytes 8 e.lastOut.toNat ++ beBytes 8 e.base.toNat ++ beBytes 4 e.cadence
    ++ beBytes 4 e.mag.toNat ++ beBytes 1 e.lookahead ++ beBytes 1 e.status.toNat ++ beBytes 2 e.parent ++ beBytes 1 e.forkIndex
    ++ beBytes 1 e.depth ++ beBytes 2 e.thrash ++ beBytes 4 e.late ++ List.replicate 4 0 ++ beBytes 8 e.lastReset.toNat
    ++ List.replicate 8 0

/-- STREAM_STATUS (R188). -/
def execStreamStatus (m : Msg) (s : State) : Out :=
  s.septa (ctrlType 0x0104 true formId) m (fun r s =>
    match s.target r with
    | .error a => (s, a)
    | .ok (_, x) =>
      if x.cfg.streamCount ≤ r.num 0 2 then (s, .field 0)
      else (s, .done (((x.stream? (r.num 0 2)).getD Stream.zero).entryBytes x.cfg.maskMode)))

/-- What an open request gives a stream or slot (R191, R200). -/
def openedStream (r : Staged) (c : Fin 8) (mask : Bool) : Stream :=
  let e := { Stream.zero with
    statePtr := r.num 8 8, partLen := r.num 4 2, farPtr := r.num 16 8, parts := r.num 2 1, live := true, ctx := c,
    far := BitVec.ofNat 64 (r.num 24 8) }
  if mask then e
  else { e with
    fp32 := bit (r.num 3 1) 0, nonexp := bit (r.num 3 1) 1, mag := BitVec.ofNat 32 (r.num 32 4), cadence := r.num 36 4,
    base := BitVec.ofNat 64 (r.num 40 8), lookahead := r.num 48 1, resetAt := 1 }

/-- An open is applied: the entry, or the field refused (log entry 40). -/
def Part.openStream (x : Part) (r : Staged) : Except Nat Part :=
  let id := r.num 0 2
  let bytes := r.num 2 1 * r.num 4 2 * 4096
  let mask := x.cfg.maskMode
  if (x.stream? id).isSome ∨ x.cfg.streamCount ≤ id then .error 0
  else match r.ctx? with
    | none => .error 0xFFFF
    | some c =>
      if x.cfg.nctx ≤ c.val then .error 0xFFFF
      else if mask ∧ r.num 3 1 ≠ 0 then .error 3
      else if !x.cfg.inCarve c (r.num 8 8) bytes (fun v => !v.far) then .error 8
      else if r.num 16 8 ≠ 0 ∧ !x.cfg.inCarve c (r.num 16 8) bytes (fun v => v.far) then .error 16
      else if x.cfg.looms.length < r.num 2 1 then .error 2
      else .ok (x.setStream id (openedStream r c mask))

/-- A reset is applied (R192). A slot has none (log entry 40). -/
def Part.resetStream (x : Part) (r : Staged) : Except Nat Part :=
  let id := r.num 0 2
  let n : Word := BitVec.ofNat 64 (r.num 8 8)
  match x.stream? id with
  | none => .error 0
  | some e =>
    if x.cfg.maskMode || e.stat stClosing || e.resetAt != 0 then .error 0
    else if n.toNat ≤ e.step.toNat then .error 8
    else .ok (x.setStream id ({ e with resetAt := n }.setStat stResetPending true))

/-- A close is applied (R193), or a slot's release request (R200). -/
def Part.closeStream (x : Part) (r : Staged) : Except Nat Part :=
  let id := r.num 0 2
  let n : Word := BitVec.ofNat 64 (r.num 8 8)
  match x.stream? id with
  | none => .error 0
  | some e =>
    if x.cfg.maskMode then
      if e.releasing then .error 0 else .ok { x with streams := x.streams.ins id { e with releasing := true } }
    else if e.stat stClosing then .error 0
    else if n.toNat < e.step.toNat then .error 8
    else .ok (x.setStream id ({ e with final := n }.setStat stClosing true))

/-- The stream whose record a part is read from: its own, or the nearest ancestor's that does not share it (R238). -/
def Part.ownerId (x : Part) (id p fuel : Nat) : Nat :=
  match fuel, x.stream? id with
  | k + 1, some e => if e.shared.getLsbD p && (x.stream? e.parent).isSome then x.ownerId e.parent p k else id
  | _, _ => id

/-- A live child shares a part of a stream's records. -/
def Part.sharedWith (x : Part) (id : Nat) : Bool :=
  x.streams.any (fun e => e.1 != id && e.2.live && (List.range e.2.parts).any (fun p =>
    e.2.shared.getLsbD p && x.ownerId e.1 p 17 == id))

/-- A closing stream, or a slot with its release request, whose conditions hold (R193, R200, R232). -/
def Part.releases (x : Part) (id : Nat) (e : Stream) (now : Word) : Bool :=
  e.live && e.resident == 0 &&
    (if x.cfg.maskMode then e.releasing
     else e.stat stClosing && e.step == e.final && !x.sharedWith id
       && (match x.cfg.forkCtx with | none => true | some c => x.betweenRuns c now))

/-- Its entry is zeroised, and its parent has one live child fewer. -/
def Part.letGo (x : Part) (id : Nat) : Part :=
  match x.stream? id with
  | none => x
  | some e =>
    let y := x.dropStream id
    if e.depth = 0 then y
    else match y.stream? e.parent with
      | none => y
      | some o => y.setStream e.parent { o with kids := o.kids - 1 }

/-- STREAM_RELEASE: at step 4 of a boundary. -/
def Part.releaseClosed (x : Part) (now : Word) : Part :=
  x.streams.foldl (fun y e => if y.releases e.1 e.2 now then y.letGo e.1 else y) x

/-! ### Sequences (R212 to R214) -/

def formSeqOpen : List Fit :=
  [.any 2, .count 2, .any 1, .any 1, .any 1, .any 1, .count 4, .any 4, .count 2, .any 2, .zero 4]
def formSeqPolicy : List Fit := [.any 2, .any 1, .any 1, .count 2, .zero 2]

/-- An open's form: the field outside its range or codes. -/
def seqOpenBreaks (r : Staged) : Option Nat :=
  if r.num 2 2 = 0 ∨ 4096 < r.num 2 2 then some 2
  else if r.num 4 1 = 0 ∨ 64 < r.num 4 1 then some 4
  else if 15 < r.num 5 1 ∨ bits (r.num 5 1) 0 2 = 3 then some 5
  else if bits (r.num 6 1) 4 2 ≠ 0 ∨ bit (r.num 6 1) 7 then some 6
  else if 24 < r.num 7 1 then some 7
  else if r.num 8 4 = 0 ∨ 1048576 < r.num 8 4 then some 8
  else none

/-- A policy's form. -/
def seqPolicyBreaks (r : Staged) : Option Nat :=
  if 7 < r.num 2 1 then some 2 else if 24 < r.num 3 1 then some 3 else none

def execSeqOpen (m : Msg) (s : State) : Out :=
  s.septa (ctrlType 0x0108 false formSeqOpen) m (fun r s => s.stageFor r (seqOpenBreaks r))
def execSeqPolicy (m : Msg) (s : State) : Out :=
  s.septa (ctrlType 0x0109 false formSeqPolicy) m (fun r s => s.stageFor r (seqPolicyBreaks r))
def execSeqClose (m : Msg) (s : State) : Out :=
  s.septa (ctrlType 0x010A false formId) m (fun r s => s.stageFor r none)

/-- An open is applied (R214): the lowest run of frames is taken and zeroised; where none is free, LIMIT is named (log entry 40). -/
def Part.openSeq (x : Part) (r : Staged) : Except Nat Part :=
  let id := r.num 0 2
  let flags := r.num 6 1
  let fz := x.cfg.pools.frame
  if (x.pool.seq? id).isSome ∨ x.cfg.pools.seqs ≤ id then .error 0
  else if fz < (pageFmt (r.num 5 1)).size then .error 5
  else if bit flags 6 ∧ x.cfg.maskMode then .error 6
  else if bit flags 6 ∧ (x.stream? (r.num 18 2)).isNone then .error 18
  else
    let n := tableFrames (r.num 2 2) (r.num 4 1) (r.num 8 4) fz
    match lowestRun (fun f => !x.pool.isFree f) x.cfg.pools.pages n with
    | none => .error 8
    | some f =>
      let e : SeqEntry :=
        { layers := r.num 2 2, heads := r.num 4 1, format := r.num 5 1, tableFrame := f, limit := r.num 8 4, length := 0,
          modelTag := BitVec.ofNat 32 (r.num 12 4), budget := r.num 16 2, live := true, tolerate := bit flags 1, share := bit flags 2,
          pin := bit flags 3, starved := false, atLimit := false, bound := bit flags 6, decay := r.num 7 1, stream := r.num 18 2, skips := 0,
          tableFrames := n }
      .ok { x with pool := ((x.pool.dropTable id).takeRun f n).setSeq id e }

/-- A policy is applied: setting PIN pins the present pages with one reference. -/
def Part.policySeq (x : Part) (r : Staged) : Except Nat Part :=
  let id := r.num 0 2
  let flags := r.num 2 1
  match x.pool.seq? id with
  | none => .error 0
  | some e =>
    let pool := if !bit flags 2 then x.pool else (x.pool.tableOf id).foldl (fun k t =>
      let f := k.frame t.2.page
      if t.2.state = 1 ∧ f.refs = 1 then k.setFrame t.2.page { f with pinned := true } else k) x.pool
    let e := { e with tolerate := bit flags 0, share := bit flags 1, pin := bit flags 2, budget := r.num 4 2, decay := r.num 3 1 }
    .ok { x with pool := pool.setSeq id e }

/-- A close is applied. -/
def Part.closeSeqOf (x : Part) (r : Staged) : Except Nat Part :=
  let id := r.num 0 2
  if (x.pool.seq? id).isNone then .error 0 else .ok { x with pool := x.pool.closeSeq id }

/-! ### Report destinations (R349) -/

def formDest : List Fit := [.any 1, .zero 1, .count 2, .any 2, .any 1, .zero 1, .any 16, .any 16]

/-- A destination's form: a number from 0 to 3, and the family codes of R331 (log entry 40). -/
def destBreaks (r : Staged) : Option Nat :=
  let v4 := r.num 6 1 = 4
  if 3 < r.num 0 1 then some 0
  else if r.num 6 1 ≠ 4 ∧ r.num 6 1 ≠ 6 then some 6
  else if v4 ∧ r.num 12 12 ≠ 0 then some 8
  else if v4 ∧ r.num 28 12 ≠ 0 then some 24
  else none

/-- An address as an Addr holds it: IPv4 stands in bytes 0 to 3. -/
def Staged.addr (r : Staged) (off : Nat) : BitVec 128 :=
  BitVec.ofNat 128 (if r.num 6 1 = 4 then r.num off 4 else r.num off 16)

/-- The destination that a request sets. -/
def Staged.dest (r : Staged) (recent : Dest) : Dest :=
  { recent with a := r.addr 8, b := r.addr 24, port := BitVec.ofNat 16 (r.num 4 2), v4 := r.num 6 1 == 4, interval := r.num 2 2, last := none }

/-- REPORT_SET. -/
def execReportSet (m : Msg) (s : State) : Out :=
  s.septa (ctrlType 0x0120 false formDest) m (fun r s => s.stageFor r (destBreaks r))

/-- A report destination is set, its first report covering the pick before (R350); an interval of 0 removes it. -/
def Part.setDest (x : Part) (r : Staged) : Part :=
  let d := r.num 0 1
  { x with dests := if r.num 2 2 = 0 then x.dests.del d else x.dests.ins d (r.dest x.recent) }

/-- The source is in holdover or past it (R58, R59). -/
def State.inHoldover (s : State) : Bool :=
  let st := s.fld .pickStatus Fl.pickStatus_STATE
  st == 3 || st == 4

/-! ### Application (R345) -/

/-- A request of the partition's own tables is applied: its new state, or the field refused. -/
def Part.apply (x : Part) (r : Staged) : Except Nat Part :=
  if r.type = 0x0101 then x.openStream r
  else if r.type = 0x0102 then x.resetStream r
  else if r.type = 0x0103 then x.closeStream r
  else if r.type = 0x0108 then x.openSeq r
  else if r.type = 0x0109 then x.policySeq r
  else if r.type = 0x010A then x.closeSeqOf r
  else .ok (x.setDest r)

end Sys2Proof.Machine
end

