-- ==== Sys2Proof/Machine/Security.lean ====
section
/-! DEFINITION. Sys2Proof/Machine/Security.lean: the security engine (18 R354 to R361, R367 to R371): identity, quotes, sessions, keys,
zeroisation, signers and debug mode -/

namespace Sys2Proof.Machine

open Sys2Proof

/-- A security message type (R370). -/
def secType (code : Nat) (control authentic : Bool) (form : List Fit) (tail : Bool) : MsgType :=
  { code := code, control := control, mgmt := true, authentic := authentic, form := form, tail := tail }

/-- A record of the security engine. -/
def State.secReport (s : State) (code : Nat) : State := s.report (beamUnit 0x28) code 0

/-- The first eight bytes of SHA-256 of a public key. -/
def keyId (pk : BitVec 256) : List Byte := (sha (beBytes 32 pk.toNat)).take 8

/-! ### Identity (R355, R356) -/

def identityObject : BitVec 32 := objectOf 2 0
def sealedBytes : Nat := 76

/-- The identity secret, where the store's sealed seed unseals. -/
def State.identitySecret (s : State) : Option Nat :=
  match s.store.content identityObject with
  | none => none
  | some bs => Config.unsealSeed (bs.take sealedBytes)

/-- The signed identity record, 7,936 bytes as the store holds it, after the seed (log entry 37). -/
def State.identityRecord (s : State) : List Byte :=
  slice ((s.store.content identityObject).getD []) sealedBytes 7936

/-- The record on the wire: its numbers turned, its byte strings as they are (R2, R356). -/
def identityWire (r : List Byte) : List Byte :=
  (slice r 0 4).reverse ++ (slice r 4 2).reverse ++ slice r 6 2 ++ (slice r 8 8).reverse ++ (slice r 0x10 16).reverse
    ++ slice r 0x20 32 ++ (slice r 0x40 4).reverse ++ slice r 0x44 4 ++ slice r 0x48 8 ++ slice r 0x50 7856

/-- The boot counter (R356). -/
def StoreUnit.boots (k : StoreUnit) : Nat := leNat ((k.content (objectOf 3 0)).getD [])

/-- A fresh attestation key, certified by the identity key (R356); none without an identity. -/
def State.newAttestation (s : State) : State :=
  match s.identitySecret with
  | none => { s with sec := { s.sec with attestation := none, akRecord := [] } }
  | some id =>
    let (k, s) := s.drbg 384
    let body := beBytes 4 0x44414B52 ++ beBytes 2 1 ++ [0, 0] ++ beBytes 8 s.store.boots ++ keyId (Config.slhPublic id)
      ++ beBytes 32 (Config.slhPublic k.toNat).toNat ++ beBytes 32 Config.bootMeasure.toNat ++ List.replicate 8 0
    { s with sec := { s.sec with attestation := some k.toNat, akRecord := body ++ Config.slhSign id 7856 body } }

/-- SEC_IDENTITY. -/
def execSecIdentity (m : Msg) (s : State) : Out :=
  s.septa (secType 0x0400 true false [] false) m (fun _ s =>
    if s.sec.identity then (s, .done (identityWire s.identityRecord ++ s.sec.akRecord)) else (s, .busy))

/-! ### Quotes (R354, R357) -/

/-- Whom a security request is about: on a control endpoint its partition, on the management plane the module (R357). -/
def State.secKey (s : State) (r : Staged) : Except Answer Nat :=
  if r.mgmt then (if r.msg.hdr.partition.toNat = 0xFF then .ok 16 else .error (.target 4))
  else match r.part? with
    | none => .error (.target 4)
    | some p => if (s.part? p).isSome then .ok p.val else .error (.target 4)

/-- A partition of a key index. -/
def keyPart (k : Nat) : Option (Fin 16) := if k < 16 then some (Fin.ofNat 16 k) else none

/-- FW_MEASURE and SVN of the running firmware. -/
def State.fwMeasure (s : State) : List Byte :=
  match s.store.running with
  | none => List.replicate 32 0
  | some r => imageMeasure ((s.store.content (imageObject r.1)).getD [])
def State.fwSvn (s : State) : Nat := match s.store.running with | none => 0 | some r => r.2.1

/-- FLAGS of a quote. A module quote names no partition: its PANEL_PENDING and RETAINED are clear (log entry 38). -/
def State.quoteFlags (s : State) (k : Nat) : Nat :=
  (if s.sec.debug then 1 else 0)
    + match keyPart k with
      | none => 0
      | some p => (if s.draft.panels.any (fun e => e.part == p) then 2 else 0) + (if s.sec.retained.getLsbD p.val then 4 else 0)

/-- Bytes 0x00 to 0xCF of a quote. -/
def State.quoteBody (s : State) (k : Nat) (pick : Word) (nonce : List Byte) (ek : List Byte) (ak : Nat) : List Byte :=
  let part := (keyPart k).bind s.part?
  beBytes 4 0x44515445 ++ beBytes 2 1 ++ beBytes 1 (if k < 16 then 1 else 2) ++ beBytes 1 (s.quoteFlags k)
    ++ beBytes 1 (if k < 16 then k else 0xFF) ++ [0, 0, 0] ++ beBytes 4 s.fwSvn ++ beBytes 8 pick.toNat ++ nonce
    ++ beBytes 32 Config.bootMeasure.toNat ++ s.fwMeasure
    ++ (match part with | none => List.replicate 32 0 | some x => beBytes 32 x.cfg.measure.toNat)
    ++ (match part with | none => List.replicate 8 0 | some x => beBytes 8 x.cfg.generation.toNat)
    ++ beBytes 4 s.fuses.count ++ [0, 0, 0, 0] ++ sha ek ++ keyId (Config.slhPublic ak)

/-- A quote over a fresh KEM pair, which replaces the pending one. -/
def State.quote (s : State) (r : Staged) (k ak : Nat) : State × Answer :=
  let (v, s) := s.drbg 512
  let ek := Config.kemPublic v.toNat
  let nonce := slice r.payload 0 32
  let body := s.quoteBody k r.pick nonce ek ak
  let q := body ++ Config.slhSign ak 17088 body
  let s : State := { s with sec := { s.sec with pendings := s.sec.pendings.ins k { secret := v.toNat, nonce := nonce, quote := q } } }
  (s.bump .secCount Fl.secCount_QUOTES 1, .done (q ++ ek))

/-- A request that needs the DRBG: BUSY once the source has failed, and waits while it restarts (R354). -/
def State.needsDrbg (s : State) (f : State → State × Answer) : State × Answer :=
  if s.sec.entropy = 3 then (s, .busy) else if s.sec.entropy ≠ 1 then (s, .later 96) else f s

/-- What SEC_QUOTE does, now or after the source's restart. -/
def doQuote (r : Staged) (s : State) : State × Answer :=
  match s.secKey r with
  | .error a => (s, a)
  | .ok k =>
    match s.sec.attestation with
    | none => (s, .busy)
    | some ak => s.needsDrbg (fun s => s.quote r k ak)

/-- SEC_QUOTE. -/
def execSecQuote (m : Msg) (s : State) : Out := s.septa (secType 0x0401 true false [.any 32] false) m doQuote

/-! ### Sessions (R359) -/

/-- The pending pair of a partition or of the module is zeroised. -/
def State.dropPending (s : State) (k : Nat) : State := { s with sec := { s.sec with pendings := s.sec.pendings.del k } }

/-- "DN48 session v1". -/
def sessionInfo (part origin : Nat) : List Byte :=
  [0x44, 0x4E, 0x34, 0x38, 0x20, 0x73, 0x65, 0x73, 0x73, 0x69, 0x6F, 0x6E, 0x20, 0x76, 0x31] ++ beBytes 1 part ++ beBytes 1 origin

/-- SEC_SESSION_OPEN. -/
def execSecSessionOpen (m : Msg) (s : State) : Out :=
  s.septa (secType 0x0402 true false [.any 32, .any 1568, .any 32] false) m (fun r s =>
    match s.secKey r with
    | .error a => (s, a)
    | .ok k =>
      if !s.sec.identity || (s.sec.sessions.find? k).isSome then (s, .busy)
      else match s.sec.pendings.find? k with
        | none => (s, .field 0)
        | some g =>
          let nonce := slice r.payload 0 32
          let ct := slice r.payload 32 1568
          let o := hdrOrigin r.msg.hdr
          let key := fun (i : Nat) => hkdf (Config.kemDecap g.secret ct) (sha256 g.quote)
            (sessionInfo (if k < 16 then k else 0xFF) o) i
          let s := s.dropPending k
          if nonce ≠ g.nonce then (s, .field 0)
          else if slice r.payload 1600 32 ≠ beBytes 32 (hmac (key 1) (ct ++ nonce)).toNat then (s.secReport 0x0803, .field 1600)
          else
            let e : Session := { origin := o, kMsg := key 0, kCt := key 1, kCd := key 2 }
            ({ s with sec := { s.sec with sessions := s.sec.sessions.ins k e } },
             .done (beBytes 32 (hmac (key 2) (ct ++ nonce)).toNat)))

/-! ### Keys (R361) -/

/-- A key item of 64 bytes. -/
def keyItem (bs : List Byte) (i : Nat) : List Byte := slice bs (8 + 64 * i) 64
def itemKind (e : List Byte) : Nat := beNat (slice e 0 1)
def itemPorts (e : List Byte) : Nat := beNat (slice e 1 1)
def itemSlot (e : List Byte) : Nat := beNat (slice e 2 2)
def itemKey (e : List Byte) : List Byte := slice e 8 32
def itemAux (e : List Byte) : List Byte := slice e 40 16

/-- What an item's form breaks, by its offset in the item: a reserved KIND or byte, a KIND of the other kind of session. -/
def itemBreaks (module_ : Bool) (e : List Byte) : Option Nat :=
  let kind := itemKind e
  if kind = 0 ∨ 5 ≤ kind then some 0
  else if (kind = 4) ≠ (module_ = true) then some 0
  else if !allZero (slice e 4 4) then some 4
  else if !allZero (slice e 56 8) then some 56
  else none

/-- What a SEC_KEY_LOAD payload breaks. -/
def keyLoadBreaks (module_ : Bool) (bs : List Byte) : Option Nat :=
  let n := beNat (slice bs 0 2)
  if n = 0 ∨ 32 < n then some 0
  else if bs.length ≠ 8 + 64 * n then some (min bs.length (8 + 64 * n))
  else (List.range n).findSome? (fun i => (itemBreaks module_ (keyItem bs i)).map (fun o => 8 + 64 * i + o))

/-- A staged request of the control or the management plane (R345, R392). -/
def State.stageSec (s : State) (r : Staged) (refused : Option Nat) : State × Answer :=
  match refused with
  | some off => (s, .field off)
  | none =>
    match s.secKey r with
    | .error a => (s, a)
    | .ok k =>
      match (keyPart k).bind s.part? with
      | none => (s, .staged)
      | some x => if x.replaying then (s, .busy) else (s, .staged)

/-- SEC_KEY_LOAD. -/
def execSecKeyLoad (m : Msg) (s : State) : Out :=
  s.septa (secType 0x0403 true true [.any 2, .zero 6] true) m (fun r s => s.stageSec r (keyLoadBreaks r.mgmt r.payload))

/-- The granules of a partition's protected carves that have been written no longer pass their tags: another region secret is
loaded than the one they were written under (R363). -/
def Part.failTags (x : Part) : Part :=
  let hit := (x.cloth.written.filter (fun e => e.2 && x.cfg.carves.any (fun v => v.prot && decide (v.base ≤ e.1 * 4096)
    && decide (e.1 * 4096 < v.base + v.len)))).map (fun e => e.1)
  { x with cloth := { x.cloth with tagBad := hit.foldl (fun t g => t.put g true false) x.cloth.tagBad } }

/-- A region secret is loaded. -/
def State.loadRegion (s : State) (p : Fin 16) (key : BitVec 256) : State :=
  let s := s.modPart p (fun x =>
    let x := if x.cloth.under.isSome && x.cloth.under != some key then x.failTags else x
    { x with cloth := { x.cloth with under := some key } })
  { s with sec := { s.sec with region := s.sec.region.ins p.val key,
                               retained := BitVec.ofNat 16 (setBits s.sec.retained.toNat p.val 1 0) } }

/-- One item of a session's key load; none where its check fails. -/
def State.loadKey (s : State) (k : Nat) (e : List Byte) : Option State :=
  let key := BitVec.ofNat 256 (beNat (itemKey e))
  match keyPart k with
  | none =>
    match s.commit [.write cakObject (s.store.withCak (itemPorts e) (itemKey e ++ itemAux e))] with
    | (_, false) => none
    | (s, true) => some ((List.finRange 8).foldl (fun s i => if bit (itemPorts e) i.val then s.startMka i else s) s)
  | some p =>
    if itemKind e = 1 then (if s.sec.region.has k then none else some (s.loadRegion p key))
    else if itemKind e = 2 then
      some { s with sec := { s.sec with sealKeys := s.sec.sealKeys.ins k key, sealIn := s.sec.sealIn.ins k 0,
                                        sealOut := s.sec.sealOut.ins k 1 } }
    else if itemSlot e < 1024 ∧ (s.slot (Fin.ofNat 1024 (itemSlot e))).part = some p then
      some { s with sec := { s.sec with srtp := s.sec.srtp.ins (itemSlot e) (key, BitVec.ofNat 96 (beNat ((itemAux e).take 12))) } }
    else none

/-- A key load at its boundary: every item, or none and the offset of the first that fails. -/
def State.loadKeys (s : State) (k : Nat) (bs : List Byte) (i n : Nat) : Except Nat State :=
  match n with
  | 0 => .ok s
  | m + 1 =>
    match s.loadKey k (keyItem bs i) with
    | none => .error (8 + 64 * i)
    | some t => t.loadKeys k bs (i + 1) m

/-- A Creel slot whose sample ring is protected is open (R361). -/
def State.protectedSlotOpen (s : State) (p : Fin 16) (x : Part) : Bool :=
  x.cfg.creel.any (fun c => x.cfg.touchesProtected c.ringBase c.ringLen
    && (s.slot (Fin.ofNat 1024 c.slot)).part == some p && (s.slot (Fin.ofNat 1024 c.slot)).state != 0)

/-- SEC_SESSION_CLOSE. -/
def execSecSessionClose (m : Msg) (s : State) : Out :=
  s.septa (secType 0x0404 true true [.any 1, .zero 7] false) m (fun r s =>
    if 1 < r.num 0 1 then (s, .field 0)
    else match r.part?.bind (fun p => (s.part? p).map (fun x => (p, x))) with
      | some (p, x) => if !r.mgmt && s.protectedSlotOpen p x then (s, .busy) else s.stageSec r none
      | none => s.stageSec r none)

/-- The protected carves of a partition are zeroised (R295). -/
def State.erase (s : State) (p : Fin 16) : State :=
  match s.part? p with
  | none => s
  | some x =>
    let cloth := { x.cloth.only (x.cfg.carves.filter (fun v => !v.prot)) with cursors := x.cloth.cursors }
    let s := s.setPart p { x with cloth := cloth }
    let pages := s.farMap (x.cfg.carves.filter (fun v => v.prot)) cloth.pages
    s.setPart p { x with cloth := { cloth with pages := pages } }

/-- A session ends and its keys are zeroised; a pending pair stays. -/
def State.closeSession (s : State) (k : Nat) : State :=
  match keyPart k with
  | none => { s with sec := { s.sec with sessions := s.sec.sessions.del k } }
  | some p =>
    let pend := s.sec.pendings
    let t := s.endSession p
    { t with sec := { t.sec with pendings := pend } }

/-- A session close at its boundary. -/
def State.applyClose (s : State) (k flags : Nat) : Except Nat State :=
  match keyPart k with
  | none => .ok (s.closeSession k)
  | some p =>
    if (match s.part? p with | none => false | some x => s.protectedSlotOpen p x) then .error 0
    else
      let s := s.closeSession k
      .ok (if bit flags 0 then s.erase p else s)

/-! ### Zeroisation and signers (R368) -/

/-- What MODULE_ZEROISE does, now or after the source's restart. -/
def doZeroise (_ : Staged) (s : State) : State × Answer :=
  if !s.parts.isEmpty then (s, .busy)
  else if !s.drbgReady then (s, if s.sec.entropy = 3 then .busy else .later 96)
  else
    let objects := ((List.range 9).map (objectOf 8)).filter (fun o => (s.store.contentTxn o).isSome)
    let (s, ok) := if objects.isEmpty then (s, true) else s.commit (objects.map .delete)
    if !ok then (s, .busy)
    else
      let s := ((s.closeSession 16).newAttestation).secReport 0x080B
      ((List.finRange 8).foldl State.startMka s, .done [])

/-- MODULE_ZEROISE. -/
def execModuleZeroise (m : Msg) (s : State) : Out := s.septa (secType 0x0411 false false [] false) m doZeroise

/-- SIGNER_ENROL. -/
def execSignerEnrol (m : Msg) (s : State) : Out :=
  s.septa (secType 0x0420 false false [.any 1, .zero 7, .any 32] false) m (fun r s =>
    if 7 < r.num 0 1 then (s, .field 0)
    else
      let (s, ok) := s.commit [.write (objectOf 8 (1 + r.num 0 1)) (slice r.payload 8 32)]
      (s, if ok then .done [] else .busy))

/-- SIGNER_REMOVE. -/
def execSignerRemove (m : Msg) (s : State) : Out :=
  s.septa (secType 0x0421 false false [.any 1, .zero 7] false) m (fun r s =>
    let o := objectOf 8 (1 + r.num 0 1)
    if 7 < r.num 0 1 then (s, .field 0)
    else if (s.store.contentTxn o).isNone then (s, .done [])
    else
      let (s, ok) := s.commit [.delete o]
      (s, if ok then .done [] else .busy))

/-! ### Destruction (R310) -/

/-- PARTITION_DESTROY: PARTITION names the target. -/
def execPartitionDestroy (m : Msg) (s : State) : Out :=
  s.septa (secType 0x0410 false false [] false) m (fun r s =>
    match r.part?.bind s.part? with
    | none => (s, .target 4)
    | some _ => (s, .staged))

/-! ### Debug (R369) -/

/-- What DEBUG_CHALLENGE does, now or after the source's restart. -/
def doChallenge (_ : Staged) (s : State) : State × Answer :=
  s.needsDrbg (fun s =>
    let (v, s) := s.drbg 256
    let c := beBytes 32 v.toNat
    ({ s with sec := { s.sec with challenge := some c } }, .done c))

/-- DEBUG_CHALLENGE. -/
def execDebugChallenge (m : Msg) (s : State) : Out := s.septa (secType 0x0430 false false [] false) m doChallenge

def formToken : List Fit := [.any 4, .any 2, .any 2, .any 8, .any 32, .zero 16, .any 7856]

/-- What a token's form breaks, by its offset. -/
def tokenBreaks (r : Staged) : Option Nat :=
  if r.num 0 4 ≠ 0x44444247 then some 0
  else if r.num 4 2 ≠ 1 then some 4
  else if 8 ≤ r.num 6 2 then some 6
  else none

/-- The field of a token that does not verify. -/
def State.tokenFails (s : State) (r : Staged) : Option Nat :=
  match s.identitySecret with
  | none => some 8
  | some id =>
    if !s.sec.identity || slice r.payload 8 8 != keyId (Config.slhPublic id) then some 8
    else if s.sec.challenge ≠ some (slice r.payload 16 32) then some 16
    else if !Config.slhVerify Config.debugKey (r.payload.take 64) (slice r.payload 64 7856) then some 64
    else none

/-- Every session key, tenant key and pending pair is zeroised. -/
def Sec.zeroised (k : Sec) : Sec :=
  { k with sessions := [], region := [], sealKeys := [], sealIn := [], sealOut := [], srtp := [], pendings := [] }

/-- What DEBUG_UNLOCK does, now or after the source's restart. -/
def doUnlock (r : Staged) (s : State) : State × Answer :=
  if !s.parts.isEmpty then (s, .busy)
  else match tokenBreaks r with
    | some off => (s, .field off)
    | none =>
      match s.tokenFails r with
      | some off => (s.secReport 0x0809, .field off)
      | none =>
        if !s.drbgReady then (s, if s.sec.entropy = 3 then .busy else .later 96)
        else
          let s := ({ s with sec := s.sec.zeroised } : State).newAttestation
          let s : State := { s with sec := { s.sec with debug := true, scopes := s.sec.scopes ||| BitVec.ofNat 3 (r.num 6 2) } }
          (s.secReport 0x080A, .done [])

/-- DEBUG_UNLOCK. -/
def execDebugUnlock (m : Msg) (s : State) : Out := s.septa (secType 0x0431 false false formToken false) m doUnlock

/-! ### The entropy source (R354) -/

/-- ENTROPY_HEALTH_FAILURE: the source restarts; a failure while it does is a failed restart, and the third is the last. -/
def execEntropyHealthFailure (s : State) : Out :=
  if s.sec.entropy = 1 then .next { s with sec := { s.sec with entropy := 2, restarts := 0 } }
  else if s.sec.entropy = 2 then
    if s.sec.restarts + 1 < 3 then .next { s with sec := { s.sec with restarts := s.sec.restarts + 1 } }
    else
      let l := s.net.waiting.filter (fun e => e.1 == 96)
      let s : State := { s with sec := { s.sec with entropy := 3, restarts := 3 },
                                net := { s.net with waiting := s.net.waiting.filter (fun e => e.1 != 96) } }
      .next (l.foldl (fun s e => s.reply e.2 7 0 0 [] true e.2.pick) (s.secReport 0x0802))
  else .next s

/-- A request that waited for the source goes on. -/
def State.resumeDrbg (s : State) (r : Staged) : State :=
  s.answer r (if r.type = 0x0401 then doQuote else if r.type = 0x0430 then doChallenge else if r.type = 0x0411 then doZeroise else doUnlock)

/-- ENTROPY_RESTART_COMPLETE: requests that waited proceed in their order. -/
def execEntropyRestartComplete (s : State) : Out :=
  if s.sec.entropy ≠ 2 then .next s
  else
    let l := s.net.waiting.filter (fun e => e.1 == 96)
    let s : State := { s with sec := { s.sec with entropy := 1, restarts := 0 },
                              net := { s.net with waiting := s.net.waiting.filter (fun e => e.1 != 96) } }
    .next (l.foldl (fun s e => s.resumeDrbg e.2) s)

end Sys2Proof.Machine
end

