-- ==== Sys2Proof/Machine/Boot.lean ====
section
/-! DEFINITION. Sys2Proof/Machine/Boot.lean: power, reset and boot (21 R412 to R420; 22 R426), and the board-service devices (22 R427,
R428). -/

namespace Sys2Proof.Machine

open Sys2Proof

/-! ### Resets (R413 to R415, R426) -/

/-- What a power-on or module reset leaves: the store, the fuses, the pins and the devices that are fitted; everything else is
lost. CAUSE: 0 power-on, 1 reset input, 2 MODULE_RESET. -/
def State.resetAll (s : State) (cause : Nat) : State :=
  let far : Tab FarPort := (List.finRange 4).foldl (fun t i =>
    t.put i.val { FarPort.reset with present := (s.farPort i).present } FarPort.reset) []
  ({ State.reset with
      pending := s.pending, freeCount := s.freeCount, beat := s.beat, boundaryBeat := s.beat, fuses := s.fuses,
      power := { s.power with inReset := true, resetDue := false },
      store := { s.store with wanted := false, transfer := none, running := none },
      mem := { Memory.reset with far := far } } : State).setFld .moduleState Fl.moduleState_CAUSE cause

/-- POWER_UP: the beam-die rails lie in their windows and power-good asserts. -/
def execPowerUp (s : State) : Out :=
  if s.power.pwrGood then .next s
  else
    let s := s.resetAll 0
    .next { s with power := { s.power with pwrGood := true } }

/-- POWER_GOOD_DEASSERT: every regulator shuts down; only the store and the fuses hold anything. -/
def execPowerGoodDeassert (s : State) : Out :=
  if !s.power.pwrGood then .next s
  else
    let s := s.resetAll 0
    .next { s with power := { s.power with pwrGood := false } }

/-- RESET_INPUT_ASSERT: no effect while PWRGOOD is low but for the level; CAUSE keeps the source that put the module into reset
first. -/
def execResetInputAssert (s : State) : Out :=
  if s.power.resetLow then .next s
  else
    let s := if s.power.pwrGood && !s.power.inReset then s.resetAll 1 else s
    .next { s with power := { s.power with resetLow := true } }

/-- RESET_INPUT_RELEASE: boot may begin. -/
def execResetInputRelease (s : State) : Out := .next { s with power := { s.power with resetLow := false } }

/-- MODULE_RESET_EXECUTE: 1 ms after the reply to the request. -/
def execModuleResetExecute (s : State) : Out := .next (if s.power.resetDue then s.resetAll 2 else s)

/-! ### Boot (R416 to R418) -/

/-- Step 3: the boot counter is committed and an image starts. -/
def State.bootImage (s : State) : State × Bool :=
  (s.commit_ [.write (objectOf 3 0) (leBytes 8 (s.store.boots + 1))]).startImage

/-- Step 4: the identity is unsealed, or at the first power-on made (R355); the entropy source is healthy; an attestation key is
certified. -/
def State.bootIdentity (s : State) (first : Bool) : State :=
  let s : State := { s with sec := { s.sec with entropy := 1 } }
  let s := if first && (s.store.contentTxn identityObject).isNone then
      let (v, s) := s.drbg 384
      s.commit_ [.write identityObject (Config.sealSeed v.toNat)]
    else s
  match s.identitySecret with
  | none => s.secReport 0x0801
  | some _ => ({ s with sec := { s.sec with identity := true } } : State).newAttestation

/-- The link-local address of the modified EUI-64 rule, its low half (R331). -/
def eui64 (mac : BitVec 48) : Nat :=
  let hi := mac.toNat / 2 ^ 24
  (hi ^^^ 0x020000) * 2 ^ 40 + 0xFFFE * 2 ^ 24 + mac.toNat % 2 ^ 24

/-- The management endpoint's registers come from the network record, or name the link-local address (R331). -/
def State.loadNetwork (s : State) : State :=
  match s.store.content (objectOf 7 0) with
  | some bs => ((s.setReg .netMgmt (BitVec.ofNat 64 (leNat (slice bs 0 8)))).setReg .netMgmtAddrHi
      (BitVec.ofNat 64 (leNat (slice bs 8 8)))).setReg .netMgmtAddrLo (BitVec.ofNat 64 (leNat (slice bs 16 8)))
  | none => (s.setReg .netMgmtAddrHi 0xFE80000000000000).setReg .netMgmtAddrLo (BitVec.ofNat 64 (eui64 Config.macBase))

/-- Step 5: the ports train, MKA starts where a CAK is enrolled, and the management endpoint answers. -/
def State.bootPorts (s : State) (ports : BitVec 8) : State :=
  let s := (List.finRange 8).foldl (fun s i =>
    if ports.getLsbD i.val then (s.setPort i { s.port i with link := true }).startMka i else s) s
  s.loadNetwork.setFld .moduleState Fl.moduleState_PHASE 2

/-- A mill whose checkers or rails fail: the loader takes its looms for fenced, its links for down and its stacks for failed. Which
of its duplicated units failed, and the rail's reading, are open. -/
def State.failMill (s : State) (m : Fin 8) (rail : Bool) : State :=
  let (v, s) := s.draw 32
  let s := if rail then s.report (millUnit m 0x1C) 0x0905 (m.val + v.toNat * 2 ^ 8)
    else s.report (millUnit m ([0x15, 0x18, 0x1B].getD (v.toNat % 3) 0x15)) 0x090C 0
  let s := s.setFld .moduleState Fl.moduleState_MILL_FAILED (s.fld .moduleState Fl.moduleState_MILL_FAILED ||| 2 ^ m.val)
  let s := (rangeFrom (32 * m.val) 32).foldl (fun s g => s.modLoom (Fin.ofNat 256 g) (fun l => { l with failed := true })) s
  (rangeFrom (4 * m.val) 4).foldl (fun s k => s.setStack (Fin.ofNat 32 k) 6) s

/-- The boot test of a loom (R380, R418): SAFE_TEST_g reads PICK all ones. The failing block is open here. -/
def State.bootLoom (s : State) (g : Fin 256) (pass : Bool) : State :=
  let s := s.testResult g (if pass then 1 else 2) (BitVec.allOnes 64)
  if pass then s
  else
    let (v, s) := s.draw 8
    ((s.modLoom g (fun l => { l with failed := true })).bump .safeCount Fl.safeCount_TESTS_FAILED 1).report (loomUnit g 2) 0x0901 v.toNat

/-- Step 6: mills, then the looms of mills that have power. -/
def State.bootMills (s : State) (b : BootReport) : State :=
  let s := (List.finRange 8).foldl (fun s m =>
    if !b.railsOk.getLsbD m.val then s.failMill m true else if !b.millsOk.getLsbD m.val then s.failMill m false else s) s
  (List.finRange 256).foldl (fun s g => if b.railsOk.getLsbD (millOf g.val).val then s.bootLoom g (b.loomsOk.getLsbD g.val) else s) s

/-- A mill passed step 6. -/
def millBoots (b : BootReport) (m : Fin 8) : Bool := b.millsOk.getLsbD m.val && b.railsOk.getLsbD m.val

/-- A link's ends both passed step 6. -/
def linkBoots (b : BootReport) (i : Fin 96) : Bool :=
  millBoots b (linkMill i) && match linkFar? i with | none => true | some f => millBoots b f.1

/-- Step 7: stacks and links train, each from its calibration object or in full, and the objects are written (R406). -/
def State.bootTrain (s : State) (b : BootReport) : State :=
  let held := (List.range 32).all s.store.calibrated && (rangeFrom 64 96).all s.store.calibrated
  let s := (List.finRange 32).foldl (fun s k =>
    if !millBoots b (Fin.ofNat 8 (k.val / 4)) then s
    else if b.stacksOk.getLsbD k.val then (s.setStack k 2).calibrate k.val
    else ((s.setStack k 6).setFld .moduleState Fl.moduleState_STACK_FAILED
      (s.fld .moduleState Fl.moduleState_STACK_FAILED ||| 2 ^ k.val)).report (stackUnit k) 0x0507 0) s
  let s := (List.finRange 96).foldl (fun s i =>
    if !linkBoots b i then s
    else if b.linksOk.getLsbD i.val then (s.setLink i { Link.reset with width := 2 }).calibrate (64 + i.val)
    else s.linkReport i 0x0603 0) s
  let all := held && (List.finRange 8).all (millBoots b) && b.stacksOk == BitVec.allOnes 32 && b.linksOk == BitVec.allOnes 96
  s.setFld .moduleState Fl.moduleState_CALIBRATED (if all then 1 else 0)

/-- BOOT: from release of reset with power-good asserted to draft-ready, or to failed. -/
def execBoot (b : BootReport) (s : State) : Out :=
  if !s.power.inReset || !s.power.pwrGood || s.power.resetLow then .next s
  else
    let s : State := { s with power := { s.power with inReset := false }, boundaryBeat := s.beat }
    let s := s.setFld .moduleState Fl.moduleState_PHASE 1
    if !b.beamOk then .next ((s.report (beamUnit 0x29) 0x0902 0).setFld .moduleState Fl.moduleState_PHASE 6)
    else
      let s := s.scanStore b.flashError
      let first := (s.store.contentTxn (objectOf 3 0)).isNone
      match s.bootImage with
      | (s, false) => .next (s.setFld .moduleState Fl.moduleState_PHASE 6)
      | (s, true) =>
        let s := ((s.bootIdentity first).bootPorts b.ports).bootMills b
        .next ((s.bootTrain b).setFld .moduleState Fl.moduleState_PHASE 3)

/-! ### Board-service devices (22 R427, R428) -/

/-- "DN48-M1", padded. -/
def orderCode : List Byte := [0x44, 0x4E, 0x34, 0x38, 0x2D, 0x4D, 0x31] ++ List.replicate 9 0

/-- The identity EEPROM. -/
def State.eeprom (s : State) : List Byte :=
  let body := leBytes 4 0x38344E44 ++ leBytes 2 1 ++ [0, 0] ++ orderCode ++ leBytes 8 s.fuses.serial.toNat
    ++ leBytes 1 s.fuses.stepping.toNat ++ [0, 0, 0] ++ leBytes 4 Config.made.toNat ++ beBytes 6 Config.macBase.toNat
    ++ leBytes 2 4200 ++ leBytes 2 250 ++ leBytes 1 40 ++ List.replicate 41 0
  body ++ leBytes 4 (crc32c body) ++ List.replicate 416 0

/-- BOARD_SERVICE_READ: with no device at the address, no answer. A temperature, another register of a sensor and what follows the
EEPROM's last byte are open. -/
def execBoardServiceRead (address : BitVec 7) (register : BitVec 9) (count : BitVec 9) (s : State) : Out :=
  let a := address.toNat
  let k := s.power.straps.toNat
  let n := count.toNat
  if a = 0x50 + k then
    let held := slice s.eeprom register.toNat (min n (512 - register.toNat))
    let (rest, s) := s.drawBytes (n - (512 - register.toNat))
    .next { s with power := { s.power with service := some (held ++ rest) } }
  else if a = 0x48 + k ∨ a = 0x4C + k then
    let (v, s) := s.drawBytes n
    .next { s with power := { s.power with service := some v } }
  else .next { s with power := { s.power with service := none } }

/-- EEPROM_WRITE: not acknowledged, and changes nothing. -/
def execEepromWrite (_ : BitVec 7) (_ : BitVec 9) (_ : List Byte) (s : State) : Out :=
  .next { s with power := { s.power with service := none } }

end Sys2Proof.Machine
end

