-- ==== Sys2Proof/Machine/Picture.lean ====
section
/-! DEFINITION. Sys2Proof/Machine/Picture.lean: from a decoded picture to a sample record (13 R253, R256 to R259, R262): the stream
context's fields, the stages as one exact sum rounded once, and the record's blocks. -/

namespace Sys2Proof.Machine

open Sys2Proof

/-! ### The stream context (R253) -/

/-- A field of the stream context by its offset there. -/
def Slot.num (k : Slot) (off n : Nat) : Nat := leNat (slice k.context (off - 4) n)

def Slot.rate (k : Slot) : Nat := k.num 0x04 4
def Slot.crop (k : Slot) : Nat × Nat × Nat × Nat := (k.num 0x1C 2, k.num 0x1E 2, k.num 0x20 2, k.num 0x22 2)
def Slot.outW (k : Slot) : Nat := k.num 0x24 2
def Slot.outH (k : Slot) : Nat := k.num 0x26 2
def Slot.resize (k : Slot) : Nat := k.num 0x28 1
/-- The regroup factor f. -/
def Slot.factor (k : Slot) : Nat := 2 ^ k.num 0x29 1
def Slot.colour (k : Slot) : Nat := k.num 0x2A 1
/-- The element type of the output as a type code (R69). -/
def Slot.elemType (k : Slot) : Nat :=
  let t := k.num 0x2B 1
  if t = 1 then 7 else if t = 2 then 2 else if t = 3 then 3 else 9
def Slot.gain (k : Slot) (c : Nat) : Num := ofF32 (BitVec.ofNat 32 (k.num (0x2C + 4 * c) 4))
def Slot.offset (k : Slot) (c : Nat) : Num := ofF32 (BitVec.ofNat 32 (k.num (0x38 + 4 * c) 4))

/-- A 32-bit value that is finite. -/
def finiteF32 (v : Nat) : Bool := bits v 23 8 != 255

/-! ### Sizes (R257, R258) -/

/-- Bytes of a sample's parts: mask, elements, scales, for C components and a picture of the size given. -/
def Slot.maskBytes (w h : Nat) : Nat := ceilDiv (ceilDiv w 16 * ceilDiv h 16) 8
def Slot.lines (k : Slot) : Nat := k.outH / k.factor
def Slot.pixels (k : Slot) : Nat := k.outW / k.factor
def Slot.channels (k : Slot) (c : Nat) : Nat := c * k.factor * k.factor
def Slot.elementBytes (k : Slot) (c : Nat) : Nat := k.lines * k.pixels * k.channels c * (if k.elemType = 9 then 2 else 1)
def Slot.scaleBytes (k : Slot) (c : Nat) : Nat := if k.elemType = 9 then 0 else k.lines * ceilDiv (k.pixels * k.channels c) 32

/-- S (R258). -/
def Slot.recordBytes (k : Slot) (c w h : Nat) : Nat :=
  4096 * (1 + ceilDiv (Slot.maskBytes w h) 4096 + ceilDiv (k.elementBytes c) 4096 + ceilDiv (k.scaleBytes c) 4096)

/-! ### The stages (R256) -/

/-- A rational rounded to FP32. -/
def f32Of (n d : Int) : Num := ofF32 (toF32 (Num.div (Num.ofInt n 0) (Num.ofInt d 0))).1

/-- Kr and Kb of a COLOUR code, in ten-thousandths. -/
def lumaWeights (colour : Nat) : Int × Int :=
  if colour = 1 then (2126, 722) else if colour = 2 then (2627, 593) else (2990, 1140)

/-- The terms of an output component: input component, coefficient. -/
def colourTerms (colour c : Nat) : List (Nat × Num) :=
  if colour = 0 then [(c, Num.ofInt 1 0)]
  else
    let (kr, kb) := lumaWeights colour
    let kg := 10000 - kr - kb
    let one := (0, Num.ofInt 1 0)
    if c = 0 then [one, (2, f32Of (2 * (10000 - kr)) 10000)]
    else if c = 1 then [one, (1, f32Of (-(2 * kb * (10000 - kb))) (10000 * kg)), (2, f32Of (-(2 * kr * (10000 - kr))) (10000 * kg))]
    else [one, (1, f32Of (2 * (10000 - kb)) 10000)]

/-- Range offset and scale of an input component (log entry 43 for chroma under full range). -/
def rangeTerms (pic : Config.Picture) (colour c : Nat) : Int × Num :=
  let b := pic.depth
  if colour = 0 then (0, Num.ofInt 1 0)
  else
    let o : Int := if c = 0 then (if pic.fullRange then 0 else 16 * 2 ^ (b - 8)) else 128 * 2 ^ (b - 8)
    let d : Int := if pic.fullRange then 2 ^ b - 1 else if c = 0 then 219 * 2 ^ (b - 8) else 224 * 2 ^ (b - 8)
    (o, f32Of 1 d)

/-- The source samples of an output position in one dimension, with their weights: n source and m output positions. -/
def resizeTaps (resize n m i : Nat) : List (Nat × Num) :=
  if resize = 0 then [(i, Num.ofInt 1 0)]
  else if resize = 1 then
    let u : Int := max 0 (min (((2 * i + 1) * n : Nat) - (m : Int)) (2 * (m : Int) * ((n : Int) - 1)))
    let d : Int := 2 * m
    let j := (u / d).toNat
    let r := u % d
    (j, f32Of (d - r) d) :: (if r = 0 then [] else [(j + 1, f32Of r d)])
  else (rangeFrom (i * (n / max 1 m)) (n / max 1 m)).map (fun j => (j, Num.ofInt 1 0))

/-- The weight that all samples of an area block share. -/
def areaWeight (resize n m n' m' : Nat) : Num := if resize = 2 then f32Of 1 ((n / max 1 m) * (n' / max 1 m') : Nat) else Num.ofInt 1 0

/-- A decoded sample. -/
def pictureAt (pic : Config.Picture) (c x y : Nat) : Int := (pic.samples.getD c []).getD (y * pic.width + x) 0

/-- The crop of a picture. -/
def Slot.cropOf (k : Slot) (pic : Config.Picture) : Nat × Nat × Nat × Nat :=
  let (x, y, w, h) := k.crop
  if w = 0 then (0, 0, pic.width, pic.height) else (x, y, w, h)

/-- v of one output element before the regroup: component c at column X, row Y. -/
def Slot.value (k : Slot) (pic : Config.Picture) (c X Y : Nat) : Num :=
  let (x0, y0, w, h) := k.cropOf pic
  let xs := resizeTaps k.resize w k.outW X
  let ys := resizeTaps k.resize h k.outH Y
  let area := areaWeight k.resize w k.outW h k.outH
  (colourTerms k.colour c).foldl (fun v t =>
    let (o, r) := rangeTerms pic k.colour t.1
    let f := Num.mul (Num.mul t.2 r) (Num.mul area (k.gain c))
    ys.foldl (fun v yt => xs.foldl (fun v xt =>
      let d := Num.ofInt (pictureAt pic t.1 (x0 + xt.1) (y0 + yt.1) - o) 0
      Num.add v (Num.mul (Num.mul f (Num.mul xt.2 yt.2)) d)) v) v) (k.offset c)

/-- The values of one output line, pixel-major, in the channel order of R184. -/
def Slot.line (k : Slot) (pic : Config.Picture) (comps y : Nat) : List Num :=
  let f := k.factor
  (List.range k.pixels).flatMap (fun x => (List.range (k.channels comps)).map (fun ch =>
    k.value pic (ch % comps) (f * x + ch / comps % f) (f * y + ch / (f * comps))))

/-- Groups of 32 consecutive elements. -/
def pixelGroups (l : List Num) (fuel : Nat) : List (List Num) :=
  match fuel with
  | 0 => []
  | n + 1 => if l.isEmpty then [] else l.take 32 :: pixelGroups (l.drop 32) n

/-- A line's element bytes and scale codes, each value rounded once. -/
def Slot.encode (k : Slot) (l : List Num) : List Byte × List Byte :=
  if k.elemType = 9 then (l.flatMap (fun v => leBytes 2 (Fmt.bf16.round .rne v).1), [])
  else
    let gs := (pixelGroups l (l.length + 1)).map (groupCodes k.elemType)
    (gs.flatMap (fun g => g.2.map (fun e => BitVec.ofNat 8 e.1)), gs.map (fun g => BitVec.ofNat 8 g.1))

/-- The output function is defined: no resize takes the crop as it is, area divides it (R254), where a stream without a crop meets its
picture. -/
def Slot.fits (k : Slot) (pic : Config.Picture) : Bool :=
  let (_, _, w, h) := k.cropOf pic
  if k.resize = 0 then w == k.outW && h == k.outH
  else if k.resize = 2 then w % k.outW == 0 && h % k.outH == 0 && decide (w / k.outW ≤ 16) && decide (h / k.outH ≤ 16)
    && decide (k.outW ≤ w) && decide (k.outH ≤ h)
  else true

/-! ### The sample record (R258, R259, R262) -/

/-- Components of an output: RGB has three; native has those of the picture. -/
def Slot.components (k : Slot) (pic : Config.Picture) : Nat := if k.colour = 0 then pic.components else 3

/-- The mask (R259). -/
def maskOf (pic : Config.Picture) : List Byte :=
  let n := ceilDiv pic.width 16 * ceilDiv pic.height 16
  let hit := fun (i : Nat) => pic.concealed.contains i || pic.tainted.contains i
  (List.range (ceilDiv n 8)).map (fun b =>
    BitVec.ofNat 8 ((List.range 8).foldl (fun v j => if 8 * b + j < n ∧ hit (8 * b + j) then v + 2 ^ j else v) 0))

/-- FLAGS of a sample. -/
def sampleFlags (pic : Config.Picture) : Nat :=
  (if pic.concealed.isEmpty then 0 else 1) + (if pic.grey || pic.hashBad then 2 else 0) + (if pic.tainted.isEmpty then 0 else 4)
    + (if pic.grainIgnored then 8 else 0) + (if pic.hashBad then 16 else 0)

/-- A damage record (R262). -/
def damageBytes (slot : Nat) (grey : Bool) (frame : Nat) (d : Nat × Nat × Nat × Nat × Nat × Nat) : List Byte :=
  leBytes 2 slot ++ leBytes 1 d.1 ++ leBytes 1 (if grey then 1 else 0) ++ [0, 0, 0, 0] ++ leBytes 8 frame ++ leBytes 2 d.2.1
    ++ leBytes 2 d.2.2.1 ++ leBytes 4 d.2.2.2.1 ++ leBytes 4 d.2.2.2.2.1 ++ leBytes 4 d.2.2.2.2.2

/-- Padded to whole blocks. -/
def padBlocks (bs : List Byte) : List Byte := bs ++ List.replicate (4096 * ceilDiv bs.length 4096 - bs.length) 0

/-- The header block. -/
def Slot.sampleHeader (k : Slot) (slot : Nat) (pic : Config.Picture) (unit : Nat) (handed : Word) (comps : Nat) : List Byte :=
  let mask := 4096
  let elems := mask + 4096 * ceilDiv (Slot.maskBytes pic.width pic.height) 4096
  let scales := if k.elemType = 9 then 0 else elems + 4096 * ceilDiv (k.elementBytes comps) 4096
  leBytes 2 slot ++ leBytes 2 (sampleFlags pic) ++ [0, 0, 0, 0] ++ leBytes 8 k.frame ++ leBytes 8 unit ++ leBytes 8 handed.toNat
    ++ leBytes 2 k.lines ++ leBytes 2 k.pixels ++ leBytes 2 (k.channels comps)
    ++ leBytes 2 (ceilDiv pic.width 16) ++ leBytes 2 (ceilDiv pic.height 16) ++ [0, 0]
    ++ leBytes 4 elems ++ leBytes 4 scales ++ leBytes 4 mask ++ leBytes 4 pic.damage.length ++ [0, 0, 0, 0]
    ++ (pic.damage.take 8).flatMap (damageBytes slot pic.grey k.frame)

/-- The record's blocks, given its element bytes and scale codes. -/
def Slot.sample (k : Slot) (slot : Nat) (pic : Config.Picture) (unit : Nat) (handed : Word) (data : List Byte × List Byte) : List Byte :=
  padBlocks (k.sampleHeader slot pic unit handed (k.components pic)) ++ padBlocks (maskOf pic) ++ padBlocks data.1 ++ padBlocks data.2

/-- Element bytes and scale codes of a whole picture. -/
def Slot.tensor (k : Slot) (pic : Config.Picture) : List Byte × List Byte :=
  let ls := (List.range k.lines).map (fun y => k.encode (k.line pic (k.components pic) y))
  (ls.flatMap (fun l => l.1), ls.flatMap (fun l => l.2))

end Sys2Proof.Machine
end

