-- ==== Sys2Proof/Machine/Creel.lean ====
section
/-! DEFINITION. Sys2Proof/Machine/Creel.lean: the Creel (13 R245 to R266; 18 R365; 19 R390): streams opened and closed, frames assembled
from packets or read from rings, decoded, written as samples and posted. -/

namespace Sys2Proof.Machine

open Sys2Proof

def rtpFormat (f : Nat) : Bool := f == 1 || f == 2 || f == 4 || f == 5
def srtpFormat (f : Nat) : Bool := f == 2 || f == 5

/-- The CREEL_SLOTS record of a slot, with its partition. -/
def State.creelCfg (s : State) (i : Fin 1024) : Option (Fin 16 × Part × CreelCfg) :=
  match (s.slot i).part with
  | none => none
  | some p => (s.part? p).bind (fun x => (x.cfg.creel.find? (fun c => c.slot == i.val)).map (fun c => (p, x, c)))

/-- A record of the Creel about a slot (log entry 29). -/
def State.creelReport (s : State) (i : Fin 1024) (p : Fin 16) (code : Nat) : State :=
  s.report (beamUnit 0x22) code (i.val + p.val * 2 ^ 16)

/-! ### Requests (R253 to R255) -/

/-- Sizes of the stream context's fields from 0x04 to 0x43, which are turned between wire and memory (R2). -/
def contextFields : List Nat := [4, 4, 1, 1, 2, 8, 4, 8, 4, 1, 1, 1, 1, 4, 4, 4, 4, 4, 4]

def turnFields (l : List Nat) (bs : List Byte) : List Byte :=
  match l with
  | [] => []
  | n :: rest => (slice bs 0 n).reverse ++ turnFields rest (bs.drop n)

def Staged.creel (r : Staged) : List Byte := turnFields contextFields (slice r.payload 4 64)

/-- What the form of a CREEL_OPEN breaks on a slot: payload offsets are those of the stream context, SLOT aside. -/
def openCreelBreaks (k : PartCfg) (c : CreelCfg) (r : Staged) : Option Nat :=
  let g : Slot := { Slot.reset with context := r.creel }
  let rtp := rtpFormat c.format
  let (_, _, w, h) := g.crop
  let badF32 := (List.range 6).find? (fun i => !finiteF32 (g.num (0x2C + 4 * i) 4))
  if g.rate = 0 ∨ 1000000 < g.rate then some 0x04
  else if !rtp && g.num 0x08 4 != 0 then some 0x08
  else if 127 < g.num 0x0C 1 then some 0x0C
  else if rtp && (match k.endpoints[g.num 0x0D 1]? with | none => true | some e => e.plane != 2 || e.port == 0) then some 0x0D
  else if (if rtp then decide (g.num 0x0E 2 = 0) || decide (1000 < g.num 0x0E 2) else decide (g.num 0x0E 2 ≠ 0)) then some 0x0E
  else if !rtp && g.num 0x10 8 % 4096 != 0 then some 0x10
  else if g.num 0x18 4 = 2 ^ 32 - 1 ∨ (!rtp ∧ (g.num 0x18 4 % 4096 ≠ 0 ∨ g.num 0x18 4 < 8192)) then some 0x18
  else if (w = 0) ≠ (h = 0) then some 0x1C
  else if 2 < g.resize then some 0x28
  else if 3 < g.num 0x29 1 then some 0x29
  else if 3 < g.colour then some 0x2A
  else if g.num 0x2B 1 = 0 ∨ 4 < g.num 0x2B 1 then some 0x2B
  else badF32.map (fun i => 0x2C + 4 * i)

/-- The slot that a Creel request names, if it is the partition's. -/
def Staged.slotOf (r : Staged) (x : Part) : Option CreelCfg := x.cfg.creel.find? (fun c => c.slot == r.num 0 2)

/-- CREEL_OPEN. -/
def execCreelOpen (m : Msg) (s : State) : Out :=
  s.septa (ctrlType 0x0110 false [.any 2, .zero 2, .any 64]) m (fun r s =>
    s.stageFor r (match r.part?.bind s.part? with
      | none => none
      | some x => match r.slotOf x with
        | none => some 0
        | some c => openCreelBreaks x.cfg c r))

/-- CREEL_CLOSE. -/
def execCreelClose (m : Msg) (s : State) : Out :=
  s.septa (ctrlType 0x0111 false [.any 2, .zero 6]) m (fun r s =>
    s.stageFor r (match r.part?.bind s.part? with
      | none => none
      | some x => if (r.slotOf x).isNone then some 0 else none))

/-- The stream context on the wire. -/
def Slot.wire (k : Slot) (i : Nat) : List Byte :=
  beBytes 2 i ++ beBytes 1 k.state ++ beBytes 1 k.engine ++ turnFields contextFields (slice k.context 0 64) ++ List.replicate 28 0

/-- CREEL_STATUS: on a control endpoint, of a slot of its partition. -/
def execCreelStatus (m : Msg) (s : State) : Out :=
  s.septa (ctrlType 0x0112 true [.any 2, .zero 6]) m (fun r s =>
    let n := r.num 0 2
    if 1024 ≤ n then (s, .field 0)
    else
      let k := s.slot (Fin.ofNat 1024 n)
      if !r.mgmt && (r.part?.isNone || k.part != r.part?) then (s, .field 0) else (s, .done (k.wire n)))

/-- RATE sum of an engine's streams. -/
def State.rateSum (s : State) (e : Nat) : Nat :=
  s.slots.foldl (fun n k => if k.2.state ≠ 0 ∧ k.2.engine = e then n + k.2.rate else n) 0

/-- The lowest-numbered engine with room for a RATE. -/
def State.engineFor (s : State) (rate : Nat) : Option Nat := (List.range 32).find? (fun e => decide (s.rateSum e + rate ≤ 1000000))

/-- Components that a record must have room for: three, or one for FITS (log entry 43). -/
def CreelCfg.components (c : CreelCfg) : Nat := if c.format = 7 then 1 else 3

/-- What R254, R258, R363 and R365 refuse when an open is applied. -/
def State.openRefused (s : State) (p : Fin 16) (x : Part) (c : CreelCfg) (g : Slot) : Option Nat :=
  let k := x.cfg
  let ctx : Fin 8 := Fin.ofNat 8 c.ctx
  let (_, _, w, h) := g.crop
  let size := g.recordBytes c.components c.width c.height
  if (s.slot (Fin.ofNat 1024 c.slot)).state ≠ 0 then some 0
  else if (!rtpFormat c.format && !k.inCarve ctx (g.num 0x10 8) (g.num 0x18 4) (fun _ => true)) then some 0x10
  else if g.outW = 0 ∨ g.outH = 0 ∨ (g.resize = 0 ∧ w ≠ 0 ∧ (g.outW ≠ w ∨ g.outH ≠ h)) then some 0x24
  else if g.resize = 2 ∧ w ≠ 0 ∧ (w % g.outW ≠ 0 ∨ h % g.outH ≠ 0 ∨ w < g.outW ∨ h < g.outH ∨ 16 < w / g.outW ∨ 16 < h / g.outH) then some 0x24
  else if g.outW % g.factor ≠ 0 ∨ g.outH % g.factor ≠ 0 then some 0x24
  else if g.colour ≠ 0 ∧ c.format = 7 then some 0x2A
  else if c.ringLen < 4096 + 2 * size then some 0x24
  else if srtpFormat c.format && !s.sec.srtp.has c.slot then some 0
  else if k.touchesProtected c.ringBase c.ringLen && !s.hasRegion p then some 0
  else if (s.engineFor g.rate).isNone then some 0x04
  else none

/-- An open at its boundary: the sample ring is empty, reference pictures absent. -/
def State.applyCreelOpen (s : State) (p : Fin 16) (x : Part) (r : Staged) : Except Nat State :=
  match r.slotOf x with
  | none => .error 0
  | some c =>
    let i : Fin 1024 := Fin.ofNat 1024 c.slot
    let old := s.slot i
    let g : Slot := { Slot.reset with context := r.creel }
    match s.openRefused p x c g with
    | some off => .error off
    | none =>
      let size := g.recordBytes c.components c.width c.height
      let k : Slot := { g with
        part := some p, state := 1, engine := (s.engineFor g.rate).getD 0, lastFault := old.lastFault, level := old.level,
        sampleBytes := size, sampleSlots := (c.ringLen - 4096) / size }
      let s := (s.setSlot i k).store_ (.cloth p) c.ringBase (List.replicate 16 0)
      .ok (if rtpFormat c.format then s else s.store_ (.cloth p) (k.num 0x10 8 + 8) (List.replicate 8 0))

/-- A closed slot keeps what its registers show. -/
def Slot.closed (k : Slot) : Slot :=
  { Slot.reset with part := k.part, engine := k.engine, lastFault := k.lastFault, level := k.level, frame := k.frame }

/-- A close at its boundary: decodes begun are finished first (R255). -/
def State.applyCreelClose (s : State) (_ : Fin 16) (x : Part) (r : Staged) : Except Nat State :=
  match r.slotOf x with
  | none => .error 0
  | some c =>
    let i : Fin 1024 := Fin.ofNat 1024 c.slot
    let k := s.slot i
    if k.state = 0 then .error 0
    else if k.decoding.isSome then .ok (s.setSlot i { k with state := 4, frames := [] })
    else .ok (s.setSlot i k.closed)

/-- Closing slots whose decodes are done become closed at a boundary (R255). -/
def State.closeDone (s : State) (x : Part) : State :=
  x.cfg.creel.foldl (fun s c =>
    let i : Fin 1024 := Fin.ofNat 1024 c.slot
    let k := s.slot i
    if k.state = 4 ∧ k.decoding.isNone then s.setSlot i k.closed else s) s

/-! ### Frames of packets (R248 to R250, R261) -/

/-- a comes before b, modulo n (R249). -/
def before (n a b : Nat) : Bool := a != b && decide ((b + n - a) % n < n / 2)

/-- The lowest sequence number of a frame's packets. -/
def FrameIn.lowest (f : FrameIn) : Option Nat :=
  match f.pieces with
  | [] => none
  | q :: rest => some (rest.foldl (fun a t => if before 65536 t.seq a then t.seq else a) q.seq)

/-- Packets in order of sequence number. -/
def insertPiece (base : Nat) (q : Piece) (l : List Piece) : List Piece :=
  match l with
  | [] => [q]
  | t :: rest => if (q.seq + 65536 - base) % 65536 < (t.seq + 65536 - base) % 65536 then q :: t :: rest else t :: insertPiece base q rest
def FrameIn.sorted (f : FrameIn) : List Piece :=
  match f.lowest with
  | none => []
  | some a => f.pieces.foldl (fun l q => insertPiece a q l) []

/-- The sequence number after a frame's marker packet. -/
def FrameIn.after (f : FrameIn) : Option Nat := (f.pieces.find? (fun q => q.marker)).map (fun q => (q.seq + 1) % 65536)

/-- The frame before another among those that have not been begun. -/
def Slot.previous (k : Slot) (f : FrameIn) : Option FrameIn :=
  (k.frames.filter (fun g => before (2 ^ 32) g.unit f.unit)).foldl (fun a g => match a with
    | none => some g
    | some b => if before (2 ^ 32) b.unit g.unit then some g else some b) none

/-- The sequence number at which a frame begins: after the marker of the frame before it; where no frame came before, its lowest (log
entry 43). -/
def Slot.firstOf (k : Slot) (f : FrameIn) : Option Nat :=
  match k.previous f with
  | some g => g.after
  | none => match k.nextSeq with
    | some n => some n
    | none => f.lowest

/-- Packets from a sequence number up to another. -/
def spanOf (a b : Nat) : Nat := (b + 65536 - a) % 65536

/-- The frame is complete (R249). -/
def Slot.complete (k : Slot) (f : FrameIn) : Bool :=
  match k.firstOf f, f.after with
  | some a, some b =>
    let n := spanOf a b
    decide ((f.pieces.filter (fun q => decide (spanOf a q.seq < n))).length = n)
  | _, _ => false

/-- Packets of a frame that are missing between its first and its last latched one. -/
def Slot.missing (k : Slot) (f : FrameIn) : Nat :=
  match f.sorted.getLast? with
  | none => 0
  | some l =>
    let a := (k.firstOf f).getD ((f.lowest).getD l.seq)
    spanOf a l.seq + 1 - f.pieces.length

/-- Complete frames are handed to decode in the pick in which they complete. -/
def Slot.handComplete (k : Slot) (now : Word) : Slot :=
  { k with frames := k.frames.map (fun f => if f.handed.isNone && k.complete f then { f with handed := some now } else f) }

/-- A frame's deadline boundary has come: DEADLINE picks after its first packet's. -/
def Slot.overdue (k : Slot) (f : FrameIn) (now : Word) : Bool := f.handed.isNone && decide (f.pick.toNat + k.num 0x0E 2 ≤ now.toNat)

/-- Bytes in the jitter buffer. -/
def Slot.buffered (k : Slot) : Nat :=
  k.frames.foldl (fun n f => f.pieces.foldl (fun n q => if q.dropped then n else n + q.bytes.length) n) 0

/-- Timestamp of the oldest frame that still has a packet to drop. -/
def Slot.oldestFull (k : Slot) : Option Nat :=
  (k.frames.filter (fun f => f.pieces.any (fun q => !q.dropped))).foldl (fun a f => match a with
    | none => some f.unit
    | some b => if before (2 ^ 32) f.unit b then some f.unit else some b) none

/-- Packets are dropped from the oldest frame, lowest sequence number first, until the buffer holds the rest (R261); with their
count. -/
def Slot.overflow (k : Slot) (size : Nat) (n fuel : Nat) : Slot × Nat :=
  match fuel with
  | 0 => (k, n)
  | m + 1 =>
    if k.buffered ≤ size then (k, n)
    else match k.oldestFull with
      | none => (k, n)
      | some u =>
        let drop := fun (f : FrameIn) =>
          match f.sorted.find? (fun q => !q.dropped) with
          | none => f
          | some q => { f with pieces := f.pieces.map (fun t => if t.seq = q.seq then { t with dropped := true } else t) }
        ({ k with frames := k.frames.map (fun f => if f.unit = u then drop f else f) } : Slot).overflow size (n + 1) m

/-- While the stream is paused the jitter buffer keeps packets up to its size. -/
def State.keepPackets (s : State) (i : Fin 1024) (c : CreelCfg) (k : Slot) : State :=
  if k.state = 2 then
    let r := k.overflow c.jitter 0 (k.frames.foldl (fun n f => n + f.pieces.length) 1)
    (s.setSlot i r.1).bump (.creelCount i) Fl.creelCount_LOST r.2
  else s.setSlot i k

/-- The first packet of a frame. -/
def State.newFrame (s : State) (i : Fin 1024) (c : CreelCfg) (k : Slot) (q : Piece) (stamp : Nat) (now : Word) : State :=
  let f : FrameIn := { unit := stamp, pick := now, pieces := [q], ringEnd := 0, handed := none, broken := false }
  s.keepPackets i c (({ k with frames := k.frames ++ [f] } : Slot).handComplete now)

/-- A packet of a stream is latched: late packets and duplicates are discarded (R249, R250). -/
def State.latch (s : State) (i : Fin 1024) (c : CreelCfg) (q : Piece) (stamp : Nat) : State :=
  let k := s.slot i
  let now := s.arrival
  let late := s.bump (.creelCount i) Fl.creelCount_LATE_PKTS 1
  match k.frames.find? (fun f => f.unit == stamp) with
  | some f =>
    if f.pieces.any (fun t => t.seq == q.seq) then s
    else if f.handed.isSome || k.overdue f now then late
    else
      let k : Slot := { k with frames := k.frames.map (fun (g : FrameIn) => if g.unit = stamp then ({ g with pieces := g.pieces ++ [q] } : FrameIn) else g) }
      s.keepPackets i c (k.handComplete now)
  | none =>
    match k.lastStamp with
    | some l =>
      if before (2 ^ 32) l stamp then s.newFrame i c k q stamp now
      else if k.decoding.any (fun f => f.unit == stamp && f.pieces.any (fun t => t.seq == q.seq)) then s
      else late
    | none => s.newFrame i c k q stamp now

/-- The slot of an RTP stream: endpoint index and SSRC (R248). -/
def State.rtpSlot (s : State) (p : Fin 16) (x : Part) (e : Nat) (ssrc : Nat) : Option CreelCfg :=
  x.cfg.creel.find? (fun c =>
    let k := s.slot (Fin.ofNat 1024 c.slot)
    rtpFormat c.format && k.part == some p && k.state != 0 && k.num 0x0D 1 == e && k.num 0x08 4 == ssrc)

/-- The index of an SRTP packet by its sequence number (R365, RFC 3711): none before the first rollover. -/
def srtpIndex (seen : List Nat) (seq : Nat) : Option Nat :=
  match seen.head? with
  | none => some seq
  | some h =>
    let r := h / 65536
    let l := h % 65536
    if l < 32768 then
      if l + 32768 < seq then (if r = 0 then none else some ((r - 1) * 65536 + seq)) else some (r * 65536 + seq)
    else if seq + 32768 < l then some ((r + 1) * 65536 + seq)
    else some (r * 65536 + seq)

/-- A packet index has been accepted, or lies behind the replay list of 128. -/
def srtpReplayed (seen : List Nat) (n : Nat) : Bool :=
  seen.contains n || match seen.head? with | none => false | some h => decide (n + 128 ≤ h)

def srtpSeen (seen : List Nat) (n : Nat) : List Nat :=
  match seen with
  | [] => [n]
  | h :: rest => (if h < n then n :: h :: rest else h :: n :: rest).take 128

/-- Header and payload of a packet, as its authentication covers them. -/
def rtpBytes (k : RtpPkt) : List Byte :=
  beBytes 1 (k.version.toNat * 64) ++ beBytes 1 (k.marker.toNat * 128 + k.ptype.toNat) ++ beBytes 2 k.seq.toNat ++ beBytes 4 k.stamp.toNat
    ++ beBytes 4 k.ssrc.toNat ++ k.payload

/-- The payload of a packet: an SRTP packet is authenticated and checked against the replay list. -/
def State.rtpPayload (s : State) (i : Fin 1024) (c : CreelCfg) (k : RtpPkt) : State × Option (List Byte) :=
  if !srtpFormat c.format then (s, some k.payload)
  else
    let g := s.slot i
    let fail := (s.bump (.creelCount i) Fl.creelCount_AUTH_FAIL 1, none)
    match s.sec.srtp.find? i.val, srtpIndex g.seen k.seq.toNat with
    | some (key, salt), some n =>
      if srtpReplayed g.seen n then fail
      else match srtpOpen key salt n k.ssrc (rtpBytes k) with
        | none => fail
        | some bs => (s.setSlot i { g with seen := srtpSeen g.seen n }, some bs)
    | _, _ => fail

/-- RTP_PACKET: taken at a data endpoint with RTP, for the slot that names it. -/
def execRtpPacket (k : RtpPkt) (s : State) : Out :=
  let discard := .next (s.bump .netCount Fl.netCount_BAD_HEADER 1)
  if !(s.port k.port).link then .next s
  else if (s.port k.port).macsec = 1 then .next (s.bump (.netPort k.port) Fl.netPort_MACSEC_DROP 1)
  else match s.part? k.part with
    | none => .next s
    | some x =>
      if x.replaying then .next s
      else match x.cfg.endpoints[k.endpoint.toNat]? with
        | none => .next s
        | some e =>
          if e.plane ≠ 2 ∨ e.port = 0 ∨ !names e.banks (bankOf k.port) then discard
          else match s.rtpSlot k.part x k.endpoint.toNat k.ssrc.toNat with
            | none => discard
            | some c =>
              let i : Fin 1024 := Fin.ofNat 1024 c.slot
              let g := s.slot i
              if k.version ≠ 2 ∨ k.ptype.toNat ≠ g.num 0x0C 1 then discard
              else if g.state = 3 then .next (s.bump (.creelCount i) Fl.creelCount_LOST 1)
              else if g.state = 4 then .next s
              else match s.rtpPayload i c k with
                | (s, none) => .next s
                | (s, some bs) =>
                  .next (s.latch i c { seq := k.seq.toNat, marker := k.marker, bytes := bs, dropped := false } k.stamp.toNat)

/-- RTCP_PACKET: discarded. -/
def execRtcpPacket (_ : Fin 8) (s : State) : Out := .next s

/-- CREEL_FRAME_DEADLINE: frames whose deadline boundary has come are handed over with the packets latched. -/
def execCreelFrameDeadline (slot : Fin 1024) (s : State) : Out :=
  let k := s.slot slot
  let now := s.arrival
  if (k.state ≠ 1 ∧ k.state ≠ 2) ∨ !s.pick.formed then .next s
  else
    let due := k.frames.filter (fun f => k.overdue f now)
    let lost := due.foldl (fun n f => n + k.missing f) 0
    let k : Slot := { k with frames := k.frames.map (fun (f : FrameIn) =>
      if k.overdue f now then { f with handed := some (BitVec.ofNat 64 (f.pick.toNat + k.num 0x0E 2)) } else f) }
    .next ((s.setSlot slot k).bump (.creelCount slot) Fl.creelCount_LOST lost)

/-! ### Posting (R260, R264) -/

/-- A sample-ready entry goes into the slot's queue. -/
def State.postEntry (s : State) (p : Fin 16) (c : CreelCfg) (flags code frame addr : Nat) (pick : Word) : State :=
  let ctx : Fin 8 := Fin.ofNat 8 c.ctx
  let e : QEntry := { w0 := BitVec.ofNat 64 (c.slot + flags * 2 ^ 16 + code * 2 ^ 32), w1 := BitVec.ofNat 64 frame, w2 := pick,
                      w3 := BitVec.ofNat 64 addr, pick := pick, beat := s.beat, run := false, held := false }
  s.modPart p (fun x => x.setQueue ctx c.queue (x.queue ctx c.queue ++ [e]))

def Part.creelFull (x : Part) (c : CreelCfg) : Bool := x.queueFull (Fin.ofNat 8 c.ctx) c.queue

/-- An ABSENT entry: its FRAME number is spent. -/
def State.postAbsent (s : State) (i : Fin 1024) (p : Fin 16) (c : CreelCfg) (code : Nat) (pick : Word) : State :=
  let k := s.slot i
  (s.setSlot i { k with frame := k.frame + 1 }).postEntry p c 0x8000 code k.frame 0 pick

/-- A stream fault (R255, R264): input is discarded and counted, one ABSENT entry is posted, at once or when the queue has room. -/
def State.creelFault (s : State) (i : Fin 1024) (p : Fin 16) (x : Part) (c : CreelCfg) (code : Nat) : State :=
  let k := s.slot i
  let lost := k.frames.foldl (fun n f => n + f.pieces.length) 0
  let full := x.creelFull c
  let s := s.setSlot i { k with state := 3, lastFault := BitVec.ofNat 16 code, frames := [], decoding := none, posted := 0,
                                owed := if full then some code else none }
  let s := (s.bump (.creelCount i) Fl.creelCount_LOST lost).creelReport i p code
  if full then s else s.postAbsent i p c code (s.pickFor x)

/-- A stream pauses (R261). -/
def State.pauseSlot (s : State) (i : Fin 1024) : State :=
  let k := s.slot i
  if k.state = 1 then (s.setSlot i { k with state := 2 }).bump (.creelCount i) Fl.creelCount_PAUSES 1 else s

def Slot.ringFull (k : Slot) : Bool := decide (k.sampleSlots ≤ k.written - k.released)

/-- After a post: a full ring pauses its slot, a full queue every slot that feeds it. -/
def State.pauseFull (s : State) (i : Fin 1024) (p : Fin 16) (c : CreelCfg) : State :=
  match s.part? p with
  | none => s
  | some x =>
    let s := if (s.slot i).ringFull then s.pauseSlot i else s
    if x.creelFull c then
      (x.cfg.creel.filter (fun d => d.ctx == c.ctx && d.queue == c.queue)).foldl (fun s d => s.pauseSlot (Fin.ofNat 1024 d.slot)) s
    else s

/-- A sample of a picture is written, WRITTEN raised, and its entry posted. Where no rule gives the elements they are open (log entry
43). -/
def State.postPicture (s : State) (i : Fin 1024) (p : Fin 16) (c : CreelCfg) (f : FrameIn) (pic : Config.Picture) (pick : Word) : State :=
  let k := s.slot i
  let comps := k.components pic
  let (data, s) := if k.fits pic then (k.tensor pic, s)
    else
      let (a, s) := s.drawBytes (k.elementBytes comps)
      let (b, s) := s.drawBytes (k.scaleBytes comps)
      ((a, b), s)
  let addr := c.ringBase + 4096 + k.written % max 1 k.sampleSlots * k.sampleBytes
  let rec_ := k.sample i.val pic f.unit (f.handed.getD pick) data
  let s := (s.store_ (.cloth p) addr rec_).store_ (.cloth p) c.ringBase (leBytes 8 (k.written + 1))
  let s := s.setSlot i { k with written := k.written + 1, frame := k.frame + 1 }
  let s := if pic.concealed.isEmpty && pic.tainted.isEmpty then s else s.bump (.creelCount i) Fl.creelCount_CONCEALED 1
  let s := match pic.damage.head? with
    | none => s
    | some d => s.report (beamUnit 0x22) 0x0106 (leNat (slice (damageBytes i.val pic.grey k.frame d) 0 16))
  s.postEntry p c (sampleFlags pic) 0 k.frame addr pick

/-! ### The swatch's record of a frame (19 R387, R389, R390) -/

/-- A payload piece of a CREEL record, padded to 8. -/
def pieceBytes (seq : Nat) (dropped more : Bool) (bs : List Byte) : List Byte :=
  leBytes 2 seq ++ leBytes 2 bs.length ++ leBytes 1 ((if dropped then 1 else 0) + (if more then 2 else 0)) ++ [0, 0, 0] ++ bs
    ++ List.replicate (8 * ceilDiv bs.length 8 - bs.length) 0

/-- Payloads packed into records' piece lists: 33,736 bytes of pieces to a record; a payload is whole where it fits. -/
def packPieces (l : List Piece) (cur : List (List Byte)) (room fuel : Nat) : List (List (List Byte)) :=
  match fuel with
  | 0 => [cur]
  | n + 1 =>
    match l with
    | [] => [cur]
    | q :: rest =>
      let need := 8 + 8 * ceilDiv q.bytes.length 8
      if need ≤ room ∧ q.bytes.length ≤ 32768 then
        packPieces rest (cur ++ [pieceBytes q.seq q.dropped false q.bytes]) (room - need) n
      else
        let m := min 32768 ((room - 8) / 8 * 8)
        if room < 16 then cur :: packPieces l [] 33736 n
        else
          packPieces ({ q with bytes := q.bytes.drop m } :: rest) (cur ++ [pieceBytes q.seq q.dropped true (q.bytes.take m)])
            (room - 8 - m) n

/-- The CREEL records of a frame (log entry 43 for which frame stands for a sample). -/
def State.recordCreel (s : State) (p : Fin 16) (slot frame : Nat) (f : FrameIn) (post : Word) : State :=
  let l := if f.broken then [] else f.sorted
  let fuel := l.foldl (fun n q => n + q.bytes.length / 8 + 4) 4
  let rs := packPieces l [] 33736 fuel
  (rs.zipIdx).foldl (fun s e =>
    let more := decide (e.2 + 1 < rs.length)
    s.recordSwatch p 5 (if more then 2 else 0) post
      (leBytes 2 slot ++ List.replicate 6 0 ++ leBytes 8 frame ++ leBytes 8 (f.handed.getD post).toNat ++ leBytes 8 post.toNat
        ++ leBytes 4 e.1.length ++ [0, 0, 0, 0] ++ e.1.flatten)) s

/-! ### Decode (R251, R255, R260 to R264) -/

/-- The bytes of a frame that reach decode. -/
def FrameIn.input (f : FrameIn) : List (List Byte) := if f.broken then [] else (f.sorted.filter (fun q => !q.dropped)).map (fun q => q.bytes)

/-- Why a frame gives no tensor: the damage kind (R264); none where it decodes. -/
def FrameIn.absent (f : FrameIn) (format : Nat) (history : List (List (List Byte))) : Option Nat :=
  if f.broken then some 6
  else if f.input.isEmpty then some (if f.pieces.any (fun q => q.dropped) then 7 else 1)
  else match Config.readHeader format history f.input with
    | .unreadable kind => some kind
    | _ => none

/-- A decode begins on a frame: dimensions against the admission ceiling, then the crop (R255). -/
def State.beginFrame (s : State) (i : Fin 1024) (p : Fin 16) (x : Part) (c : CreelCfg) (f : FrameIn) : State :=
  let k := s.slot i
  let begin_ := fun (s : State) => s.setSlot i { s.slot i with decoding := some f, posted := 0 }
  if (f.absent c.format k.history).isSome then begin_ s
  else match Config.readHeader c.format k.history f.input with
    | .unreadable _ => begin_ s
    | .unsupported => s.creelFault i p x c 0x0102
    | .size w h level =>
      let s := s.setSlot i { k with level := level % 256 }
      let (x0, y0, cw, ch) := k.crop
      if c.width < w ∨ c.height < h then s.creelFault i p x c 0x0101
      else if cw ≠ 0 ∧ (w < x0 + cw ∨ h < y0 + ch) then s.creelFault i p x c 0x0104
      else begin_ s

/-- The next frame of packets: the oldest, once it has been handed over. -/
def Slot.nextFrame (k : Slot) : Option FrameIn :=
  match k.frames.foldl (fun a f => match a with
      | none => some f
      | some b => if before (2 ^ 32) f.unit b.unit then some f else some b) (none : Option FrameIn) with
  | none => none
  | some f => if f.handed.isSome then some f else none

/-- What stands next in an elementary-stream ring. -/
inductive RingNext where
  | nothing
  | malformed
  /-- A block of the record header fails its check. -/
  | unreadable
  /-- A wrap, to a position. -/
  | wrap (pos : Nat)
  | record (unit addr len pos : Nat)

/-- A ring's next record (R251). -/
def State.ringNext (s : State) (p : Fin 16) (c : CreelCfg) (k : Slot) : RingNext :=
  let base := k.num 0x10 8
  let room := k.num 0x18 4 - 4096
  let produced := s.word64 p base
  let off := k.ringRead % max 1 room
  let at_ := base + 4096 + off
  if produced < k.ringSeen ∨ k.ringRead + room < produced then .malformed
  else if produced < k.ringRead + 16 then .nothing
  else if s.anyBad (.cloth p) at_ 16 || s.anyTagBad (.cloth p) at_ 16 then .unreadable
  else
    let h := s.bytesAt (.cloth p) at_ 16
    let len := leNat (slice h 0 4)
    let kind := leNat (slice h 4 1)
    let size := 64 * ceilDiv (16 + len) 64
    if !allZero (slice h 5 3) then .malformed
    else if kind = 3 then .wrap (k.ringRead + (room - off))
    else if kind ≠ (if c.format = 7 then 2 else 1) ∨ len = 0 ∨ len = 2 ^ 32 - 1 ∨ room < off + size then .malformed
    else if produced < k.ringRead + size then .nothing
    else .record (leNat (slice h 8 8)) (at_ + 16) len (k.ringRead + size)

/-- The engine decodes another slot's frame. -/
def State.engineBusy (s : State) (e : Nat) : Bool := s.slots.any (fun k => k.2.engine == e && k.2.decoding.isSome)

/-- A failing block of a ring: a record, and the consuming context faults, since the chapter states no other effect (R300, R363). -/
def State.ringFails (s : State) (p : Fin 16) (c : CreelCfg) (addr n : Nat) : State :=
  let ctx : Fin 8 := Fin.ofNat 8 c.ctx
  if s.anyTagBad (.cloth p) addr n then
    (s.bump .secCount Fl.secCount_TAG_FAIL 1).faultCtx p ctx none (s.storeUnit (.cloth p) addr) 0x0805 c.slot
  else s.faultCtx p ctx none (beamUnit 0x22) 0x0501 c.slot

/-- A ring record is taken up. -/
def State.startRing (s : State) (i : Fin 1024) (p : Fin 16) (x : Part) (c : CreelCfg) (fuel : Nat) : State :=
  match fuel with
  | 0 => s
  | n + 1 =>
    let k := s.slot i
    let seen := max k.ringSeen (s.word64 p (k.num 0x10 8))
    match s.ringNext p c k with
    | .nothing => s.setSlot i { k with ringSeen := seen }
    | .malformed => s.creelFault i p x c 0x0108
    | .unreadable => (s.ringFails p c (k.num 0x10 8 + 4096 + k.ringRead % max 1 (k.num 0x18 4 - 4096)) 16).creelFault i p x c 0x0108
    | .wrap pos => (s.setSlot i { k with ringRead := pos, ringSeen := seen }).startRing i p x c n
    | .record unit addr len pos =>
      let bad := s.anyBad (.cloth p) addr len || s.anyTagBad (.cloth p) addr len
      let f : FrameIn := { unit := unit, pick := s.now, ringEnd := pos, handed := some s.now, broken := bad,
                           pieces := [{ seq := 0, marker := true, bytes := s.bytesAt (.cloth p) addr len, dropped := false }] }
      let s := (s.setSlot i { k with ringSeen := seen }).load_ none (.cloth p) addr len
      (if bad then s.ringFails p c addr len else s).beginFrame i p x c f

/-- CREEL_DECODE_START. -/
def execCreelDecodeStart (slot : Fin 1024) (s : State) : Out :=
  match s.creelCfg slot with
  | none => .next s
  | some (p, x, c) =>
    let k := s.slot slot
    if k.state ≠ 1 ∨ k.decoding.isSome ∨ s.engineBusy k.engine ∨ x.safe.isSome ∨ x.replaying ∨ s.safety.moduleSafe then .next s
    else if rtpFormat c.format then
      match k.nextFrame with
      | none => .next s
      | some f =>
        let k' := { k with frames := k.frames.erase f, nextSeq := f.after, lastStamp := some f.unit }
        .next ((s.setSlot slot k').beginFrame slot p x c f)
    else if x.cfg.touchesProtected (k.num 0x10 8) (k.num 0x18 4) && !s.hasRegion p then
      .next (s.faultCtx p (Fin.ofNat 8 c.ctx) none (s.storeUnit (.cloth p) (k.num 0x10 8)) 0x0806 slot.val)
    else .next (s.startRing slot p x c 2)

/-- Decode has read a frame's last byte: CONSUMED moves past a ring record, the frame joins the stream's history, the engine has
decoded its pictures' samples. A frame that a replay delivers lies in no ring. -/
def State.endFrame (s : State) (i : Fin 1024) (p : Fin 16) (_ : CreelCfg) (f : FrameIn) (pics : List Config.Picture) (frame : Nat)
    (pick : Word) : State :=
  let k := s.slot i
  let n := pics.foldl (fun n q => n + q.width * q.height) 0
  let s := s.setSlot i { k with decoding := none, posted := 0, history := k.history ++ [f.input],
                                ringRead := if f.ringEnd = 0 then k.ringRead else f.ringEnd }
  let s : State := { s with creel := s.creel.put k.engine (s.creel.get k.engine 0 + n) 0 }
  let s := if f.ringEnd = 0 then s else s.store_ (.cloth p) (k.num 0x10 8 + 8) (leBytes 8 f.ringEnd)
  s.recordCreel p i.val frame f pick

/-- RELEASED as the consumer has written it: none where it moved backwards or passes WRITTEN (R258). -/
def State.releasedNow (s : State) (p : Fin 16) (c : CreelCfg) (k : Slot) : Option Nat :=
  let r := s.word64 p (c.ringBase + 8)
  if r < k.released ∨ k.written < r then none else some r

/-- The next picture of the frame in decode is posted, in output order; the frame ends with its last. -/
def State.decodeNext (s : State) (slot : Fin 1024) (p : Fin 16) (x : Part) (c : CreelCfg) : State :=
  let k := s.slot slot
  let pick := s.pickFor x
  match k.decoding with
  | none => s
  | some f =>
    match s.releasedNow p c k with
    | none => s.creelFault slot p x c 0x0108
    | some r =>
      let k := { k with released := r }
      let s := s.setSlot slot k
      let room := !k.ringFull && !x.creelFull c
      match f.absent c.format k.history with
      | some kind =>
        if !room then s.pauseSlot slot
        else (((s.creelReport slot p 0x0107).postAbsent slot p c kind pick).endFrame slot p c f [] k.frame pick).pauseFull slot p c
      | none =>
        let pics := Config.decodeFrame c.format k.history f.input
        match pics[k.posted]? with
        | none => s.endFrame slot p c f pics k.frame pick
        | some pic =>
          if k.colour ≠ 0 ∧ pic.components < 3 then s.creelFault slot p x c 0x0102
          else if !room then s.pauseSlot slot
          else
            let s := s.postPicture slot p c f pic pick
            let k := s.slot slot
            let s := s.setSlot slot { k with posted := k.posted + 1 }
            let s := if k.posted + 1 < pics.length then s else s.endFrame slot p c f pics (k.frame - pics.length) pick
            s.pauseFull slot p c

/-- CREEL_DECODE_COMPLETE. -/
def execCreelDecodeComplete (slot : Fin 1024) (s : State) : Out :=
  match s.creelCfg slot with
  | none => .next s
  | some (p, x, c) => .next (if x.safe.isSome ∨ s.safety.moduleSafe then s else s.decodeNext slot p x c)

/-- CREEL_RESUME: ring and queue both have room. A faulted stream posts the ABSENT entry that it owes. -/
def execCreelResume (slot : Fin 1024) (s : State) : Out :=
  match s.creelCfg slot with
  | none => .next s
  | some (p, x, c) =>
    let k := s.slot slot
    if x.safe.isSome ∨ s.safety.moduleSafe ∨ x.creelFull c then .next s
    else match k.owed with
      | some code => .next ((s.setSlot slot { k with owed := none }).postAbsent slot p c code (s.pickFor x))
      | none =>
        if k.state ≠ 2 then .next s
        else match s.releasedNow p c k with
          | none => .next (s.creelFault slot p x c 0x0108)
          | some r =>
            let k := { k with released := r }
            .next (s.setSlot slot (if k.ringFull then k else { k with state := 1 }))

end Sys2Proof.Machine
end

