-- ==== Sys2Proof/Machine/Drafts.lean ====
section
/-! DEFINITION. Sys2Proof/Machine/Drafts.lean: the draft transfer and the standby drafts (17 R348; 20 R406), the loader's verdict, and
the course of a panel draft (02 R40, R44 to R48; 21 R420). -/

namespace Sys2Proof.Machine

open Sys2Proof

/-! ### The transfer (R348, R420) -/

/-- A draft can be taken: draft-ready or running (R420; log entry 39). -/
def State.draftPhase (s : State) : Bool :=
  let p := s.fld .moduleState Fl.moduleState_PHASE
  p == 3 || p == 4

def State.setTransfer (s : State) (t : Option Transfer) : State := { s with net := { s.net with transfer := t } }

/-- DRAFT_BEGIN. -/
def execDraftBegin (m : Msg) (s : State) : Out :=
  s.septa (mgmtType 0x0200 formBegin false) m (fun r s =>
    if !s.draftPhase then (s, .busy)
    else match beginTransfer s.net.transfer r with
      | .error a => (s, a)
      | .ok t => (s.setTransfer (some t), .done []))

/-- DRAFT_DATA. -/
def execDraftData (m : Msg) (s : State) : Out :=
  s.septa (mgmtType 0x0201 formData true) m (fun r s =>
    match dataTransfer s.net.transfer r with
    | .error a => (s, a)
    | .ok t => (s.setTransfer (some t), .done []))

/-- A draft goes to the loader; its outcome follows the verdict (R346). -/
def State.handOver (s : State) (r : Staged) (bs : List Byte) : State :=
  { s with draft := { s.draft with loading := some { bytes := bs, pick := r.pick, request := some r } } }

/-- DRAFT_END: BUSY while the loader has a draft in hand (log entry 39). -/
def execDraftEnd (m : Msg) (s : State) : Out :=
  s.septa (mgmtType 0x0202 [] false) m (fun r s =>
    match endTransfer s.net.transfer r with
    | none => (s, .field 0xFFFF)
    | some bs => if s.draft.loading.isSome then (s, .busy) else ((s.setTransfer none).handOver r bs, .reply 1 0 0 []))

/-- DRAFT_ABORT: discards the open transfer of its origin. -/
def execDraftAbort (m : Msg) (s : State) : Out :=
  s.septa (mgmtType 0x0203 [] false) m (fun r s =>
    match s.net.transfer with
    | none => (s, .done [])
    | some t => (if t.origin = hdrOrigin r.msg.hdr then s.setTransfer none else s, .done []))

/-! ### Refusals (R40, R49) -/

/-- DETAIL of a refusal (R40). -/
def flawDetail (step : Nat) (b : Flaw) : Nat := b.index + b.off * 2 ^ 16 + step * 2 ^ 48

/-- The loader refuses: a record, and STORE_DRAFT_STATE. -/
def State.refuseDraft (s : State) (step : Nat) (b : Flaw) : State :=
  let s := (s.report (beamUnit 0x2B) b.code (flawDetail step b)).setFld .storeDraftState Fl.storeDraftState_LAST_FAULT b.code
  if b.index = 0xFFFF then s.setFld .storeDraftState Fl.storeDraftState_IN_HEADER 1
  else (s.setFld .storeDraftState Fl.storeDraftState_IN_HEADER 0).setFld .storeDraftState Fl.storeDraftState_FAULT_SECTION b.index

/-- The draft in hand is done with: the outcome reply of its request is owed (R346). -/
def State.endLoading (s : State) (l : Loading) (status field : Nat) : State :=
  let s := { s with draft := { s.draft with loading := none } }
  match l.request with
  | none => s
  | some r => { s with net := { s.net with outcomes := s.net.outcomes ++ [(r, status, field)] } }

/-! ### Standby drafts (R406) -/

def formSlot : List Fit := [.any 1, .zero 7]

/-- The object of a standby slot. -/
def standby (slot : Nat) : BitVec 32 := objectOf 6 slot

/-- DRAFT_SAVE: steps 1 to 6 in place of the whole check (log entry 39). -/
def execDraftSave (m : Msg) (s : State) : Out :=
  s.septa (mgmtType 0x0310 formSlot false) m (fun r s =>
    let slot := r.num 0 1
    if 8 ≤ slot then (s, .field 0)
    else match endTransfer s.net.transfer r with
      | none => (s, .field 0xFFFF)
      | some bs =>
        match firstStep headSteps (s.load bs r.pick) 1 with
        | some (n, b) => ((s.setTransfer none).refuseDraft n b, .field 0xFFFF)
        | none =>
          let (t, ok) := s.commit [.write (standby slot) bs]
          if ok then (t.setTransfer none, .done []) else (t, .busy))

/-- DRAFT_STANDBY_LOAD. -/
def execDraftStandbyLoad (m : Msg) (s : State) : Out :=
  s.septa (mgmtType 0x0311 formSlot false) m (fun r s =>
    let slot := r.num 0 1
    match if slot < 8 then s.store.content (standby slot) else none with
    | none => (s, .field 0)
    | some bs => if !s.draftPhase || s.draft.loading.isSome then (s, .busy) else (s.handOver r bs, .reply 1 0 0 []))

/-- DRAFT_ERASE. -/
def execDraftErase (m : Msg) (s : State) : Out :=
  s.septa (mgmtType 0x0312 formSlot false) m (fun r s =>
    let slot := r.num 0 1
    if 8 ≤ slot then (s, .field 0)
    else if (s.store.content (standby slot)).isNone then (s, .done [])
    else
      let (s, ok) := s.commit [.delete (standby slot)]
      (s, if ok then .done [] else .busy))

/-! ### The verdict (R40, R44, R45) -/

/-- A full draft is loaded: every partition exists, and waits for its first boundary (R44). -/
def State.acceptFull (s : State) (bs : List Byte) (cfgs : List (Nat × PartCfg)) : State :=
  let l := s.load bs 0
  let s : State := { s with draft := { s.draft with fenceLooms := l.fenceLooms, fenceLinks := l.fenceLinks } }
  let s : State := cfgs.foldl (fun s e => s.createPart (Fin.ofNat 16 e.1) e.2) s
  if s.fld .moduleState Fl.moduleState_PHASE = 3 then s.setFld .moduleState Fl.moduleState_PHASE 4 else s

/-- A panel draft is pending (R45). -/
def State.acceptPanel (s : State) (bs : List Byte) (cfgs : List (Nat × PartCfg)) : State :=
  cfgs.foldl (fun s e =>
    let k : Panel := { part := Fin.ofNat 16 e.1, effective := BitVec.ofNat 64 (draftPick bs), cfg := e.2, replaced := false }
    { s with draft := { s.draft with panels := s.draft.panels ++ [k] } }) s

/-- A panel draft in hand whose boundary P has come (R45). -/
def State.panelLate (s : State) (l : Loading) : Bool :=
  draftPanel l.bytes && s.pick.formed && decide (draftPick l.bytes ≤ s.now.toNat)

/-- It is refused at whichever step is then running, which is open. -/
def State.missDeadline (s : State) (l : Loading) : State :=
  let (n, s) := s.draw 8
  (s.refuseDraft (1 + n.toNat % 21) (Flaw.header 0x0D1B 0x18)).endLoading l 2 0xFFFF

/-- DRAFT_LOADER_VERDICT. The keys of the partitions come from the DRBG: while it cannot answer the draft waits, and where it never
will before reset a panel draft is refused (R354). -/
def execDraftLoaderVerdict (s : State) : Out :=
  match s.draft.loading with
  | none => .next s
  | some l =>
    if s.panelLate l then .next (s.missDeadline l)
    else match s.judge l.bytes l.pick with
      | .error (n, b) => .next ((s.refuseDraft n b).endLoading l 2 0xFFFF)
      | .ok cfgs =>
        if draftPanel l.bytes && s.drbgOver then .next (s.missDeadline l)
        else if !s.drbgReady then .next s
        else .next ((if draftPanel l.bytes then s.acceptPanel l.bytes cfgs else s.acceptFull l.bytes cfgs).endLoading l 0 0)

/-- PANEL_CHECK_DEADLINE (R45). -/
def execPanelCheckDeadline (p : Fin 16) (s : State) : Out :=
  match s.draft.loading with
  | none => .next s
  | some l => .next (if s.panelLate l && draftTarget l.bytes == p.val then s.missDeadline l else s)

/-! ### A pending panel draft (R46, R47) -/

/-- A pending panel draft is cancelled: a record, and LAST_FAULT; the section that a refusal named stays. -/
def State.cancelPanel (s : State) (p : Fin 16) : State :=
  let s := { s with draft := { s.draft with panels := s.draft.panels.filter (fun k => k.part != p) } }
  (s.report (beamUnit 0x2B) 0x0D1D (attributionPart p)).setFld .storeDraftState Fl.storeDraftState_LAST_FAULT 0x0D1D

/-- A loom that the panel draft names has been fenced, or a link that it gives credits on is down. -/
def State.panelBroken (s : State) (k : Panel) : Bool :=
  k.cfg.looms.any s.fencedLoom
    || k.cfg.credits.any (fun c => decide (0 < c.credits) && (s.link (Fin.ofNat 96 c.link)).width == 0)

/-- PANEL_RECHECK: at the boundary of pick P − 1. -/
def execPanelRecheck (p : Fin 16) (s : State) : Out :=
  match s.panel? p.val with
  | none => .next s
  | some k => .next (if s.pick.formed && k.effective == s.now + 1 && s.panelBroken k then s.cancelPanel p else s)

/-- Every loom of a partition has stopped: its runs are withdrawn and its queues discarded (R46 step 1), its accounts stored
(R406), its loom and mill stores zeroised (step 2), its carves released but those kept (step 3). -/
def State.clearForPanel (s : State) (p : Fin 16) (k : Panel) : State :=
  let s := s.modPart p (fun x => x.withdraw 3)
  match s.part? p with
  | none => s
  | some x =>
    let s := ((s.storeAccounts p x).endSession p).zeroiseStores p x.cfg
    (s.setPart p { x with cloth := x.cloth.only (kept x.cfg k.cfg), qps := [], copies := [], homeQueue := [] }).freeSlots p

/-- PANEL_REPLACE: in pick P, once the partition has stopped; the new treadlings are loaded (step 4). -/
def execPanelReplace (p : Fin 16) (s : State) : Out :=
  match s.panel? p.val, s.part? p with
  | some k, some x =>
    if k.replaced || x.stopping != some .panel || !s.stoppedAll x then .next s
    else
      let s := (s.clearForPanel p k).loadTreads k.cfg
      .next { s with draft := { s.draft with panels := s.draft.panels.map (fun e => if e.part = p then { e with replaced := true } else e) } }
  | _, _ => .next s

/-- PARTITION_START: a loaded partition at its first boundary (R44), or a replacing one at the boundary of pick P + 1 (R46). In the
module-wide safe state none starts (R378; log entry 39). -/
def execPartitionStart (p : Fin 16) (s : State) : Out :=
  if s.safety.moduleSafe then .next s
  else match s.part? p with
    | none => .next s
    | some x =>
      match x.start, x.due with
      | none, some n => .next (if x.stopping.isSome then s else s.startPart p n [])
      | _, _ =>
        match s.panel? p.val with
        | none => .next s
        | some k =>
          if k.replaced && s.pick.formed && decide (k.effective.toNat < s.now.toNat) then
            let s := { s with draft := { s.draft with panels := s.draft.panels.filter (fun e => e.part != p) } }
            .next (s.replacePart p k.cfg (k.effective + 1))
          else .next s

end Sys2Proof.Machine
end

