-- ==== Sys2Proof/Machine/Reports.lean ====
section
/-! DEFINITION. Sys2Proof/Machine/Reports.lean: what the device sends of its own: pick reports (17 R349 to R351; 03 R57; 10 R203, R205) and
fault notices (17 R352; 19 R384). -/

namespace Sys2Proof.Machine

open Sys2Proof

/-! ### Records (R351) -/

/-- A positive value as FP32, rounded toward +∞. -/
def ceilF32 (x : Num) : Nat :=
  let r := (Fmt.fp32.round .rne x).1
  if (Fmt.fp32.decode r).lt x then r + 1 else r

/-- The drift bound of a stream (R203). -/
def Stream.bound (e : Stream) : Nat :=
  if !e.nonexp then 0x7F800000
  else
    let u : Num := .fin false 1 (if e.fp32 then -24 else -49)
    ceilF32 ((Num.ofInt e.sinceReset.toNat 0).mul ((u.mul (ofF32 e.mag)).add (.fin false 1 (-150))))

/-- The emittable step (R205); the spec states no value where both terms lie below 0 (log entry 40). -/
def Stream.emittable (e : Stream) : Nat :=
  if e.stat stClosing && e.step == e.final then e.step.toNat
  else if decide (e.step.toNat < e.lookahead) && e.lastReset == 0 then
    Config.emittableBelow e.step.toNat e.lookahead e.lastReset.toNat
  else max (e.step.toNat - e.lookahead) (e.lastReset.toNat - 1)

def streamRecord (id : Nat) (e : Stream) : List Byte :=
  beBytes 2 2 ++ beBytes 2 48 ++ beBytes 2 id ++ beBytes 1 e.status.toNat ++ [0] ++ beBytes 8 e.step.toNat
    ++ beBytes 8 e.sinceReset.toNat ++ beBytes 4 e.bound ++ beBytes 2 e.thrash ++ [0, 0] ++ beBytes 8 e.emittable
    ++ beBytes 4 e.late ++ [0, 0, 0, 0]

def seqRecord (id : Nat) (e : SeqEntry) (skipped : Bool) : List Byte :=
  beBytes 2 3 ++ beBytes 2 24 ++ beBytes 2 id ++ beBytes 1 (e.starved.toNat + 2 * e.atLimit.toNat + 4 * skipped.toNat) ++ [0]
    ++ beBytes 4 e.length ++ beBytes 4 e.skips ++ List.replicate 8 0

def RptRec.bytes (r : RptRec) : List Byte :=
  match r with
  | .run o v t => runRecordBytes o v t
  | .request origin status type field seq =>
    beBytes 2 4 ++ beBytes 2 24 ++ beBytes 1 origin ++ beBytes 1 status ++ beBytes 2 type ++ beBytes 2 field ++ [0, 0]
      ++ beBytes 8 seq.toNat ++ [0, 0, 0, 0]

def RptRec.isRun (r : RptRec) : Bool := match r with | .run _ _ _ => true | _ => false

/-- Numbers below n that a list holds, rising. -/
def rising (l : List Nat) (n : Nat) : List Nat := (List.range n).filter l.contains

/-- A destination's records, in order: RUN, REQUEST, STREAM, SEQUENCE; streams and sequences that are live, by ID. -/
def Part.records (x : Part) (d : Dest) : List (List Byte) :=
  (d.pend.filter RptRec.isRun).map RptRec.bytes
    ++ (d.pend.filter (fun r => !r.isRun)).map RptRec.bytes
    ++ (x.streams.filter (fun e => e.2.live && d.streams.contains e.1)).map (fun e => streamRecord e.1 e.2)
    ++ (x.pool.seqs.filter (fun e => e.2.live && d.seqs.contains e.1)).map (fun e => seqRecord e.1 e.2 (d.skipped.contains e.1))

/-! ### Sending (R328, R342) -/

/-- Consecutive records that fit a room together; a record alone always does. -/
def cutParts (room : Nat) (l : List (List Byte)) (cur : List (List Byte)) (size : Nat) : List (List (List Byte)) :=
  match l with
  | [] => [cur]
  | r :: rest =>
    if !cur.isEmpty && decide (room < size + r.length) then cur :: cutParts room rest [r] r.length
    else cutParts room rest (cur ++ [r]) (size + r.length)

/-- The VLAN on which a partition's messages, or management's, leave on a bank for a family: that of its endpoint of that family
there, else of its first endpoint on the bank, else of its first endpoint (log entry 40). -/
def State.vlanFor (s : State) (part : Option Part) (bank : Nat) (v4 : Bool) : Nat :=
  match part with
  | none => s.mgmtEndpoint.vlan
  | some x =>
    let l := x.cfg.endpoints.filter (fun e => e.plane == 1)
    let there := l.filter (fun e => names e.banks bank)
    match there.filter (fun e => e.addr.v4 == v4) ++ there ++ l with
    | e :: _ => e.vlan
    | [] => 0

/-- One copy of a device message on a bank; the zero address means none (R349). -/
def State.sendCopy (s : State) (part : Option Part) (d : Dest) (bank : Nat) (bs : List Byte) : State :=
  let a := if bank = 0 then d.a else d.b
  match (s.upPorts bank).head? with
  | some port =>
    if a = 0 then s
    else
      let v := s.vlanFor part bank d.v4
      s.transmit { kind := .septa, port := port.val, vlan := v, mac := none, dst := { v4 := d.v4, value := a }, dstPort := d.port, bytes := bs }
  | none => s

/-- A device message: the next number of its plane, the same on both banks. -/
def State.deviceSend (s : State) (part : Option (Fin 16 × Part)) (d : Dest) (type : Nat) (pick : Word) (last : Bool) (payload : List Byte) :
    State :=
  let control := part.isSome
  let n := if control then s.net.seqControl else s.net.seqMgmt
  let dual := d.a != 0 && d.b != 0
  let head := septaHeader (if control then 1 else 3) (match part with | none => 0xFF | some e => e.1.val) 0xFF
    ((if dual then 2 else 0) + (if last then 4 else 0)) n pick.toNat payload.length type
  let s := if control then { s with net := { s.net with seqControl := n + 1 } } else { s with net := { s.net with seqMgmt := n + 1 } }
  let x := part.map (fun e => e.2)
  (s.sendCopy x d 0 (head ++ payload)).sendCopy x d 1 (head ++ payload)

/-! ### Pick reports (R349, R350) -/

/-- Picks passed, records owed, or nothing sent yet: a report for the picks up to n − 1 goes to a destination. -/
def Dest.due (d : Dest) (n : Word) : Bool :=
  match d.last with
  | none => true
  | some l => decide (d.interval ≤ n.toNat - 1 - l.toNat) || decide (65536 ≤ d.pend.length + d.streams.length + d.seqs.length)

/-- The head of a part. -/
def State.reportHead (s : State) (x : Part) (d : Dest) (n : Word) (i parts records : Nat) : List Byte :=
  let flags := d.holdover.toNat + 2 * d.overrun.toNat + 4 * x.safe.isSome.toNat + 8 * x.stopping.isSome.toNat
  let first := match d.last with | none => n.toNat - 1 | some l => l.toNat + 1
  beBytes 2 i ++ beBytes 2 parts ++ beBytes 2 records ++ beBytes 2 flags ++ beBytes 8 first ++ beBytes 4 d.maxDelay
    ++ beBytes 1 x.code ++ [0, 0, 0] ++ beBytes 8 (s.fld .pickMode Fl.pickMode_GENERATION)

/-- What a destination has had reported. -/
def Dest.reported (d : Dest) (n : Word) (holdover : Bool) : Dest :=
  { d with last := some (n - 1), pend := [], streams := [], seqs := [], skipped := [], holdover := holdover, overrun := false, maxDelay := 0 }

/-- A report to one destination. The room of a part is the MTU less the headers before it (log entry 40). -/
def State.reportTo (s : State) (p : Fin 16) (x : Part) (i : Nat) (d : Dest) (n : Word) : State :=
  let parts := cutParts (s.udpRoom d.v4 - 64) (x.records d) [] 0
  let s := (parts.zipIdx).foldl (fun s e =>
    s.deviceSend (some (p, x)) d 0x0121 (n - 1) (e.2 + 1 == parts.length)
      (s.reportHead x d n e.2 parts.length e.1.length ++ e.1.flatten)) s
  s.modPart p (fun x => { x with dests := x.dests.ins i (d.reported n s.inHoldover) })

/-- A partition's reports at a boundary; `all` where it is the last before its end, to every destination that is owed a record
(log entry 40). The boundary's pick is n as the partition sees it. -/
def State.reportPart (s : State) (p : Fin 16) (n : Word) (all : Bool) : State :=
  match s.part? p with
  | none => s
  | some x =>
    let t := if !x.started || n == 0 then s
      else x.dests.foldl (fun s e =>
        if e.2.due n || (all && !e.2.pend.isEmpty) then s.reportTo p x e.1 e.2 n else s) s
    t.modPart p (fun x => { x with recent := Dest.blank s.inHoldover })

/-- Step 6: reports leave in increasing partition order (R57). -/
def State.pickReports (s : State) (n : Word) : State :=
  (List.finRange 16).foldl (fun s p => match s.part? p with
    | none => s
    | some x => if x.replaying then s else s.reportPart p n false) s

/-! ### Fault notices (R352) -/

/-- A fault record on the wire (R384). -/
def Record.bytes (r : Record) : List Byte :=
  beBytes 8 r.pick.toNat ++ beBytes 4 r.beat.toNat ++ beBytes 2 r.unit.toNat ++ beBytes 2 r.code.toNat ++ beBytes 16 r.detail.toNat

/-- A record attributes a partition. -/
def Record.attributes (r : Record) (p : Fin 16) : Bool := r.detail.getLsbD 127 && r.part == p

/-- Notices of some records to one destination; each message counts in NOTICES. Their PICK is that in which they leave. -/
def State.notify (s : State) (part : Option (Fin 16 × Part)) (d : Dest) (l : List Record) : State :=
  if l.isEmpty then s
  else
    let parts := cutParts (s.udpRoom d.v4 - 40) (l.map Record.bytes) [] 0
    (parts.zipIdx).foldl (fun s e =>
      (s.deviceSend part d 0x0221 s.arrival (e.2 + 1 == parts.length) (beBytes 2 e.1.length ++ List.replicate 6 0 ++ e.1.flatten)).bump
        .safeCount Fl.safeCount_NOTICES 1) s

/-- FAULT_NOTICE: the records owed go to the module's destinations, and those of a partition to its report destinations. -/
def execFaultNotice (s : State) : Out :=
  let l := s.safety.notices
  let s := { s with safety := { s.safety with notices := [] } }
  let s := s.net.notices.foldl (fun s e => s.notify none e.2 l) s
  .next ((List.finRange 16).foldl (fun s p => match s.part? p with
    | none => s
    | some x => x.dests.foldl (fun s e => s.notify (some (p, x)) e.2 (l.filter (fun r => r.attributes p))) s) s)

/-- NOTICE_SET (R352): PARTITION is 0xFF. -/
def execNoticeSet (m : Msg) (s : State) : Out :=
  s.septa (mgmtType 0x0220 formDest false) m (fun r s =>
    if r.msg.hdr.partition ≠ 0xFF then (s, .header 4)
    else match destBreaks r with
      | some off => (s, .field off)
      | none =>
        let d := r.num 0 1
        let t := if r.num 2 2 = 0 then s.net.notices.del d else s.net.notices.ins d (r.dest (Dest.blank false))
        ({ s with net := { s.net with notices := t } }, .done []))

end Sys2Proof.Machine
end

