-- ==== Sys2Proof/Machine/Pick.lean ====
section
/-! DEFINITION. Sys2Proof/Machine/Pick.lean: the pick unit: its sources and boundaries (03 R50 to R60; 17 R334; 22 R425) and module-wide
mode changes (03 R61 to R64; 20 R408). -/

namespace Sys2Proof.Machine

open Sys2Proof

/-! ### State of the source (R52, PICK_STATUS) -/

def State.sel (s : State) : Nat := s.fld .pickSource Fl.pickSource_SEL
def State.sourceState (s : State) : Nat := s.fld .pickStatus Fl.pickStatus_STATE
def State.setSource (s : State) (n : Nat) : State := s.setFld .pickStatus Fl.pickStatus_STATE n
def State.period (s : State) : Nat := s.fld .pickPeriod Fl.pickPeriod_PERIOD_NS
def State.window (s : State) : Nat := s.fld .pickSource Fl.pickSource_WINDOW_NS

/-- A record of the pick unit. -/
def State.pickReport (s : State) (code detail : Nat) : State := s.report (beamUnit 0x20) code detail

/-- Boundary n is formed: it is the current pick from this beat on, and its steps are due (R50, R56). -/
def State.form (s : State) (n : Word) (byPulse : Bool) : State :=
  let s := { s with boundaryBeat := s.beat, pick := { s.pick with formed := true, everFormed := true, due := some n, byPulse := byPulse },
                    safety := { s.safety with first := [] } }
  let s := s.setReg .pickNow n
  if s.sourceState = 1 then s.setSource 2 else s

/-- Holdover begins (R58): 0x0C01 with its cause; the reports of every partition carry the flag. -/
def State.enterHoldover (s : State) (cause : Nat) : State :=
  let s := ((s.setSource 3).setFld .pickStatus Fl.pickStatus_HOLDOVER_SEEN 1).pickReport 0x0C01 cause
  { s with
    pick := { s.pick with lockRun := 0, badRun := 0 },
    parts := s.parts.map (fun e => (e.1, e.2.eachDest (fun d => { d with holdover := true }))) }

/-- A boundary formed in holdover counts, up to 1,000. -/
def State.countHoldover (s : State) : State :=
  s.setFld .pickStatus Fl.pickStatus_HOLDOVER_PICKS (min 1000 (s.fld .pickStatus Fl.pickStatus_HOLDOVER_PICKS + 1))

/-- Holdover ends (R60). -/
def State.endHoldover (s : State) : State :=
  ((s.setSource 2).setFld .pickStatus Fl.pickStatus_HOLDOVER_PICKS 0).pickReport 0x0C07 0

/-- Holdover that has counted 1,000 boundaries expires (R59). -/
def State.expireHoldover (s : State) : State :=
  if s.sourceState = 3 ∧ s.fld .pickStatus Fl.pickStatus_HOLDOVER_PICKS = 1000 then (s.setSource 4).pickReport 0x0C02 0 else s

/-- HOLDOVER_EXPIRED (R59). -/
def execHoldoverExpired (s : State) : Out := .next s.expireHoldover

/-! ### The pulse source (R54, R425) -/

/-- E(n): the expected instant of boundary n, from the last boundary formed by a pulse. -/
def State.expected (s : State) (n : Word) : Option Nat :=
  s.pick.anchor.map (fun a => a.1 + (n.toNat - a.2.toNat) * s.period)

/-- A pulse that is ignored counts; outside every window it is recorded too. -/
def State.spurious (s : State) (record : Bool) : State :=
  let s := s.bump .pickStatus Fl.pickStatus_SPURIOUS 1
  if record then s.pickReport 0x0C04 0 else s

/-- A pulse forms boundary n and is the new anchor; it ends holdover. -/
def State.formByPulse (s : State) (n : Word) (t : Nat) : State :=
  let s := s.form n true
  let s := { s with pick := { s.pick with anchor := some (t, n) } }
  if s.inHoldover then s.endHoldover else s

/-- PICK_PULSE: a rising edge at instant t. -/
def execPickPulse (t : Nat) (s : State) : Out :=
  if s.sel ≠ 2 then .next s
  else if (match s.pick.lastEdge with | none => false | some l => decide (t ≤ l + 1000)) then .next (s.spurious false)
  else
    let s := { s with pick := { s.pick with lastEdge := some t } }
    if s.pick.due.isSome then .next (s.spurious true)
    else if !s.pick.formed then .next (s.formByPulse (s.reg .pickPulseBase) t)
    else match s.expected (s.now + 1) with
      | none => .next (s.spurious true)
      | some e => .next (if t ≤ e + s.window ∧ e ≤ t + s.window then s.formByPulse (s.now + 1) t else s.spurious true)

/-- PULSE_MISSED: the instant E(n) + WINDOW_NS passes without a pulse. -/
def execPulseMissed (t : Nat) (s : State) : Out :=
  if s.sel ≠ 2 ∨ !s.pick.formed ∨ s.pick.due.isSome then .next s
  else if s.expected (s.now + 1) ≠ some (t - s.window) ∨ t < s.window then .next s
  else
    let s := ((s.form (s.now + 1) false).bump .pickStatus Fl.pickStatus_MISSED 1).pickReport 0x0C03 0
    let s := if s.inHoldover then s else s.enterHoldover 3
    .next s.countHoldover

/-! ### The reference (R55) -/

/-- REF_LOST. -/
def execRefLost (s : State) : Out :=
  if s.fld .pickSource Fl.pickSource_REF_EN = 0 then .next s
  else
    let t := (s.setFld .pickStatus Fl.pickStatus_REF_OK 0).setFld .pickStatus Fl.pickStatus_REF_LOST 1
    if s.pick.refReported then .next t
    else .next (({ t with pick := { t.pick with refReported := true } } : State).pickReport 0x0C05 0)

/-- REF_RESTORED: the reference has been valid for 1 s. -/
def execRefRestored (s : State) : Out :=
  if s.fld .pickSource Fl.pickSource_REF_EN = 0 then .next s
  else .next { (s.setFld .pickStatus Fl.pickStatus_REF_OK 1) with pick := { s.pick with refReported := false } }

/-! ### PTP (R53, R58, R334) -/

/-- A PTP message that the client accepts. -/
def State.hearsPtp (s : State) (m : PtpMsg) : Bool :=
  let q := s.port m.port
  s.fld .netPtp Fl.netPtp_EN == 1 && q.link && q.macsec != 1 && names (s.fld .netPtp Fl.netPtp_BANKS) (bankOf m.port)
    && s.fld .netPtp Fl.netPtp_TRANSPORT == m.transport.toNat && s.fld .netPtp Fl.netPtp_DOMAIN == m.domain.toNat
    && s.fld .netPtp Fl.netPtp_VLAN == m.vlan.toNat

/-- The message is the selected grandmaster's. -/
def State.fromSelected (s : State) (m : PtpMsg) : Bool :=
  match s.pick.selected with | none => false | some c => c.source == m.source && c.port == m.port.val

/-- Instant of boundary n of the PTP source. -/
def State.ptpInstant (s : State) (n : Nat) : Nat :=
  s.fld .pickEpoch Fl.pickEpoch_SECONDS * 1000000000 + s.fld .pickEpoch Fl.pickEpoch_NS + n * s.period

/-- A signed offset as OFFSET_NS holds it. -/
def offsetField (o : Int) : Nat := (if o < 0 then 65536 - min 32767 o.natAbs else min 32767 o.natAbs) % 65536

/-- What one Sync's offset does (R53, R58, R60): 16 in a row within 1 µs lock the clock, 8 in a row beyond 10 µs lose it. -/
def State.judgeOffset (s : State) (o : Int) (ptpTime : Nat) : State :=
  let s := s.setFld .pickStatus Fl.pickStatus_OFFSET_NS (if s.sel = 2 then 0 else offsetField o)
  let k := s.pick
  let s := { s with pick := { k with
    lockRun := if o.natAbs ≤ 1000 then min 16 (k.lockRun + 1) else 0,
    badRun := if 10000 < o.natAbs then min 8 (k.badRun + 1) else 0 } }
  if s.sel ≠ 1 then s
  else if s.sourceState = 1 then
    if s.pick.lockRun = 16 ∧ s.pick.lockTime.isNone then { s with pick := { s.pick with lockTime := some ptpTime } } else s
  else if s.sourceState = 2 then (if s.pick.badRun = 8 then s.enterHoldover 2 else s)
  else if s.inHoldover ∧ s.pick.lockRun = 16 then s.endHoldover
  else s

/-- A Sync's two timestamps are known. Until a path delay has been measured no offset is (log entry 41). -/
def State.syncTimes (s : State) (t1 t2 : Nat) : State :=
  let gap : Int := (t2 : Int) - t1
  let s := { s with pick := { s.pick with syncGap := gap } }
  if !s.pick.haveDelay then s
  else
    let delay := (gap + s.pick.delayGap) / 2
    s.judgeOffset (gap - delay) (t1 + delay.toNat)

/-- PTP_SYNC: a one-step Sync, or the first half of a two-step one. -/
def execPtpSync (m : PtpMsg) (s : State) : Out :=
  if !s.hearsPtp m || !s.fromSelected m then .next s
  else if m.twoStep then .next { s with pick := { s.pick with halfSync := some (m.sequence, m.ingress) } }
  else .next (s.syncTimes m.origin m.ingress)

/-- PTP_FOLLOW_UP. -/
def execPtpFollowUp (m : PtpMsg) (s : State) : Out :=
  if !s.hearsPtp m || !s.fromSelected m then .next s
  else match s.pick.halfSync with
    | none => .next s
    | some (q, t2) =>
      if q ≠ m.sequence then .next s
      else .next (({ s with pick := { s.pick with halfSync := none } } : State).syncTimes m.origin t2)

/-- PTP_DELAY_RESP: the end-to-end delay measurement is complete. -/
def execPtpDelayResp (m : PtpMsg) (s : State) : Out :=
  if !s.hearsPtp m || !s.fromSelected m then .next s
  else match s.pick.delayReq with
    | none => .next s
    | some (q, port, t3) =>
      if q ≠ m.sequence ∨ port ≠ m.port then .next s
      else .next { s with pick := { s.pick with delayReq := none, delayGap := (m.origin : Int) - t3, haveDelay := true } }

/-- The best of the clocks heard: the lowest rank, then the lowest identity. -/
def bestClock (l : List Clock) : Option Clock :=
  match l with
  | [] => none
  | c :: rest =>
    match bestClock rest with
    | none => some c
    | some d => some (if d.rank < c.rank ∨ (d.rank = c.rank ∧ d.source.toNat < c.source.toNat) then d else c)

/-- The choice of the best master clock algorithm; a new grandmaster starts its own run of Syncs and its own path delay. -/
def State.choose (s : State) (clocks : List Clock) : State :=
  let best := bestClock clocks
  let same := match best, s.pick.selected with
    | some a, some b => a.source == b.source && a.port == b.port
    | none, none => true
    | _, _ => false
  if same then { s with pick := { s.pick with clocks := clocks, selected := best } }
  else { s with pick := { s.pick with clocks := clocks, selected := best, lockRun := 0, badRun := 0, halfSync := none, delayReq := none, haveDelay := false } }

/-- PTP_ANNOUNCE. -/
def execPtpAnnounce (m : PtpMsg) (s : State) : Out :=
  if !s.hearsPtp m then .next s
  else
    let c : Clock := { source := m.source, rank := m.rank, grandmaster := m.grandmaster, interval := m.interval, port := m.port.val }
    .next (s.choose (c :: s.pick.clocks.filter (fun d => !(d.source == m.source && d.port == m.port.val))))

/-- DELAY_REQ: sent on the selected grandmaster's port. -/
def execDelayReq (port : Fin 8) (t : Nat) (s : State) : Out :=
  match s.pick.selected with
  | none => .next s
  | some c =>
    if s.fld .netPtp Fl.netPtp_EN = 0 ∨ c.port ≠ port.val then .next s
    else
      let q := s.pick.delaySeq
      let s := { s with pick := { s.pick with delaySeq := q + 1, delayReq := some (q, port, t) } }
      .next (s.emit { kind := .ptp, port := port.val, vlan := s.fld .netPtp Fl.netPtp_VLAN, mac := none,
                      dst := { v4 := s.fld .netPtp Fl.netPtp_TRANSPORT == 0, value := 0 }, dstPort := 319, bytes := beBytes 2 q.toNat })

/-- PTP_ANNOUNCE_TIMEOUT (R58): the selected grandmaster has been silent for three announce intervals. It is forgotten. -/
def execPtpAnnounceTimeout (s : State) : Out :=
  match s.pick.selected with
  | none => .next s
  | some c =>
    let s := s.choose (s.pick.clocks.filter (fun d => !(d.source == c.source && d.port == c.port)))
    .next (if s.sel = 1 ∧ s.sourceState = 2 then s.enterHoldover 1 else s)

/-- The boundary that the PTP source, or its holdover, forms next: the first after lock, then one by one (R53). -/
def State.nextPtp (s : State) : Option Word :=
  if s.sel ≠ 1 then none
  else if s.pick.formed then some (s.now + 1)
  else match s.pick.lockTime with
    | none => none
    | some t =>
      let n := if t < s.ptpInstant 0 then 0 else (t - s.ptpInstant 0) / max 1 s.period + 1
      some (BitVec.ofNat 64 n)

/-- Under the PTP source a boundary comes by the clock alone. -/
def State.formPtp (s : State) : State :=
  match s.nextPtp with
  | none => s
  | some n =>
    let s := s.form n false
    if s.inHoldover then s.countHoldover else s

/-! ### Writes of PICK_SOURCE (R52) -/

/-- A write that R52 accepts. -/
def State.sourceOk (s : State) (v : Word) : Bool :=
  let sel := Fl.pickSource_SEL.get v
  let w := Fl.pickSource_WINDOW_NS.get v
  if s.sel ≠ 0 then sel == 0 && !s.parts.any (fun e => e.2.started)
  else if sel = 0 then true
  else if sel = 3 then false
  else decide (500000 ≤ s.period) && decide (s.period ≤ 1000000000)
    && (sel != 2 || (decide (1000 ≤ w) && decide (4 * w ≤ s.period)))

/-- The pick unit as a disarmed source leaves it. -/
def PickUnit.idle (k : PickUnit) : PickUnit :=
  { k with formed := false, due := none, byPulse := false, anchor := none, lastEdge := none, lockRun := 0, badRun := 0, lockTime := none }

/-- An accepted write: it arms the source, disarms it, or is held. -/
def State.writeSource (s : State) (v : Word) : State :=
  let old := s.sel
  let s := s.setReg .pickSource v
  let s := if Fl.pickSource_REF_EN.get v = 0 then s.setFld .pickStatus Fl.pickStatus_REF_OK 0 else s
  if Fl.pickSource_SEL.get v = old then s
  else
    let s := { s with pick := s.pick.idle }
    let s := (s.setFld .pickStatus Fl.pickStatus_HOLDOVER_PICKS 0).setFld .pickStatus Fl.pickStatus_OFFSET_NS 0
    s.setSource (if Fl.pickSource_SEL.get v = 0 then 0 else 1)

/-! ### Mode changes (R61 to R64, R408) -/

/-- Participating units: the sequencers of looms that are not fenced, every unit of a mill, every unit of the beam die (R61, R383). -/
def State.participants (s : State) : List Nat :=
  ((List.finRange 256).filter (fun g => !s.fencedLoom g.val)).map (fun g => loomUnit g 1)
    ++ (List.finRange 8).flatMap (fun m => (rangeFrom 0x10 13).map (millUnit m))
    ++ ([0x19, 0x1A] ++ rangeFrom 0x20 14).map beamUnit

/-- Every beam link of a mill is down: its units cannot answer (R64). -/
def State.millCutOff (s : State) (m : Fin 8) : Bool :=
  (rangeFrom (64 + 4 * m.val) 4).all (fun i => (s.link (Fin.ofNat 96 i)).width == 0)

/-- A pending panel draft's window holds the effective pick (R48). -/
def State.panelWindow (s : State) (p : Word) : Bool := s.draft.panels.any (fun k => inPanelWindow k.effective p)

/-- A unit may answer an announcement. -/
def State.canAnswer (s : State) (c : Change) (u : Nat) : Bool :=
  s.participants.contains u
    && (if u = beamUnit 0x2B then !s.panelWindow c.pick else u / 0x1000 == 0xF || !s.millCutOff (Fin.ofNat 8 (u / 0x1000)))

/-- Values of a kind (R408). -/
def modeOk (kind value : Nat) : Bool :=
  if kind = 1 then decide (1500 ≤ value) && decide (value ≤ 4200)
  else if kind = 2 then decide (1000 ≤ value) && decide (value ≤ 2250)
  else if kind = 3 then decide (value ≤ 1)
  else decide (value < 64)

/-- MODE_ANNOUNCE (R61): an announcement refused is recorded with 0x0C08; the reply is BUSY while one is in hand, else names the
effective pick (log entry 41). -/
def execModeAnnounce (m : Msg) (s : State) : Out :=
  s.septa (mgmtType 0x0210 [.count 8, .any 2, .zero 6, .any 8] false) m (fun r s =>
    let p := r.num 0 8
    let kind := r.num 8 2
    if kind = 0 ∨ 4 < kind then (s, .field 8)
    else if !modeOk kind (r.num 16 8) then (s, .field 16)
    else if s.fld .pickMode Fl.pickMode_PHASE ≠ 0 then (s.pickReport 0x0C08 0, .busy)
    else if !s.pick.formed ∨ p < s.now.toNat + 2 then (s.pickReport 0x0C08 0, .field 0)
    else
      let c : Change := { kind := kind, value := BitVec.ofNat 64 (r.num 16 8), pick := BitVec.ofNat 64 p, answered := [], toApply := [] }
      let s := (s.setFld .pickMode Fl.pickMode_PHASE 1).setReg .pickModePick c.pick
      ({ s with pick := { s.pick with change := some c } }, .done []))

/-- MODE_CHANGE_ACK (R61): an answer in a pick before the effective one. -/
def execModeChangeAck (unit : BitVec 16) (s : State) : Out :=
  match s.pick.change with
  | none => .next s
  | some c =>
    if s.fld .pickMode Fl.pickMode_PHASE ≠ 1 ∨ !s.canAnswer c unit.toNat ∨ c.answered.contains unit ∨ (s.pick.formed ∧ c.pick.toNat ≤ s.now.toNat)
    then .next s
    else .next { s with pick := { s.pick with change := some { c with answered := unit :: c.answered } } }

/-- Records of a cancelled change: the count, then up to seven units each (R64). -/
def State.reportSilent (s : State) (total : Nat) (l : List Nat) (fuel : Nat) : State :=
  match fuel with
  | 0 => s
  | k + 1 =>
    if l.isEmpty then s
    else
      let seven := l.take 7
      let d := (seven.zipIdx).foldl (fun n e => n + e.1 * 2 ^ (16 * (e.2 + 1))) (total % 65536)
      (s.pickReport 0x0C06 d).reportSilent total (l.drop 7) k

/-- What a committed change sets. -/
def State.applyMode (s : State) (c : Change) : State :=
  let v := c.value.toNat
  if c.kind = 1 then { s with tele := { s.tele with cap := v } }
  else if c.kind = 2 then { s with tele := { s.tele with ceiling := v } }
  else if c.kind = 3 then { s with safety := { s.safety with selfTest := v == 1 } }
  else { s with tele := { s.tele with mask := BitVec.ofNat 6 v } }

/-- Every unit has applied a committed change. -/
def State.modeDone (s : State) : State :=
  match s.pick.change with
  | none => s
  | some c =>
    if !c.toApply.isEmpty then s
    else
      let s := (s.setFld .pickMode Fl.pickMode_PHASE 0).setFld .pickMode Fl.pickMode_LAST_OUTCOME 1
      { s with pick := { s.pick with change := none } }

/-- A loom has a tile open. -/
def Loom.busy (l : Loom) : Bool := l.seqs.any (fun e => e.2.tile.isSome)

/-- The loom of a sequencer's unit identifier. -/
def unitLoom (u : Nat) : Fin 256 := Fin.ofNat 256 (u / 0x1000 * 32 + u / 0x80 % 32)

/-- An announced change whose boundary has come is committed or cancelled (R62). Units with no tile in progress apply a commit at
once. -/
def State.decideMode (s : State) : State :=
  match s.pick.change with
  | none => s
  | some c =>
    if s.fld .pickMode Fl.pickMode_PHASE ≠ 1 ∨ !s.pick.formed ∨ s.now.toNat < c.pick.toNat then s
    else
      let silent := s.participants.filter (fun u => !c.answered.contains (BitVec.ofNat 16 u))
      if silent.isEmpty then
        let busy := (s.participants.filter (fun u => u % 0x80 == 1 && u / 0x1000 != 0xF && (s.loom (unitLoom u)).busy)).map (BitVec.ofNat 16)
        let g := s.fld .pickMode Fl.pickMode_GENERATION
        let s := ((s.applyMode c).setFld .pickMode Fl.pickMode_GENERATION (g + 1)).setFld .pickMode Fl.pickMode_PHASE 2
        ({ s with pick := { s.pick with change := some { c with toApply := busy } } } : State).modeDone
      else
        let n := silent.length
        let s := ((s.setFld .pickMode Fl.pickMode_PHASE 0).setFld .pickMode Fl.pickMode_LAST_OUTCOME 2).setFld .pickMode
          Fl.pickMode_NOT_ANSWERED (min n 4095)
        ({ s with pick := { s.pick with change := none } } : State).reportSilent n silent n

/-- MODE_CHANGE_DECIDE (R62): at the effective boundary. -/
def execModeChangeDecide (s : State) : Out := .next s.decideMode

/-- Flits held for a newer generation, once a unit has applied it (R63). -/
def State.releaseNewer (s : State) (i : Fin 96) : State :=
  let k := s.link i
  if k.training ∨ 8 ≤ k.fails.1 ∨ 8 ≤ k.fails.2 ∨ k.held.isEmpty then s
  else
    let still := k.held.filter s.newer
    let go := k.held.filter (fun f => !s.newer f)
    go.foldl (fun s f => s.deliver f) (s.setLink i { k with held := still })

/-- MODE_CHANGE_APPLY (R62): a loom at its first tile boundary after the commit. -/
def execModeChangeApply (unit : BitVec 16) (s : State) : Out :=
  match s.pick.change with
  | none => .next s
  | some c =>
    if !c.toApply.contains unit ∨ (s.loom (unitLoom unit.toNat)).busy then .next s
    else
      let s := { s with pick := { s.pick with change := some { c with toApply := c.toApply.filter (fun u => u != unit) } } }
      .next ((List.finRange 96).foldl (fun s i => s.releaseNewer i) s.modeDone)

end Sys2Proof.Machine
end

