-- ==== Sys2Proof/Machine/Boundary.lean ====
section
/-! DEFINITION. Sys2Proof/Machine/Boundary.lean: the steps of a pick boundary (03 R56, R57): staged requests (17 R345, R346), the pick plan
(16 R310 to R316, R325), releases, prefetch and samples due at it; and cadences (10 R202). -/

namespace Sys2Proof.Machine

open Sys2Proof

/-! ### Staged requests (R345, R346) -/

/-- A staged request of a partition is applied: status and field of its request record. A replay needs no session (R392). -/
def State.applyControl (s : State) (p : Fin 16) (x : Part) (r : Staged) : State × Nat × Nat :=
  let take := fun (e : Except Nat State) => match e with | .ok t => (t, 0, 0) | .error f => (s, 2, f)
  if r.type = 0x0110 then take (s.applyCreelOpen p x r)
  else if r.type = 0x0111 then take (s.applyCreelClose p x r)
  else if (r.type = 0x0403 ∨ r.type = 0x0404) ∧ !x.replaying ∧ !s.sec.sessions.has p.val then (s, 2, 0xFFFF)
  else if r.type = 0x0403 then take (s.loadKeys p.val r.payload 0 (r.num 0 2))
  else if r.type = 0x0404 then take (s.applyClose p.val (r.num 0 1))
  else match x.apply r with
    | .ok y => (s.setPart p y, 0, 0)
    | .error f => (s, 2, f)

/-- Its request record, and the swatch's record of it (R351, R387). -/
def State.noteRequest (s : State) (p : Fin 16) (r : Staged) (n : Word) (status field : Nat) : State :=
  (s.modPart p (fun x => x.note (.request (hdrOrigin r.msg.hdr) status r.type field r.msg.hdr.sequence))).recordSwatch p 4 0 n
    (msgHeader r.msg.hdr r.type ++ r.payload ++ leBytes 1 status)

/-- A request of a partition at its boundary; one that its state check refuses counts as refused (NET_COUNT). -/
def State.runControl (s : State) (p : Fin 16) (x : Part) (r : Staged) (n : Word) : State :=
  let (t, status, field) := s.applyControl p x r
  (t.countStatus status).noteRequest p r n status field

/-- Destruction is applied (R310): the partition stops, its runs are withdrawn, and a panel draft pending for it is cancelled. -/
def State.applyDestroy (s : State) (p : Fin 16) : State :=
  let s := s.modPart p (fun x => { x.withdraw 4 with stopping := some .destroy })
  if (s.panel? p.val).isSome then s.cancelPanel p else s

/-- A staged management request is applied: status and field of its outcome reply. -/
def State.applyMgmt (s : State) (r : Staged) : State × Nat × Nat :=
  let take := fun (e : Except Nat State) => match e with | .ok t => (t, 0, 0) | .error f => (s, 2, f)
  if r.type = 0x0320 then s.applyFence r true
  else if r.type = 0x0321 then s.applyFence r false
  else if r.type = 0x0403 ∨ r.type = 0x0404 then
    if !s.sec.sessions.has 16 then (s, 2, 0xFFFF)
    else if r.type = 0x0403 then take (s.loadKeys 16 r.payload 0 (r.num 0 2))
    else take (s.applyClose 16 (r.num 0 1))
  else match r.part?.bind (fun p => (s.part? p).map (fun _ => p)) with
    | none => (s, 2, 0xFFFF)
    | some p =>
      if r.type = 0x0410 then (s.applyDestroy p, 0, 0)
      else match s.applyStop p with
        | some t => (t, 0, 0)
        | none => (s, 2, 0xFFFF)

/-- A request waits on: it arrived in pick n, or R215 or R232 holds it. Before the first boundary requests arrive in no pick. -/
def State.waits (s : State) (r : Staged) (n : Word) : Bool :=
  (n != 0 && decide (n.toNat ≤ r.pick.toNat))
    || (!r.mgmt && match r.part?.bind s.part? with
        | none => false
        | some x => match x.cfg.heldBy r.type with
          | none => false
          | some c => !x.betweenRuns c r.pick)

/-- One staged request at boundary n. One whose partition is no more is gone with it. -/
def State.applyStaged (s : State) (r : Staged) (n : Word) : State :=
  if s.waits r n then { s with net := { s.net with staged := s.net.staged ++ [r] } }
  else if r.mgmt then
    let (t, status, field) := s.applyMgmt r
    { t with net := { t.net with outcomes := t.net.outcomes ++ [(r, status, field)] } }
  else match r.part? with
    | none => s
    | some p => match s.part? p with
      | none => s
      | some x => if x.replaying then s else s.runControl p x r n

/-- Step 4: staged requests, in order of arrival. -/
def State.applyRequests (s : State) (n : Word) : State :=
  let l := s.net.staged
  let s := l.foldl (fun s r => s.applyStaged r n) { s with net := { s.net with staged := [] } }
  (List.finRange 16).foldl (fun s p => s.markHeld p) s

/-- Step 6: outcome replies of management requests (R346). -/
def State.sendOutcomes (s : State) (n : Word) : State :=
  let l := s.net.outcomes
  l.foldl (fun s e => s.outcome e.1 e.2.1 e.2.2 [] n) { s with net := { s.net with outcomes := [] } }

/-! ### What a boundary ends (R193, R255, R323, R377, R387) -/

/-- The runs of a partition that has entered the safe state are reported failed. -/
def Part.failSafe (x : Part) : Part :=
  match x.safe with
  | some code =>
    if x.safeReported then x else { (List.finRange 8).foldl (fun x c => x.endRuns c 2 code) x with safeReported := true }
  | none => x

/-- Results of the runs that have ended are kept or compared. -/
def State.keepResults (s : State) (p : Fin 16) (n : Word) : State :=
  match s.part? p with
  | none => s
  | some x => x.ended.foldl (fun s r => match r with
      | .run o v t => s.result p n (resultBody 2 0 t.toNat (sha (runRecordBytes o v t)))
      | _ => s) (s.setPart p { x with ended := [] })

/-- The rest of step 4 for a partition: closed streams and slots are released, ended runs recorded; a recording of a partition in
destruction ends. -/
def State.closePart (s : State) (p : Fin 16) (n : Word) : State :=
  let s := s.modPart p (fun x => (x.releaseClosed n).failSafe)
  match s.part? p with
  | none => s
  | some x =>
    let s := (s.closeDone x).keepResults p n
    if x.stopping = some .destroy then s.endRecording p 3 else s

/-! ### The plan (R314 to R316, R325) -/

/-- A context has a tile open on a loom, or is issuing there. -/
def Loom.engaged (l : Loom) (c : Fin 8) : Bool :=
  let q := l.seq c
  l.entry == .ctx c && (q.tile.isSome || q.run == .running || q.run == .waiting .home)

/-- The partition's plan selects nothing. -/
def State.halted (s : State) (x : Part) : Bool := x.stopping.isSome || x.safe.isSome || s.safety.moduleSafe

/-- Selects the entry of pick n. -/
def State.selectEntry (s : State) (p : Fin 16) (n : Word) : State :=
  match s.part? p with
  | none => s
  | some x =>
    match x.start with
    | none => s
    | some n0 =>
      let l := max 1 x.cfg.plan.len
      let k := n.toNat - n0.toNat
      let entry := if s.halted x then .idle else x.cfg.entryAt n0.toNat n.toNat s.safety.selfTest
      let y := { x with
        position := k % l, cycles := k / l, code := if s.halted x then 0x10 else x.cfg.codeAt n0.toNat n.toNat, entry := entry }
      if entry = x.entry then s.setPart p y
      else
        let out := match x.entry with | .ctx c => some c | _ => none
        let y := { y with outgoing := out }
        let y := match out with
          | none => y
          | some c =>
            if x.cfg.looms.any (fun g => (s.loom (Fin.ofNat 256 g)).engaged c) then
              y.modCtx c (fun k => { k with acct := { k.acct with preemptions := k.acct.preemptions + 1 } })
            else y
        ((s.setPart p y).setFld (.schedSwitch p) Fl.schedSwitch_MAX_DELAY 0).setFld (.schedSwitch p) Fl.schedSwitch_LATE_LOOMS 0

/-- Sequencers that wait for pick n or an earlier one go on; one whose context has lost its slice does so once it has it again
(R315). -/
def Loom.releasePicks (l : Loom) (x : Part) (n : Word) : Loom :=
  (List.finRange 8).foldl (fun l c =>
    match (l.seq c).run with
    | .waiting (.pick m) =>
      if m.toNat ≤ n.toNat then
        { l.setSeq c (l.seq c).resume with tileDone := l.tileDone || (l.entry == .ctx c && x.entry != .ctx c) }
      else l
    | _ => l) l

/-- Streams at a cadence boundary (R202): behind is whether STEP is less than the step due. -/
def Stream.atBoundary (e : Stream) (n : Word) : Stream :=
  let d := n.toNat - e.base.toNat
  if e.live ∧ e.cadence ≠ 0 ∧ 0 < d ∧ d % e.cadence = 0 then { e with behind := some (decide (e.step.toNat < d / e.cadence)) } else e

/-- CADENCE_CHECK. -/
def execCadenceCheck (p : Fin 16) (id : BitVec 16) (s : State) : Out :=
  match s.part? p with
  | none => .next s
  | some x =>
    match x.stream? id.toNat with
    | none => .next s
    | some e =>
      match e.behind with
      | none => .next s
      | some late =>
        let e := { e with behind := none, late := if late then satAdd 32 e.late 1 else e.late }
        let s := s.setPart p (x.setStream id.toNat (e.setStat stLate late))
        .next (if late then s.bump (.cxeStreamCount x.cfg.home p) Fl.cxeStreamCount_LATE 1 else s)

/-- Step 5 for a started partition. -/
def State.stepFive (s : State) (p : Fin 16) (n : Word) : State :=
  let s := s.selectEntry p n
  match s.part? p with
  | none => s
  | some x =>
    if !x.started then s
    else
      let s := if x.cfg.maskMode then s
        else s.setPart p { x with streams := x.streams.map (fun e => (e.1, e.2.atBoundary n)) }
      let s := x.cfg.looms.foldl (fun s g => s.modLoom (Fin.ofNat 256 g) (fun l => l.releasePicks x n)) s
      x.cfg.looms.foldl (fun s g => (List.finRange 8).foldl (fun s c => s.prefetch p { loom := Fin.ofNat 256 g, ctx := c }) s) s

/-! ### The boundary (R56, R57) -/

/-- A partition whose panel draft takes effect stops (R46); its recording ends (R388). -/
def State.stopForPanel (s : State) (p : Fin 16) (n : Word) : State :=
  match s.panel? p.val, s.part? p with
  | some k, some x =>
    if k.effective.toNat ≤ n.toNat ∧ !k.replaced ∧ x.stopping.isNone then
      (s.modPart p (fun x => { x with stopping := some .panel })).endRecording p 3
    else s
  | _, _ => s

/-- The boundary at which a loaded partition starts (R44). -/
def Part.meets (x : Part) (n : Word) : Part := if x.start.isNone ∧ x.due.isNone then { x with due := some n } else x

/-- The partitions in destruction whose looms have all stopped (R310). -/
def State.leaving (s : State) : List (Fin 16) :=
  (List.finRange 16).filter (fun p => match s.part? p with
    | none => false
    | some x => x.stopping == some .destroy && s.stoppedAll x)

/-- A partition of the module that keeps real picks. -/
def State.real (s : State) (p : Fin 16) : Bool := match s.part? p with | none => false | some x => !x.replaying

/-- Boundary n. Timeouts and the Creel's deadlines are commands of their own; an expiry of holdover or a mode change that is due and
that its own command has not carried out is carried out here, at step 3. -/
def State.boundary (s : State) (n : Word) : State :=
  let gone := s.leaving
  let s := s.expireHoldover.decideMode.retryWriteBacks.applyRequests n
  let s := (List.finRange 16).foldl (fun s p => if s.real p then s.closePart p n else s) s
  let s := s.pickReports n
  let s := gone.foldl (fun s p => (s.reportPart p n true).removePart p) s
  let s := s.sendOutcomes n
  let s := (List.finRange 16).foldl (fun s p => s.stopForPanel p n) s
  let s := (List.finRange 16).foldl (fun s p => if s.real p then s.stepFive p n else s) s
  let s := s.sampleTelemetry
  { s with parts := s.parts.map (fun e => (e.1, e.2.meets n)), pick := { s.pick with due := none } }

/-- PICK_BOUNDARY: the steps of the boundary that is due; under the PTP source the clock forms it. -/
def execPickBoundary (s : State) : Out :=
  let s := if s.sel = 1 ∧ s.pick.due.isNone then s.formPtp else s
  match s.pick.due with
  | none => .next s
  | some n => .next (s.boundary n)

end Sys2Proof.Machine
end

