-- ==== Sys2Proof/Machine/Views.lean ====
section
/-! DEFINITION. Sys2Proof/Machine/Views.lean: what a register reads (00 R7 to R9; 01 R22, R33): the register file, with the fields that
show other parts of the state laid over it. A field that the spec lets timing or a sensor decide is a free value (log entry 3). -/

namespace Sys2Proof.Machine

open Sys2Proof

/-- Fields laid over a register's word. -/
def overlay (v : Word) (l : List (Fld × Nat)) : Word := l.foldl (fun v e => e.1.set v e.2) v

/-- Bit i of a word of 16 is what f says of partition i. -/
def partBits (f : Fin 16 → Bool) : Nat := (List.finRange 16).foldl (fun n p => n + (f p).toNat * 2 ^ p.val) 0

def Tab.loaded (t : Tab TableSlot) : Nat := (List.range 16).foldl (fun n i => n + (t.get i TableSlot.empty).loaded.toNat * 2 ^ i) 0

/-! ### Looms (05, 06) -/

/-- LOOM_STATUS STATE. -/
def State.loomState (s : State) (g : Fin 256) : Nat :=
  let l := s.loom g
  if s.fencedLoom g.val then 5
  else if l.part.isNone then 0
  else if l.safeStop then 4
  else match l.entry with
    | .ctx c =>
      let q := l.seq c
      match q.run with
      | .waiting .home => 2
      | .waiting _ => 3
      | .running => (match q.tile with | some t => if t.waiting.isSome then 3 else 2 | none => 2)
      | _ => if q.tile.isSome then 2 else 1
    | _ => 1

def TieUp.toCode (t : TieUp) : Nat := match t with | .oneByFour => 0 | .twoByTwo => 1 | .fourByOne => 2

/-- LOOM_PC STATE. -/
def Seq.stateCode (q : Seq) : Nat :=
  match q.run with
  | .notStarted => 0
  | .waiting .home => if q.tile.isSome then 2 else 1
  | .waiting _ => 3
  | .running => if q.tile.isSome then 2 else 1
  | .ended => 4
  | .faulted _ => 5

def State.viewLoom (s : State) (g : Fin 256) (v : Word) : Word :=
  let l := s.loom g
  overlay v [(Fl.loomStatus_STATE, s.loomState g), (Fl.loomStatus_CONTEXT, l.lastCtx.val), (Fl.loomStatus_TIEUP, l.lastTieup.toCode),
    (Fl.loomStatus_BANK0_READY, l.bank0.ready.toNat), (Fl.loomStatus_BANK1_READY, l.bank1.ready.toNat),
    (Fl.loomStatus_BANK_ACTIVE, l.activeBank.val), (Fl.loomStatus_PARTITION, match l.part with | none => 0 | some p => p.val)]

/-- The carve of a context on a loom, as its partition's draft gives it. -/
def State.viewCarve (s : State) (g : Fin 256) (c : Fin 8) (v : Word) : Word :=
  match (s.loom g).part.bind s.part? with
  | none => v
  | some x =>
    let r := x.cfg.loomCarve c g
    overlay v [(Fl.loomCarve_BASE, if r.2 = 0 then 0 else r.1 / 4096), (Fl.loomCarve_LENGTH, r.2 / 4096)]

/-! ### Context engine and Creel (10, 11, 13) -/

/-- The partition whose stream home and pool home a mill is. -/
def State.homed (s : State) (m : Fin 8) (p : Fin 16) : Option Part :=
  match s.part? p with
  | none => none
  | some x => if x.cfg.home = m then some x else none

def State.viewStream (s : State) (m : Fin 8) (p : Fin 16) (v : Word) : Word :=
  match s.homed m p with
  | none => v
  | some x => overlay v [(Fl.cxeStream_ACTIVE, 1), (Fl.cxeStream_MODE, x.cfg.maskMode.toNat), (Fl.cxeStream_ENTRIES, x.cfg.streamCount),
      (Fl.cxeStream_LIVE, (x.streams.filter (fun e => e.2.live)).length)]

def State.viewPool (s : State) (m : Fin 8) (p : Fin 16) (v : Word) : Word :=
  match s.homed m p with
  | none => v
  | some x => overlay v [(Fl.cxePool_ACTIVE, 1), (Fl.cxePool_FRAME_KIB, x.cfg.pools.frame / 1024), (Fl.cxePool_FRAMES, x.cfg.pools.pages),
      (Fl.cxePool_FREE, x.pool.freeFrames x.cfg.pools.pages)]

def State.slotsIn (s : State) (f : Nat → Bool) : Nat := (s.slots.filter (fun e => f e.2.state)).length

def State.viewCreel (s : State) (v : Word) : Word :=
  overlay v [(Fl.creelStatus_OPEN, s.slotsIn (fun n => n == 1 || n == 2 || n == 4)), (Fl.creelStatus_FAULTED, s.slotsIn (fun n => n == 3)),
    (Fl.creelStatus_BUSY, (List.range 32).foldl (fun n e => n + (s.engineBusy e).toNat * 2 ^ e) 0)]

def State.viewEngine (s : State) (e : Fin 32) (v : Word) : Word :=
  overlay v [(Fl.creelEngine_RATE_SUM, s.rateSum e.val), (Fl.creelEngine_SAMPLES, min (2 ^ 44 - 1) (s.creel.get e.val 0 / 1000))]

def State.viewSlot (s : State) (i : Fin 1024) (v : Word) : Word :=
  let k := s.slot i
  overlay v [(Fl.creelSlot_STATE, k.state), (Fl.creelSlot_ENGINE, k.engine), (Fl.creelSlot_LAST_FAULT, k.lastFault.toNat),
    (Fl.creelSlot_LEVEL, k.level), (Fl.creelSlot_FRAME, k.frame)]

/-! ### Expander and compressor (14) -/

/-- STATE and BUFFERS of an expander with a fill of a stream in hand are open, but that it is held for a bank or a slot. -/
def State.viewDx (s : State) (g : Fin 256) (v : Word) : Word × State :=
  let l := s.loom g
  let head := l.fills.find? (fun f => f.stream)
  let base := overlay v [(Fl.dxStatus_CONTEXT, l.dxCtx.val), (Fl.dxStatus_BANK, l.dxBank.val), (Fl.dxStatus_LOADED, Tab.loaded l.dx)]
  match head with
  | none => (base, s)
  | some f =>
    if f.heldSince.isSome || f.refused then (overlay base [(Fl.dxStatus_STATE, 3)], s)
    else
      let (a, s) := s.draw 1
      let (b, s) := s.draw 16
      (overlay base [(Fl.dxStatus_STATE, 1 + a.toNat), (Fl.dxStatus_BUFFERS, b.toNat % 17)], s)

/-- MOVEs of a mill's compressor that have not landed. -/
def State.compressing (s : State) (m : Fin 8) : Nat :=
  (rangeFrom (m.val * 32) 32).foldl (fun n g => (s.loom (Fin.ofNat 256 g)).seqs.foldl (fun n e =>
    n + (e.2.moves.filter (fun k => k.kind == .compress || k.kind == .expand)).length) n) 0

/-- QUEUED and the passes of a compressor with requests in hand are open. -/
def State.viewBc (s : State) (m : Fin 8) (v : Word) : Word × State :=
  let base := overlay v [(Fl.bcStatus_LOADED, Tab.loaded (s.mem.bc.get m.val []))]
  let n := s.compressing m
  if n = 0 then (base, s)
  else
    let (a, s) := s.draw 16
    let (b, s) := s.draw 2
    (overlay base [(Fl.bcStatus_QUEUED, min 1023 (a.toNat % (n + 1))), (Fl.bcStatus_PASS1_BUSY, b.toNat % 2), (Fl.bcStatus_PASS2_BUSY, b.toNat / 2)], s)

def viewTable (t : TableSlot) (v : Word) : Word :=
  overlay v [(Fl.dxSlot_TABLE_ID, t.id.toNat), (Fl.dxSlot_USE, t.use), (Fl.dxSlot_LOADED, t.loaded.toNat)]

/-! ### Memory (15) -/

/-- MEM_STACK: the temperature is open. -/
def State.viewStack (s : State) (k : Fin 32) (v : Word) : Word × State :=
  let (t, s) := s.draw 8
  (overlay v [(Fl.memStack_STATE, s.stack k), (Fl.memStack_CARVED, s.stackCarved k), (Fl.memStack_FREE, s.stackFree k),
    (Fl.memStack_TEMP, t.toNat)], s)

def State.viewStage (s : State) (m : Fin 8) (v : Word) : Word :=
  overlay v [(Fl.memStage_STAGED, (s.farPages.filter (fun e => e.2.2.mill == m.val && e.2.2.staged.isSome)).length)]

def State.viewFar (s : State) (n : Fin 4) (v : Word) : Word :=
  let k := s.farPort n
  overlay v [(Fl.farPort_STATE, k.state), (Fl.farPort_PRESENT, k.present.toNat), (Fl.farPort_CAPACITY, k.gib), (Fl.farPort_USED, s.pagesOn n)]

/-! ### Scheduler (16) -/

def State.viewPlan (s : State) (p : Fin 16) (v : Word) : Word :=
  match s.part? p with
  | none => v
  | some x => overlay v [(Fl.schedPlan_POSITION, x.position), (Fl.schedPlan_ENTRY, x.code), (Fl.schedPlan_TEST_RUN, (x.entry == .test).toNat),
      (Fl.schedPlan_CYCLES, x.cycles)]

/-- Word k of an accounting record (R326). -/
def State.acctWord (s : State) (p : Fin 16) (c : Fin 8) (k : Fin 16) : Word :=
  match s.part? p with
  | none => 0
  | some x => BitVec.ofNat 64 (leNat (slice (acctBytes (x.ctx c).acct) (8 * k.val) 8))

/-! ### Network, security, safety, store and module (17 to 21) -/

def State.viewPort (s : State) (i : Fin 8) (v : Word) : Word :=
  overlay v [(Fl.netPort_LINK, (s.port i).link.toNat), (Fl.netPort_MACSEC, (s.port i).macsec)]

/-- Signer slots that hold a key: their objects are in the store. -/
def State.signerBits (s : State) : Nat :=
  (List.range 8).foldl (fun n i => n + (s.store.contentTxn (objectOf 8 (1 + i))).isSome.toNat * 2 ^ i) 0

def State.viewSec (s : State) (v : Word) : Word :=
  overlay v [(Fl.secStatus_IDENTITY, s.sec.identity.toNat), (Fl.secStatus_ENTROPY, s.sec.entropy), (Fl.secStatus_DEBUG, (if s.sec.debug then 1 else 0)),
    (Fl.secStatus_FUSE_COUNT, s.fuses.count), (Fl.secStatus_FW_SVN, s.fwSvn), (Fl.secStatus_SIGNERS, s.signerBits),
    (Fl.secStatus_MODULE_SESSION, (s.sec.sessions.has 16).toNat)]

def State.viewSession (s : State) (v : Word) : Word :=
  overlay v [(Fl.secSession_LIVE, partBits (fun p => s.sec.sessions.has p.val)), (Fl.secSession_PENDING, partBits (fun p => s.sec.pendings.has p.val)),
    (Fl.secSession_REGION, partBits (fun p => s.sec.region.has p.val)), (Fl.secSession_RETAINED, s.sec.retained.toNat)]

/-- Bit p is what f says of an existing partition p. -/
def State.partMap (s : State) (f : Part → Bool) : Nat := partBits (fun p => match s.part? p with | none => false | some x => f x)

def State.viewSafe (s : State) (v : Word) : Word :=
  overlay v [(Fl.safeStatus_SAFE, s.partMap (fun x => x.safe.isSome)), (Fl.safeStatus_MODULE_SAFE, s.safety.moduleSafe.toNat),
    (Fl.safeStatus_SELFTEST_EN, s.safety.selfTest.toNat), (Fl.safeStatus_RECORDING, s.partMap Part.recording),
    (Fl.safeStatus_REPLAYING, s.partMap Part.replaying)]

/-- A fault record as its 32 bytes stand in memory: each field little-endian (R2, R384). -/
def Record.stored (r : Record) : List Byte :=
  leBytes 8 r.pick.toNat ++ leBytes 4 r.beat.toNat ++ leBytes 2 r.unit.toNat ++ leBytes 2 r.code.toNat ++ leBytes 16 r.detail.toNat

def State.logWord (s : State) (k : Fin 4) : Word :=
  match s.safety.log[s.fld .safeLogIndex Fl.safeLogIndex_INDEX]? with
  | none => 0
  | some r => BitVec.ofNat 64 (leNat (slice r.stored (8 * k.val) 8))

def State.viewFw (s : State) (v : Word) : Word :=
  let r := s.store.running
  overlay v [(Fl.storeFw_BOOTS, s.store.boots), (Fl.storeFw_RUN_SVN, match r with | none => 0 | some e => e.2.1),
    (Fl.storeFw_CONFIRMED, match r with | none => 0 | some e => e.2.2.1.toNat), (Fl.storeFw_ATTEMPTS, match r with | none => 0 | some e => min 3 e.2.2.2)]

def State.fenceWord (s : State) (k : Fin 6) : Word :=
  BitVec.ofNat 64 (if k.val < 4 then s.store.fenceLooms / 2 ^ (64 * k.val) else s.store.fenceLinks / 2 ^ (64 * (k.val - 4)))

/-! ### The word that a register reads -/

/-- The word of a register, with the fields that show other state; what the register file itself holds stands as it is. -/
def State.readReg (s : State) (r : Reg) : Word × State :=
  let v := s.reg r
  match r with
  | .linkState m e =>
    let k := s.link (endLink m e)
    (overlay v [(Fl.linkState_WIDTH, k.width), (Fl.linkState_TRAINING, k.training.toNat),
      (Fl.linkState_FAILED_LANE, if k.failedLanes.isEmpty then 0 else k.lowest)], s)
  | .storeDraftState =>
    (overlay v [(Fl.storeDraftState_PART_LIVE, s.partMap Part.started),
      (Fl.storeDraftState_PANEL_PENDING, partBits (fun p => (s.panel? p.val).isSome))], s)
  | .loomStatus g => (s.viewLoom g v, s)
  | .loomCarve g c => (s.viewCarve g c v, s)
  | .loomPc g c =>
    let q := (s.loom g).seq c
    (overlay v [(Fl.loomPc_PC, q.pc.toNat), (Fl.loomPc_STATE, q.stateCode), (Fl.loomPc_LOOP_DEPTH, q.loops.length)], s)
  | .loomTstat g c => (((s.loom g).seq c).st, s)
  | .cxeStream m p => (s.viewStream m p v, s)
  | .cxePool m p => (s.viewPool m p v, s)
  | .creelStatus => (s.viewCreel v, s)
  | .creelEngine e => (s.viewEngine e v, s)
  | .creelSlot i => (s.viewSlot i v, s)
  | .dxStatus g => s.viewDx g v
  | .dxSlot g i => (viewTable ((s.loom g).dx.get i.val TableSlot.empty) v, s)
  | .bcStatus m => s.viewBc m v
  | .bcSlot m i => (viewTable ((s.mem.bc.get m.val []).get i.val TableSlot.empty) v, s)
  | .memStack m i => s.viewStack (stackOf m i.val) v
  | .memStage m => (s.viewStage m v, s)
  | .farPort n => (s.viewFar n v, s)
  | .schedPlan p => (s.viewPlan p v, s)
  | .schedAcct p c k => (s.acctWord p c k, s)
  | .netPort i => (s.viewPort i v, s)
  | .secStatus => (s.viewSec v, s)
  | .secSession => (s.viewSession v, s)
  | .safeStatus => (s.viewSafe v, s)
  | .safeLogCount => (BitVec.ofNat 64 s.safety.records, s)
  | .safeLogData k => (s.logWord k, s)
  | .storeStatus => (s.storeWord, s)
  | .storeFw => (s.viewFw v, s)
  | .storeFence k => (s.fenceWord k, s)
  | .moduleId => (s.fuses.serial, s)
  | .moduleVersion => (overlay v [(Fl.moduleVersion_STEPPING, s.fuses.stepping.toNat)], s)
  | _ => (v, s)

/-- RC fields read by the management plane are cleared in the same beat (R8, R30). -/
def State.clearRead (s : State) (r : Reg) : State :=
  (r.fields.filter (fun f => f.acc == .rc)).foldl (fun s f => s.setFld r f 0) s

end Sys2Proof.Machine
end

