-- ==== Sys2Proof/Machine/RegMsgs.lean ====
section
/-! DEFINITION. Sys2Proof/Machine/RegMsgs.lean: register messages (17 R347; 00 R7 to R14; 01 R30, R31) and the rows that are one
register's write. -/

namespace Sys2Proof.Machine

open Sys2Proof

/-! ### REG_READ -/

/-- The values of some registers, one after another, cleared as they are read where the management plane reads. -/
def State.readRegs (s : State) (clear : Bool) (l : List Reg) : List Byte × State :=
  l.foldl (fun (a : List Byte × State) r =>
    let (v, s) := a.2.readReg r
    (a.1 ++ beBytes 8 v.toNat, if clear then s.clearRead r else s)) ([], s)

/-- REG_READ: refused whole where one of the addresses maps no register. -/
def execRegRead (m : Msg) (s : State) : Out :=
  s.septa (ctrlType 0x0002 true [.any 4, .any 2, .zero 2]) m (fun r s =>
    let a := r.num 0 4
    let n := r.num 4 2
    if n = 0 ∨ 64 < n then (s, .field 4)
    else
      let l := (List.range n).map (fun i => Reg.ofAddr (a + 8 * i))
      if l.any Option.isNone then (s, .field 0)
      else
        let (bs, s) := s.readRegs r.mgmt (l.filterMap id)
        (s, .done bs))

/-! ### REG_WRITE -/

/-- Bits that every write must leave zero: RO and RC fields and reserved bits (R8, R11). -/
def Reg.zeroBits (r : Reg) (v : Word) : Bool :=
  decide (v &&& ~~~r.mask = 0) && r.fields.all (fun f => (f.acc != .ro && f.acc != .rc) || f.get v == 0)

/-- The management endpoint as a write of one of its registers would leave it matches an endpoint of the loaded draft (R331). -/
def State.mgmtMatches (s : State) (r : Reg) (v : Word) : Bool :=
  let e := (s.setReg r v).mgmtEndpoint
  s.parts.any (fun x => x.2.cfg.endpoints.any (fun k => k.vlan == e.vlan && k.addr == e.addr && k.banks &&& e.banks != 0))

/-- What a register's own table asks of a value (R14, R17, R52). -/
def State.writeOk (s : State) (r : Reg) (v : Word) : Bool :=
  match r with
  | .pickSource => s.sourceOk v
  | .pickPeriod => s.sel == 0
  | .pickEpoch => s.sel == 0 && decide (Fl.pickEpoch_NS.get v < 1000000000)
  | .pickPulseBase => s.sel == 0 && v != BitVec.allOnes 64
  | .netMgmt =>
    let mtu := Fl.netMgmt_MTU.get v
    Fl.netMgmt_VLAN.get v != 4095 && Fl.netMgmt_BANKS.get v != 0 && decide (1280 ≤ mtu) && decide (mtu ≤ 9000) && !s.mgmtMatches r v
  | .netMgmtAddrHi => !s.mgmtMatches r v
  | .netMgmtAddrLo => !s.mgmtMatches r v
  | .netPtp =>
    Fl.netPtp_BANKS.get v != 0 && Fl.netPtp_TRANSPORT.get v != 3 && decide (Fl.netPtp_DOMAIN.get v < 128) && Fl.netPtp_VLAN.get v != 4095
  | .storeCompact =>
    let period := Fl.storeCompact_PERIOD.get v
    let length := Fl.storeCompact_LENGTH.get v
    period != 2 ^ 32 - 1 && length != 65535 && (period == 0 || (length != 0 && decide (length ≤ period)))
  | .storeCompactBase => v != BitVec.allOnes 64
  | _ => true

/-- A write is accepted: its address maps a writable register, and its value is one that the register takes (R347). -/
def State.mayWrite (s : State) (addr : Nat) (v : Word) : Option Reg :=
  match Reg.ofAddr addr with
  | none => none
  | some r => if r.writable && r.zeroBits v && s.writeOk r v then some r else none

/-- RW fields take the value, W1C bits written as 1 are cleared (R8). -/
def State.plainWrite (s : State) (r : Reg) (v : Word) : State :=
  r.fields.foldl (fun s f =>
    if f.acc = .rw then s.setFld r f (f.get v)
    else if f.acc = .w1c ∧ f.get v = 1 then s.setFld r f 0
    else s) s

/-- A register is written. -/
def State.writeReg (s : State) (r : Reg) (v : Word) : State :=
  match r with
  | .pickSource => s.writeSource v
  | .memEvac m => s.writeEvac m v
  | .farCmd => s.writeFarCmd v
  | .moduleReset => if Fl.moduleReset_REQUEST.get v = 1 then { s with power := { s.power with resetDue := true } } else s
  | _ => s.plainWrite r v

/-- Address and value of write i of a message. -/
def writeItem (bs : List Byte) (i : Nat) : Nat × Nat × Word :=
  (beNat (slice bs (8 + 16 * i) 4), beNat (slice bs (12 + 16 * i) 4), BitVec.ofNat 64 (beNat (slice bs (16 + 16 * i) 8)))

/-- The writes of a message, checked whole against the state before it (log entry 38); else the field that refuses it. -/
def State.checkWrites (s : State) (bs : List Byte) (i n : Nat) : Except Nat (List (Reg × Word)) :=
  match n with
  | 0 => .ok []
  | k + 1 =>
    let (a, z, v) := writeItem bs i
    if z ≠ 0 then .error (12 + 16 * i)
    else match s.mayWrite a v with
      | none => .error (8 + 16 * i)
      | some r => match s.checkWrites bs (i + 1) k with
        | .error f => .error f
        | .ok l => .ok ((r, v) :: l)

/-- REG_WRITE's handler. -/
def handleRegWrite (r : Staged) (s : State) : State × Answer :=
  let n := r.num 0 2
  if n = 0 ∨ 64 < n then (s, .field 0)
  else if r.payload.length ≠ 8 + 16 * n then (s, .field (min r.payload.length (8 + 16 * n)))
  else match s.checkWrites r.payload 0 n with
    | .error f => (s, .field f)
    | .ok l => (l.foldl (fun s e => s.writeReg e.1 e.2) s, .done [])

def typeRegWrite : MsgType := mgmtType 0x0003 [.any 2, .zero 6] true

/-- REG_WRITE. -/
def execRegWrite (m : Msg) (s : State) : Out := s.septa typeRegWrite m handleRegWrite

/-! ### Rows that write one register -/

/-- The REG_WRITE message that writes one register. -/
def writeMsg (q : WriteReq) (r : Reg) : Msg :=
  { route := q.route, hdr := q.hdr,
    payload := beBytes 2 1 ++ List.replicate 6 0 ++ beBytes 4 r.addr ++ List.replicate 4 0 ++ beBytes 8 q.value.toNat }

/-- A row's write: refused where its value is another row's. -/
def oneWrite (q : WriteReq) (r : Reg) (mine : Bool) (name : String) (s : State) : Out :=
  if mine then execRegWrite (writeMsg q r) s else .refused (.illFormed name)

/-- PICK_SOURCE_ARM_PTP (R52, R53). -/
def execPickSourceArmPtp (q : WriteReq) (s : State) : Out :=
  oneWrite q .pickSource (Fl.pickSource_SEL.get q.value == 1) "PICK_SOURCE_ARM_PTP" s

/-- PICK_SOURCE_ARM_PULSE (R52, R54). -/
def execPickSourceArmPulse (q : WriteReq) (s : State) : Out :=
  oneWrite q .pickSource (Fl.pickSource_SEL.get q.value == 2) "PICK_SOURCE_ARM_PULSE" s

/-- PICK_SOURCE_DISARM (R52). -/
def execPickSourceDisarm (q : WriteReq) (s : State) : Out :=
  oneWrite q .pickSource (Fl.pickSource_SEL.get q.value == 0) "PICK_SOURCE_DISARM" s

/-- MODULE_RESET_REQUEST (R414). -/
def execModuleResetRequest (q : WriteReq) (s : State) : Out :=
  oneWrite q .moduleReset (Fl.moduleReset_REQUEST.get q.value == 1) "MODULE_RESET_REQUEST" s

/-- MEM_EVAC_EVACUATE (R306). -/
def execMemEvacEvacuate (mill : Fin 8) (q : WriteReq) (s : State) : Out :=
  oneWrite q (.memEvac mill) (Fl.memEvac_OP.get q.value == 1) "MEM_EVAC_EVACUATE" s

/-- MEM_EVAC_RECALIBRATE (R306). -/
def execMemEvacRecalibrate (mill : Fin 8) (q : WriteReq) (s : State) : Out :=
  oneWrite q (.memEvac mill) (Fl.memEvac_OP.get q.value == 2) "MEM_EVAC_RECALIBRATE" s

/-- MEM_EVAC_RETURN (R306). -/
def execMemEvacReturn (mill : Fin 8) (q : WriteReq) (s : State) : Out :=
  oneWrite q (.memEvac mill) (Fl.memEvac_OP.get q.value == 3) "MEM_EVAC_RETURN" s

/-- FAR_CMD_MOVE_PAGES_OFF (R307). -/
def execFarCmdMovePagesOff (q : WriteReq) (s : State) : Out :=
  oneWrite q .farCmd (Fl.farCmd_OP.get q.value == 1) "FAR_CMD_MOVE_PAGES_OFF" s

/-- FAR_CMD_BRING_UP (R423). -/
def execFarCmdBringUp (q : WriteReq) (s : State) : Out :=
  oneWrite q .farCmd (Fl.farCmd_OP.get q.value == 2) "FAR_CMD_BRING_UP" s

/-- FAR_CMD_FLUSH (R294). -/
def execFarCmdFlush (q : WriteReq) (s : State) : Out :=
  oneWrite q .farCmd (Fl.farCmd_OP.get q.value == 3) "FAR_CMD_FLUSH" s

end Sys2Proof.Machine
end

