-- ==== Sys2Proof/Machine/Replay.lean ====
section
/-! DEFINITION. Sys2Proof/Machine/Replay.lean: a replay's records and its virtual boundaries (19 R389 to R393). -/

namespace Sys2Proof.Machine

open Sys2Proof

/-! ### Reading the ring (R388, R389) -/

/-- Bytes of a ring's data area from position `pos` on, around its end. -/
def State.getRing (s : State) (p : Fin 16) (w : Swatch) (pos n : Nat) : List Byte :=
  (List.range n).map (fun i => s.byteAt (.cloth p) (w.base + 4096 + (pos + i) % max 1 w.room))

/-- A block of the ring that a reader finds bad. -/
def State.ringBad (s : State) (p : Fin 16) (w : Swatch) (pos n : Nat) : Bool :=
  let o := pos % max 1 w.room
  let k := min n (w.room - o)
  let bad := fun (a n : Nat) => s.anyBad (.cloth p) a n || s.anyTagBad (.cloth p) a n
  bad (w.base + 4096 + o) k || bad (w.base + 4096) (n - k)

/-- A swatch record as read. -/
structure SwRec where
  kind : Nat
  flags : Nat
  len : Nat
  pick : Nat
  body : List Byte
  deriving DecidableEq, Repr

/-- What stands at a position of the ring. -/
inductive SwNext where
  | none
  | damaged
  | got (r : SwRec)
  deriving DecidableEq, Repr

/-- Flags that a kind may carry. -/
def swFlagsOk (kind flags : Nat) : Bool := flags = 0 || (kind == 2 && flags == 1) || (kind == 5 && flags == 2)

/-- The record at a position: none while it is not produced whole; damaged under R12 (R389). -/
def State.swRecord (s : State) (p : Fin 16) (w : Swatch) (pos : Nat) : SwNext :=
  let produced := s.word64 p w.base
  if produced < pos + 64 then .none
  else
    let h := s.getRing p w pos 16
    let kind := leNat (slice h 0 1)
    let flags := leNat (slice h 1 1)
    let len := leNat (slice h 4 4)
    if s.ringBad p w pos 16 || kind == 0 || 7 < kind || !swFlagsOk kind flags || leNat (slice h 2 2) != 0 || len % 64 != 0 || len == 0
      || 33792 < len || w.room < len then .damaged
    else if produced < pos + len then .none
    else if s.ringBad p w pos len then .damaged
    else .got { kind := kind, flags := flags, len := len, pick := leNat (slice h 8 8), body := s.getRing p w (pos + 16) (len - 16) }

/-! ### What a replay has taken in -/

def State.modSwatch (s : State) (p : Fin 16) (f : Swatch → Swatch) : State :=
  s.modPart p (fun x => { x with swatch := x.swatch.map f })

/-- Records of so many bytes have been delivered. -/
def State.pastRecords (s : State) (p : Fin 16) (bytes n : Nat) : State :=
  s.modSwatch p (fun w => { w with pos := w.pos + bytes, records := w.records + n })

/-- The replay ends: its END has come, or a damaged record. -/
def State.endReplay (s : State) (p : Fin 16) : State := s.modSwatch p (fun w => { w with ended := true })

/-- What delivering a record came to. -/
inductive Delivered where
  /-- It waits: for room, or for the rest of its frame. -/
  | later
  | damaged
  /-- Delivered, with the bytes and records passed. -/
  | done (s : State) (bytes n : Nat)

/-- A CLOTH record: a write into a carve of the partition (R387). -/
def State.deliverCloth (s : State) (p : Fin 16) (x : Part) (r : SwRec) : Delivered :=
  let addr := leNat (slice r.body 0 8)
  let n := leNat (slice r.body 8 4)
  if n = 0 ∨ 32768 < n ∨ r.len < 32 + n ∨ !x.cfg.carves.any (fun v => decide (v.base ≤ addr) && decide (addr + n ≤ v.base + v.len)) then .damaged
  else .done (s.store_ (.cloth p) addr (slice r.body 16 n)) r.len 1

/-- An ENTRY record: posted in its pick; where its queue has no room it waits. -/
def State.deliverEntry (s : State) (p : Fin 16) (x : Part) (r : SwRec) : Delivered :=
  let q := leNat (slice r.body 0 1)
  let c := leNat (slice r.body 1 1)
  let ctx : Fin 8 := Fin.ofNat 8 c
  let word := fun (i : Nat) => BitVec.ofNat 64 (leNat (slice r.body (8 + 8 * i) 8))
  if x.cfg.nctx ≤ c ∨ !x.cfg.controlFed ctx q then .damaged
  else if x.queueFull ctx q then .later
  else
    let e : QEntry := { w0 := word 0, w1 := word 1, w2 := word 2, w3 := word 3, pick := s.pickFor x, beat := s.beat, run := true, held := false }
    let y := (x.modCtx ctx (fun k => { k with acct := { k.acct with submitted := k.acct.submitted + 1 } })).setQueue ctx q (x.queue ctx q ++ [e])
    .done (s.setPart p y) r.len 1

/-- The pieces of a CREEL record: sequence number, dropped, continued, bytes. -/
def swPieces (bs : List Byte) (n : Nat) : List (Nat × Bool × Bool × List Byte) :=
  match n with
  | 0 => []
  | k + 1 =>
    let len := leNat (slice bs 2 2)
    let f := leNat (slice bs 4 1)
    (leNat (slice bs 0 2), bit f 0, bit f 1, slice bs 8 len) :: swPieces (bs.drop (8 + 8 * ceilDiv len 8)) k

/-- Pieces joined into payloads (R390). -/
def joinPieces (l : List (Nat × Bool × Bool × List Byte)) (cur : List Byte) : List Piece :=
  match l with
  | [] => []
  | (seq, dropped, more, bs) :: rest =>
    if more then joinPieces rest (cur ++ bs)
    else { seq := seq, marker := false, bytes := cur ++ bs, dropped := dropped } :: joinPieces rest []

/-- Every record of a frame, with the bytes and records they make: `none` while some is still to come. -/
def State.frameRecords (s : State) (p : Fin 16) (w : Swatch) (pos fuel : Nat) : Option (Option (List SwRec × Nat × Nat)) :=
  match fuel with
  | 0 => none
  | k + 1 =>
    match s.swRecord p w pos with
    | .none => none
    | .damaged => some none
    | .got r =>
      if r.kind ≠ 5 then some none
      else if !bit r.flags 1 then some (some ([r], r.len, 1))
      else match s.frameRecords p w (pos + r.len) k with
        | none => none
        | some none => some none
        | some (some (l, n, m)) =>
          if l.all (fun q => slice q.body 0 32 == slice r.body 0 32) then some (some (r :: l, r.len + n, m + 1)) else some none

/-- The next pictures of a frame in decode are posted, as far as there is room. -/
def State.decodeAll (s : State) (i : Fin 1024) (p : Fin 16) (c : CreelCfg) (fuel : Nat) : State :=
  match fuel with
  | 0 => s
  | n + 1 =>
    let k := s.slot i
    match k.decoding, s.part? p with
    | some _, some x =>
      let t := s.decodeNext i p x c
      if (t.slot i).decoding.isSome && (t.slot i).posted == k.posted then t else t.decodeAll i p c n
    | _, _ => s

/-- A CREEL frame begins decode from its recorded payloads. The UNIT of its samples stands in no record and is open (log entry 44). -/
def State.deliverCreel (s : State) (p : Fin 16) (x : Part) (w : Swatch) (pos : Nat) : Delivered :=
  match s.frameRecords p w pos 4096 with
  | none => .later
  | some none => .damaged
  | some (some (l, bytes, n)) =>
    match l with
    | [] => .damaged
    | r :: _ =>
      let slot := leNat (slice r.body 0 2)
      match x.cfg.creel.find? (fun c => c.slot == slot) with
      | none => .damaged
      | some c =>
        let i : Fin 1024 := Fin.ofNat 1024 c.slot
        if (s.slot i).state = 0 then .damaged
        else
          let (u, s) := s.draw 64
          let pieces := joinPieces (l.flatMap (fun r => swPieces (r.body.drop 40) (leNat (slice r.body 32 4)))) []
          let f : FrameIn := { unit := u.toNat, pick := s.pickFor x, pieces := pieces, ringEnd := 0,
                               handed := some (BitVec.ofNat 64 (leNat (slice r.body 16 8))), broken := false }
          .done (s.beginFrame i p x c f) bytes n

/-- One record of the current virtual pick is delivered (R392). -/
def State.deliverOne (s : State) (p : Fin 16) (x : Part) (w : Swatch) (r : SwRec) : Delivered :=
  if r.kind = 2 then s.deliverCloth p x r
  else if r.kind = 3 then s.deliverEntry p x r
  else if r.kind = 5 then s.deliverCreel p x w w.pos
  else if r.kind = 6 then
    .done ((s.modSwatch p (fun w => { w with expected := w.expected ++ [(w.records, slice r.body 0 48)] })).compareResults p (w.formed.length + 1))
      r.len 1
  else .damaged

/-- Pictures of the partition's frames that wait for room are tried again. -/
def State.decodeWaiting (s : State) (p : Fin 16) (x : Part) : State :=
  x.cfg.creel.foldl (fun s c => s.decodeAll (Fin.ofNat 1024 c.slot) p c 4096) s

/-- No frame of the partition is in decode. -/
def State.decoded (s : State) (x : Part) : Bool := x.cfg.creel.all (fun c => (s.slot (Fin.ofNat 1024 c.slot)).decoding.isNone)

/-- Records of the current virtual pick, and results, are delivered as far as they are there. -/
def State.deliverRecords (s : State) (p : Fin 16) (fuel : Nat) : State :=
  match fuel with
  | 0 => s
  | k + 1 =>
    match s.part? p with
    | none => s
    | some x =>
      let s := s.decodeWaiting p x
      match (s.part? p).bind (fun x => x.swatch.map (fun w => (x, w))) with
      | none => s
      | some (x, w) =>
        if w.ended || !w.begun || !s.decoded x then s
        else match s.swRecord p w w.pos with
          | .none => s
          | .damaged => s.endReplay p
          | .got r =>
            if r.kind = 7 then (if r.pick ≤ w.virtualPick.toNat then s.endReplay p else s)
            else if w.virtualPick.toNat < r.pick then s
            else match s.deliverOne p x w r with
              | .later => s
              | .damaged => s.endReplay p
              | .done t bytes n => (t.pastRecords p bytes n).deliverRecords p k

/-! ### The header (R388, R391) -/

/-- The HEADER is read, once it is there: it is checked, and the partition takes its start pick. Reports count virtual picks from
here on. -/
def State.beginReplay (s : State) (p : Fin 16) : State :=
  match s.part? p with
  | none => s
  | some x =>
    match x.swatch with
    | none => s
    | some w =>
      if w.begun || w.ended || !x.started then s
      else
        let fail := (s.endReplay p).report (beamUnit 0x29) 0x090B (attributionPart p + 1)
        match s.swRecord p w 0 with
        | .none => s
        | .damaged => fail
        | .got r =>
          if r.kind ≠ 1 ∨ leNat (slice r.body 0 4) ≠ 0x48545753 ∨ leNat (slice r.body 4 2) ≠ 1
            ∨ beNat (slice r.body 8 32) ≠ x.cfg.measure.toNat then fail
          else
            let v := leNat (slice r.body 48 8)
            let w := { w with begun := true, virtualPick := BitVec.ofNat 64 v, pos := r.len, records := 1 }
            let y := { x with
              swatch := some w, start := some (BitVec.ofNat 64 v), position := 0, cycles := 0,
              dests := x.dests.map (fun e => (e.1, { e.2 with last := none })) }
            ((s.setPart p y).selectEntry p (BitVec.ofNat 64 v)).deliverRecords p 65536

/-! ### Virtual boundaries (R391) -/

/-- Behind the REQUEST records of pick n another record is there: the boundary's requests are all there. -/
def State.requestsThere (s : State) (p : Fin 16) (w : Swatch) (pos n fuel : Nat) : Bool :=
  match fuel with
  | 0 => false
  | k + 1 =>
    match s.swRecord p w pos with
    | .none => false
    | .damaged => true
    | .got r => if r.kind = 4 ∧ r.pick = n then s.requestsThere p w (pos + r.len) n k else true

/-- Every record of virtual pick v has been delivered: the next one is of a later pick. -/
def State.pickDone (s : State) (p : Fin 16) (x : Part) (w : Swatch) : Bool :=
  w.begun && !w.ended && s.decoded x
    && match s.swRecord p w w.pos with
      | .got r => decide (w.virtualPick.toNat < r.pick) && s.requestsThere p w w.pos (w.virtualPick.toNat + 1) 65536
      | _ => false

/-- A request as its record gives it: header, type and payload. -/
def swRequest (n : Word) (bs : List Byte) : Staged :=
  let f := fun (o k : Nat) => beNat (slice bs o k)
  let type := f 0x1C 2
  let len := f 0x18 4 - (if type = 0x0403 ∨ type = 0x0404 then 16 else 0)
  let zero : Addr := { v4 := true, value := 0 }
  { type := type,
    msg := {
      route := { port := 0, vlan := 0, srcMac := 0, src := zero, srcPort := 0, dst := zero },
      hdr := { magic := BitVec.ofNat 16 (f 0 2), version := BitVec.ofNat 8 (f 2 1), plane := BitVec.ofNat 8 (f 3 1),
               partition := BitVec.ofNat 8 (f 4 1), context := BitVec.ofNat 8 (f 5 1), flags := BitVec.ofNat 16 (f 6 2),
               sequence := BitVec.ofNat 64 (f 8 8), pick := BitVec.ofNat 64 (f 16 8), length := BitVec.ofNat 32 (f 0x18 4),
               reserved := BitVec.ofNat 16 (f 0x1E 2) },
      payload := slice bs 32 len },
    payload := slice bs 32 len, key := none, pick := n - 1, mgmt := false }

/-- The REQUEST records of boundary n are applied, in order (R392). -/
def State.replayRequests (s : State) (p : Fin 16) (n : Word) (fuel : Nat) : State :=
  match fuel with
  | 0 => s
  | k + 1 =>
    match (s.part? p).bind (fun x => x.swatch.map (fun w => (x, w))) with
    | none => s
    | some (x, w) =>
      match s.swRecord p w w.pos with
      | .got r =>
        if r.kind = 4 ∧ r.pick = n.toNat then
          ((s.runControl p x (swRequest n r.body) n).pastRecords p r.len 1).replayRequests p n k
        else s
      | _ => s

/-- REPLAY_VIRTUAL_BOUNDARY: at a real boundary the virtual pick ends, if every record of it has been delivered; its boundary's steps
run in order, and the records of the next pick follow. -/
def execReplayVirtualBoundary (p : Fin 16) (s : State) : Out :=
  if !s.pick.formed then .next s
  else
    let s := (s.beginReplay p).deliverRecords p 65536
    match (s.part? p).bind (fun x => x.swatch.map (fun w => (x, w))) with
    | none => .next s
    | some (x, w) =>
      if !w.replay || w.realPick == some s.now || !s.pickDone p x w then .next s
      else
        let n := w.virtualPick + 1
        let s := s.modSwatch p (fun w => { w with virtualPick := n, realPick := some s.now })
        let s := (s.replayRequests p n 65536).closePart p n
        .next (((s.reportPart p n false).stepFive p n).deliverRecords p 65536)

end Sys2Proof.Machine
end

