-- ==== Sys2Proof/Machine/Roce.lean ====
section
/-! DEFINITION. Sys2Proof/Machine/Roce.lean: queue pairs (17 R335 to R338, R353; 18 R364; 19 R377, R378, R392). A packet's bytes are those
fields of its InfiniBand headers that the rules use: opcode, queue pair and PSN, then address, key and length, then data (log
entry 42). -/

namespace Sys2Proof.Machine

open Sys2Proof

/-! ### Creating and closing (R336, R338) -/

def Qp.bank (q : Qp) : Nat := if q.bankB then 1 else 0

/-- The queue pair of a partition at an index. -/
def Part.qp? (x : Part) (i : Nat) : Option Qp := x.qps.find? i

def Part.setQp (x : Part) (i : Nat) (q : Qp) : Part := { x with qps := x.qps.ins i q }
def State.setQp (s : State) (p : Fin 16) (i : Nat) (q : Qp) : State := s.modPart p (fun x => x.setQp i q)

/-- The queue pair of a local number, with its partition and index. -/
def State.qpOf (s : State) (qpn : BitVec 24) : Option (Fin 16 × Part × Nat × Qp) :=
  ((List.finRange 16).flatMap (fun p => match s.part? p with
    | none => []
    | some x => (x.qps.filter (fun e => e.2.qpn == qpn)).map (fun e => (p, x, e.1, e.2)))).head?

/-- A local queue pair number that no queue pair has, from a drawn one on. -/
def State.freeQpn (s : State) (n : BitVec 24) (fuel : Nat) : BitVec 24 :=
  match fuel with
  | 0 => n
  | k + 1 => if (s.qpOf n).isSome then s.freeQpn (n + 1) k else n

/-- Where a context reaches: the first byte of n from an address in none of its carves. -/
def PartCfg.outside (k : PartCfg) (c : Fin 8) (a n : Nat) : Bool := (k.firstOutside c a n (k.carves.length + 1)).isSome

def formConnect : List Fit :=
  [.any 2, .any 1, .any 1, .any 16, .any 4, .any 4, .any 1, .any 1, .zero 2, .any 8, .count 4, .zero 4]

/-- The field of a QP_CONNECT that does not fit the partition (R336; log entry 42). -/
def PartCfg.connectBreaks (k : PartCfg) (x : Part) (c : Fin 8) (r : Staged) : Option Nat :=
  let total := k.endpoints.foldl (fun n e => n + e.qps) 0
  let flags := r.num 29 1
  match k.endpoints[r.num 2 1]? with
  | none => some 2
  | some e =>
    if total ≤ r.num 0 2 then some 0
    else if e.plane ≠ 2 ∨ e.qps ≤ (x.qps.filter (fun q => q.2.endpoint == r.num 2 1)).length then some 2
    else if r.num 3 1 ≠ (if e.addr.v4 then 4 else 6) then some 3
    else if e.addr.v4 ∧ beNat (slice r.payload 8 12) ≠ 0 then some 4
    else if 2 ^ 24 ≤ r.num 20 4 then some 20
    else if 2 ^ 24 ≤ r.num 24 4 then some 24
    else if 31 < r.num 28 1 then some 28
    else if 8 ≤ flags ∨ !names e.banks (bits flags 2 1) then some 29
    else if r.num 40 4 ≠ 0 ∧ (r.num 32 8 % 4096 ≠ 0 ∨ k.outside c (r.num 32 8) (r.num 40 4)) then some 32
    else if r.num 40 4 ≠ 0 ∧ (r.num 40 4 < 4096 + 32 ∨ r.num 40 4 % 32 ≠ 0) then some 40
    else none

/-- An address field of a request with its family (R331): an IPv4 address stands in bytes 0 to 3. -/
def Staged.address (r : Staged) (family off : Nat) : Addr :=
  if family = 4 then { v4 := true, value := BitVec.ofNat 128 (r.num off 4) } else { v4 := false, value := BitVec.ofNat 128 (r.num off 16) }

/-- QP_CONNECT. The local numbers are open. -/
def execQpConnect (m : Msg) (s : State) : Out :=
  s.septa (ctrlType 0x0118 false formConnect) m (fun r s =>
    match s.target r, r.ctx? with
    | .error a, _ => (s, a)
    | .ok _, none => (s, .target 5)
    | .ok (p, x), some c =>
      if x.cfg.nctx ≤ c.val then (s, .target 5)
      else match x.cfg.connectBreaks x c r with
        | some off => (s, .field off)
        | none =>
          if (x.qp? (r.num 0 2)).isSome then (s, .busy)
          else
            let (n, s) := s.draw 24
            let (psn, s) := s.draw 24
            let (key, s) := s.draw 32
            let n := s.freeQpn n 4097
            let flags := r.num 29 1
            let q : Qp := { ctx := c, endpoint := r.num 2 1, remote := r.address (r.num 3 1) 4, remoteQpn := BitVec.ofNat 24 (r.num 20 4),
                            qpn := n, rkey := key, sendPsn := psn, recvPsn := BitVec.ofNat 24 (r.num 24 4), timeout := r.num 28 1,
                            target := bit flags 0, sealed_ := bit flags 1, bankB := bit flags 2, ring := r.num 32 8, ringLen := r.num 40 4,
                            served := 0, unacked := [], retries := 0, error := false, rate := 1, rateExp := 0, cnpSent := none, pushes := 0 }
            (s.setQp p (r.num 0 2) q, .done (beBytes 4 n.toNat ++ beBytes 4 psn.toNat ++ beBytes 4 key.toNat ++ [0, 0, 0, 0])))

/-- QP_CLOSE. -/
def execQpClose (m : Msg) (s : State) : Out :=
  s.septa (ctrlType 0x0119 false [.any 2, .zero 6]) m (fun r s =>
    match s.target r with
    | .error a => (s, a)
    | .ok (p, x) =>
      if (x.qp? (r.num 0 2)).isNone then (s, .field 0)
      else (s.setPart p { x with qps := x.qps.del (r.num 0 2) }, .done []))

/-! ### Sending (R328, R335) -/

/-- A packet of a queue pair leaves on its bank; an answer goes to the MAC address of the frame that it answers (R330). -/
def State.roceSend (s : State) (x : Part) (i : Nat) (q : Qp) (kind : PktKind) (mac : Option (BitVec 48)) (bs : List Byte) : State :=
  match s.qpPort q.bank i, x.cfg.endpoints[q.endpoint]? with
  | some port, some e =>
    let k : Packet := { kind := kind, port := port.val, vlan := e.vlan, mac := mac, dst := q.remote, dstPort := 4791, bytes := bs }
    if mac.isSome then s.emit k else s.transmit k
  | _, _ => s

/-- The fields of a packet's base header that the rules use. -/
def Qp.header (q : Qp) (op : Nat) (psn : BitVec 24) : List Byte := beBytes 1 op ++ beBytes 3 q.remoteQpn.toNat ++ beBytes 3 psn.toNat

/-- Answers: ACK, and NAKs by their InfiniBand syndrome. -/
def State.ack (s : State) (x : Part) (i : Nat) (q : Qp) (mac : BitVec 48) (psn : BitVec 24) : State :=
  s.roceSend x i q .ack (some mac) (q.header 0x11 psn ++ [0])
def State.nak (s : State) (x : Part) (i : Nat) (q : Qp) (mac : BitVec 48) (psn : BitVec 24) (syndrome : Nat) : State :=
  s.roceSend x i q .nak (some mac) (q.header 0x11 psn ++ beBytes 1 syndrome)
def nakSequence : Nat := 0x60
def nakInvalid : Nat := 0x61
def nakAccess : Nat := 0x62
def nakOperation : Nat := 0x63

/-- A payload in pieces of the path MTU, 4,096 bytes; one piece where it is empty. -/
def mtuPieces (bs : List Byte) (fuel : Nat) : List (List Byte) :=
  match fuel with
  | 0 => []
  | k + 1 => if bs.length ≤ 4096 then [bs] else bs.take 4096 :: mtuPieces (bs.drop 4096) k

def mtuCount (n : Nat) : Nat := max 1 (ceilDiv n 4096)

/-- A congestion notification for a CE-marked packet, at most one per queue pair per 50 µs. -/
def State.notePoint (s : State) (p : Fin 16) (x : Part) (i : Nat) (q : Qp) (ce : Bool) : State :=
  let due := match q.cnpSent with | none => true | some b => decide (b + 112500 ≤ s.beat)
  if ce && due then
    let s := (s.setQp p i { q with cnpSent := some s.beat }).bump .netRoceCount Fl.netRoceCount_CNP_SENT 1
    s.roceSend x i q .cnp none (q.header 0x81 0)
  else s

/-! ### Sealed chunks (18 R364) -/

/-- AAD of a chunk. -/
def chunkAad (p : Fin 16) (c : Fin 8) (addr dir : Nat) : List Byte := beBytes 1 p.val ++ beBytes 1 c.val ++ beBytes 8 addr ++ beBytes 1 dir

/-- A tenant-to-device chunk: its plaintext, its counter spent; none where direction, counter or tag fails. -/
def State.openChunk (s : State) (p : Fin 16) (c : Fin 8) (addr : Nat) (chunk : List Byte) : Option (List Byte × State) :=
  match s.sec.sealKeys.find? p.val with
  | none => none
  | some key =>
    let nonce := slice chunk 0 12
    let n := beNat (slice chunk 4 8)
    if !allZero (slice chunk 0 4) || !allZero (slice chunk 12 4) || decide (n < s.sec.sealIn.get p.val 0) then none
    else match gcmOpen key nonce (chunkAad p c addr 0) (slice chunk 16 4112) with
      | none => none
      | some plain => some (slice plain 0 4096, { s with sec := { s.sec with sealIn := s.sec.sealIn.ins p.val (n + 1) } })

/-- Chunks land in order; at the first that fails the rest do not. -/
def State.landChunks (s : State) (p : Fin 16) (c : Fin 8) (addr : Nat) (bs : List Byte) (n : Nat) : State × Bool :=
  match n with
  | 0 => (s, true)
  | k + 1 =>
    match s.openChunk p c addr (slice bs 0 4128) with
    | none => (s, false)
    | some (plain, s) => (s.writeOutside p addr plain).landChunks p c (addr + 4096) (bs.drop 4128) k

/-- Device-to-tenant chunks of cloth bytes. -/
def State.sealChunks (s : State) (p : Fin 16) (c : Fin 8) (addr : Nat) (bs : List Byte) (n : Nat) : List Byte × State :=
  match n with
  | 0 => ([], s)
  | k + 1 =>
    match s.sec.sealKeys.find? p.val with
    | none => ([], s)
    | some key =>
      let count := s.sec.sealOut.get p.val 1
      let nonce := [1, 0, 0, 0] ++ beBytes 8 count
      let chunk := nonce ++ [0, 0, 0, 0] ++ gcmSeal key nonce (chunkAad p c addr 1) (slice bs 0 4096)
      let s : State := { s with sec := { s.sec with sealOut := s.sec.sealOut.ins p.val (count + 1) } }
      let (rest, s) := s.sealChunks p c (addr + 4096) (bs.drop 4096) k
      (chunk ++ rest, s)

/-- DETAIL of a record about a queue pair that faults no context (log entry 29). -/
def qpDetail (p : Fin 16) (q : Qp) (i : Nat) : Nat := i + p.val * 2 ^ 16 + q.ctx.val * 2 ^ 24

/-- A sealed chunk failed (0x0807). -/
def State.chunkFailed (s : State) (p : Fin 16) (q : Qp) (i : Nat) : State :=
  (s.bump .secCount Fl.secCount_SEAL_FAIL 1).report (beamUnit 0x28) 0x0807 (qpDetail p q i)

/-! ### Target (R336, R363, R364, R377) -/

/-- [a, a + n) touches only protected carves. -/
def PartCfg.allProtected (k : PartCfg) (a n : Nat) : Bool := !k.carves.any (fun v => !v.prot && decide (v.base < a + n) && decide (a < v.base + v.len))

/-- Why an access is not performed: 0x0705, or 0x0806. -/
def State.accessFault (s : State) (p : Fin 16) (k : PartCfg) (q : Qp) (rkey : BitVec 32) (va wire : Nat) : Option Nat :=
  let n := if q.sealed_ then wire / 4128 * 4096 else wire
  if rkey ≠ q.rkey then some 0x0705
  else if q.sealed_ ∧ (wire % 4128 ≠ 0 ∨ va % 4096 ≠ 0) then some 0x0705
  else if k.outside q.ctx va n then some 0x0705
  else if k.touchesProtected va n ∧ !s.hasRegion p then some 0x0806
  else if q.sealed_ then (if k.allProtected va n then none else some 0x0705)
  else if k.touchesProtected va n then some 0x0705
  else none

/-- A refused access: NAK (remote access error), counted and recorded; nothing written. -/
def State.refuseAccess (s : State) (p : Fin 16) (x : Part) (i : Nat) (q : Qp) (mac : BitVec 48) (psn : BitVec 24) (code : Option Nat) : State :=
  let s := s.bump .netRoceCount Fl.netRoceCount_NAK_ACCESS 1
  let s := match code with | none => s | some c => s.report (beamUnit 0x23) c (qpDetail p q i)
  s.nak x i q mac psn nakAccess

/-- [a, a + n) lies in the partition's swatch ring (R378, R392). -/
def Part.inSwatchRing (x : Part) (a n : Nat) : Bool :=
  match x.swatch with
  | none => false
  | some w => decide (w.base ≤ a) && decide (a + n ≤ w.base + w.len)

/-- A request to a queue pair: on a port that takes frames, for a pair that carries traffic, in PSN order. `dup` answers a repeated
request, `f` carries a new one out. -/
def State.atTarget (s : State) (k : RdmaReq) (dup f : State → Fin 16 → Part → Nat → Qp → State) : Out :=
  if !(s.port k.port).link then .next s
  else if (s.port k.port).macsec = 1 then .next (s.bump (.netPort k.port) Fl.netPort_MACSEC_DROP 1)
  else match s.qpOf k.qpn with
    | none => .next (s.bump .netCount Fl.netCount_BAD_HEADER 1)
    | some (p, x, i, q) =>
      let vlan := match x.cfg.endpoints[q.endpoint]? with | none => 0 | some e => e.vlan
      let s := s.sawFrame k.port.val vlan q.remote k.srcMac
      if q.error then .next s
      else
        let s := s.notePoint p x i q k.ce
        match (s.part? p).bind (fun x => (x.qp? i).map (fun q => (x, q))) with
        | none => .next s
        | some (x, q) =>
          let d := (k.psn - q.recvPsn).toNat
          if 2 ^ 23 ≤ d then .next (dup s p x i q)
          else if d ≠ 0 then .next (s.nak x i q k.srcMac q.recvPsn nakSequence)
          else if !q.target then .next (s.nak x i q k.srcMac k.psn nakInvalid)
          else .next (f s p x i q)

/-- RDMA_WRITE. -/
def execRdmaWrite (k : RdmaReq) (s : State) : Out :=
  let va := k.va.toNat
  let n := k.data.length
  let last := k.psn + BitVec.ofNat 24 (mtuCount n - 1)
  s.atTarget k (fun s _ x i q => s.ack x i q k.srcMac last) (fun s p x i q =>
    let q' := { q with recvPsn := last + 1 }
    if x.replaying && !x.inSwatchRing va n then s
    else if x.safe.isSome then s.refuseAccess p x i q k.srcMac k.psn none
    else match s.accessFault p x.cfg q k.rkey va n with
      | some c => s.refuseAccess p x i q k.srcMac k.psn (some c)
      | none =>
        if q.sealed_ then
          match s.landChunks p q.ctx va k.data (n / 4128) with
          | (s, true) => (s.setQp p i q').ack x i q k.srcMac last
          | (s, false) => (s.chunkFailed p q i).nak x i q k.srcMac k.psn nakOperation
        else
          let s := if x.replaying then s.store_ (.cloth p) va k.data else s.writeOutside p va k.data
          (s.setQp p i q').ack x i q k.srcMac last)

/-- A failing source block: what its read reports (R300, R363). -/
def State.sourceFails (s : State) (p : Fin 16) (c : Fin 8) (addr n : Nat) : Option State :=
  match (blocksOf addr n).find? (fun b => s.tagBad (.cloth p) b) with
  | some b => some ((s.bump .secCount Fl.secCount_TAG_FAIL 1).report (s.storeUnit (.cloth p) (4096 * b)) 0x0805 (attribution p c))
  | none => if s.anyBad (.cloth p) addr n then some (s.report (beamUnit 0x23) 0x0501 (attribution p c)) else none

/-- The packets of a READ response. -/
def State.respond (s : State) (x : Part) (i : Nat) (q : Qp) (mac : BitVec 48) (psn : BitVec 24) (ps : List (List Byte)) : State :=
  let n := ps.length
  (ps.zipIdx).foldl (fun s e =>
    let op := if n = 1 then 0x10 else if e.2 = 0 then 0x0D else if e.2 = n - 1 then 0x0F else 0x0E
    s.roceSend x i q .roce (some mac) (q.header op (psn + BitVec.ofNat 24 e.2) ++ e.1)) s

/-- A READ is served: from near and far cloth, as sealed chunks on a sealed pair. -/
def State.serveRead (s : State) (p : Fin 16) (x : Part) (i : Nat) (q : Qp) (k : RdmaReq) : State :=
  let va := k.va.toNat
  let wire := k.length.toNat
  let n := if q.sealed_ then wire / 4128 * 4096 else wire
  let s := s.load_ none (.cloth p) va n
  let plain := s.bytesAt (.cloth p) va n
  let (bs, s) := if q.sealed_ then s.sealChunks p q.ctx va plain (n / 4096) else (plain, s)
  s.respond x i q k.srcMac k.psn (mtuPieces bs (bs.length + 1))

/-- A READ that may be served, or its refusal. A source block that fails faults the bound context (R300). -/
def State.readRequest (s : State) (p : Fin 16) (x : Part) (i : Nat) (q : Qp) (k : RdmaReq) (next : BitVec 24) : State :=
  let va := k.va.toNat
  let wire := k.length.toNat
  let n := if q.sealed_ then wire / 4128 * 4096 else wire
  if x.safe.isSome && !x.inSwatchRing va n then s.refuseAccess p x i q k.srcMac k.psn none
  else match s.accessFault p x.cfg q k.rkey va wire with
    | some c => s.refuseAccess p x i q k.srcMac k.psn (some c)
    | none =>
      if q.sealed_ && !s.sec.sealKeys.has p.val then (s.chunkFailed p q i).nak x i q k.srcMac k.psn nakOperation
      else match s.sourceFails p q.ctx va n with
      | some t => (t.faultCtx p q.ctx none (beamUnit 0x23) 0x0501 0).nak x i q k.srcMac k.psn nakOperation
      | none => (s.setQp p i { q with recvPsn := next }).serveRead p x i q k

/-- RDMA_READ: a repeated READ is served again. -/
def execRdmaRead (k : RdmaReq) (s : State) : Out :=
  let next := k.psn + BitVec.ofNat 24 (mtuCount k.length.toNat)
  s.atTarget k
    (fun s p x i q => if x.replaying || !q.target then s else s.readRequest p x i q k q.recvPsn)
    (fun s p x i q => if x.replaying then s else s.readRequest p x i q k next)

/-! ### Initiator: the push ring (R337, R338) -/

/-- A push descriptor. -/
structure Push where
  op : Nat
  len : Nat
  local_ : Nat
  remote : Nat
  rkey : Nat
  imm : Nat
  reserved : Bool

def readPush (bs : List Byte) : Push :=
  { op := leNat (slice bs 0 1), len := leNat (slice bs 4 4), local_ := leNat (slice bs 8 8), remote := leNat (slice bs 0x10 8),
    rkey := leNat (slice bs 0x18 4), imm := leNat (slice bs 0x1C 4), reserved := !allZero (slice bs 1 3) }

/-- A malformed descriptor (R338, R364). -/
def Push.malformed (d : Push) (k : PartCfg) (q : Qp) : Bool :=
  decide (d.op = 0) || decide (5 < d.op) || d.reserved || decide (d.len = 0) || decide (2 ^ 31 < d.len) || k.outside q.ctx d.local_ d.len
    || (if q.sealed_ then decide (d.len % 4096 ≠ 0) || decide (d.local_ % 4096 ≠ 0) || !k.allProtected d.local_ d.len
        else k.touchesProtected d.local_ d.len)

/-- The ring stops before the descriptor is sent: the pair is in error, the bound context faulted (R338). -/
def State.pushFails (s : State) (p : Fin 16) (i : Nat) (q : Qp) (code : Nat) : State :=
  (s.setQp p i { q with error := true }).faultCtx p q.ctx none (beamUnit 0x23) code i

/-- Where CONSUMED stands: before the first descriptor not done. -/
def Qp.consumed (q : Qp) : Nat :=
  match q.unacked.findSome? (fun u => u.ends) with
  | none => q.served
  | some e => e - 32

/-- CONSUMED is written. -/
def State.consume (s : State) (p : Fin 16) (q : Qp) : State := s.store_ (.cloth p) (q.ring + 8) (leBytes 8 q.consumed)

/-- The packets of a push: opcode by place, the extended header on the first, immediate data on the last. -/
def Push.packets (d : Push) (q : Qp) (ps : List (List Byte)) : List Unacked :=
  let n := ps.length
  let send := d.op == 3 || d.op == 4
  let imm := d.op == 2 || d.op == 4
  let wire := ps.foldl (fun t b => t + b.length) 0
  (ps.zipIdx).map (fun e =>
    let first := e.2 == 0
    let last := e.2 + 1 == n
    let base := if send then 0 else 6
    let op := base + (if first && last then (if imm then 5 else 4) else if first then 0 else if last then (if imm then 3 else 2) else 1)
    let psn := q.sendPsn + BitVec.ofNat 24 e.2
    let reth := if first && !send then beBytes 8 d.remote ++ beBytes 4 d.rkey ++ beBytes 4 wire else []
    { psn := psn, ends := if last then some (q.served + 32) else none, read := none,
      bytes := q.header op psn ++ reth ++ (if last && imm then beBytes 4 d.imm else []) ++ e.1 })

/-- The one packet of a READ request. -/
def Push.request (d : Push) (q : Qp) : Unacked :=
  let wire := if q.sealed_ then d.len / 4096 * 4128 else d.len
  { psn := q.sendPsn, ends := some (q.served + 32), read := some (d.local_, d.len),
    bytes := q.header 0x0C q.sendPsn ++ beBytes 8 d.remote ++ beBytes 4 d.rkey ++ beBytes 4 wire }

/-- A descriptor is served: its result is formed, and its packets leave; in replay it is consumed without being sent (R392). -/
def State.servePush (s : State) (p : Fin 16) (x : Part) (i : Nat) (q : Qp) (d : Push) : State :=
  let read := d.op == 5
  let plain := if read then [] else s.bytesAt (.cloth p) d.local_ d.len
  let s := (if read then s else s.load_ none (.cloth p) d.local_ d.len).result p s.now (resultBody 1 i q.pushes (sha plain))
  if x.replaying then
    let q := { q with served := q.served + 32, pushes := q.pushes + 1 }
    (s.setQp p i q).consume p q
  else
    let (bs, s) := if q.sealed_ && !read then s.sealChunks p q.ctx d.local_ plain (d.len / 4096) else (plain, s)
    let out := if read then [d.request q] else d.packets q (mtuPieces bs (bs.length + 1))
    let psns := if read then mtuCount (if q.sealed_ then d.len / 4096 * 4128 else d.len) else out.length
    let s := s.setQp p i { q with served := q.served + 32, pushes := q.pushes + 1, unacked := q.unacked ++ out,
                                  sendPsn := q.sendPsn + BitVec.ofNat 24 psns }
    out.foldl (fun s u => s.roceSend x i q .roce none u.bytes) s

/-- The next descriptor of a ring. -/
def State.pushNext (s : State) (p : Fin 16) (x : Part) (i : Nat) (q : Qp) : State :=
  let room := q.ringLen - 4096
  let d := readPush (s.bytesAt (.cloth p) (q.ring + 4096 + q.served % max 32 room) 32)
  if d.malformed x.cfg q then s.pushFails p i q 0x0706
  else if x.cfg.touchesProtected d.local_ d.len ∧ !s.hasRegion p then s.pushFails p i q 0x0806
  else if q.sealed_ && !s.sec.sealKeys.has p.val then s.pushFails p i q 0x0706
  else if d.op = 5 then s.servePush p x i q d
  else match s.sourceFails p q.ctx d.local_ d.len with
    | some t => t.pushFails p i q 0x0706
    | none => s.servePush p x i q d

/-- Descriptors are served in ring order while there are any. -/
def State.pushAll (s : State) (p : Fin 16) (i : Nat) (produced fuel : Nat) : State :=
  match fuel with
  | 0 => s
  | k + 1 =>
    match (s.part? p).bind (fun x => (x.qp? i).map (fun q => (x, q))) with
    | none => s
    | some (x, q) => if q.error || decide (produced < q.served + 32) then s else (s.pushNext p x i q).pushAll p i produced k

/-- PUSH_RING_POLL: descriptors up to PRODUCED, no more than the ring holds. -/
def execPushRingPoll (p : Fin 16) (qp : BitVec 16) (s : State) : Out :=
  let i := qp.toNat
  match (s.part? p).bind (fun x => (x.qp? i).map (fun q => (x, q))) with
  | none => .next s
  | some (x, q) =>
    if q.error || q.ringLen == 0 || x.safe.isSome || s.safety.moduleSafe then .next s
    else
      let room := q.ringLen - 4096
      let produced := min (s.word64 p q.ring) (q.consumed + room)
      .next (s.pushAll p i produced (room / 32 + 1))

/-! ### Acknowledgement, responses, retries, rate (R335, R337, R338) -/

/-- psn a is no later than b. -/
def psnUpTo (a b : BitVec 24) : Bool := decide ((b - a).toNat < 2 ^ 23)

/-- A queue pair of a partition that carries traffic. -/
def State.onQp (s : State) (p : Fin 16) (qp : BitVec 16) (f : Part → Qp → State) : Out :=
  match (s.part? p).bind (fun x => (x.qp? qp.toNat).map (fun q => (x, q))) with
  | none => .next s
  | some (x, q) => .next (if q.error then s else f x q)

/-- ROCE_ACK: every packet up to the PSN is acknowledged; a READ is done when its data lands. -/
def execRoceAck (p : Fin 16) (qp : BitVec 16) (psn : BitVec 24) (s : State) : Out :=
  s.onQp p qp (fun _ q =>
    let q' := { q with unacked := q.unacked.filter (fun u => u.read.isSome || !psnUpTo u.psn psn) }
    if q'.unacked.length = q.unacked.length then s
    else
      let q' := { q' with retries := 0 }
      (s.setQp p qp.toNat q').consume p q')

/-- RDMA_READ_RESPONSE: the whole data of an outstanding READ. -/
def execRdmaReadResponse (p : Fin 16) (qp : BitVec 16) (psn : BitVec 24) (data : List Byte) (s : State) : Out :=
  s.onQp p qp (fun x q =>
    match q.unacked.find? (fun u => u.read.isSome && u.psn == psn) with
    | none => s
    | some u =>
      match u.read with
      | none => s
      | some (addr, n) =>
        let done := fun (s : State) =>
          let q' := { q with unacked := q.unacked.erase u, retries := 0 }
          (s.setQp p qp.toNat q').consume p q'
        if x.safe.isSome then s
        else if q.sealed_ then
          if data.length ≠ n / 4096 * 4128 then s
          else match s.landChunks p q.ctx addr data (n / 4096) with
            | (s, true) => done s
            | (s, false) => s.chunkFailed p q qp.toNat
        else if data.length ≠ n then s
        else done (s.writeOutside p addr data))

/-- TRANSPORT_TIMEOUT: go-back-N from the first packet outstanding; the retry count is 7. -/
def execTransportTimeout (p : Fin 16) (qp : BitVec 16) (s : State) : Out :=
  s.onQp p qp (fun x q =>
    if q.unacked.isEmpty || decide (7 ≤ q.retries) then s
    else
      let s := (s.setQp p qp.toNat { q with retries := q.retries + 1 }).bump .netRoceCount Fl.netRoceCount_RETRIES 1
      q.unacked.foldl (fun s u => s.roceSend x qp.toNat q .roce none u.bytes) s)

/-- RETRIES_EXHAUSTED: the seventh retry has not been answered either. -/
def execRetriesExhausted (p : Fin 16) (qp : BitVec 16) (s : State) : Out :=
  s.onQp p qp (fun _ q =>
    if q.unacked.isEmpty || decide (q.retries < 7) then s
    else (s.setQp p qp.toNat { q with error := true }).report (beamUnit 0x23) 0x0704 (qpDetail p q qp.toNat))

/-- CNP_RECEIVED: the send rate halves. -/
def execCnpReceived (p : Fin 16) (qp : BitVec 16) (s : State) : Out :=
  s.onQp p qp (fun _ q => s.setQp p qp.toNat { q with rateExp := q.rateExp + 1 })

/-- RATE_INCREASE: 1/16 of line rate more, up to line rate. -/
def execRateIncrease (p : Fin 16) (qp : BitVec 16) (s : State) : Out :=
  s.onQp p qp (fun _ q =>
    let r := 16 * q.rate + 2 ^ q.rateExp
    s.setQp p qp.toNat (if 16 * 2 ^ q.rateExp ≤ r then { q with rate := 1, rateExp := 0 } else { q with rate := r, rateExp := q.rateExp + 4 }))

end Sys2Proof.Machine
end

