-- ==== Sys2Proof/Machine/Dispatch.lean ====
section
/-! DEFINITION. Sys2Proof/Machine/Dispatch.lean: the meaning of every command, one arm per constructor of Instr. -/

namespace Sys2Proof.Machine

open Sys2Proof

def exec (i : Instr) (s : State) : Host.Outcome State Fault Refusal :=
  match i with
  | .nop a w => Sys2Proof.Machine.execNop a w s
  | .jmp a w => Sys2Proof.Machine.execJmp a w s
  | .bst a w => Sys2Proof.Machine.execBst a w s
  | .loop a w => Sys2Proof.Machine.execLoop a w s
  | .endloop a w => Sys2Proof.Machine.execEndloop a w s
  | .endT a w => Sys2Proof.Machine.execEndT a w s
  | .movi a w => Sys2Proof.Machine.execMovi a w s
  | .alu a w => Sys2Proof.Machine.execAlu a w s
  | .cmp a w => Sys2Proof.Machine.execCmp a w s
  | .plogic a w => Sys2Proof.Machine.execPlogic a w s
  | .abind a w => Sys2Proof.Machine.execAbind a w s
  | .aadd a w => Sys2Proof.Machine.execAadd a w s
  | .ldb a w => Sys2Proof.Machine.execLdb a w s
  | .stb a w => Sys2Proof.Machine.execStb a w s
  | .tbegin a w => Sys2Proof.Machine.execTbegin a w s
  | .mac a w => Sys2Proof.Machine.execMac a w s
  | .drain a w => Sys2Proof.Machine.execDrain a w s
  | .tend a w => Sys2Proof.Machine.execTend a w s
  | .tileCompletion g => Sys2Proof.Machine.execTileCompletion g s
  | .fill a w => Sys2Proof.Machine.execFill a w s
  | .fillAdmit g => Sys2Proof.Machine.execFillAdmit g s
  | .bankReady g bank => Sys2Proof.Machine.execBankReady g bank s
  | .attn a w => Sys2Proof.Machine.execAttn a w s
  | .moveCopy a w => Sys2Proof.Machine.execMoveCopy a w s
  | .moveCompress a w => Sys2Proof.Machine.execMoveCompress a w s
  | .moveExpand a w => Sys2Proof.Machine.execMoveExpand a w s
  | .moveStrided a w => Sys2Proof.Machine.execMoveStrided a w s
  | .moveZero a w => Sys2Proof.Machine.execMoveZero a w s
  | .moveComplete a => Sys2Proof.Machine.execMoveComplete a s
  | .tsend a w => Sys2Proof.Machine.execTsend a w s
  | .trecv a w => Sys2Proof.Machine.execTrecv a w s
  | .trecvLanded a => Sys2Proof.Machine.execTrecvLanded a s
  | .vop a w => Sys2Proof.Machine.execVop a w s
  | .vld a w => Sys2Proof.Machine.execVld a w s
  | .vst a w => Sys2Proof.Machine.execVst a w s
  | .vred a w => Sys2Proof.Machine.execVred a w s
  | .vrng a w => Sys2Proof.Machine.execVrng a w s
  | .sig a w => Sys2Proof.Machine.execSig a w s
  | .swait a w => Sys2Proof.Machine.execSwait a w s
  | .swaitResume a => Sys2Proof.Machine.execSwaitResume a s
  | .put a w => Sys2Proof.Machine.execPut a w s
  | .take a w => Sys2Proof.Machine.execTake a w s
  | .takeResume a => Sys2Proof.Machine.execTakeResume a s
  | .takeTimeout a => Sys2Proof.Machine.execTakeTimeout a s
  | .waitsp a w => Sys2Proof.Machine.execWaitsp a w s
  | .waitspResume a => Sys2Proof.Machine.execWaitspResume a s
  | .pwait a w => Sys2Proof.Machine.execPwait a w s
  | .done a w => Sys2Proof.Machine.execDone a w s
  | .sin a w => Sys2Proof.Machine.execSin a w s
  | .sinLanded a => Sys2Proof.Machine.execSinLanded a s
  | .sout a w => Sys2Proof.Machine.execSout a w s
  | .soutLanded a => Sys2Proof.Machine.execSoutLanded a s
  | .sstep a w => Sys2Proof.Machine.execSstep a w s
  | .streamHomeUpdate p => Sys2Proof.Machine.execStreamHomeUpdate p s
  | .fork a w => Sys2Proof.Machine.execFork a w s
  | .forkResume a => Sys2Proof.Machine.execForkResume a s
  | .prune a w => Sys2Proof.Machine.execPrune a w s
  | .join a w => Sys2Proof.Machine.execJoin a w s
  | .scatter a w => Sys2Proof.Machine.execScatter a w s
  | .scatterResume a => Sys2Proof.Machine.execScatterResume a s
  | .pgfill a w => Sys2Proof.Machine.execPgfill a w s
  | .tileWatchdogExpiry g => Sys2Proof.Machine.execTileWatchdogExpiry g s
  | .contextSwitch g => Sys2Proof.Machine.execContextSwitch g s
  | .loomSelfTest g => Sys2Proof.Machine.execLoomSelfTest g s
  | .loomSelfTestEnd g pass block => Sys2Proof.Machine.execLoomSelfTestEnd g pass block s
  | .selfTestAbandon g => Sys2Proof.Machine.execSelfTestAbandon g s
  | .pickBoundary => Sys2Proof.Machine.execPickBoundary s
  | .cadenceCheck p id => Sys2Proof.Machine.execCadenceCheck p id s
  | .pickPulse t => Sys2Proof.Machine.execPickPulse t s
  | .pulseMissed t => Sys2Proof.Machine.execPulseMissed t s
  | .holdoverExpired => Sys2Proof.Machine.execHoldoverExpired s
  | .ptpSync m => Sys2Proof.Machine.execPtpSync m s
  | .ptpFollowUp m => Sys2Proof.Machine.execPtpFollowUp m s
  | .ptpDelayResp m => Sys2Proof.Machine.execPtpDelayResp m s
  | .ptpAnnounce m => Sys2Proof.Machine.execPtpAnnounce m s
  | .delayReq port t => Sys2Proof.Machine.execDelayReq port t s
  | .ptpAnnounceTimeout => Sys2Proof.Machine.execPtpAnnounceTimeout s
  | .refLost => Sys2Proof.Machine.execRefLost s
  | .refRestored => Sys2Proof.Machine.execRefRestored s
  | .modeAnnounce m => Sys2Proof.Machine.execModeAnnounce m s
  | .modeChangeAck unit => Sys2Proof.Machine.execModeChangeAck unit s
  | .modeChangeDecide => Sys2Proof.Machine.execModeChangeDecide s
  | .modeChangeApply unit => Sys2Proof.Machine.execModeChangeApply unit s
  | .pickSourceArmPtp q => Sys2Proof.Machine.execPickSourceArmPtp q s
  | .pickSourceArmPulse q => Sys2Proof.Machine.execPickSourceArmPulse q s
  | .pickSourceDisarm q => Sys2Proof.Machine.execPickSourceDisarm q s
  | .moduleResetRequest q => Sys2Proof.Machine.execModuleResetRequest q s
  | .moduleResetExecute => Sys2Proof.Machine.execModuleResetExecute s
  | .memEvacEvacuate mill q => Sys2Proof.Machine.execMemEvacEvacuate mill q s
  | .memEvacRecalibrate mill q => Sys2Proof.Machine.execMemEvacRecalibrate mill q s
  | .memEvacReturn mill q => Sys2Proof.Machine.execMemEvacReturn mill q s
  | .evacuationGranuleMove mill crcOk => Sys2Proof.Machine.execEvacuationGranuleMove mill crcOk s
  | .stackRecalibrationComplete stack ok => Sys2Proof.Machine.execStackRecalibrationComplete stack ok s
  | .farCmdMovePagesOff q => Sys2Proof.Machine.execFarCmdMovePagesOff q s
  | .farPageMove port => Sys2Proof.Machine.execFarPageMove port s
  | .farCmdBringUp q => Sys2Proof.Machine.execFarCmdBringUp q s
  | .perstRelease port => Sys2Proof.Machine.execPerstRelease port s
  | .farPortTrained port ok gib => Sys2Proof.Machine.execFarPortTrained port ok gib s
  | .farCmdFlush q => Sys2Proof.Machine.execFarCmdFlush q s
  | .farDevicePresenceChange port present => Sys2Proof.Machine.execFarDevicePresenceChange port present s
  | .stagingComplete p page => Sys2Proof.Machine.execStagingComplete p page s
  | .writeBackComplete p page => Sys2Proof.Machine.execWriteBackComplete p page s
  | .writeBackFailure p page => Sys2Proof.Machine.execWriteBackFailure p page s
  | .stackFailure stack => Sys2Proof.Machine.execStackFailure stack s
  | .farDeviceLost port => Sys2Proof.Machine.execFarDeviceLost port s
  | .regRead m => Sys2Proof.Machine.execRegRead m s
  | .regWrite m => Sys2Proof.Machine.execRegWrite m s
  | .echo m => Sys2Proof.Machine.execEcho m s
  | .runSubmit m => Sys2Proof.Machine.execRunSubmit m s
  | .streamOpen m => Sys2Proof.Machine.execStreamOpen m s
  | .streamReset m => Sys2Proof.Machine.execStreamReset m s
  | .streamClose m => Sys2Proof.Machine.execStreamClose m s
  | .streamStatus m => Sys2Proof.Machine.execStreamStatus m s
  | .seqOpen m => Sys2Proof.Machine.execSeqOpen m s
  | .seqPolicy m => Sys2Proof.Machine.execSeqPolicy m s
  | .seqClose m => Sys2Proof.Machine.execSeqClose m s
  | .creelOpen m => Sys2Proof.Machine.execCreelOpen m s
  | .creelClose m => Sys2Proof.Machine.execCreelClose m s
  | .creelStatus m => Sys2Proof.Machine.execCreelStatus m s
  | .qpConnect m => Sys2Proof.Machine.execQpConnect m s
  | .qpClose m => Sys2Proof.Machine.execQpClose m s
  | .reportSet m => Sys2Proof.Machine.execReportSet m s
  | .draftBegin m => Sys2Proof.Machine.execDraftBegin m s
  | .draftData m => Sys2Proof.Machine.execDraftData m s
  | .draftEnd m => Sys2Proof.Machine.execDraftEnd m s
  | .draftAbort m => Sys2Proof.Machine.execDraftAbort m s
  | .draftLoaderVerdict => Sys2Proof.Machine.execDraftLoaderVerdict s
  | .partitionStart p => Sys2Proof.Machine.execPartitionStart p s
  | .panelCheckDeadline p => Sys2Proof.Machine.execPanelCheckDeadline p s
  | .panelRecheck p => Sys2Proof.Machine.execPanelRecheck p s
  | .panelReplace p => Sys2Proof.Machine.execPanelReplace p s
  | .noticeSet m => Sys2Proof.Machine.execNoticeSet m s
  | .faultNotice => Sys2Proof.Machine.execFaultNotice s
  | .fwBegin m => Sys2Proof.Machine.execFwBegin m s
  | .fwData m => Sys2Proof.Machine.execFwData m s
  | .fwEnd m => Sys2Proof.Machine.execFwEnd m s
  | .fwRestart m => Sys2Proof.Machine.execFwRestart m s
  | .fwConfirm m => Sys2Proof.Machine.execFwConfirm m s
  | .draftSave m => Sys2Proof.Machine.execDraftSave m s
  | .draftStandbyLoad m => Sys2Proof.Machine.execDraftStandbyLoad m s
  | .draftErase m => Sys2Proof.Machine.execDraftErase m s
  | .netSave m => Sys2Proof.Machine.execNetSave m s
  | .fence m => Sys2Proof.Machine.execFence m s
  | .unfence m => Sys2Proof.Machine.execUnfence m s
  | .linkRetrain m => Sys2Proof.Machine.execLinkRetrain m s
  | .storeCompactNow m => Sys2Proof.Machine.execStoreCompactNow m s
  | .telemetryRead m => Sys2Proof.Machine.execTelemetryRead m s
  | .acctRead m => Sys2Proof.Machine.execAcctRead m s
  | .compactionPass => Sys2Proof.Machine.execCompactionPass s
  | .compactionWindowEnd => Sys2Proof.Machine.execCompactionWindowEnd s
  | .secIdentity m => Sys2Proof.Machine.execSecIdentity m s
  | .secQuote m => Sys2Proof.Machine.execSecQuote m s
  | .secSessionOpen m => Sys2Proof.Machine.execSecSessionOpen m s
  | .secKeyLoad m => Sys2Proof.Machine.execSecKeyLoad m s
  | .secSessionClose m => Sys2Proof.Machine.execSecSessionClose m s
  | .partitionDestroy m => Sys2Proof.Machine.execPartitionDestroy m s
  | .moduleZeroise m => Sys2Proof.Machine.execModuleZeroise m s
  | .signerEnrol m => Sys2Proof.Machine.execSignerEnrol m s
  | .signerRemove m => Sys2Proof.Machine.execSignerRemove m s
  | .debugChallenge m => Sys2Proof.Machine.execDebugChallenge m s
  | .debugUnlock m => Sys2Proof.Machine.execDebugUnlock m s
  | .swatchArm m => Sys2Proof.Machine.execSwatchArm m s
  | .swatchStop m => Sys2Proof.Machine.execSwatchStop m s
  | .swatchDisarm m => Sys2Proof.Machine.execSwatchDisarm m s
  | .replayVirtualBoundary p => Sys2Proof.Machine.execReplayVirtualBoundary p s
  | .rtpPacket k => Sys2Proof.Machine.execRtpPacket k s
  | .rtcpPacket port => Sys2Proof.Machine.execRtcpPacket port s
  | .creelFrameDeadline slot => Sys2Proof.Machine.execCreelFrameDeadline slot s
  | .creelDecodeStart slot => Sys2Proof.Machine.execCreelDecodeStart slot s
  | .creelDecodeComplete slot => Sys2Proof.Machine.execCreelDecodeComplete slot s
  | .creelResume slot => Sys2Proof.Machine.execCreelResume slot s
  | .rdmaWrite k => Sys2Proof.Machine.execRdmaWrite k s
  | .rdmaRead k => Sys2Proof.Machine.execRdmaRead k s
  | .pushRingPoll p qp => Sys2Proof.Machine.execPushRingPoll p qp s
  | .roceAck p qp psn => Sys2Proof.Machine.execRoceAck p qp psn s
  | .rdmaReadResponse p qp psn data => Sys2Proof.Machine.execRdmaReadResponse p qp psn data s
  | .transportTimeout p qp => Sys2Proof.Machine.execTransportTimeout p qp s
  | .retriesExhausted p qp => Sys2Proof.Machine.execRetriesExhausted p qp s
  | .cnpReceived p qp => Sys2Proof.Machine.execCnpReceived p qp s
  | .rateIncrease p qp => Sys2Proof.Machine.execRateIncrease p qp s
  | .arpRequest f => Sys2Proof.Machine.execArpRequest f s
  | .neighborSolicitation f => Sys2Proof.Machine.execNeighborSolicitation f s
  | .icmpEchoRequest f => Sys2Proof.Machine.execIcmpEchoRequest f s
  | .discardedPacket port why => Sys2Proof.Machine.execDiscardedPacket port why s
  | .mkaFrame port frame => Sys2Proof.Machine.execMkaFrame port frame s
  | .macsecSaLost port => Sys2Proof.Machine.execMacsecSaLost port s
  | .portLinkLost port => Sys2Proof.Machine.execPortLinkLost port s
  | .portLinkUp port => Sys2Proof.Machine.execPortLinkUp port s
  | .flitReceived f => Sys2Proof.Machine.execFlitReceived f s
  | .laneFailure link lane => Sys2Proof.Machine.execLaneFailure link lane s
  | .retryLimitReached link => Sys2Proof.Machine.execRetryLimitReached link s
  | .linkRetrainingComplete link out => Sys2Proof.Machine.execLinkRetrainingComplete link out s
  | .sidebandHeartbeatLoss mill => Sys2Proof.Machine.execSidebandHeartbeatLoss mill s
  | .residueMismatch g harness heddle fell stateCopy => Sys2Proof.Machine.execResidueMismatch g harness heddle fell stateCopy s
  | .lockstepMismatch g => Sys2Proof.Machine.execLockstepMismatch g s
  | .drainRounderMismatch g => Sys2Proof.Machine.execDrainRounderMismatch g s
  | .secdedCorrected at_ => Sys2Proof.Machine.execSecdedCorrected at_ s
  | .secdedUncorrectable at_ => Sys2Proof.Machine.execSecdedUncorrectable at_ s
  | .pageStateUe p => Sys2Proof.Machine.execPageStateUe p s
  | .queueStoreUe owners => Sys2Proof.Machine.execQueueStoreUe owners s
  | .duplicatedEngineMismatch e => Sys2Proof.Machine.execDuplicatedEngineMismatch e s
  | .clockOutOfTolerance d => Sys2Proof.Machine.execClockOutOfTolerance d s
  | .supplyOutOfTolerance d rail reading => Sys2Proof.Machine.execSupplyOutOfTolerance d rail reading s
  | .junctionOverTemperature d => Sys2Proof.Machine.execJunctionOverTemperature d s
  | .junctionWarning d => Sys2Proof.Machine.execJunctionWarning d s
  | .safetyControllerMismatch => Sys2Proof.Machine.execSafetyControllerMismatch s
  | .entropyHealthFailure => Sys2Proof.Machine.execEntropyHealthFailure s
  | .entropyRestartComplete => Sys2Proof.Machine.execEntropyRestartComplete s
  | .faultRecordArrival => Sys2Proof.Machine.execFaultRecordArrival s
  | .faultRecordHandled => Sys2Proof.Machine.execFaultRecordHandled s
  | .powerUp => Sys2Proof.Machine.execPowerUp s
  | .powerGoodDeassert => Sys2Proof.Machine.execPowerGoodDeassert s
  | .resetInputAssert => Sys2Proof.Machine.execResetInputAssert s
  | .resetInputRelease => Sys2Proof.Machine.execResetInputRelease s
  | .boot b => Sys2Proof.Machine.execBoot b s
  | .mgmtWatchdogExpiry => Sys2Proof.Machine.execMgmtWatchdogExpiry s
  | .boardServiceRead address register count => Sys2Proof.Machine.execBoardServiceRead address register count s
  | .eepromWrite address register data => Sys2Proof.Machine.execEepromWrite address register data s
  | .fillDamage g bank => Sys2Proof.Machine.execFillDamage g bank s
  | .addressResolutionReply f => Sys2Proof.Machine.execAddressResolutionReply f s
  | .pfcFrame port enabled quanta => Sys2Proof.Machine.execPfcFrame port enabled quanta s

end Sys2Proof.Machine
end

