-- ==== Sys2Proof/Machine/Time.lean ====
section
/-! DEFINITION. Sys2Proof/Machine/Time.lean: the module's 2.25 GHz time base (00 Units; 16 R324, 19 R384). -/

namespace Sys2Proof.Machine

/-- One beat passes: nothing else happens by itself (log entry 1). -/
def State.tick (s : State) : State := { s with beat := s.beat + 1 }

end Sys2Proof.Machine
end

