-- ==== Sys2Proof/WellFormed.lean ====
section
/-! DEFINITION. Sys2Proof/WellFormed.lean: which commands are commands of the spec. A treadling word that carries a
reserved code, or whose fields the spec forbids together, is refused by the loader (R12, R120) and is never issued, so it
is no command; a register-write row carries a value of its own register and operation only; an event names a part
that exists. The limits of a Septa message's fields are no part of this: such a message is a command, and the device
answers it with a refusal (R343). -/

namespace Sys2Proof

/-- The command is one of the spec. -/
def Instr.wf (i : Instr) : Bool :=
  match i with
  | .nop _ w | .endT _ w => nopOk w
  | .jmp _ w => jmpOk w
  | .bst _ w => bstOk w
  | .loop _ w => loopOk w
  | .endloop _ w => endloopOk w
  | .movi _ w => moviOk w
  | .alu _ w => aluOk w
  | .cmp _ w => cmpOk w
  | .plogic _ w => plogicOk w
  | .abind _ w => abindOk w
  | .aadd _ w => aaddOk w
  | .ldb _ w | .stb _ w => ldbOk w
  | .tbegin _ w => tbeginOk w
  | .mac _ w => macOk w
  | .drain _ w => drainOk w
  | .tend _ w => tendOk w
  | .fill _ w => fillOk w
  | .attn _ w => attnOk w
  | .moveCopy _ w => moveOk 0 w
  | .moveCompress _ w => moveOk 1 w
  | .moveExpand _ w => moveOk 2 w
  | .moveStrided _ w => moveOk 3 w
  | .moveZero _ w => moveOk 4 w
  | .tsend _ w | .trecv _ w => tsendOk w
  | .vop _ w => vopOk w
  | .vld _ w => vldOk w
  | .vst _ w => vstOk w
  | .vred _ w => vredOk w
  | .vrng _ w => vrngOk w
  | .sig _ w | .swait _ w => sigOk w
  | .put _ w => putOk w
  | .take _ w => takeOk w
  | .waitsp _ w => waitspOk w
  | .pwait _ w => pwaitOk w
  | .done _ w | .sin _ w | .join _ w => doneOk w
  | .sout _ w => soutOk w
  | .sstep _ w => sstepOk w
  | .fork _ w => forkOk w
  | .prune _ w => pruneOk w
  | .scatter _ w | .pgfill _ w => scatterOk w
  | .pickSourceArmPtp q => q.value.toNat % 4 == 1
  | .pickSourceArmPulse q => q.value.toNat % 4 == 2
  | .pickSourceDisarm q => q.value.toNat % 4 == 0
  | .moduleResetRequest q => q.value.toNat % 2 == 1
  | .memEvacEvacuate _ q | .farCmdMovePagesOff q => bits q.value.toNat 2 2 == 1
  | .memEvacRecalibrate _ q | .farCmdBringUp q => bits q.value.toNat 2 2 == 2
  | .memEvacReturn _ q | .farCmdFlush q => bits q.value.toNat 2 2 == 3
  | .secdedCorrected e | .secdedUncorrectable e => e.inRange
  | .supplyOutOfTolerance d _ _ => match d with | .stack _ => false | _ => true
  | .linkRetrainingComplete _ (.lanes bad) => !bad.isEmpty
  | _ => true

end Sys2Proof
end

