-- ==== Sys2Proof/Safety.lean ====
section
/-! DEFINITION. Sys2Proof/Safety.lean: what a safe run is: every command that waits is one of the spec, no step of
the run is refused, and what the model asks of its tables. -/

namespace Sys2Proof.Safety

open Sys2Proof Sys2Proof.Machine

/-- Every waiting command is one of the spec. -/
def QueueOk (s : State) : Prop := ∀ i ∈ s.pending, i.wf = true

/-- The next step answers a next state. -/
def StepsOn (s : State) : Prop := ∃ t, step s = .next t

end Sys2Proof.Safety

namespace Sys2Proof.Machine

open Sys2Proof

/-- The tables of a loom are in canonical form: its store lists no zero byte, and its store, its sequencers, its fells and its vector
lanes are in rising order. -/
def Loom.Ok (l : Loom) : Prop := Tab.wf l.store 0 = true ∧ Tab.rising none l.seqs = true ∧ Tab.rising none l.fells = true
  ∧ Tab.rising none l.v = true

/-- The tables of the memory tiers that a key reads. -/
def Memory.Ok (m : Memory) : Prop :=
  Tab.rising none m.far = true ∧ Tab.rising none m.stackState = true ∧ Tab.rising none m.millStore = true
    ∧ ∀ e ∈ m.millStore, Tab.wf e.2 0 = true

def Looms.Ok (t : Tab Loom) : Prop := Tab.rising none t = true ∧ ∀ e ∈ t, e.2.Ok

/-- Every table of the machine that a key reads is in rising order, and loom stores and mill stores are in canonical form. -/
structure State.Ordered (s : State) : Prop where
  regs : Tab.rising none s.regs = true
  looms : Looms.Ok s.looms
  links : Tab.rising none s.links = true
  slots : Tab.rising none s.slots = true
  parts : Tab.rising none s.parts = true
  ports : Tab.rising none s.net.ports = true
  mem : s.mem.Ok

end Sys2Proof.Machine
end

