-- ==== Sys2Proof/Certificates/Slice0/Obligations.lean ====
section
/-! DEFINITION. Sys2Proof/Certificates/Slice0/Obligations.lean: what is claimed of the model, and the words the claims use. -/

namespace Sys2Proof.Claims

open Sys2Proof Sys2Proof.Machine

/-- What holds of every state that a step can leave: the queue holds commands of the spec, every table is in canonical form, the
last boundary is not in the future, and no more fuses are burnt than there are. -/
structure Inv (s : State) : Prop where
  queue : Safety.QueueOk s
  ordered : s.Ordered
  past : s.boundaryBeat ≤ s.beat
  fuses : s.fuses.count ≤ 127

/-- The bytes that a storage lists. -/
def listed (s : State) (st : Store) : Tab Byte :=
  match st with
  | .loom g => (s.loom g).store
  | .mill m p c => s.mem.millStore.get (millKey m p c) []
  | .cloth p => match s.part? p with | none => [] | some x => x.cloth.bytes

/-- A storage that exists: the cloth space of a partition lasts as long as the partition (R295). -/
def Exists (s : State) (st : Store) : Prop :=
  match st with
  | .cloth p => (s.part? p).isSome = true
  | _ => True

/-- The command ends in a next state of which something holds. -/
def Gives (c : Instr) (s : State) (P : State → Prop) : Prop := ∃ t, exec c s = .next t ∧ P t

end Sys2Proof.Claims

open Sys2Proof Sys2Proof.Machine Sys2Proof.Claims

/-- A step takes the command at the front of the queue and runs it on the state with the queue's rest. -/
def Obligations.StepRunsTheFrontCommand : Prop :=
  ∀ (c : Instr) (rest : List Instr) (s : State), step (s.withPending (c :: rest)) = exec c (s.withPending rest)

/-- On an empty queue one beat of the time base passes and nothing else changes (log entry 1, the model's choice). -/
def Sys2Proof.Claims.IdleStepIsOneBeat : Prop :=
  ∀ s : State, s.pending = [] → step s = .next { s with beat := s.beat + 1 }

/-- Every command of the spec completes in every state: no failure that the spec describes stops the module (R374, R385). -/
def Sys2Proof.Claims.WellFormedCommandsComplete : Prop :=
  ∀ (c : Instr) (s : State), c.wf = true → ∃ t, exec c s = .next t

/-- What is no command of the spec (a word with a reserved code, R12, R120; another row's register value) is refused as such in
every state. -/
def Sys2Proof.Claims.IllFormedCommandsAreRefused : Prop :=
  ∀ (c : Instr) (s : State), c.wf = false → ∃ n, exec c s = .refused (.illFormed n)

/-- The frame of every command: the queue, the time base and the fused identity stay; free values are only drawn; fuses are only
burnt, and never more than 127 (R367). -/
def Obligations.CommandsKeepQueueTimeAndIdentity : Prop :=
  ∀ (c : Instr) (s t : State), exec c s = .next t →
    t.pending = s.pending ∧ t.beat = s.beat ∧ t.fuses.serial = s.fuses.serial ∧ t.fuses.stepping = s.fuses.stepping
      ∧ s.freeCount ≤ t.freeCount ∧ (s.fuses.count ≤ 127 → s.fuses.count ≤ t.fuses.count ∧ t.fuses.count ≤ 127)

/-- The invariant of the machine is kept by every step, from every state that meets it. -/
def Obligations.StepKeepsTheInvariant : Prop :=
  ∀ s t : State, Inv s → step s = .next t → Inv t

/-- The state after reset meets the invariant. -/
def Sys2Proof.Claims.ResetMeetsTheInvariant : Prop := Inv State.reset

/-- A machine whose waiting commands are commands of the spec never stops: each step answers a next state, whose queue is the
rest of the old one. -/
def Sys2Proof.Claims.SoundQueuesNeverStop : Prop :=
  ∀ s : State, Safety.QueueOk s → ∃ t, step s = .next t ∧ t.pending = s.pending.tail ∧ Safety.QueueOk t

/-- Right after reset every register reads its reset value, nothing is listed in any storage, no command waits, no partition
exists, the phase is reset, and no pick has been formed. -/
def Sys2Proof.Claims.ResetState : Prop :=
  (∀ r : Reg, State.reset.reg r = r.resetWord) ∧ (∀ st : Store, listed State.reset st = []) ∧ State.reset.pending = []
    ∧ (∀ p : Fin 16, State.reset.part? p = none) ∧ State.reset.fld .moduleState Fl.moduleState_PHASE = 0
    ∧ State.reset.fld .pickSource Fl.pickSource_SEL = 0 ∧ State.reset.pick.everFormed = false
    ∧ (∀ g : Fin 256, State.reset.loom g = Loom.reset) ∧ (∀ i : Fin 4, (State.reset.farPort i).state = 0)
    ∧ (∀ i : Fin 1024, (State.reset.slot i).state = 0)

/-- Every register has an address of its own, 8-byte aligned, and the register map finds it there. -/
def Sys2Proof.Claims.RegisterMapIsOneToOne : Prop :=
  ∀ r : Reg, r.addr % 8 = 0 ∧ r.addr < 2 ^ 32 ∧ Reg.ofAddr r.addr = some r

/-- A register reads what was last written to it, and writing it leaves every other register and everything else. -/
def Sys2Proof.Claims.RegisterFileReadsBack : Prop :=
  ∀ (s : State) (r : Reg) (v : Word),
    (s.setReg r v).reg r = v ∧ (∀ q : Reg, q ≠ r → (s.setReg r v).reg q = s.reg q) ∧ { s.setReg r v with regs := s.regs } = s

/-- A storage reads what was last written to it: the written bytes read back, every other byte of it and every other storage
reads as before, and a table in canonical form stays in it. -/
def Sys2Proof.Claims.StoragesReadBack : Prop :=
  ∀ (s : State) (st : Store) (a : Nat) (bs : List Byte), Exists s st →
    (∀ i, (s.putAt st a bs).byteAt st i = if a ≤ i ∧ i < a + bs.length then bs.getD (i - a) 0 else s.byteAt st i)
      ∧ (∀ (su : Store) (i : Nat), su ≠ st → (s.putAt st a bs).byteAt su i = s.byteAt su i)
      ∧ (Tab.wf (listed s st) 0 = true → Tab.wf (listed (s.putAt st a bs) st) 0 = true)

/-- Decode of encode: the fields of a treadling word of each format are read back from the 128-bit word they are laid out in,
with its opcode in the low byte. -/
def Obligations.WordsDecodeToWhatTheyEncode : Prop :=
  ∀ op : Nat, op < 256 →
    (∀ w : SWord, SWord.ofCode (w.code op) = w ∧ bits (w.code op) 0 8 = op ∧ w.code op < 2 ^ 128)
      ∧ (∀ w : JWord, JWord.ofCode (w.code op) = w ∧ bits (w.code op) 0 8 = op ∧ w.code op < 2 ^ 128)
      ∧ (∀ w : TWord, TWord.ofCode (w.code op) = w ∧ bits (w.code op) 0 8 = op ∧ w.code op < 2 ^ 128)

/-- The state after reset, and that it meets the invariant. -/
def Obligations.ResetIsAsTheSpecSays : Prop :=
  Claims.ResetState ∧ Claims.ResetMeetsTheInvariant

/-- Registers have addresses of their own and read back; storages read back; nothing else changes. -/
def Obligations.RegistersAndStoragesReadBack : Prop :=
  Claims.RegisterMapIsOneToOne ∧ Claims.RegisterFileReadsBack ∧ Claims.StoragesReadBack
namespace Sys2Proof.Claims

open Sys2Proof Sys2Proof.Machine

/-- A treadling word that may issue: it stands at the PC of a context that is in force and running on the loom (R118). -/
def Stands (s : State) (a : At) (code : Nat) : Prop := (s.here a code).isSome = true

/-- It stands there, and its predicate, inverted under PNEG, reads 1 (R119). -/
def Issues (s : State) (a : At) (code : Nat) (pred : Fin 8) (pneg : Bool) : Prop :=
  Stands s a code ∧ (s.seq a).getP pred ≠ pneg

/-- The sequencer as it was, and running. -/
def ran (s : State) (a : At) : Seq := { s.seq a with run := .running }

/-- Only the sequencer of one context on one loom has changed, and the loom's mark that a tile has just completed: every other
sequencer, every other part of that loom and of the machine, and every byte of every storage, is as before. -/
def OnlySeq (s : State) (a : At) (t : State) : Prop :=
  { t with looms := s.looms } = s ∧ (∀ g, g ≠ a.loom → t.loom g = s.loom g)
    ∧ (∀ c, c ≠ a.ctx → t.seq { a with ctx := c } = s.seq { a with ctx := c })
    ∧ { t.loom a.loom with seqs := (s.loom a.loom).seqs, tileDone := (s.loom a.loom).tileDone } = s.loom a.loom
    ∧ ∀ st i, t.byteAt st i = s.byteAt st i

/-- The command completes; the issuing sequencer is q, and nothing else has changed. -/
def SeqBecomes (c : Instr) (s : State) (a : At) (q : Seq) : Prop := Gives c s (fun t => t.seq a = q ∧ OnlySeq s a t)

/-- What ALU's function code gives (R132), for every code and operands to which R132 gives a result. -/
def AluGives (fn : Nat) (y z v : Word) : Prop :=
  (fn = 0 ∧ v.toNat = (y.toNat + z.toNat) % 2 ^ 64) ∨ (fn = 1 ∧ (v.toNat + z.toNat) % 2 ^ 64 = y.toNat)
    ∨ (fn = 2 ∧ v.toNat = y.toNat * z.toNat % 2 ^ 64) ∨ (fn = 3 ∧ z.toNat ≠ 0 ∧ v.toNat = y.toNat / z.toNat)
    ∨ (fn = 4 ∧ z.toNat < 64 ∧ v.toNat = y.toNat * 2 ^ z.toNat % 2 ^ 64) ∨ (fn = 5 ∧ z.toNat < 64 ∧ v.toNat = y.toNat / 2 ^ z.toNat)
    ∨ (fn = 6 ∧ ∀ i, v.getLsbD i = (y.getLsbD i && z.getLsbD i)) ∨ (fn = 7 ∧ ∀ i, v.getLsbD i = (y.getLsbD i || z.getLsbD i))
    ∨ (fn = 8 ∧ ∀ i, v.getLsbD i = (y.getLsbD i != z.getLsbD i))
    ∨ (fn = 9 ∧ v.toNat = min y.toNat z.toNat) ∨ (fn = 0xA ∧ v.toNat = max y.toNat z.toNat)

/-- What CMP's function code compares (R132). -/
def CmpHolds (fn : Nat) (y z : Word) : Prop :=
  (fn = 0 ∧ y = z) ∨ (fn = 1 ∧ y ≠ z) ∨ (fn = 2 ∧ y.toNat < z.toNat) ∨ (fn = 3 ∧ y.toNat ≤ z.toNat) ∨ (fn = 4 ∧ y.toInt < z.toInt)
    ∨ (fn = 5 ∧ y.toInt ≤ z.toInt)

/-- What PLOGIC's function code gives (R132). -/
def PlogicHolds (fn : Nat) (y z : Bool) : Prop :=
  (fn = 0 ∧ y = true ∧ z = true) ∨ (fn = 1 ∧ (y = true ∨ z = true)) ∨ (fn = 2 ∧ y ≠ z) ∨ (fn = 3 ∧ y = true ∧ z = false)

/-- ALU's and CMP's second source. -/
def second (s : State) (a : At) (w : SWord) : Word := if w.opt12 then w.imm else (s.seq a).getB w.z.val

/-- The treadling words: where each issues, its 128-bit word with the opcode of its row (R119, R131 to R142), and its predicate. -/
def wordOf (i : Instr) : Option (At × Nat × Fin 8 × Bool) :=
  let s := fun (a : At) (w : SWord) (op : Nat) => some (a, w.code op, w.pred, w.pneg)
  let t := fun (a : At) (w : TWord) (op : Nat) => some (a, w.code op, w.pred, w.pneg)
  let j := fun (a : At) (w : JWord) (op : Nat) => some (a, w.code op, w.pred, w.pneg)
  match i with
  | .nop a w => s a w 0x00
  | .jmp a w => j a w 0x01
  | .bst a w => j a w 0x02
  | .loop a w => j a w 0x03
  | .endloop a w => j a w 0x04
  | .endT a w => s a w 0x05
  | .movi a w => s a w 0x10
  | .alu a w => s a w 0x11
  | .cmp a w => s a w 0x12
  | .plogic a w => s a w 0x13
  | .abind a w => s a w 0x14
  | .aadd a w => s a w 0x15
  | .ldb a w => s a w 0x16
  | .stb a w => s a w 0x17
  | .tbegin a w => t a w 0x20
  | .mac a w => t a w 0x21
  | .drain a w => t a w 0x22
  | .tend a w => t a w 0x23
  | .fill a w => t a w 0x24
  | .attn a w => t a w 0x25
  | .moveCopy a w => s a w 0x30
  | .moveCompress a w => s a w 0x30
  | .moveExpand a w => s a w 0x30
  | .moveStrided a w => s a w 0x30
  | .moveZero a w => s a w 0x30
  | .tsend a w => s a w 0x31
  | .trecv a w => s a w 0x32
  | .vop a w => s a w 0x40
  | .vld a w => s a w 0x41
  | .vst a w => s a w 0x42
  | .vred a w => s a w 0x43
  | .vrng a w => s a w 0x44
  | .sig a w => s a w 0x50
  | .swait a w => s a w 0x51
  | .put a w => s a w 0x52
  | .take a w => s a w 0x53
  | .waitsp a w => s a w 0x54
  | .pwait a w => s a w 0x55
  | .done a w => s a w 0x56
  | .sin a w => s a w 0x60
  | .sout a w => s a w 0x61
  | .sstep a w => s a w 0x62
  | .fork a w => s a w 0x63
  | .prune a w => s a w 0x64
  | .join a w => s a w 0x65
  | .scatter a w => s a w 0x66
  | .pgfill a w => s a w 0x67
  | _ => none

/-- A context faults with a code (R155): its sequencer there stops and its tile is gone, one record with the code is reported by a
unit, its open and queued runs end as failed with the code, the fault is kept with the context, and no byte of any storage changes. -/
def CtxFaults (s : State) (a : At) (p : Fin 16) (unit code : Nat) (t : State) : Prop :=
  (t.seq a).run = .faulted (BitVec.ofNat 16 code) ∧ (t.seq a).tile = none
    ∧ (∃ r, t.safety.flight = s.safety.flight ++ [r] ∧ r.code = BitVec.ofNat 16 code ∧ r.unit = BitVec.ofNat 16 unit)
    ∧ (∃ x y, s.part? p = some x ∧ t.part? p = some y ∧ (y.ctx a.ctx).fault.isSome = true
        ∧ y.ended = x.ended ++ (x.runsOf a.ctx).map (.run 2 (BitVec.ofNat 16 code)))
    ∧ ∀ st i, t.byteAt st i = s.byteAt st i

end Sys2Proof.Claims

/-- A treadling word whose predicate reads 0 does nothing but go on to the next word, whichever word it is (R119). -/
def Obligations.SkippedWordsDoNothing : Prop :=
  ∀ (c : Instr) (s : State) (a : At) (code : Nat) (pred : Fin 8) (pneg : Bool), c.wf = true →
    wordOf c = some (a, code, pred, pneg) → Stands s a code → (s.seq a).getP pred = pneg → SeqBecomes c s a (ran s a).next

/-- A treadling word that is not the one that may issue changes nothing (the model's choice: a command whose condition does not hold
changes nothing, log entry 45). -/
def Sys2Proof.Claims.WordsElsewhereChangeNothing : Prop :=
  ∀ (c : Instr) (s : State) (a : At) (code : Nat) (pred : Fin 8) (pneg : Bool), c.wf = true → wordOf c = some (a, code, pred, pneg) →
    ¬ Stands s a code → exec c s = .next s

/-- NOP, JMP, BST, END, LOOP and ENDLOOP (R131): where the sequencer goes on, the loop stack and the index register. -/
def Obligations.ControlWordsMoveTheSequencer : Prop :=
  ∀ (s : State) (a : At),
    (∀ w, nopOk w = true → Issues s a (w.code 0x00) w.pred w.pneg → SeqBecomes (.nop a w) s a (ran s a).next)
      ∧ (∀ w, nopOk w = true → Issues s a (w.code 0x05) w.pred w.pneg →
          SeqBecomes (.endT a w) s a { (ran s a).next with run := .ended })
      ∧ (∀ w, jmpOk w = true → Issues s a (w.code 0x01) w.pred w.pneg → SeqBecomes (.jmp a w) s a { ran s a with pc := w.target })
      ∧ (∀ w, bstOk w = true → Issues s a (w.code 0x02) w.pred w.pneg →
          (((s.seq a).cond = w.imm.toNat ∨ w.opt12 = true ∧ (s.seq a).cond ≠ 0) →
              SeqBecomes (.bst a w) s a { ran s a with pc := w.target })
            ∧ (¬ ((s.seq a).cond = w.imm.toNat ∨ w.opt12 = true ∧ (s.seq a).cond ≠ 0) → SeqBecomes (.bst a w) s a (ran s a).next))
      ∧ (∀ w, loopOk w = true → Issues s a (w.code 0x03) w.pred w.pneg →
          ((s.seq a).getB w.x.val = 0 → SeqBecomes (.loop a w) s a { ran s a with pc := w.target + 1 })
            ∧ ((s.seq a).getB w.x.val ≠ 0 → (s.seq a).getB w.x.val ≠ BitVec.allOnes 64 →
                SeqBecomes (.loop a w) s a
                  (({ ran s a with
                      loops := { count := (s.seq a).getB w.x.val, reg := w.y.val, start := (s.seq a).pc } :: (s.seq a).loops } : Seq).putB
                    w.y.val 0).next))
      ∧ (∀ w e rest, endloopOk w = true → Issues s a (w.code 0x04) w.pred w.pneg → (s.seq a).loops = e :: rest →
          (((s.seq a).getB e.reg + 1).toNat < e.count.toNat →
              SeqBecomes (.endloop a w) s a { (ran s a).putB e.reg ((s.seq a).getB e.reg + 1) with pc := w.target + 1 })
            ∧ (e.count.toNat ≤ ((s.seq a).getB e.reg + 1).toNat →
                SeqBecomes (.endloop a w) s a { (ran s a).next with loops := rest }))

/-- MOVI, ALU, CMP, PLOGIC and ABIND (R132) write their one register, at every function code and every operand; of a shift by at least
64 places, whose result R132 does not state, only that there is one (log entry 8). -/
def Sys2Proof.Claims.ScalarWordsWriteTheirRegister : Prop :=
  ∀ (s : State) (a : At) (w : SWord),
    (moviOk w = true → Issues s a (w.code 0x10) w.pred w.pneg →
        SeqBecomes (.movi a w) s a (if w.opt12 then (ran s a).putA w.x.val w.imm else (ran s a).putB w.x.val w.imm).next)
      ∧ (aluOk w = true → Issues s a (w.code 0x11) w.pred w.pneg →
          (∀ v, AluGives w.fn.toNat ((s.seq a).getB w.y.val) (second s a w) v →
              SeqBecomes (.alu a w) s a ((ran s a).putB w.x.val v).next)
            ∧ ((w.fn.toNat = 4 ∨ w.fn.toNat = 5) → 64 ≤ (second s a w).toNat →
                ∃ v, SeqBecomes (.alu a w) s a ((ran s a).putB w.x.val v).next))
      ∧ (cmpOk w = true → Issues s a (w.code 0x12) w.pred w.pneg →
          ∀ b : Bool, (b = true ↔ CmpHolds w.fn.toNat ((s.seq a).getB w.y.val) (second s a w)) →
            SeqBecomes (.cmp a w) s a ((ran s a).putP (Fin.ofNat 8 w.x.val) b).next)
      ∧ (plogicOk w = true → Issues s a (w.code 0x13) w.pred w.pneg →
          ∀ b : Bool, (b = true ↔ PlogicHolds w.fn.toNat ((s.seq a).getP (Fin.ofNat 8 w.y.val)) ((s.seq a).getP (Fin.ofNat 8 w.z.val))) →
            SeqBecomes (.plogic a w) s a ((ran s a).putP (Fin.ofNat 8 w.x.val) b).next)
      ∧ (abindOk w = true → Issues s a (w.code 0x14) w.pred w.pneg →
          SeqBecomes (.abind a w) s a ((ran s a).putA w.x.val w.imm).next)

/-- AADD (R132): the offset of A[Y] plus B[Z] times the signed IMM, as a signed value that wraps (log entry 8), goes to A[X] with A[Y]'s
buffer, where it lies from 0 to 2^48 − 1. -/
def Sys2Proof.Claims.AaddAddsToTheOffset : Prop :=
  ∀ (s : State) (a : At) (w : SWord) (n : Nat), aaddOk w = true → Issues s a (w.code 0x15) w.pred w.pneg →
    (n : Int) = ((((s.seq a).getA w.y.val).toNat / 2 ^ 16 : Nat) : Int) + ((s.seq a).getB w.z.val * w.imm).toInt → n < 2 ^ 48 →
      SeqBecomes (.aadd a w) s a
        ((ran s a).putA w.x.val (BitVec.ofNat 64 (n * 2 ^ 16 + ((s.seq a).getA w.y.val).toNat % 2 ^ 16))).next

/-- LDB and STB (R132): where the access is aligned, within its buffer and not held, B[X] takes the eight bytes, little-endian, or the
eight bytes take B[X]; STB changes no other byte of any storage. -/
def Sys2Proof.Claims.LoadsAndStoresMoveEightBytes : Prop :=
  ∀ (s : State) (a : At) (w : SWord) (h : Here) (addr : Nat), ldbOk w = true → (s.seq a).getP w.pred ≠ w.pneg →
    h.aligned w 8 = true → h.k.access h.a (h.place w.y.val) (h.offset w) 8 = .ok addr →
      (s.here a (w.code 0x16) = some h → h.x.readHeld h.l h.a addr 8 = false →
          SeqBecomes (.ldb a w) s a
            ((ran s a).putB w.x.val (BitVec.ofNat 64 (leNat (s.bytesAt (.loom a.loom) addr 8)))).next)
        ∧ (s.here a (w.code 0x17) = some h → h.x.writeHeld h.l h.a addr 8 = false →
            Gives (.stb a w) s (fun t =>
              t.seq a = (ran s a).next ∧ t.bytesAt (.loom a.loom) addr 8 = leBytes 8 ((s.seq a).getB w.x.val).toNat
                ∧ (∀ st i, (st = .loom a.loom → i < addr ∨ addr + 8 ≤ i) → t.byteAt st i = s.byteAt st i)
                ∧ { t with looms := s.looms } = s ∧ (∀ g, g ≠ a.loom → t.loom g = s.loom g)))

/-- A scalar instruction that faults (R144) writes nothing: the sequencer stops with the code, the open tile is poisoned, the fault is
reported by the loom's sequencer, and the context faults under R155 with its runs failed. -/
def Sys2Proof.Claims.ScalarFaultsStopTheContext : Prop :=
  ∀ (s : State) (a : At) (h : Here),
    (∀ w : SWord, aluOk w = true → s.here a (w.code 0x11) = some h → (s.seq a).getP w.pred ≠ w.pneg → w.fn.toNat = 3 →
        second s a w = 0 → Gives (.alu a w) s (CtxFaults s a h.p (loomUnit a.loom 1) 0x0323))
      ∧ (∀ w : JWord, loopOk w = true → s.here a (w.code 0x03) = some h → (s.seq a).getB w.x.val = BitVec.allOnes 64 →
          Gives (.loop a w) s (CtxFaults s a h.p (loomUnit a.loom 1) 0x0320))
      ∧ (∀ w : SWord, aaddOk w = true → s.here a (w.code 0x15) = some h → (s.seq a).getP w.pred ≠ w.pneg →
          (let o : Int := ((((s.seq a).getA w.y.val).toNat / 2 ^ 16 : Nat) : Int) + ((s.seq a).getB w.z.val * w.imm).toInt
           o < 0 ∨ 2 ^ 48 ≤ o) → Gives (.aadd a w) s (CtxFaults s a h.p (loomUnit a.loom 1) 0x0322))
      ∧ (∀ w : SWord, ldbOk w = true → s.here a (w.code 0x16) = some h → (s.seq a).getP w.pred ≠ w.pneg → h.aligned w 8 = false →
          Gives (.ldb a w) s (CtxFaults s a h.p (loomUnit a.loom 1) 0x0327))
      ∧ (∀ w : SWord, ldbOk w = true → s.here a (w.code 0x17) = some h → (s.seq a).getP w.pred ≠ w.pneg → h.aligned w 8 = false →
          Gives (.stb a w) s (CtxFaults s a h.p (loomUnit a.loom 1) 0x0327))

/-- Every command of the spec completes in every state, and a word that may not issue changes nothing; what is no command of the spec is refused as such; a queue of
commands of the spec never stops; and an empty queue lets one beat pass (the last, and that a word elsewhere changes nothing, are the model's
choices, log entries 1 and 45). -/
def Obligations.CommandsCompleteOrAreRefused : Prop :=
  Claims.WellFormedCommandsComplete ∧ Claims.IllFormedCommandsAreRefused ∧ Claims.SoundQueuesNeverStop ∧ Claims.IdleStepIsOneBeat ∧ Claims.WordsElsewhereChangeNothing

/-- MOVI, ALU, CMP, PLOGIC, ABIND and AADD (R132) write their one register. -/
def Obligations.ScalarWordsComputeRegisters : Prop :=
  Claims.ScalarWordsWriteTheirRegister ∧ Claims.AaddAddsToTheOffset

/-- LDB and STB move eight bytes; a scalar instruction that faults stops its context (R132, R144, R155). -/
def Obligations.LoadsStoresAndScalarFaults : Prop :=
  Claims.LoadsAndStoresMoveEightBytes ∧ Claims.ScalarFaultsStopTheContext
namespace Sys2Proof.Claims

open Sys2Proof Sys2Proof.Machine

/-- A treadling word that issues, with what it finds at issue. -/
def At_ (s : State) (a : At) (code : Nat) (pred : Fin 8) (pneg : Bool) (h : Here) : Prop :=
  s.here a code = some h ∧ (s.seq a).getP pred ≠ pneg

/-- Every storage byte of a state, after a list of (address, bytes) has been written to a loom's store, the later over the earlier. -/
def Wrote (s t : State) (g : Fin 256) (ws : List (Nat × List Byte)) : Prop :=
  (∀ st i, st ≠ .loom g → t.byteAt st i = s.byteAt st i)
    ∧ ∀ i, t.byteAt (.loom g) i
        = ws.foldl (fun b e => if e.1 ≤ i ∧ i < e.1 + e.2.length then e.2.getD (i - e.1) 0 else b) (s.byteAt (.loom g) i)

/-- No fault has been reported, no register written but some named ones, and no partition, link or slot touched. -/
def Calm (s t : State) : Prop := t.safety = s.safety ∧ t.links = s.links ∧ t.slots = s.slots ∧ t.net = s.net ∧ t.mem = s.mem

end Sys2Proof.Claims

/-- TBEGIN (R133, R100, R147): where nothing it waits for is in flight, the bank holds the tag it expects, every latched shape is a
number within its ceiling and everything it reads is good, it opens a tile over the named tie-up and bank, started now, with the fells
it preloads and no other, the vector registers clear, and the status OK. -/
def Sys2Proof.Claims.TbeginOpensTheTile : Prop :=
  ∀ (s : State) (a : At) (w : TWord) (h : Here) (images : List (List (Nat × Fell) × (Nat × Nat)))
    (tables : List (DrainSet × List (Nat × Nat))), tbeginOk w = true → At_ s a (w.code 0x20) w.pred w.pneg h →
    h.landing = false →
    (w.d1 ≠ 0 → ∃ g : BankTag, h.l.tagOf (if bit w.sel.toNat 2 then 1 else 0) = some g ∧ g.ctx = a.ctx ∧ g.tag = w.tag
      ∧ g.tieup = TieUp.ofCode (w.sel.toNat % 4) ∧ g.etype = (h.desc w.d1.toNat).type ∧ g.group = (h.desc w.d1.toNat).group) →
    (∀ r ∈ h.t.roles (s.seq a).pc.toNat (TieUp.ofCode (w.sel.toNat % 4)),
      (h.shapeNow r.1).rows ≠ BitVec.allOnes 64 ∧ (h.shapeNow r.1).cols ≠ BitVec.allOnes 64
        ∧ (h.k.singleMill = true → ∀ e ∈ r.2.limits (h.shapeNow r.1) (h.k.ceiling a.ctx w.aux.toNat), e.1 ≤ e.2.2)) →
    eachOk (fun f => h.preload (h.desc w.d2.toNat).addr f) ((if bit w.sel.toNat 3 then [0] else []) ++ (if bit w.sel.toNat 4 then [1] else []))
      = .ok images →
    eachOk (fun d => h.loadTable (TieUp.ofCode (w.sel.toNat % 4)) d) (h.t.records (s.seq a).pc.toNat) = .ok tables →
    (∀ r ∈ images.map (fun e => e.2) ++ tables.flatMap (fun e => e.2), h.x.readHeld h.l a r.1 r.2 = false) →
    Gives (.tbegin a w) s (fun t =>
      (∃ tile, (t.seq a).tile = some tile ∧ tile.tieup = TieUp.ofCode (w.sel.toNat % 4)
          ∧ tile.bank = (if bit w.sel.toNat 2 then 1 else 0) ∧ tile.start = s.beat ∧ tile.warp = w.d1.toNat ∧ tile.closing = none
          ∧ tile.sets = tables.map (fun e => e.1))
        ∧ (t.seq a).pc = (s.seq a).pc + 1 ∧ (t.seq a).st = ((s.seq a).clearOut.setCond .ok 0).st ∧ (t.seq a).b = (s.seq a).b
        ∧ (t.seq a).a = (s.seq a).a ∧ (t.seq a).p = (s.seq a).p
        ∧ (∀ hd f, (t.loom a.loom).fells.get (2 * hd + f) Fell.cleared
            = Tab.get ((images.flatMap (fun e => e.1)).foldl (fun m e => Tab.put m e.1 e.2 Fell.cleared) []) (2 * hd + f) Fell.cleared)
        ∧ (t.loom a.loom).v = [] ∧ (t.loom a.loom).vfell = Fell.cleared ∧ (t.loom a.loom).lastCtx = a.ctx
        ∧ (∀ st i, t.byteAt st i = s.byteAt st i) ∧ Calm s t)

/-- A TBEGIN whose bank holds no fill of its context with its tag opens nothing: it sets BANK_STALE with the bank and goes on
(R100, R134). -/
def Sys2Proof.Claims.StaleBanksOpenNoTile : Prop :=
  ∀ (s : State) (a : At) (w : TWord) (h : Here), tbeginOk w = true → At_ s a (w.code 0x20) w.pred w.pneg h →
    h.landing = false → w.d1 ≠ 0 →
    (∀ g, h.l.tagOf (if bit w.sel.toNat 2 then 1 else 0) = some g → g.ctx ≠ a.ctx ∨ g.tag ≠ w.tag) →
    SeqBecomes (.tbegin a w) s a ((ran s a).setCond .bankStale (if bit w.sel.toNat 2 then 1 else 0)).next

/-- MAC (R133, R126, R151): with its tile open, its bank ready and its weft read, every heddle whose stream presents elements and whose
channel the warp holds takes their products into the named fell, in ascending order; every other fell is as it was. -/
def Sys2Proof.Claims.MacAccumulatesIntoFells : Prop :=
  ∀ (s : State) (a : At) (w : TWord) (h : Here) (tile : Tile) (wefts : List Weft), macOk w = true →
    At_ s a (w.code 0x21) w.pred w.pneg h → (s.seq a).tile = some tile →
    (let k0 := ((s.seq a).getB w.y.val).toNat
     let kl := ((s.seq a).getB w.z.val).toNat
     kl ≠ 0 ∧ (s.seq a).getB w.z.val ≠ BitVec.allOnes 64 ∧ k0 + kl ≤ bankCapacity (h.desc tile.warp).type
      ∧ eachOk (fun d => h.weft tile d ((s.seq a).getB w.x.val).toNat k0 (k0 + kl)) (rangeFrom w.d1.toNat tile.tieup.streams) = .ok wefts) →
    (∀ r ∈ wefts.flatMap (fun v => v.reads), h.x.readHeld h.l a r.1 r.2 = false) → h.l.bankReady tile.bank = true →
    Gives (.mac a w) s (fun t =>
      (∀ hd f, hd < 256 → f < 2 → (t.loom a.loom).fells.get (2 * hd + f) Fell.cleared
          = (let elems := (wefts.map (fun v => v.elems)).getD (tile.tieup.stream hd) []
             let old := (s.loom a.loom).fells.get (2 * hd + f) Fell.cleared
             if f = w.sel.toNat % 2 ∧ elems ≠ [] ∧ tile.tieup.channel hd < (tile.shape tile.warp).rows.toNat then
               reduce ((s.loom a.loom).bank tile.bank) (h.desc tile.warp) hd elems old
             else old))
        ∧ (t.seq a).pc = (s.seq a).pc + 1 ∧ (t.seq a).tile = some tile ∧ (t.seq a).b = (s.seq a).b ∧ (t.seq a).a = (s.seq a).a
        ∧ (t.seq a).p = (s.seq a).p ∧ (∀ st i, t.byteAt st i = s.byteAt st i) ∧ Calm s t)

/-- DRAIN (R133, R152, R169): the rows it forms are written and nothing else is; the named fell of every heddle is left cleared and the
other fell as it was; the flags it raises are ORed into its output slot. -/
def Sys2Proof.Claims.DrainWritesAndClearsTheFell : Prop :=
  ∀ (s : State) (a : At) (w : TWord) (h : Here) (tile : Tile) (ds : List Drained), drainOk w = true →
    At_ s a (w.code 0x22) w.pred w.pneg h → (s.seq a).tile = some tile →
    (if w.sel.getLsbD 2 then eachOk (fun _ => h.drainImages w tile ((s.seq a).getB w.x.val).toNat) [()]
      else eachOk (fun k => h.drainStream w tile k ((s.seq a).getB w.x.val).toNat) (List.range tile.tieup.streams)) = .ok ds →
    (∀ e ∈ ds.flatMap (fun d => d.writes), h.x.writeHeld h.l a e.1 e.2.length = false) →
    Gives (.drain a w) s (fun t =>
      Wrote s t a.loom (ds.flatMap (fun d => d.writes))
        ∧ (∀ hd f, f < 2 → (t.loom a.loom).fells.get (2 * hd + f) Fell.cleared
            = if f = w.sel.toNat % 2 then Fell.cleared else (s.loom a.loom).fells.get (2 * hd + f) Fell.cleared)
        ∧ (t.seq a).st = (let q := (s.seq a).orFlags (bits w.sel.toNat 3 2) (ds.foldl (fun f d => f.or d.flags) Flg.none)
                          if ds.any (fun d => d.masked) then q.setMasked.st else q.st)
        ∧ (t.seq a).pc = (s.seq a).pc + 1 ∧ (t.seq a).tile = some tile ∧ (t.seq a).b = (s.seq a).b ∧ (t.seq a).a = (s.seq a).a
        ∧ (t.seq a).p = (s.seq a).p ∧ Calm s t)

/-- TBEGIN (R98, R99, R129): the tile it opens, and the stale bank on which it opens none. -/
def Obligations.TbeginOpensOrFindsItsBanksStale : Prop :=
  Claims.TbeginOpensTheTile ∧ Claims.StaleBanksOpenNoTile

/-- MAC adds its products to the fells; DRAIN rounds, writes and clears one. -/
def Obligations.MacAndDrainUseTheFells : Prop :=
  Claims.MacAccumulatesIntoFells ∧ Claims.DrainWritesAndClearsTheFell

/-- TEND (R133): with every contribution drained or saved, the tile closes, and what WSTAT names is kept for its completion; the tile
itself ends by TILE_COMPLETION once its MOVEs have landed: it counts, the vector registers and the fells are cleared, and WSTAT's record
is written (R104, R114). -/
def Obligations.TilesEnd : Prop :=
  (∀ (s : State) (a : At) (w : TWord) (h : Here) (tile : Tile), tendOk w = true → At_ s a (w.code 0x23) w.pred w.pneg h →
      (s.seq a).tile = some tile → (∀ e ∈ (s.loom a.loom).undrained, e.2 = false) →
      (w.sel.getLsbD 0 = false → SeqBecomes (.tend a w) s a { (ran s a).next with tile := some { tile with closing := some none } })
        ∧ (∀ addr, w.sel.getLsbD 0 = true →
            h.k.access a (h.place w.x.val) (match h.place w.x.val with | none => 0 | some p => p.off) 16 = .ok addr →
            h.x.writeHeld h.l a addr 16 = false →
            SeqBecomes (.tend a w) s a { (ran s a).next with tile := some { tile with closing := some (some addr) } }))
    ∧ (∀ (s : State) (g : Fin 256) (c : Fin 8) (tile : Tile) (q : Seq), q = s.seq { loom := g, ctx := c } →
        (s.loom g).tileOf (fun q t => t.closing.isSome && !q.moves.any (fun m => m.inTile)) = some (c, tile) →
        Gives (.tileCompletion g) s (fun t =>
          (t.seq { loom := g, ctx := c }).tile = none ∧ (t.seq { loom := g, ctx := c }).tiles = q.tiles + 1
            ∧ (t.loom g).tileDone = true ∧ (t.loom g).fells = [] ∧ (t.loom g).v = [] ∧ (t.loom g).vfell = Fell.cleared
            ∧ t.reg (.loomTiles g) = s.reg (.loomTiles g) + 1
            ∧ Wrote s t g (match tile.closing.getD none with
                | none => []
                | some addr => [(addr, leBytes 8 q.st.toNat ++ leBytes 8 (q.tiles + 1).toNat)])
            ∧ t.safety = s.safety))

/-- The watchdog of a tile (R105): 450,000 beats after its start, any wait for its bank counted in, the loom's check latches, 0x0306 is
reported with a detail word that says whether the tile waited for a bank or issued, the tile is poisoned and its sequencer stops; no byte of
any storage changes. Before that the watchdog does nothing. -/
def Obligations.HungTilesAreEnded : Prop :=
  ∀ (s : State) (g : Fin 256),
   ((s.loom g).tileOf (fun _ t => decide (t.start + 450000 ≤ s.beat)) = none → exec (.tileWatchdogExpiry g) s = .next s) ∧
   ∀ (c : Fin 8) (p : Fin 16) (tile : Tile), (s.loom g).part = some p →
    (s.loom g).tileOf (fun _ t => decide (t.start + 450000 ≤ s.beat)) = some (c, tile) →
    Gives (.tileWatchdogExpiry g) s (fun t =>
      (t.seq { loom := g, ctx := c }).tile = none ∧ (t.seq { loom := g, ctx := c }).run = .faulted 0x0306
        ∧ t.fld (.loomCheck g) Fl.loomCheck_WATCHDOG = 1
        ∧ (∃ r, t.safety.flight = s.safety.flight ++ [r] ∧ r.code = 0x0306 ∧ r.unit = BitVec.ofNat 16 (loomUnit g 7)
            ∧ (r.detail.getLsbD 0 = true ↔ tile.waiting.isSome = true ∧ (s.loom g).bankReady tile.bank = false))
        ∧ ∀ st i, t.byteAt st i = s.byteAt st i)
namespace Sys2Proof.Claims

open Sys2Proof Sys2Proof.Machine

/-- The rows that an ATTN writes: each query row in bounds, with what attention over the present pages gives it (R218). -/
def attnRows (h : Here) (w : TWord) (t : Tile) (e : SeqEntry) (x : Part) (n : Snapshot)
    (qs : List (Option (List (List Machine.Num)) × List (Nat × Nat))) : List (Nat × AttnRow) :=
  let f := pageFmt e.format
  let half := fun (v : Bool) => n.present.flatMap (fun p =>
    (List.range p.2.count).map (fun i => x.pool.token h.k.pools.frame p.2.page f v i))
  (qs.zipIdx).filterMap (fun q =>
    if q.2 + (h.desc w.d2.toNat).rowoff < (t.shape w.d2.toNat).rows.toNat then
      q.1.1.map (fun v => (q.2, attnRow v (half false) (half true) f.hd))
    else none)

/-- The rows of MOVE. -/
def moveWord (i : Instr) : Option (At × SWord) :=
  match i with
  | .moveCopy a w | .moveCompress a w | .moveExpand a w | .moveStrided a w | .moveZero a w => some (a, w)
  | _ => none

/-- Bytes of a MOVE's extents (R135, R282, R305): a strided run, the largest stream a source can give, a stream's header. -/
def dstSpan (kind : MoveKind) (imm n : Nat) : Nat :=
  match kind with
  | .strided => stridedSpan (imm % 65536) (imm / 2 ^ 40 % 2 ^ 24) n
  | .compress => largestStream n
  | _ => n
def srcSpan (kind : MoveKind) (imm n : Nat) : Nat :=
  match kind with
  | .strided => stridedSpan (imm % 65536) (imm / 2 ^ 16 % 2 ^ 24) n
  | .expand => 192
  | _ => n

/-- A vector instruction completes: its register takes the lanes, every other lane stays, its flags enter output slot 0. -/
def Lanes (c : Instr) (s : State) (a : At) (x : Nat) (rs : List (BitVec 32 × Flg)) : Prop :=
  Gives c s (fun t =>
    (∀ i, i < 64 → (t.loom a.loom).lane x i = (rs.getD i (0, Flg.none)).1) ∧ rs.length = 64
      ∧ (∀ r i, r ≠ x → i < 64 → (t.loom a.loom).lane r i = (s.loom a.loom).lane r i)
      ∧ t.seq a = ((ran s a).orFlags 0 (laneFlags rs)).next ∧ (∀ st i, t.byteAt st i = s.byteAt st i) ∧ Calm s t ∧ t.parts = s.parts
      ∧ t.regs = s.regs)

end Sys2Proof.Claims

/-- FILL (R133, R275, R276): a layout that fits and runs that can be read put the fill at the end of the expander's queue; the bank is
filled later, and nothing else changes now. -/
def Sys2Proof.Claims.FillJoinsTheExpandersQueue : Prop :=
  ∀ (s : State) (a : At) (w : TWord) (h : Here) (src : Place) (base : Nat), fillOk w = true →
    At_ s a (w.code 0x24) w.pred w.pneg h →
    (let d := h.desc w.d1.toNat
     let rows := ((s.seq a).getB d.rows).toNat
     let cols := ((s.seq a).getB d.cols).toNat
     let z := ((s.seq a).getB w.z.val).toNat
     (s.seq a).getB w.z.val ≠ BitVec.allOnes 64 ∧ (s.seq a).getB d.rows ≠ BitVec.allOnes 64 ∧ (s.seq a).getB d.cols ≠ BitVec.allOnes 64
       ∧ z = rows * (elemBytes d.type cols + fillScales d.group cols) ∧ rows ≤ (TieUp.ofCode (w.sel.toNat % 4)).channels
       ∧ elemBytes d.type cols ≤ 2048 ∧ fillScales d.group cols ≤ 128 ∧ h.place w.x.val = some src
       ∧ (w.opt12 = false → h.k.access a (some src) src.off z = .ok base ∧ h.x.readHeld h.l a base z = false)
       ∧ (w.opt12 = true → ∃ (st : Place) (delta : Nat) (hd : StreamHead), h.place w.y.val = some st
            ∧ h.k.access a (some st) st.off 192 = .ok delta ∧ readStreamHead (s.bytesAt (.loom a.loom) delta 192) = some hd
            ∧ hd.rawTotal = z ∧ delta + hd.streamLength ≤ st.base + st.len ∧ h.x.readHeld h.l a delta 192 = false
            ∧ h.x.readHeld h.l a delta hd.streamLength = false ∧ h.x.readHeld h.l a src.addr z = false)) →
    Gives (.fill a w) s (fun t =>
      (∃ f, (t.loom a.loom).fills = (s.loom a.loom).fills ++ [f] ∧ f.ctx = a.ctx ∧ f.bank = (if bit w.sel.toNat 2 then 1 else 0)
          ∧ f.tag = w.tag ∧ f.tieup = TieUp.ofCode (w.sel.toNat % 4) ∧ f.len = ((s.seq a).getB w.z.val).toNat ∧ f.stream = w.opt12
          ∧ f.base = (if w.opt12 then src.addr else base) ∧ f.admitted = false
          ∧ f.heldSince = (if (s.seq a).usesBank f.bank then some s.beat else none))
        ∧ t.seq a = (ran s a).next ∧ (t.loom a.loom).bank0 = (s.loom a.loom).bank0 ∧ (t.loom a.loom).bank1 = (s.loom a.loom).bank1
        ∧ (∀ st i, t.byteAt st i = s.byteAt st i) ∧ Calm s t ∧ t.parts = s.parts ∧ t.regs = s.regs)

/-- FILL_ADMIT and BANK_READY (R277, R278, R276, R99): a fill whose tables are good and find slots is admitted with the slots it holds; the
served fill's raw bytes enter its bank, which becomes ready under the fill's tag, and the fill leaves the queue. -/
def Sys2Proof.Claims.FillsAreAdmittedAndLand : Prop :=
  (∀ (s : State) (g : Fin 256) (i n : Nat) (f : Fill) (d : Tab TableSlot) (used : List Nat),
      (s.loom g).toAdmit = some i → (s.loom g).fills[i]? = some f →
      (let tables := if f.stream then
          match readStreamHead (s.bytesAt (.loom g) (f.delta + 0) 192) with
          | none => []
          | some hd => hd.list.map (fun e => s.bytesAt (.loom g) (f.delta + e.1) 256)
        else []
       (∀ t ∈ tables, tableValid t = true) ∧ loadTables (s.loom g).dx [] 0 tables = .slots d used n) →
      Gives (.fillAdmit g) s (fun t =>
        (t.loom g).fills = (s.loom g).fills.set i { f with admitted := true, slots := used } ∧ (t.loom g).dx = raiseUse d used
          ∧ t.fld (.dxCount g) Fl.dxCount_TABLE_LOADS
              = satAdd Fl.dxCount_TABLE_LOADS.w (s.fld (.dxCount g) Fl.dxCount_TABLE_LOADS) n
          ∧ (∀ st i, t.byteAt st i = s.byteAt st i) ∧ Calm s t ∧ t.parts = s.parts))
    ∧ (∀ (s : State) (g : Fin 256) (bank : Fin 2) (f : Fill) (p : Fin 16) (x : Part) (raw : List Byte),
        (s.loom g).serving bank = some f → (s.loom g).part = some p → s.part? p = some x → f.heldSince = none →
        s.fillBytes x.cfg g f = (raw, none) →
        Gives (.bankReady g bank) s (fun t =>
          (t.loom g).bank bank = ((s.loom g).bank bank).filled f raw ∧ (t.loom g).fills = (s.loom g).fills.drop 1
            ∧ (t.loom g).bank (1 - bank) = (s.loom g).bank (1 - bank) ∧ (∀ st i, t.byteAt st i = s.byteAt st i) ∧ Calm s t
            ∧ t.parts = s.parts))

/-- FILL_DAMAGE (R274, R279): the expander that meets damage faults the fill's context with the class-0x02 code; the fill is gone, its bank
not ready and untagged. -/
def Sys2Proof.Claims.DamageStopsAFill : Prop :=
  ∀ (s : State) (g : Fin 256) (bank : Fin 2) (f : Fill) (p : Fin 16) (x : Part) (raw : List Byte) (code record : Nat),
    (s.loom g).serving bank = some f → (s.loom g).part = some p → s.part? p = some x →
    s.fillBytes x.cfg g f = (raw, some (code, record)) → code ≠ 0x0307 →
    Gives (.fillDamage g bank) s (fun t =>
      CtxFaults s { loom := g, ctx := f.ctx } p (loomUnit g 6) code t ∧ ((t.loom g).bank bank).ready = false
        ∧ ((t.loom g).bank bank).tag = none ∧ (t.loom g).fills.length = (s.loom g).fills.length - 1
        ∧ t.reg (.dxLast g) = BitVec.ofNat 64 (code + record % 2 ^ 32 * 2 ^ 16 + f.ctx.val * 2 ^ 48))

/-- ATTN (R216 to R220): with its sequence, layer and head named, its query and every page it reads good and no dropped entry that the
sequence does not tolerate, each query row in bounds gives its maximum, its mass and its output, written as FP32, and nothing else is; the
two banks hold no fill any more; the status is OK. -/
def Sys2Proof.Claims.AttentionWritesItsRows : Prop :=
  ∀ (s : State) (a : At) (w : TWord) (h : Here) (t₀ t₁ : Tile) (e : SeqEntry) (x : Part) (n : Snapshot)
    (qs : List (Option (List (List Machine.Num)) × List (Nat × Nat))) (addrs : List Nat), attnOk w = true →
    At_ s a (w.code 0x25) w.pred w.pneg h → (s.seq a).tile = some t₀ →
    (let v := (s.seq a).getB w.x.val
     let f := pageFmt e.format
     let sh := t₀.shape w.d1.toNat
     h.x.pool.seq? (attnSeq v) = some e ∧ w.tag.toNat < e.layers ∧ w.aux.toNat < e.heads ∧ bits v.toNat 33 31 = 0 ∧ attnCount v ≤ 16
       ∧ queryPairs f (h.desc w.d1.toNat).type (h.desc w.d1.toNat).group = true ∧ sh.cols.toNat = f.hd ∧ sh.rows.toNat ≠ 0
       ∧ sh.rows.toNat ≤ 64 ∧ f.hd + 2 ≤ (t₀.shape w.d2.toNat).cols.toNat ∧ h.l.filling 0 = false ∧ h.l.filling 1 = false
       ∧ h.attnSnapshot t₀ v w.tag.toNat w.aux.toNat = some (t₁, x, n) ∧ (∀ y ∈ n.entries, y.damaged = false)
       ∧ (e.tolerate = true ∨ ∀ y ∈ n.entries, y.state ≠ 2)
       ∧ eachOk (fun i => h.queryRow t₁ w.d1.toNat i) (List.range (t₁.shape w.d1.toNat).rows.toNat) = .ok qs
       ∧ (∀ b ∈ n.present.flatMap (fun p => rangeFrom (p.2.page * h.k.pools.frame / 4096 + 1) (f.size / 4096 - 1)),
            x.pool.bad.get b false = false)
       ∧ (∀ r ∈ qs.flatMap (fun q => q.2), h.x.readHeld h.l a r.1 r.2 = false)
       ∧ eachOk (fun (row : Nat × AttnRow) =>
            h.produce (h.desc w.d2.toNat).addr ((row.1 + (h.desc w.d2.toNat).rowoff) * (h.desc w.d2.toNat).stride) (4 * (f.hd + 2)))
            (attnRows h w t₁ e x n qs) = .ok addrs
       ∧ (∀ b ∈ addrs, h.x.writeHeld h.l a b (4 * (f.hd + 2)) = false)) →
    Gives (.attn a w) s (fun t =>
      Wrote s t a.loom (((attnRows h w t₁ e x n qs).zip addrs).map (fun ra =>
          (ra.2, ([ra.1.2.m, ra.1.2.l] ++ ra.1.2.o).flatMap (fun v => leBytes 4 v.toNat))))
        ∧ (t.seq a).pc = (s.seq a).pc + 1 ∧ (t.seq a).cond = 0 ∧ (t.loom a.loom).bank0.ready = false
        ∧ (t.loom a.loom).bank1.ready = false ∧ (t.loom a.loom).bank0.tag = none ∧ (t.loom a.loom).bank1.tag = none
        ∧ (∃ t₂, (t.seq a).tile = some t₂ ∧ t₂.scores = t₁.scores
            ++ n.masses (n.layer * e.heads + n.head) ((attnRows h w t₁ e x n qs).map Prod.snd))
        ∧ Calm s t)

/-- An ATTN over a dropped page that its sequence does not tolerate computes nothing: it sets PAGE_ABSENT with the entry's position and
goes on (R220). -/
def Sys2Proof.Claims.AttentionReportsAnAbsentPage : Prop :=
  ∀ (s : State) (a : At) (w : TWord) (h : Here) (t₀ t₁ : Tile) (e : SeqEntry) (x : Part) (n : Snapshot) (i : Nat),
    attnOk w = true → At_ s a (w.code 0x25) w.pred w.pneg h → (s.seq a).tile = some t₀ →
    (let v := (s.seq a).getB w.x.val
     let f := pageFmt e.format
     let sh := t₀.shape w.d1.toNat
     h.x.pool.seq? (attnSeq v) = some e ∧ w.tag.toNat < e.layers ∧ w.aux.toNat < e.heads ∧ bits v.toNat 33 31 = 0 ∧ attnCount v ≤ 16
       ∧ queryPairs f (h.desc w.d1.toNat).type (h.desc w.d1.toNat).group = true ∧ sh.cols.toNat = f.hd ∧ sh.rows.toNat ≠ 0
       ∧ sh.rows.toNat ≤ 64 ∧ f.hd + 2 ≤ (t₀.shape w.d2.toNat).cols.toNat ∧ h.l.filling 0 = false ∧ h.l.filling 1 = false
       ∧ h.attnSnapshot t₀ v w.tag.toNat w.aux.toNat = some (t₁, x, n) ∧ (∀ y ∈ n.entries, y.damaged = false) ∧ e.tolerate = false
       ∧ n.entries.findIdx? (fun y => y.state == 2) = some i) →
    SeqBecomes (.attn a w) s a ((ran s a).setCond .pageAbsent (n.first + i)).next

/-- MOVE in its five forms (R135, R305): with both extents inside what they may touch, unlocked, aligned and not held, the MOVE joins those
under way; its bytes land later. -/
def Sys2Proof.Claims.MovesIssueWhole : Prop :=
  ∀ (c : Instr) (s : State) (a : At) (w : SWord) (h : Here) (dst src : Place), c.wf = true → moveWord c = some (a, w) →
    At_ s a (w.code 0x30) w.pred w.pneg h →
    (let kind := MoveKind.ofFn w.fn.toNat
     let n := ((s.seq a).getB w.z.val).toNat
     let dn := dstSpan kind w.imm.toNat n
     let sn := srcSpan kind w.imm.toNat n
     (s.seq a).getB w.z.val ≠ BitVec.allOnes 64 ∧ h.place w.x.val = some dst ∧ h.k.extentTrap a (some dst) dn = none
       ∧ (kind ≠ .zero → h.place w.y.val = some src ∧ h.k.extentTrap a (some src) sn = none ∧ h.locked (some src) sn = false
           ∧ h.extentHeld (some src) (if kind = .expand then src.len - src.off else sn) false = false)
       ∧ h.locked (some dst) dn = false ∧ h.extentHeld (some dst) dn true = false
       ∧ (h.k.singleMill = false → misaligned kind dst.addr src.addr = false)) →
    ∃ m : Move, SeqBecomes c s a { (ran s a).next with moves := (s.seq a).moves ++ [m] } ∧ m.kind = MoveKind.ofFn w.fn.toNat
      ∧ m.dst.store = dst.store ∧ m.dst.addr = dst.addr ∧ m.len = ((s.seq a).getB w.z.val).toNat ∧ m.inTile = (s.seq a).tile.isSome
      ∧ (m.kind ≠ .zero → m.src.store = src.store ∧ m.src.addr = src.addr)

/-- MOVE_COMPLETE (R135, R280, R281): the oldest MOVE lands and is gone; a copy gives its destination the source's bytes, a strided copy row
by row, a zeroing MOVE zeros, a compressing MOVE the stream of its source, an expanding MOVE the blocks of its stream; every other byte of
every storage stays. -/
def Sys2Proof.Claims.MovesLand : Prop :=
  ∀ (s : State) (a : At) (m : Move) (rest : List Move), (s.seq a).moves = m :: rest → Exists s m.dst.store →
    let there := fun (t : State) (n : Nat) (f : Nat → Byte) =>
      (t.seq a).moves = rest ∧ ∀ st i, t.byteAt st i
        = if st = m.dst.store ∧ m.dst.addr ≤ i ∧ i < m.dst.addr + n then f (i - m.dst.addr) else s.byteAt st i
    (m.kind = .copy → s.readFails m.src.store m.src.addr m.len = none →
        Gives (.moveComplete a) s (fun t => there t m.len (fun i => s.byteAt m.src.store (m.src.addr + i))))
      ∧ (m.kind = .zero → Gives (.moveComplete a) s (fun t => there t m.len (fun _ => 0)))
      ∧ (m.kind = .strided → m.len ≤ m.dstStride →
          (∀ r, r < m.rows → s.readFails m.src.store (m.src.addr + r * m.srcStride) m.len = none) →
          Gives (.moveComplete a) s (fun t => (t.seq a).moves = rest ∧ ∀ st i, t.byteAt st i
            = if st = m.dst.store ∧ m.dst.addr ≤ i ∧ (i - m.dst.addr) / m.dstStride < m.rows ∧ (i - m.dst.addr) % m.dstStride < m.len then
                s.byteAt m.src.store (m.src.addr + (i - m.dst.addr) / m.dstStride * m.srcStride + (i - m.dst.addr) % m.dstStride)
              else s.byteAt st i))
      ∧ (m.kind = .compress → m.len ≠ 0 → (∀ b ∈ blocksOf m.src.addr m.len, s.tagBad m.src.store b = false) →
          s.anyBad m.src.store m.src.addr m.len = false →
          Gives (.moveComplete a) s (fun t =>
            let out := (compress (s.bytesAt m.src.store m.src.addr m.len)).1
            there t out.length (fun i => out.getD i 0)))
      ∧ (∀ (hd : StreamHead) (blocks : List (List Byte)), m.kind = .expand → 192 ≤ m.src.len →
          (let bytes := fun (o n : Nat) => s.bytesAt m.src.store (m.src.addr + o) n
           readStreamHead (bytes 0 192) = some hd ∧ hd.streamLength ≤ m.src.len ∧ hd.rawTotal = m.len
             ∧ (∀ b ∈ blocksOf m.src.addr hd.streamLength, s.tagBad m.src.store b = false)
             ∧ (∀ e ∈ hd.list, tableValid (bytes e.1 256) = true)
             ∧ readRecords bytes hd (fun kind => if kind == 2 || kind == 4 then some 0x020B else none) (fun _ _ => .ok [])
                 (streamLens bytes hd) hd.records hd.recordsOffset 0 = (blocks, none)) →
          (∀ b ∈ blocks, b.length ≤ 4096) →
          Gives (.moveComplete a) s (fun t => (t.seq a).moves = rest
            ∧ (∀ k b j, blocks[k]? = some b → j < b.length → t.byteAt m.dst.store (m.dst.addr + 4096 * k + j) = b.getD j 0)
            ∧ ∀ st i, (st = m.dst.store → i < m.dst.addr ∨ m.dst.addr + 4096 * blocks.length ≤ i) → t.byteAt st i = s.byteAt st i))

/-- TSEND, TRECV and TRECV_LANDED (R157): the sender's bytes join the thread at the receiver's loom; a TRECV that finds them, and one whose
wait they end, takes the oldest of them whole; one that finds none waits. -/
def Obligations.ThreadsCarryBytesInOrder : Prop :=
  (∀ (s : State) (a : At) (w : SWord) (h : Here) (th : ThreadCfg) (src : Place) (addr : Nat), tsendOk w = true →
      At_ s a (w.code 0x31) w.pred w.pneg h → (s.seq a).getB w.z.val ≠ BitVec.allOnes 64 → h.k.thread? a.ctx w.fn.toNat = some th →
      h.place w.x.val = some src → h.k.access a (some src) src.off ((s.seq a).getB w.z.val).toNat = .ok addr →
      h.x.readHeld h.l a addr ((s.seq a).getB w.z.val).toNat = false →
      Gives (.tsend a w) s (fun t =>
        t.seq a = (ran s a).next ∧ (∀ st i, t.byteAt st i = s.byteAt st i) ∧ Calm s t ∧ t.parts = s.parts
          ∧ ∃ bad, (t.loom (Fin.ofNat 256 th.dst)).threads = ((s.loom (Fin.ofNat 256 th.dst)).threads.put (threadKey a.ctx w.fn.toNat)
              ((s.loom (Fin.ofNat 256 th.dst)).threads.get (threadKey a.ctx w.fn.toNat) []
                ++ [(s.bytesAt (.loom a.loom) addr ((s.seq a).getB w.z.val).toNat, bad)]) [])))
    ∧ (∀ (s : State) (a : At) (w : SWord) (h : Here) (dst : Place) (addr : Nat), tsendOk w = true →
        At_ s a (w.code 0x32) w.pred w.pneg h → (s.seq a).getB w.z.val ≠ BitVec.allOnes 64 → h.place w.x.val = some dst →
        h.k.access a (some dst) dst.off ((s.seq a).getB w.z.val).toNat = .ok addr →
        h.x.writeHeld h.l a addr ((s.seq a).getB w.z.val).toNat = false →
        ((s.loom a.loom).threads.get (threadKey a.ctx w.fn.toNat) [] = [] →
            SeqBecomes (.trecv a w) s a
              { ran s a with run := .waiting (.thread w.fn.toNat ((s.seq a).getA w.x.val) ((s.seq a).getB w.z.val).toNat) })
          ∧ (∀ bs bad rest, (s.loom a.loom).threads.get (threadKey a.ctx w.fn.toNat) [] = (bs, bad) :: rest →
              bs.length = ((s.seq a).getB w.z.val).toNat →
              Gives (.trecv a w) s (fun t => t.seq a = (ran s a).next ∧ Wrote s t a.loom [(addr, bs)]
                ∧ (t.loom a.loom).threads = (s.loom a.loom).threads.put (threadKey a.ctx w.fn.toNat) rest [] ∧ Calm s t)))
    ∧ (∀ (s : State) (a : At) (p : Fin 16) (x : Part) (td : TreadCfg) (i n : Nat) (v : Word) (dst : Place) (addr : Nat) (bs : List Byte)
        (bad : List (Nat × Nat)) (rest : List (List Byte × List (Nat × Nat))),
        s.resuming a = some (p, x, .thread i v n) → x.cfg.tread? a.ctx a.loom = some td → x.cfg.place p a td v = some dst →
        x.cfg.access a (some dst) dst.off n = .ok addr → (s.loom a.loom).threads.get (threadKey a.ctx i) [] = (bs, bad) :: rest →
        bs.length = n →
        Gives (.trecvLanded a) s (fun t => t.seq a = (ran s a).next ∧ Wrote s t a.loom [(addr, bs)]
          ∧ (t.loom a.loom).threads = (s.loom a.loom).threads.put (threadKey a.ctx i) rest [] ∧ Calm s t))

/-- VOP, VRED and VRNG (R136, R137, R91, R243) write every lane of their destination register, leave every other register's lanes, and OR
the flags they raise into output slot 0. -/
def Sys2Proof.Claims.VectorWordsWriteOneRegister : Prop :=
  ∀ (s : State) (a : At) (w : SWord) (h : Here), (s.seq a).getP w.pred ≠ w.pneg →
    (vopOk w = true → s.here a (w.code 0x40) = some h → Lanes (.vop a w) s a w.x.val ((s.loom a.loom).vop w))
      ∧ (vredOk w = true → s.here a (w.code 0x43) = some h →
          Lanes (.vred a w) s a w.x.val ((s.loom a.loom).vred w.fn.toNat w.y.val w.z.val).1)
      ∧ (vrngOk w = true → s.here a (w.code 0x44) = some h →
          Lanes (.vrng a w) s a w.x.val ((List.range 64).map (fun i =>
            let key := philoxKey h.k.seed.toNat ((s.seq a).getB w.y.val).toNat
            let step := ((s.seq a).getB w.z.val).toNat
            (BitVec.ofNat 32 (philoxWord (step % 2 ^ 32) (step / 2 ^ 32) ((w.imm.toNat / 2 ^ 16 % 2 ^ 32 + i / 4) % 2 ^ 32)
              (w.imm.toNat % 2 ^ 16) key.1 key.2 i), Flg.none))))

/-- VLD and VST (R136, R90): the register takes the elements, widened; the elements take the register, rounded once; VST changes no byte
outside them. -/
def Sys2Proof.Claims.VectorLoadsAndStores : Prop :=
  ∀ (s : State) (a : At) (w : SWord) (h : Here) (addr : Nat), (s.seq a).getP w.pred ≠ w.pneg →
    (vldOk w = true → s.here a (w.code 0x41) = some h → h.aligned w (vecAlign w.fn.toNat) = true →
        h.k.access a (h.place w.y.val) (h.offset w) (elemBytes w.fn.toNat (vecCount w.fn.toNat)) = .ok addr →
        h.x.readHeld h.l a addr (elemBytes w.fn.toNat (vecCount w.fn.toNat)) = false →
        Lanes (.vld a w) s a w.x.val
          ((loadLanes w.fn.toNat (s.bytesAt (.loom a.loom) addr (elemBytes w.fn.toNat (vecCount w.fn.toNat)))).map (fun v => (v, Flg.none))))
      ∧ (vstOk w = true → s.here a (w.code 0x42) = some h → h.aligned w (vecAlign (w.fn.toNat % 16)) = true →
          (let out := (s.loom a.loom).storeBytes w.x.val (w.fn.toNat % 16)
           h.k.access a (h.place w.y.val) (h.offset w) out.1.length = .ok addr → h.x.writeHeld h.l a addr out.1.length = false →
           Gives (.vst a w) s (fun t => Wrote s t a.loom [(addr, out.1)]
             ∧ t.seq a = ((ran s a).orFlags (bits w.fn.toNat 4 2) out.2).next ∧ (t.loom a.loom).v = (s.loom a.loom).v ∧ Calm s t)))

/-- FILL and its events: the queue of the expander, admission, landing, and damage. -/
def Obligations.FillsJoinLandAndStop : Prop :=
  Claims.FillJoinsTheExpandersQueue ∧ Claims.FillsAreAdmittedAndLand ∧ Claims.DamageStopsAFill

/-- ATTN: the rows it writes, and the page it does not find. -/
def Obligations.AttentionRuns : Prop :=
  Claims.AttentionWritesItsRows ∧ Claims.AttentionReportsAnAbsentPage

/-- MOVE issues whole, and lands. -/
def Obligations.MovesIssueAndLand : Prop :=
  Claims.MovesIssueWhole ∧ Claims.MovesLand

/-- The vector unit: one register written, or bytes loaded and stored. -/
def Obligations.VectorWordsRun : Prop :=
  Claims.VectorWordsWriteOneRegister ∧ Claims.VectorLoadsAndStores
namespace Sys2Proof.Claims

open Sys2Proof Sys2Proof.Machine

/-- The command completes: the issuing sequencer is q, its partition is y, and nothing else has changed but the loom's mark that a
tile has just completed. -/
def SeqAndPart (c : Instr) (s : State) (a : At) (q : Seq) (p : Fin 16) (y : Part) : Prop :=
  Gives c s (fun t =>
    t.seq a = q ∧ t.part? p = some y ∧ (∀ r, r ≠ p → t.part? r = s.part? r) ∧ { t with looms := s.looms, parts := s.parts } = s
      ∧ (∀ g, g ≠ a.loom → t.loom g = s.loom g) ∧ (∀ d, d ≠ a.ctx → t.seq { a with ctx := d } = s.seq { a with ctx := d })
      ∧ { t.loom a.loom with seqs := (s.loom a.loom).seqs, tileDone := (s.loom a.loom).tileDone } = s.loom a.loom)

/-- A sequencer whose wait is over goes on to the next word. -/
def goneOn (s : State) (a : At) : Seq := (ran s a).next

/-- The queue of a context of a partition. -/
def queueOf (x : Part) (c : Fin 8) (i : Nat) : List QEntry := (x.ctx c).queues.get i []

/-- The wait that TAKE, SWAIT, WAITSP or PWAIT leaves. -/
def waits (s : State) (a : At) (w : Wait) : Seq := { ran s a with run := .waiting w }

end Sys2Proof.Claims

/-- SIG, SWAIT and SWAIT_RESUME (R138): SIG adds IMM to a semaphore of its context, at most 2^32 − 2, and faults with 0x0324 beyond;
SWAIT takes IMM from it where it holds as much, and else waits; the wait ends once it does. -/
def Sys2Proof.Claims.SemaphoresCount : Prop :=
  (∀ (s : State) (a : At) (w : SWord) (h : Here), sigOk w = true → At_ s a (w.code 0x50) w.pred w.pneg h → h.landing = false →
      let n := h.x.sem a.ctx w.fn.toNat
      (n + w.imm.toNat ≤ 2 ^ 32 - 2 →
          SeqAndPart (.sig a w) s a (goneOn s a) h.p (h.x.setSem a.ctx w.fn.toNat (n + w.imm.toNat)))
        ∧ (2 ^ 32 - 2 < n + w.imm.toNat → Gives (.sig a w) s (CtxFaults s a h.p (loomUnit a.loom 1) 0x0324)))
    ∧ (∀ (s : State) (a : At) (w : SWord) (h : Here), sigOk w = true → At_ s a (w.code 0x51) w.pred w.pneg h →
        h.landing = false →
        let n := h.x.sem a.ctx w.fn.toNat
        (w.imm.toNat ≤ n → SeqAndPart (.swait a w) s a (goneOn s a) h.p (h.x.setSem a.ctx w.fn.toNat (n - w.imm.toNat)))
          ∧ (n < w.imm.toNat → SeqBecomes (.swait a w) s a (waits s a (.sem w.fn.toNat w.imm.toNat))))
    ∧ (∀ (s : State) (a : At) (p : Fin 16) (x : Part) (i n : Nat), s.resuming a = some (p, x, .sem i n) →
        n ≤ x.sem a.ctx i →
        SeqAndPart (.swaitResume a) s a (goneOn s a) p (x.setSem a.ctx i (x.sem a.ctx i - n)))

/-- PUT, TAKE and TAKE_RESUME (R138, R141, R323, R324): PUT appends four words with the pick of its arrival, or reports QFULL and takes
nothing; TAKE gives the oldest entry's words to four registers and accounts for it, a run's entry opening the run; without one it waits,
until TAKE_RESUME finds one. -/
def Sys2Proof.Claims.QueuesPassEntries : Prop :=
  (∀ (s : State) (a : At) (w : SWord) (h : Here), putOk w = true → At_ s a (w.code 0x52) w.pred w.pneg h →
      h.landing = false →
      let i := w.fn.toNat % 32
      let b := fun (k : Nat) => (s.seq a).getB (w.x.val + k)
      ((queueOf h.x a.ctx i).length < (h.x.cfg.queueCfg a.ctx i).depth →
          SeqAndPart (.put a w) s a ((ran s a).setCond .ok 0).next h.p (h.x.setQueue a.ctx i (queueOf h.x a.ctx i
            ++ [{ w0 := b 0, w1 := b 1, w2 := b 2, w3 := b 3, pick := s.pickFor h.x, beat := s.beat, run := false, held := false }])))
        ∧ ((h.x.cfg.queueCfg a.ctx i).depth ≤ (queueOf h.x a.ctx i).length →
            SeqBecomes (.put a w) s a ((ran s a).setCond .qfull i).next))
    ∧ (∀ (s : State) (a : At) (w : SWord) (h : Here), takeOk w = true → At_ s a (w.code 0x53) w.pred w.pneg h →
        h.landing = false →
        let o := takeOwner w
        let i := takeQueue w
        let d := (s.seq a).getB w.y.val
        (∀ e rest, queueOf h.x o i = e :: rest → e.held = false →
            (w.opt12 = true → d ≠ BitVec.allOnes 64 ∧ e.pick.toNat < d.toNat) →
            SeqAndPart (.take a w) s a (((ran s a).putEntry w.x.val e).setCond .ok 0).next h.p
              (h.x.takeEntry o i a.ctx e (s.pickFor h.x) s.beat))
          ∧ (queueOf h.x o i = [] → w.opt12 = false →
              SeqBecomes (.take a w) s a (waits s a (.entry o.val i w.x.val none)))
          ∧ (queueOf h.x o i = [] → w.opt12 = true → d ≠ BitVec.allOnes 64 →
              (s.passed h.x d.toNat = true → SeqBecomes (.take a w) s a ((ran s a).setCond .timeout i).next)
                ∧ (s.passed h.x d.toNat = false → SeqBecomes (.take a w) s a (waits s a (.entry o.val i w.x.val (some d))))))
    ∧ (∀ (s : State) (a : At) (p : Fin 16) (x : Part) (o : Fin 8) (i r : Nat) (d : Option Word) (e : QEntry) (rest : List QEntry),
        s.resuming a = some (p, x, .entry o.val i r d) → queueOf x o i = e :: rest → e.held = false →
        (∀ v, d = some v → e.pick.toNat < v.toNat) →
        SeqAndPart (.takeResume a) s a (((ran s a).putEntry r e).setCond .ok 0).next p
          (x.takeEntry o i a.ctx e (s.pickFor x) s.beat))
    ∧ (∀ (x : Part) (o taker : Fin 8) (i : Nat) (e : QEntry) (rest : List QEntry) (now : Word) (beat : Nat), queueOf x o i = e :: rest →
        let y := x.takeEntry o i taker e now beat
        queueOf y o i = rest ∧ (y.ctx o).acct = (x.ctx o).acct.take (now.toNat - e.pick.toNat) (beat - e.beat)
          ∧ (y.ctx taker).runs = (x.ctx taker).runs ++ (if e.run then [e.w0] else []) ∧ { y with ctxs := x.ctxs } = x)

/-- TAKE_TIMEOUT, WAITSP, WAITSP_RESUME and PWAIT (R138, R141): a TAKE whose deadline has passed with no entry in time goes on with
TIMEOUT; WAITSP goes on while its queue has a free entry and PWAIT once its boundary has passed, and both wait otherwise. -/
def Sys2Proof.Claims.WaitsEndAsTheirConditionsCome : Prop :=
  (∀ (s : State) (a : At) (p : Fin 16) (x : Part) (o : Fin 8) (i r : Nat) (d : Word),
      s.resuming a = some (p, x, .entry o.val i r (some d)) → queueOf x o i = [] → s.passed x d.toNat = true →
      SeqBecomes (.takeTimeout a) s a ((ran s a).setCond .timeout i).next)
    ∧ (∀ (s : State) (a : At) (w : SWord) (h : Here), waitspOk w = true → At_ s a (w.code 0x54) w.pred w.pneg h →
        h.landing = false →
        ((queueOf h.x a.ctx w.fn.toNat).length < (h.x.cfg.queueCfg a.ctx w.fn.toNat).depth →
            SeqBecomes (.waitsp a w) s a (goneOn s a))
          ∧ ((h.x.cfg.queueCfg a.ctx w.fn.toNat).depth ≤ (queueOf h.x a.ctx w.fn.toNat).length →
              SeqBecomes (.waitsp a w) s a (waits s a (.room w.fn.toNat))))
    ∧ (∀ (s : State) (a : At) (p : Fin 16) (x : Part) (i : Nat), s.resuming a = some (p, x, .room i) →
        (queueOf x a.ctx i).length < (x.cfg.queueCfg a.ctx i).depth → SeqBecomes (.waitspResume a) s a (goneOn s a))
    ∧ (∀ (s : State) (a : At) (w : SWord) (h : Here), pwaitOk w = true → At_ s a (w.code 0x55) w.pred w.pneg h →
        h.landing = false → (s.seq a).getB w.y.val ≠ BitVec.allOnes 64 →
        (s.passed h.x ((s.seq a).getB w.y.val).toNat = true → SeqBecomes (.pwait a w) s a (goneOn s a))
          ∧ (s.passed h.x ((s.seq a).getB w.y.val).toNat = false →
              SeqBecomes (.pwait a w) s a (waits s a (.pick ((s.seq a).getB w.y.val)))))

/-- DONE (R138, R323): the run whose token it names ends done with its result, counted once, and one RUN record goes into the next
report of every destination; a token of no open run faults with 0x0A03. -/
def Sys2Proof.Claims.DoneEndsItsRun : Prop :=
  ∀ (s : State) (a : At) (w : SWord) (h : Here), doneOk w = true → At_ s a (w.code 0x56) w.pred w.pneg h →
    h.landing = false →
    let token := (s.seq a).getB w.x.val
    (token ∈ (h.x.ctx a.ctx).runs →
        ∃ y : Part, SeqAndPart (.done a w) s a (goneOn s a) h.p y
          ∧ y.ended = h.x.ended ++ [.run 1 (BitVec.ofNat 16 ((s.seq a).getB w.y.val).toNat) token]
          ∧ (∀ e ∈ y.dests, ∃ d, (e.1, d) ∈ h.x.dests
              ∧ e.2.pend = d.pend ++ [.run 1 (BitVec.ofNat 16 ((s.seq a).getB w.y.val).toNat) token])
          ∧ y.dests.length = h.x.dests.length
          ∧ ((y.ctx a.ctx).runs = (h.x.ctx a.ctx).runs.erase token
              ∧ (y.ctx a.ctx).acct.done = (h.x.ctx a.ctx).acct.done + 1 ∧ ∀ c, c ≠ a.ctx → y.ctx c = h.x.ctx c)
          ∧ { y with ctxs := h.x.ctxs, dests := h.x.dests, recent := h.x.recent, ended := h.x.ended } = h.x)
      ∧ (token ∉ (h.x.ctx a.ctx).runs → Gives (.done a w) s (CtxFaults s a h.p (beamUnit 0x21) 0x0A03))

/-- Semaphores count; a wait ends as its condition comes. -/
def Obligations.SemaphoresAndWaits : Prop :=
  Claims.SemaphoresCount ∧ Claims.WaitsEndAsTheirConditionsCome

/-- Queues pass entries; DONE ends its run. -/
def Obligations.QueuesAndDone : Prop :=
  Claims.QueuesPassEntries ∧ Claims.DoneEndsItsRun
/-- SIN and SOUT (R196 to R199): a part of the context's own stream that is not resident is copied in, one that is is copied out, each copy
joining those in progress; a SIN that closely follows a SOUT counts as thrash. -/
def Sys2Proof.Claims.SinAndSoutStartTheirCopies : Prop :=
  (∀ (s : State) (a : At) (w : SWord) (h : Here) (e : Stream), doneOk w = true → At_ s a (w.code 0x60) w.pred w.pneg h → h.copying = false →
      let id := streamId ((s.seq a).getB w.x.val)
      let rank := h.k.rank a.loom
      h.x.owned? a.ctx id = some e → rank < e.parts →
      (e.resident.getLsbD rank = true → SeqBecomes (.sin a w) s a (ran s a).next)
        ∧ (∀ addr, e.resident.getLsbD rank = false → h.partExtent (h.place w.y.val) e.partBytes = .ok addr →
            let o := h.x.ownerOf e rank 17
            let c : Copy := { loom := a.loom, ctx := a.ctx, id := id, part := rank, out := false, toFar := false, store := addr,
                              record := o.partAt (o.far.getLsbD rank) rank, len := e.partBytes }
            s.locked h.p h.k (.cloth h.p) c.record e.partBytes = false → h.x.writeHeld h.l a addr e.partBytes = false →
            (e.thrashes (s.pickFor h.x) = false →
                SeqAndPart (.sin a w) s a (ran s a).next h.p { h.x with copies := h.x.copies ++ [c] })
              ∧ (e.thrashes (s.pickFor h.x) = true → Gives (.sin a w) s (fun t => t.seq a = (ran s a).next
                  ∧ ∃ y, t.part? h.p = some y ∧ y.copies = h.x.copies ++ [c] ∧ (y.ctx e.ctx).acct.thrash = (h.x.ctx e.ctx).acct.thrash + 1))))
    ∧ (∀ (s : State) (a : At) (w : SWord) (h : Here) (e : Stream), soutOk w = true → At_ s a (w.code 0x61) w.pred w.pneg h →
        h.copying = false →
        let id := streamId ((s.seq a).getB w.x.val)
        let rank := h.k.rank a.loom
        h.x.owned? a.ctx id = some e → rank < e.parts → e.kids = 0 →
        (e.resident.getLsbD rank = false → SeqBecomes (.sout a w) s a (ran s a).next)
          ∧ (∀ addr, e.resident.getLsbD rank = true → h.partExtent (h.place w.y.val) e.partBytes = .ok addr →
              let far := w.opt12 && e.farPtr != 0
              let c : Copy := { loom := a.loom, ctx := a.ctx, id := id, part := rank, out := true, toFar := far, store := addr,
                                record := e.partAt far rank, len := e.partBytes }
              s.locked h.p h.k (.cloth h.p) c.record e.partBytes = false → h.x.readHeld h.l a addr e.partBytes = false →
              SeqAndPart (.sout a w) s a (ran s a).next h.p { h.x with copies := h.x.copies ++ [c] }))

/-- SIN_LANDED and SOUT_LANDED (R197, R198): the oldest copy lands: its bytes are in the loom store, or in the record; the part is resident,
or it is not and the record that now holds it is the near or the far one; nothing else is written. -/
def Sys2Proof.Claims.PartsLandWhereTheyGo : Prop :=
  (∀ (s : State) (a : At) (p : Fin 16) (x : Part) (c : Copy), (s.loom a.loom).part = some p → s.part? p = some x →
      x.copy? a false = some c → s.readFails (.cloth p) c.record c.len = none →
      (∀ b ∈ blocksOf c.record c.len, s.blockBad (.cloth p) b = false) →
      Gives (.sinLanded a) s (fun t =>
        (∀ st i, t.byteAt st i = if st = .loom a.loom ∧ c.store ≤ i ∧ i < c.store + c.len then
            s.byteAt (.cloth p) (c.record + (i - c.store)) else s.byteAt st i)
          ∧ ∃ y, t.part? p = some y ∧ y.copies = x.copies.erase c ∧ (∀ e, x.stream? c.id = some e → ∃ f, y.stream? c.id = some f
              ∧ f.resident = setMask e.resident c.part true ∧ f.far = e.far ∧ f.shared = e.shared ∧ f.step = e.step)))
    ∧ (∀ (s : State) (a : At) (p : Fin 16) (x : Part) (c : Copy), (s.loom a.loom).part = some p → s.part? p = some x →
        x.copy? a true = some c → s.readFails (.loom a.loom) c.store c.len = none →
        Gives (.soutLanded a) s (fun t =>
          (∀ st i, t.byteAt st i = if st = .cloth p ∧ c.record ≤ i ∧ i < c.record + c.len then
              s.byteAt (.loom a.loom) (c.store + (i - c.record)) else s.byteAt st i)
            ∧ ∃ y, t.part? p = some y ∧ y.copies = x.copies.erase c ∧ (∀ e, x.stream? c.id = some e → ∃ f, y.stream? c.id = some f
                ∧ f.resident = setMask e.resident c.part false ∧ f.far = setMask e.far c.part c.toFar
                ∧ f.shared = setMask e.shared c.part false ∧ f.lastOut = s.pickFor x ∧ f.step = e.step)))

namespace Sys2Proof.Claims

open Sys2Proof Sys2Proof.Machine

/-- When an instruction of the stream home has its effect, on partition x for the sequencer q (R194, R233 to R242): SSTEP on a stream of
the context with no live child that its final step does not stop; FORK of 1 to 256 children of a stream that is not closing and has no
resident part, at a depth below 16, with IDs and table runs to be had and every record in one near carve; PRUNE of a child; JOIN of a child
without children to its parent. -/
def HomeCan (op : Nat) (x : Part) (a : At) (w : SWord) (q : Seq) : Prop :=
  let id := streamId (q.getB w.x.val)
  ∃ e, x.owned? a.ctx id = some e ∧
    (op = 0x62 → e.kids = 0 ∧ (e.final = 0 ∨ (e.step + 1).toNat ≤ e.final.toNat))
      ∧ (op = 0x63 → q.getB w.y.val ≠ BitVec.allOnes 64 ∧ e.stat stClosing = false ∧ e.resident = 0 ∧ 1 ≤ (q.getB w.y.val).toNat
          ∧ (q.getB w.y.val).toNat ≤ 256 ∧ e.depth ≤ 15
          ∧ (x.forkIds (x.pool.boundTo id).isSome (q.getB w.y.val).toNat).isSome = true
          ∧ (∀ b, x.pool.boundTo id = some b → ∃ runs, x.pool.forkRuns x.cfg.pools.pages b.2.tableFrames (q.getB w.y.val).toNat = some runs
              ∧ ∀ r ∈ runs, ∀ f, r ≤ f → f < r + b.2.tableFrames → (x.pool.frame f).deferred = false)
          ∧ x.cfg.nearTrap a.ctx w.imm.toNat ((q.getB w.y.val).toNat * e.recordBytes) = none)
      ∧ (op = 0x64 → e.depth ≠ 0)
      ∧ (op = 0x65 → ∃ f, x.stream? (streamId (q.getB w.y.val)) = some f ∧ f.parent = id ∧ f.depth = e.depth + 1 ∧ f.kids = 0)

/-- What it then does: SSTEP advances the step and reports whether a reset fired; FORK makes its children, which share every part of their
parent, with a sequence of its own where the parent has one, and gives the first one's ID; PRUNE ends a stream and all its descendants; JOIN gives the parent the child's steps and ends every
child. -/
def HomeDid (op : Nat) (s : State) (p : Fin 16) (x : Part) (a : At) (w : SWord) (t : State) : Prop :=
  let id := streamId ((s.seq a).getB w.x.val)
  ∃ y e, t.part? p = some y ∧ x.stream? id = some e ∧
    (op = 0x62 →
        let n := e.step + 1
        t.seq a = (((ran s a).putP (Fin.ofNat 8 w.y.val) (n == e.resetAt)).putB w.z.val n).next
          ∧ (∃ f, y.stream? id = some f ∧ f.step = n ∧ f.sinceReset = (if n = e.resetAt then 1 else e.sinceReset + 1)
              ∧ f.resetAt = (if n = e.resetAt then 0 else e.resetAt) ∧ f.lastReset = (if n = e.resetAt then n else e.lastReset)
              ∧ (n = e.resetAt → f.stat stResetPending = false ∧ f.stat stDamaged = false)))
      ∧ (op = 0x63 →
          let n := ((s.seq a).getB w.y.val).toNat
          ∃ first, x.forkIds (x.pool.boundTo id).isSome n = some first
            ∧ t.seq a = (((ran s a).putB w.z.val (BitVec.ofNat 64 first)).setCond .ok 0).next
            ∧ (∃ f, y.stream? id = some f ∧ f.kids = e.kids + n ∧ f.step = e.step)
            ∧ ∀ i, i < n → ∃ f, y.stream? (first + i) = some f ∧ f.parent = id ∧ f.forkIndex = i ∧ f.depth = e.depth + 1
                ∧ f.step = e.step ∧ f.ctx = e.ctx ∧ f.statePtr = w.imm.toNat + i * e.recordBytes
                ∧ f.shared = BitVec.ofNat 64 (2 ^ e.parts - 1) ∧ f.resident = 0
                ∧ ∀ b g, x.pool.boundTo id = some b → x.pool.seq? b.1 = some g →
                    ∃ k, y.pool.seq? (first + i) = some k ∧ k.stream = first + i ∧ k.length = g.length)
      ∧ (op = 0x64 →
          t.seq a = (ran s a).next ∧ (∀ i ∈ x.family [id] e.depth 17, y.stream? i = none)
            ∧ ∀ i, i ∉ x.family [id] e.depth 17 → (y.stream? i).map (fun f => (f.step, f.resident, f.far, f.shared))
                = (x.stream? i).map (fun f => (f.step, f.resident, f.far, f.shared)))
      ∧ (op = 0x65 →
          let iy := streamId ((s.seq a).getB w.y.val)
          ∃ f g, x.stream? iy = some f ∧ y.stream? id = some g ∧ y.stream? iy = none ∧ t.seq a = (ran s a).next ∧ g.kids = 0
            ∧ g.step = f.step ∧ g.sinceReset = f.sinceReset ∧ g.lastReset = f.lastReset
            ∧ (∀ i ∈ x.childrenOf id e.depth, y.stream? i = none)
            ∧ ∀ st i, (st = .cloth p → i < e.statePtr ∨ e.statePtr + f.parts * e.partBytes ≤ i) → t.byteAt st i = s.byteAt st i)
      ∧ (op ≠ 0x65 → ∀ st i, t.byteAt st i = s.byteAt st i)

/-- The instructions of the stream home, with their opcodes. -/
def homeWords (a : At) (w : SWord) : List (Nat × Instr) := [(0x62, .sstep a w), (0x63, .fork a w), (0x64, .prune a w), (0x65, .join a w)]

end Sys2Proof.Claims

/-- SSTEP, FORK, PRUNE and JOIN, STREAM_HOME_UPDATE and FORK_RESUME (R187, R194, R233 to R242): on the stream home's own mill the instruction
has its effect at once; elsewhere it sends an update and waits, and the update has that effect when it is served; a stream that is not live
or not the context's faults with 0x0325; a FORK that waited for frames resumes. -/
def Obligations.StreamHomeUpdatesStreams : Prop :=
  (∀ (s : State) (a : At) (w : SWord) (h : Here) (e : Nat × Instr), e ∈ homeWords a w → e.2.wf = true →
      At_ s a (w.code e.1) w.pred w.pneg h →
      (h.k.home = h.mill → HomeCan e.1 h.x a w (s.seq a) → Gives e.2 s (HomeDid e.1 s h.p h.x a w))
        ∧ (h.k.home = h.mill → e.1 ≠ 0x63 → h.x.owned? a.ctx (streamId ((s.seq a).getB w.x.val)) = none →
            Gives e.2 s (CtxFaults s a h.p (loomUnit a.loom 1) 0x0325))
        ∧ (h.k.home ≠ h.mill →
            SeqAndPart e.2 s a (waits s a .home) h.p { h.x with homeQueue := h.x.homeQueue ++ [{ at_ := a, op := e.1, w := w }] }))
    ∧ (∀ (s : State) (p : Fin 16) (x : Part) (u : HomeUpdate) (rest : List HomeUpdate), s.part? p = some x → x.homeQueue = u :: rest →
        u.op ∈ (homeWords u.at_ u.w).map Prod.fst → (s.seq u.at_).run = .waiting .home → HomeCan u.op x u.at_ u.w (s.seq u.at_) →
        Gives (.streamHomeUpdate p) s (fun t => HomeDid u.op s p x u.at_ u.w t ∧ ∃ y, t.part? p = some y ∧ y.homeQueue = rest))
    ∧ (∀ (s : State) (a : At) (p : Fin 16) (x : Part) (w : SWord), s.resuming a = some (p, x, .fork w) → HomeCan 0x63 x a w (s.seq a) →
        Gives (.forkResume a) s (HomeDid 0x63 s p x a w))

namespace Sys2Proof.Claims

open Sys2Proof Sys2Proof.Machine

/-- What a SCATTER of n tokens has to write, and what it drops for it: the entries, those that need a frame, and those evicted. -/
def scatterKeys (id : Nat) (e : SeqEntry) (n : Nat) (items : List Item) : List Nat :=
  (items.map (fun i => i.layer * e.heads + i.head)).flatMap (fun t => (appendSpans e.length n).map (fun sp => tableKey id t sp.1))
def scatterEvicts (k : Pool) (id : Nat) (e : SeqEntry) (n : Nat) (items : List Item) : List (Nat × PageEntry) :=
  (items.map (fun i => i.layer * e.heads + i.head)).flatMap (fun t => k.evictions id t e.budget
    ((appendSpans e.length n).filter (fun sp => (k.entry (tableKey id t sp.1)).state == 0)).length (e.length / 256))

/-- A SCATTER or PGFILL at issue, or one that a page release has let go on: what it finds. -/
def Going (c : Instr) (s : State) (a : At) (w : SWord) (fill : Bool) (h : Here) : Prop :=
  (c = (if fill then Instr.pgfill a w else .scatter a w) ∧ scatterOk w = true
      ∧ At_ s a (w.code (if fill then 0x67 else 0x66)) w.pred w.pneg h)
    ∨ (∃ p x t, c = .scatterResume a ∧ s.resuming a = some (p, x, .scatter fill w) ∧ x.cfg.tread? a.ctx a.loom = some t
        ∧ h = { s := s.setSeq a (ran s a), a := a, p := p, x := x, t := t })

end Sys2Proof.Claims

/-- SCATTER and SCATTER_RESUME (R222 to R225): an append past the sequence's limit only marks it and reports SEQ_LIMIT; with its staging record
and its sources good and frames to be had, the sequence grows by n tokens and is no longer starved; with no frame to be had it is starved and
grows by none. No byte of any storage changes. -/
def Sys2Proof.Claims.ScatterAppendsToItsSequence : Prop :=
  ∀ (c : Instr) (s : State) (a : At) (w : SWord) (h : Here) (id : Nat) (e : SeqEntry) (src : Sources) (rec1 : Place × Nat),
    Going c s a w false h → (s.seq a).getB w.z.val ≠ BitVec.allOnes 64 → h.sequence w.x.val = (id, some e) →
    let n := ((s.seq a).getB w.z.val).toNat
    h.staging w e (min n 1048576) false = .ok (src, rec1) → h.sourceHeld (rec1 :: src.places) = false →
    h.sourceFails (rec1 :: src.places) = none →
    let keys := scatterKeys id e n src.items
    let evicted := scatterEvicts h.x.pool id e n src.items
    let room := h.x.pool.room h.k.pools.pages (keys.filter h.x.pool.opens).length (keys ++ evicted.map Prod.fst) evicted
    let ends := fun (cond : Cond) (len : Nat) (t : State) =>
      t.seq a = ((ran s a).setCond cond 0).next ∧ (∀ st i, t.byteAt st i = s.byteAt st i)
        ∧ ∃ y f, t.part? h.p = some y ∧ y.pool.seq? id = some f ∧ f.length = len
    (e.limit < e.length + n → Gives c s (fun t => ends .seqLimit e.length t ∧ ∃ y f, t.part? h.p = some y ∧ y.pool.seq? id = some f
        ∧ f.atLimit = true))
      ∧ (e.length + n ≤ e.limit → (∀ i ∈ keys, (h.x.pool.entry i).damaged = false) →
          (room = .now → src.items.length * 2 * (pageFmt e.format).source n ≤ h.k.pools.staging * 4096 →
              Gives c s (ends .ok (e.length + n)))
            ∧ (room = .never → Gives c s (fun t => ends .starved e.length t ∧ ∃ y f, t.part? h.p = some y ∧ y.pool.seq? id = some f
                ∧ f.starved = true))
            ∧ (room = .later → SeqBecomes c s a (waits s a (.scatter false w))))

/-- PGFILL and SCATTER_RESUME (R228): an entry that is present is left; a dropped entry whose page can be regenerated is present again, with
its count, on the frame it takes; with no frame to be had the sequence is starved. No byte of any storage changes. -/
def Sys2Proof.Claims.PgfillRestoresADroppedPage : Prop :=
  ∀ (c : Instr) (s : State) (a : At) (w : SWord) (h : Here) (id : Nat) (e : SeqEntry) (first : Sources) (rec1 : Place × Nat) (item : Item),
    Going c s a w true h → h.sequence w.x.val = (id, some e) → h.staging w e 0 true = .ok (first, rec1) → first.items = [item] →
    let pos := ((s.seq a).getB w.z.val).toNat
    let key := tableKey id (item.layer * e.heads + item.head) pos
    let en := h.x.pool.entry key
    pos < e.entries → en.damaged = false →
    (en.state = 1 → SeqBecomes c s a ((ran s a).setCond .ok 0).next)
      ∧ (∀ src rec2, en.state = 2 → h.staging w e en.count true = .ok (src, rec2) → h.sourceHeld (rec1 :: src.places) = false →
          h.sourceFails (rec1 :: src.places) = none →
          (h.x.pool.room h.k.pools.pages 1 [key] [] = .now → Gives c s (fun t =>
              t.seq a = ((ran s a).setCond .ok 0).next ∧ (∀ st i, t.byteAt st i = s.byteAt st i)
                ∧ ∃ y, t.part? h.p = some y ∧ (y.pool.entry key).state = 1 ∧ (y.pool.entry key).count = en.count
                    ∧ (y.pool.frame (y.pool.entry key).page).state = 1 ∧ (y.pool.frame (y.pool.entry key).page).refs = 1))
            ∧ (h.x.pool.room h.k.pools.pages 1 [key] [] = .never → Gives c s (fun t =>
                t.seq a = ((ran s a).setCond .starved 0).next ∧ (∀ st i, t.byteAt st i = s.byteAt st i)
                  ∧ ∃ y f, t.part? h.p = some y ∧ y.pool.seq? id = some f ∧ f.starved = true)))

/-- SIN and SOUT start their copies, and the parts land. -/
def Obligations.SinAndSoutCopyTheirParts : Prop :=
  Claims.SinAndSoutStartTheirCopies ∧ Claims.PartsLandWhereTheyGo

/-- SCATTER appends to its sequence; PGFILL restores a dropped page. -/
def Obligations.SequencesTakeEntries : Prop :=
  Claims.ScatterAppendsToItsSequence ∧ Claims.PgfillRestoresADroppedPage
namespace Sys2Proof.Claims

open Sys2Proof Sys2Proof.Machine

/-- Only fault records have been added to what is on its way: nothing else has changed. -/
def OnlyReports (s t : State) (rs : List Record) : Prop := t = { s with safety := { s.safety with flight := s.safety.flight ++ rs } }

/-- A check of a loom fails (R101 to R105): one record with the code sets out from a unit of the loom; where a partition holds the loom, its
open tile is gone and its sequencer stops with the code; no byte of any storage changes. -/
def CheckStops (s t : State) (g : Fin 256) (kind code : Nat) : Prop :=
  (∃ r, t.safety.flight = s.safety.flight ++ [r] ∧ r.unit = BitVec.ofNat 16 (loomUnit g kind) ∧ r.code = BitVec.ofNat 16 code)
    ∧ ((s.loom g).part ≠ none → (t.seq (s.loomCtx g)).run = .faulted (BitVec.ofNat 16 code) ∧ (t.seq (s.loomCtx g)).tile = none)
    ∧ ∀ st i, t.byteAt st i = s.byteAt st i

/-- A counter field has counted n more, up to its greatest value. -/
def Counts (s t : State) (r : Reg) (f : Fld) (n : Nat) : Prop := t.fld r f = min (s.fld r f + n) (2 ^ f.w - 1)

/-- A code recorded once for a key while no boundary comes (R384). -/
def OncePerPick (s t : State) (key : Nat × Nat × Nat) (unit code : Nat) : Prop :=
  (key ∈ s.safety.first → t.safety = s.safety)
    ∧ (key ∉ s.safety.first → t.safety.flight = s.safety.flight ++ [s.record unit code 0] ∧ key ∈ t.safety.first)

end Sys2Proof.Claims

/-- CONTEXT_SWITCH (R316 to R318): a loom whose switch falls due takes up its partition's entry; the fills in its queue stop and count; its
sequencers, its store and its fells stay; the delay since the boundary goes into SCHED_SWITCH, and counts as late beyond 225,000 beats. -/
def Sys2Proof.Claims.LoomsSwitchToTheirEntry : Prop :=
  ∀ (s : State) (g : Fin 256) (p : Fin 16) (x : Part), (s.loom g).part = some p → s.part? p = some x → x.started = true →
    (s.loom g).switchDue x = true →
    let d := min (s.beat - s.boundaryBeat) (2 ^ 32 - 1)
    Gives (.contextSwitch g) s (fun t =>
      (t.loom g).entry = x.entry ∧ (t.loom g).fills = [] ∧ (t.loom g).seqs = (s.loom g).seqs ∧ (t.loom g).fells = (s.loom g).fells
        ∧ (t.loom g).v = (s.loom g).v ∧ (∀ f, f ≠ g → t.loom f = s.loom f) ∧ (∀ st i, t.byteAt st i = s.byteAt st i)
        ∧ Counts s t (.loomStall g) Fl.loomStall_REFILLS (s.loom g).fills.length
        ∧ t.fld (.schedSwitch p) Fl.schedSwitch_MAX_DELAY = max (s.fld (.schedSwitch p) Fl.schedSwitch_MAX_DELAY) d
        ∧ (s.beat - s.boundaryBeat ≤ 225000 → t.safety = s.safety
            ∧ t.fld (.schedSwitch p) Fl.schedSwitch_LATE_LOOMS = s.fld (.schedSwitch p) Fl.schedSwitch_LATE_LOOMS)
        ∧ (225000 < s.beat - s.boundaryBeat → Counts s t (.schedSwitch p) Fl.schedSwitch_LATE_LOOMS 1))

/-- LOOM_SELF_TEST, LOOM_SELF_TEST_END and SELF_TEST_ABANDON (R380, R381): a loom in an honoured test entry tests once in the slot, which
clears its fells and vector registers and leaves its store; a test that ends in its slot shows its result, and a loom that fails stops and is
reported with 0x0901; one that has not ended when its pick is over is abandoned and reported with 0x0908. -/
def Sys2Proof.Claims.LoomsTestThemselves : Prop :=
  (∀ (s : State) (g : Fin 256) (p : Fin 16) (x : Part), (s.loom g).part = some p → s.part? p = some x → (s.loom g).entry = .test →
      x.entry = .test → (s.loom g).failed = false → (s.loom g).stopped = false → (s.loom g).safeStop = false → (s.loom g).test = none →
      s.fld (.safeTest g) Fl.safeTest_RESULT = 0 →
      Gives (.loomSelfTest g) s (fun t => (t.loom g).test = some (s.pickFor x) ∧ (t.loom g).fells = [] ∧ (t.loom g).v = []
        ∧ (t.loom g).store = (s.loom g).store ∧ (t.loom g).seqs = (s.loom g).seqs ∧ (∀ f, f ≠ g → t.loom f = s.loom f)
        ∧ { t with looms := s.looms } = s))
    ∧ (∀ (s : State) (g : Fin 256) (p : Fin 16) (x : Part) (pass : Bool) (block : BitVec 8), (s.loom g).part = some p →
        s.part? p = some x → (s.loom g).test = some (s.pickFor x) →
        Gives (.loomSelfTestEnd g pass block) s (fun t => (t.loom g).test = none ∧ (t.loom g).stopped = ((s.loom g).stopped || !pass)
          ∧ t.fld (.safeTest g) Fl.safeTest_RESULT = (if pass then 1 else 2)
          ∧ t.fld (.safeTest g) Fl.safeTest_PICK = (s.pickFor x).toNat % 2 ^ 62
          ∧ (pass = true → t.safety = s.safety)
          ∧ (pass = false → Counts s t .safeCount Fl.safeCount_TESTS_FAILED 1
              ∧ t.safety.flight = s.safety.flight ++ [s.record (loomUnit g 2) 0x0901 block.toNat])
          ∧ ∀ st i, t.byteAt st i = s.byteAt st i))
    ∧ (∀ (s : State) (g : Fin 256) (p : Fin 16) (x : Part) (n : Word), (s.loom g).part = some p → s.part? p = some x →
        (s.loom g).test = some n → n ≠ s.pickFor x →
        Gives (.selfTestAbandon g) s (fun t => (t.loom g).test = none ∧ (t.loom g).stopped = (s.loom g).stopped
          ∧ t.fld (.safeTest g) Fl.safeTest_RESULT = 3 ∧ Counts s t .safeCount Fl.safeCount_TESTS_ABANDONED 1
          ∧ t.safety.flight = s.safety.flight ++ [s.record (loomUnit g 2) 0x0908 0] ∧ ∀ st i, t.byteAt st i = s.byteAt st i))

/-- RESIDUE_MISMATCH, LOCKSTEP_MISMATCH and DRAIN_ROUNDER_MISMATCH (R101 to R103): each shows in LOOM_CHECK, poisons the open tile, stops
its sequencer and is reported with 0x0301, 0x0302 or 0x0303; a lockstep mismatch stops the loom. -/
def Sys2Proof.Claims.LoomChecksStopTheTile : Prop :=
  ∀ (s : State) (g : Fin 256),
    (∀ (harness : Fin 4) (heddle : Fin 64) (fell : Fin 2) (stateCopy : Bool),
        Gives (.residueMismatch g harness heddle fell stateCopy) s (fun t => CheckStops s t g 2 0x0301
          ∧ t.fld (.loomCheck g) Fl.loomCheck_LAST_HARNESS = harness.val ∧ t.fld (.loomCheck g) Fl.loomCheck_LAST_HEDDLE = heddle.val
          ∧ t.fld (.loomCheck g) Fl.loomCheck_LAST_FELL = fell.val ∧ Counts s t (.loomCheck g) Fl.loomCheck_RESIDUE_FAULTS 1))
      ∧ Gives (.lockstepMismatch g) s (fun t => CheckStops s t g 1 0x0302 ∧ t.fld (.loomCheck g) Fl.loomCheck_LOCKSTEP = 1
          ∧ (t.loom g).stopped = true)
      ∧ Gives (.drainRounderMismatch g) s (fun t => CheckStops s t g 2 0x0303 ∧ t.fld (.loomCheck g) Fl.loomCheck_DRAIN_MISMATCH = 1)

/-- SECDED_CORRECTED and SECDED_UNCORRECTABLE (R103, R299, R309): a corrected error counts where its storage has a counter and is recorded at
most once a pick; an uncorrectable one marks the block it lies in, is recorded, and in a loom stops the open tile; no byte changes. -/
def Sys2Proof.Claims.StorageErrorsAreRecorded : Prop :=
  ∀ (s : State),
    (∀ (g : Fin 256) (addr : BitVec 23), (EccPlace.loomStore g addr).inRange = true →
        Gives (.secdedCorrected (.loomStore g addr)) s (fun t => Counts s t (.loomEcc g) Fl.loomEcc_CORRECTED 1
            ∧ t.fld (.loomEcc g) Fl.loomEcc_LAST_ADDR = addr.toNat ∧ { t with regs := s.regs, safety := s.safety } = s
            ∧ OncePerPick s t (loomUnit g 0, 0x030A, 0) (loomUnit g 3) 0x030A)
          ∧ Gives (.secdedUncorrectable (.loomStore g addr)) s (fun t => CheckStops s t g 3 0x0304
              ∧ t.fld (.loomEcc g) Fl.loomEcc_STORE_UE = 1 ∧ t.blockBad (.loom g) (addr.toNat / 4096) = true))
      ∧ (∀ (g : Fin 256), Gives (.secdedCorrected (.loomArray g)) s (fun t => Counts s t (.loomEcc g) Fl.loomEcc_CORRECTED 1
              ∧ OncePerPick s t (loomUnit g 0, 0x030A, 0) (loomUnit g 2) 0x030A)
          ∧ Gives (.secdedUncorrectable (.loomArray g)) s (fun t => CheckStops s t g 2 0x0305
              ∧ t.fld (.loomEcc g) Fl.loomEcc_ARRAY_UE = 1))
      ∧ (∀ (k : Fin 32) (gr : Option (Fin 16 × BitVec 36)), (EccPlace.near k gr).inRange = true →
          Gives (.secdedCorrected (.near k gr)) s (fun t => Counts s t (memEccOf k) Fl.memEcc_CORRECTED 1
              ∧ OncePerPick s t (stackUnit k, 0x0505, 0) (stackUnit k) 0x0505)
            ∧ Gives (.secdedUncorrectable (.near k gr)) s (fun t => Counts s t (memEccOf k) Fl.memEcc_UNCORRECTED 1
              ∧ t.fld (memEccOf k) Fl.memEcc_UE_SEEN = 1
              ∧ t.safety.flight = s.safety.flight ++ [s.record (stackUnit k) 0x0504 (match gr with | none => 0 | some e => e.2.toNat)]
              ∧ (∀ p b, gr = some (p, b) → (s.part? p).isSome = true → t.blockBad (.cloth p) b.toNat = true)
              ∧ ∀ st i, t.byteAt st i = s.byteAt st i))
      ∧ (∀ (n : Fin 4) (p : Fin 16) (b : BitVec 36), (EccPlace.far n p b).inRange = true →
          Gives (.secdedCorrected (.far n p b)) s (fun t => Counts s t (.farCount n) Fl.farCount_CORRECTED 1
              ∧ OncePerPick s t (farUnit n, 0x0505, 0) (farUnit n) 0x0505)
            ∧ Gives (.secdedUncorrectable (.far n p b)) s (fun t => Counts s t (.farCount n) Fl.farCount_POISON 1
              ∧ t.safety.flight = s.safety.flight ++ [s.record (farUnit n) 0x0506 b.toNat]
              ∧ ((s.part? p).isSome = true → t.blockBad (.cloth p) b.toNat = true) ∧ ∀ st i, t.byteAt st i = s.byteAt st i))
      ∧ (∀ (m : Fin 8) (addr : BitVec 27), (EccPlace.millStore m addr).inRange = true →
          exec (.secdedCorrected (.millStore m addr)) s = .next s
            ∧ Gives (.secdedUncorrectable (.millStore m addr)) s (fun t =>
                t.safety.flight = s.safety.flight ++ [s.record (millUnit m 0x10) 0x0504 (addr.toNat / 4096)]
                  ∧ ∀ st i, t.byteAt st i = s.byteAt st i))

/-- The monitors and the duplicated units (R210, R312, R372, R386, R433): each makes the fault record of its code, from the unit that watches,
and does nothing else; what follows is done when the record is handled. -/
def Sys2Proof.Claims.MonitorsReport : Prop :=
  ∀ (s : State),
    (∀ d, Gives (.clockOutOfTolerance d) s (fun t => OnlyReports s t [s.record (dieUnit d) 0x0904 0]))
      ∧ (∀ d rail reading, (∀ k, d ≠ .stack k) → Gives (.supplyOutOfTolerance d rail reading) s (fun t =>
          OnlyReports s t [s.record (domainUnit d) 0x0905 (rail.toNat + reading.toNat * 2 ^ 8)]))
      ∧ (∀ d, Gives (.junctionOverTemperature d) s (fun t => OnlyReports s t [s.record (domainUnit d) 0x0906 0]))
      ∧ (∀ d, Gives (.junctionWarning d) s (fun t => OnlyReports s t [s.record (domainUnit d) 0x0907 0]))
      ∧ (∀ e, Gives (.duplicatedEngineMismatch e) s (fun t => OnlyReports s t [s.record (dupUnit e) 0x090C 0]))
      ∧ Gives .safetyControllerMismatch s (fun t => OnlyReports s t [s.record (beamUnit 0x29) 0x0902 0])
      ∧ (∀ p x, s.part? p = some x → Gives (.pageStateUe p) s (fun t =>
          OnlyReports s t [s.record (millUnit x.cfg.home 0x1B) 0x0406 (attributionPart p)]))
      ∧ (∀ owners, Gives (.queueStoreUe owners) s (fun t => OnlyReports s t
          ((owners.filter (fun p => (s.part? p).isSome)).map (fun p => s.record (beamUnit 0x21) 0x0A02 (attributionPart p)))))

/-- FAULT_RECORD_ARRIVAL (R373, R352): the oldest record on its way enters the queue of 4,096 and the log, and is owed as a notice; one that
finds the queue full is lost, which is itself recorded with 0x0903 and puts the module in its safe phase. -/
def Sys2Proof.Claims.FaultRecordsQueueUp : Prop :=
  ∀ (s : State) (r : Record) (rest : List Record), s.safety.flight = r :: rest →
    (s.safety.queue.length < 4096 → Gives .faultRecordArrival s (fun t =>
        t.safety.flight = rest ∧ t.safety.queue = s.safety.queue ++ [r] ∧ t.safety.log = (r :: s.safety.log).take 4096
          ∧ t.safety.records = s.safety.records + 1 ∧ t.safety.notices = s.safety.notices ++ [r] ∧ { t with safety := s.safety } = s))
      ∧ (4096 ≤ s.safety.queue.length → Gives .faultRecordArrival s (fun t =>
          t.safety.moduleSafe = true ∧ t.safety.queue = s.safety.queue ∧ (s.fld .moduleState Fl.moduleState_PHASE ≠ 6 →
            t.fld .moduleState Fl.moduleState_PHASE = 5)
            ∧ ∀ p x, s.part? p = some x → x.started = true → ∃ y, t.part? p = some y ∧ y.safe.isSome = true))

/-- FAULT_RECORD_HANDLED (R376, R377, R385): the oldest record of the queue puts every started partition in its scope that is not yet there in
the safe state, with its code, and no other; a code of module effect puts the module in its safe phase. -/
def Sys2Proof.Claims.HandledRecordsMakePartitionsSafe : Prop :=
  ∀ (s : State) (r : Record) (rest : List Record), s.safety.queue = r :: rest →
    Gives .faultRecordHandled s (fun t =>
      t.safety.queue = rest
        ∧ (∀ p, (t.part? p).isSome = (s.part? p).isSome)
        ∧ (∀ p x y, s.part? p = some x → t.part? p = some y →
            y.safe = (if s.affects r p x = true ∧ x.started = true ∧ x.safe = none then some r.code else x.safe)
              ∧ (s.affects r p x = true → x.started = true → x.safe = none →
                  (∀ e ∈ y.qps, e.2.ringLen ≠ 0 → e.2.error = true)
                    ∧ (∀ g ∈ x.cfg.looms, (t.loom (Fin.ofNat 256 g)).safeStop = true)
                    ∧ (∀ i : Fin 1024, (t.slot i).part = some p → (t.slot i).state ≠ 1)))
        ∧ (moduleCode r.code.toNat = true → t.safety.moduleSafe = true
            ∧ (s.fld .moduleState Fl.moduleState_PHASE ≠ 6 → t.fld .moduleState Fl.moduleState_PHASE = 5))
        ∧ (moduleCode r.code.toNat = false → t.safety.moduleSafe = s.safety.moduleSafe))

/-- FAULT_NOTICE (R352): the records owed are sent, and owed no longer; with no destination nothing is sent. -/
def Sys2Proof.Claims.NoticesAreSent : Prop :=
  ∀ (s : State), Gives .faultNotice s (fun t =>
    t.safety = { s.safety with notices := [] } ∧ t.parts = s.parts ∧ t.looms = s.looms ∧ t.mem = s.mem
      ∧ (s.net.notices = [] → (∀ p x, s.part? p = some x → x.dests = []) → t.net = s.net ∧ t.regs = s.regs)
      ∧ (∀ d dest port, s.net.notices = [(d, dest)] → (∀ p x, s.part? p = some x → x.dests = []) → s.safety.notices.length = 1 →
          dest.a ≠ 0 → dest.b = 0 → (s.upPorts 0).head? = some port → (s.port port).macsec ≠ 1 →
          (s.macOf (vlanKey port.val (s.vlanFor none 0 dest.v4)) { v4 := dest.v4, value := dest.a }).isSome = true →
          ∃ k, t.net.tx = s.net.tx ++ [k] ∧ k.kind = .septa ∧ k.dst = { v4 := dest.v4, value := dest.a } ∧ k.dstPort = dest.port
            ∧ k.bytes.drop 32 = beBytes 2 1 ++ List.replicate 6 0 ++ s.safety.notices.flatMap Record.bytes
            ∧ t.net.seqMgmt = s.net.seqMgmt + 1))

/-- A loom switches to the entry of its plan, or tests itself. -/
def Obligations.LoomsSwitchAndTestThemselves : Prop :=
  Claims.LoomsSwitchToTheirEntry ∧ Claims.LoomsTestThemselves

/-- The checks of looms and storages, and the monitors of the dies. -/
def Obligations.ChecksAreReported : Prop :=
  Claims.LoomChecksStopTheTile ∧ Claims.StorageErrorsAreRecorded ∧ Claims.MonitorsReport

/-- A fault record arrives, is handled, and is sent. -/
def Obligations.FaultRecordsAreHandled : Prop :=
  Claims.FaultRecordsQueueUp ∧ Claims.HandledRecordsMakePartitionsSafe ∧ Claims.NoticesAreSent
namespace Sys2Proof.Claims

open Sys2Proof Sys2Proof.Machine

/-- One more fault record with a code and a detail is on its way, from a unit, the safety controller being otherwise as it was but for what
a new pick clears. -/
def Adds (s t : State) (unit code detail : Nat) : Prop :=
  ∃ r, t.safety.flight = s.safety.flight ++ [r] ∧ r.unit = BitVec.ofNat 16 unit ∧ r.code = BitVec.ofNat 16 code
    ∧ r.detail = BitVec.ofNat 128 detail

/-- A pulse at instant x forms boundary n: it is the current pick from this beat on, its steps are due, it is the anchor of the next
ones, and holdover ends. Nothing outside the pick unit and the fault records changes. -/
def FormsBy (s t : State) (n : Word) (x : Nat) : Prop :=
  t.now = n ∧ t.boundaryBeat = s.beat ∧ t.pick.due = some n ∧ t.pick.formed = true ∧ t.pick.anchor = some (x, n) ∧ t.pick.lastEdge = some x
    ∧ (s.inHoldover = false → t.safety.flight = s.safety.flight
        ∧ t.sourceState = (if s.sourceState = 1 then 2 else s.sourceState))
    ∧ (s.inHoldover = true → t.sourceState = 2 ∧ t.fld .pickStatus Fl.pickStatus_HOLDOVER_PICKS = 0 ∧ Adds s t (beamUnit 0x20) 0x0C07 0)
    ∧ { t with regs := s.regs, pick := s.pick, safety := s.safety, boundaryBeat := s.boundaryBeat } = s

/-- A pulse is ignored: it counts as spurious and, outside every window, is recorded with 0x0C04. -/
def Ignored (s t : State) (recorded : Bool) : Prop :=
  Counts s t .pickStatus Fl.pickStatus_SPURIOUS 1 ∧ t.now = s.now ∧ t.pick.due = s.pick.due ∧ t.pick.anchor = s.pick.anchor
    ∧ (recorded = true → Adds s t (beamUnit 0x20) 0x0C04 0) ∧ (recorded = false → t.safety = s.safety)

/-- The offset of one Sync has been judged (R53, R58, R60): it shows in OFFSET_NS; eight in a row beyond 10 µs lose a locked source, which
begins holdover with 0x0C01; sixteen in a row within 1 µs lock the clock, or end holdover with 0x0C07. -/
def Judged (s t : State) (o : Int) (time : Nat) : Prop :=
  let good := o.natAbs ≤ 1000
  let bad := 10000 < o.natAbs
  t.fld .pickStatus Fl.pickStatus_OFFSET_NS = (if s.sel = 2 then 0 else offsetField o)
    ∧ (s.sel ≠ 1 → t.sourceState = s.sourceState ∧ t.safety = s.safety)
    ∧ (s.sel = 1 → s.sourceState = 1 → good → s.pick.lockRun = 15 → s.pick.lockTime = none → t.pick.lockTime = some time)
    ∧ (s.sel = 1 → s.sourceState = 1 → (¬ good ∨ s.pick.lockRun < 15) → t.pick.lockTime = s.pick.lockTime)
    ∧ (s.sel = 1 → s.sourceState = 2 → bad → s.pick.badRun = 7 →
        t.sourceState = 3 ∧ t.fld .pickStatus Fl.pickStatus_HOLDOVER_SEEN = 1 ∧ Adds s t (beamUnit 0x20) 0x0C01 2
          ∧ ∀ p x, t.part? p = some x → ∀ e ∈ x.dests, e.2.holdover = true)
    ∧ (s.sel = 1 → s.sourceState = 2 → (¬ bad ∨ s.pick.badRun < 7) →
        t.sourceState = 2 ∧ t.safety = s.safety ∧ t.pick.badRun = (if bad then s.pick.badRun + 1 else 0))
    ∧ (s.sel = 1 → s.inHoldover = true → good → s.pick.lockRun = 15 →
        t.sourceState = 2 ∧ t.fld .pickStatus Fl.pickStatus_HOLDOVER_PICKS = 0 ∧ Adds s t (beamUnit 0x20) 0x0C07 0)
    ∧ (s.sel = 1 → s.inHoldover = true → (¬ good ∨ s.pick.lockRun < 15) → t.sourceState = s.sourceState ∧ t.safety = s.safety)
    ∧ t.now = s.now ∧ t.pick.due = s.pick.due ∧ t.net = s.net ∧ t.looms = s.looms ∧ t.mem = s.mem

/-- Offset from the grandmaster of a Sync sent at t1 and received at t2, with the path delay last measured (R334). -/
def offsetOf (s : State) (t1 t2 : Nat) : Int :=
  let gap : Int := (t2 : Int) - t1
  gap - (gap + s.pick.delayGap) / 2

/-- Instant of a Sync on the grandmaster's scale, by the path delay. -/
def syncInstant (s : State) (t1 t2 : Nat) : Nat := t1 + (((t2 : Int) - t1 + s.pick.delayGap) / 2).toNat

/-- Nothing but the pick unit's own state has changed. -/
def OnlyPick (s t : State) : Prop := { t with pick := s.pick } = s

end Sys2Proof.Claims

/-- PICK_PULSE, PULSE_MISSED and HOLDOVER_EXPIRED (R54, R58 to R60, R425): the first pulse forms boundary PICK_PULSE_BASE, one within
WINDOW_NS of E(n) forms boundary n and is the next anchor, any other counts as spurious; without a pulse the boundary comes at
E(n) + WINDOW_NS, counts as missed with 0x0C03, and begins holdover with 0x0C01 or counts in it; 1,000 of them expire the source, with 0x0C02. -/
def Obligations.PulsesFormPicks : Prop :=
  (∀ (s : State) (t : Nat), s.sel = 2 →
    ((∀ l, s.pick.lastEdge = some l → l + 1000 < t) → s.pick.due = none →
        (s.pick.formed = false → Gives (.pickPulse t) s (fun u => FormsBy s u (s.reg .pickPulseBase) t))
          ∧ (∀ e, s.pick.formed = true → s.expected (s.now + 1) = some e →
              (t ≤ e + s.window ∧ e ≤ t + s.window → Gives (.pickPulse t) s (fun u => FormsBy s u (s.now + 1) t))
                ∧ (t + s.window < e ∨ e + s.window < t → Gives (.pickPulse t) s (fun u => Ignored s u true))))
      ∧ ((∀ l, s.pick.lastEdge = some l → l + 1000 < t) → s.pick.due.isSome = true →
          Gives (.pickPulse t) s (fun u => Ignored s u true))
      ∧ (∀ l, s.pick.lastEdge = some l → t ≤ l + 1000 → Gives (.pickPulse t) s (fun u => Ignored s u false))
      ∧ (∀ e, s.pick.formed = true → s.pick.due = none → s.expected (s.now + 1) = some e → s.sourceState ≠ 1 →
          Gives (.pulseMissed (e + s.window)) s (fun u =>
            u.now = s.now + 1 ∧ u.boundaryBeat = s.beat ∧ u.pick.due = some (s.now + 1) ∧ u.pick.anchor = s.pick.anchor
              ∧ Counts s u .pickStatus Fl.pickStatus_MISSED 1
              ∧ u.fld .pickStatus Fl.pickStatus_HOLDOVER_PICKS = min 1000 (s.fld .pickStatus Fl.pickStatus_HOLDOVER_PICKS + 1)
              ∧ (s.inHoldover = true → u.sourceState = s.sourceState ∧ Adds s u (beamUnit 0x20) 0x0C03 0)
              ∧ (s.inHoldover = false → u.sourceState = 3 ∧ u.fld .pickStatus Fl.pickStatus_HOLDOVER_SEEN = 1
                  ∧ u.safety.flight.map Record.code = s.safety.flight.map Record.code ++ [0x0C03, 0x0C01])
              ∧ u.looms = s.looms ∧ u.net = s.net ∧ u.mem = s.mem)))
    ∧ (∀ s : State, s.sourceState = 3 → s.fld .pickStatus Fl.pickStatus_HOLDOVER_PICKS = 1000 →
          Gives .holdoverExpired s (fun u => u.sourceState = 4 ∧ Adds s u (beamUnit 0x20) 0x0C02 0 ∧ u.pick = s.pick
            ∧ { u with regs := s.regs, safety := s.safety } = s))

/-- PICK_BOUNDARY and CADENCE_CHECK (R56, R314, R315, R345, R202): a boundary that is due, or the next one of a PTP source that has locked,
takes its steps: no request of an earlier pick is left staged but what a stream or a frame in progress holds, no outcome is left to send,
every started partition has the entry of its plan, no sequencer of it still waits for a pick that has come, and every loaded partition
starts; a stream behind its cadence then counts. -/
def Obligations.BoundariesTakeTheirSteps : Prop :=
  (∀ (s : State) (n : Word), s.pick.due = some n → s.now = n → Gives .pickBoundary s (fun t =>
      t.pick.due = none ∧ t.now = n ∧ t.boundaryBeat = s.boundaryBeat ∧ t.net.outcomes = []
        ∧ (∀ r ∈ t.net.staged, r ∈ s.net.staged ∧ (r.mgmt = true → n ≠ 0 ∧ n.toNat ≤ r.pick.toNat))
        ∧ (∀ p y, t.part? p = some y → y.start.isSome = true ∨ y.due.isSome = true)
        ∧ (∀ p y n0, t.part? p = some y → y.start = some n0 → y.replaying = false →
            y.entry = (if t.halted y then .idle else y.cfg.entryAt n0.toNat n.toNat t.safety.selfTest)
              ∧ ∀ g ∈ y.cfg.looms, ∀ c m, (t.seq { loom := Fin.ofNat 256 g, ctx := c }).run = .waiting (.pick m) → n.toNat < m.toNat)
        ∧ ∃ bs, t.tele.sample = some (n, t.tele.mask, bs)))
    ∧ (∀ s : State, s.sel = 1 → s.pick.due = none →
        (s.pick.formed = true → Gives .pickBoundary s (fun t => t.now = s.now + 1 ∧ t.boundaryBeat = s.beat ∧ t.pick.due = none))
          ∧ (∀ x, s.pick.formed = false → s.pick.lockTime = some x → 0 < s.period → s.ptpInstant 0 ≤ x →
              Gives .pickBoundary s (fun t => t.now = BitVec.ofNat 64 ((x - s.ptpInstant 0) / s.period + 1) ∧ t.boundaryBeat = s.beat
                ∧ t.pick.due = none ∧ t.pick.formed = true))
          ∧ (s.pick.formed = false → s.pick.lockTime = none → exec .pickBoundary s = .next s))
    ∧ (∀ (s : State) (p : Fin 16) (x : Part) (id : BitVec 16) (e : Stream) (late : Bool), s.part? p = some x →
        x.stream? id.toNat = some e → e.behind = some late →
        Gives (.cadenceCheck p id) s (fun t => ∃ y f, t.part? p = some y ∧ y.stream? id.toNat = some f ∧ f.behind = none
          ∧ f.stat stLate = late ∧ f.late = (if late then min (e.late + 1) (2 ^ 32 - 1) else e.late) ∧ f.step = e.step
          ∧ (late = true → Counts s t (.cxeStreamCount x.cfg.home p) Fl.cxeStreamCount_LATE 1) ∧ (late = false → t.regs = s.regs)
          ∧ (∀ q, q ≠ p → t.part? q = s.part? q) ∧ { t with regs := s.regs, parts := s.parts } = s))

/-- The PTP client and the reference (R53, R55, R58, R334): PTP_SYNC, PTP_FOLLOW_UP and PTP_DELAY_RESP of the selected grandmaster give
offset and path delay; PTP_ANNOUNCE makes the best clock heard the selected one; DELAY_REQ is sent on its port; PTP_ANNOUNCE_TIMEOUT forgets
it and begins holdover; REF_LOST and REF_RESTORED show in REF_OK. -/
def Obligations.PtpDisciplinesTheClock : Prop :=
  (∀ (s : State) (m : PtpMsg), s.hearsPtp m = true →
      (s.fromSelected m = true → s.pick.lockRun ≤ 16 → s.pick.badRun ≤ 8 →
          (m.twoStep = false → s.pick.haveDelay = true →
              Gives (.ptpSync m) s (fun t => Judged s t (offsetOf s m.origin m.ingress) (syncInstant s m.origin m.ingress)))
            ∧ (m.twoStep = false → s.pick.haveDelay = false → Gives (.ptpSync m) s (OnlyPick s))
            ∧ (m.twoStep = true → Gives (.ptpSync m) s (fun t => t.pick.halfSync = some (m.sequence, m.ingress) ∧ OnlyPick s t))
            ∧ (∀ t2, s.pick.halfSync = some (m.sequence, t2) → s.pick.haveDelay = true →
                Gives (.ptpFollowUp m) s (fun t => t.pick.halfSync = none
                  ∧ Judged s t (offsetOf s m.origin t2) (syncInstant s m.origin t2)))
            ∧ (∀ t3, s.pick.delayReq = some (m.sequence, m.port, t3) →
                Gives (.ptpDelayResp m) s (fun t => t.pick.delayReq = none ∧ t.pick.delayGap = (m.origin : Int) - t3 ∧ t.pick.haveDelay = true
                  ∧ OnlyPick s t)))
        ∧ Gives (.ptpAnnounce m) s (fun t => OnlyPick s t
            ∧ (∃ c ∈ t.pick.clocks, c.source = m.source ∧ c.port = m.port.val ∧ c.rank = m.rank)
            ∧ ∃ c ∈ t.pick.clocks, t.pick.selected = some c
                ∧ ∀ d ∈ t.pick.clocks, c.rank < d.rank ∨ (c.rank = d.rank ∧ c.source.toNat ≤ d.source.toNat)))
    ∧ (∀ (s : State) (c : Clock) (port : Fin 8) (x : Nat), s.pick.selected = some c → c.port = port.val →
        s.fld .netPtp Fl.netPtp_EN = 1 → (s.port port).link = true → (s.port port).macsec ≠ 1 →
        Gives (.delayReq port x) s (fun t => t.pick.delayReq = some (s.pick.delaySeq, port, x) ∧ t.pick.delaySeq = s.pick.delaySeq + 1
          ∧ ∃ k, t.net.tx = s.net.tx ++ [k] ∧ k.kind = .ptp ∧ k.port = port.val ∧ k.vlan = s.fld .netPtp Fl.netPtp_VLAN
              ∧ { t with pick := s.pick, net := { t.net with tx := s.net.tx } } = s))
    ∧ (∀ (s : State) (c : Clock), s.pick.selected = some c →
        Gives .ptpAnnounceTimeout s (fun t => (∀ d ∈ t.pick.clocks, d ∈ s.pick.clocks ∧ ¬ (d.source = c.source ∧ d.port = c.port))
          ∧ (s.sel = 1 ∧ s.sourceState = 2 → t.sourceState = 3 ∧ Adds s t (beamUnit 0x20) 0x0C01 1
              ∧ t.fld .pickStatus Fl.pickStatus_HOLDOVER_SEEN = 1)
          ∧ (s.sel ≠ 1 ∨ s.sourceState ≠ 2 → OnlyPick s t)))
    ∧ (∀ s : State, s.fld .pickSource Fl.pickSource_REF_EN = 1 →
        Gives .refLost s (fun t => t.fld .pickStatus Fl.pickStatus_REF_OK = 0 ∧ t.fld .pickStatus Fl.pickStatus_REF_LOST = 1
            ∧ t.pick.refReported = true ∧ (s.pick.refReported = false → Adds s t (beamUnit 0x20) 0x0C05 0)
            ∧ (s.pick.refReported = true → t.safety = s.safety) ∧ t.sourceState = s.sourceState)
          ∧ Gives .refRestored s (fun t => t.fld .pickStatus Fl.pickStatus_REF_OK = 1 ∧ t.pick.refReported = false
            ∧ t.fld .pickStatus Fl.pickStatus_REF_LOST = s.fld .pickStatus Fl.pickStatus_REF_LOST ∧ t.safety = s.safety
            ∧ t.sourceState = s.sourceState))
namespace Sys2Proof.Claims

open Sys2Proof Sys2Proof.Machine

/-- The state once the frame of a message has been seen: its source's MAC address is known (R330). -/
def heard (s : State) (m : Msg) : State := s.sawFrame m.route.port.val m.route.vlan.toNat m.route.src m.route.srcMac

/-- The plane of an endpoint. -/
def planeOf (ep : Endpoint) : Nat := match ep with | .mgmt => 3 | .control _ => 1 | .data _ _ => 2

/-- A message comes to an endpoint that listens: its port has link and no MACsec negotiation in hand, and the management endpoint's
firmware runs (R332, R333, R412). -/
structure Comes (s : State) (m : Msg) (ep : Endpoint) : Prop where
  link : (s.port m.route.port).link = true
  clear : (s.port m.route.port).macsec ≠ 1
  endpoint : (heard s m).endpointAt m.route.port m.route.vlan.toNat m.route.dst = some ep
  ready : ep = .mgmt → (heard s m).mgmtReady = true

/-- Its header is a request's on that plane (R339). -/
structure Sound (m : Msg) (ep : Endpoint) : Prop where
  magic : m.hdr.magic.toNat = 0x5E7A
  length : m.hdr.length.toNat = m.payload.length
  plane : m.hdr.plane.toNat = planeOf ep ∧ planeOf ep ≠ 2
  request : m.hdr.flags.getLsbD 0 = false

/-- A sequence number that a request may have (R14, R341). -/
def Numbered (m : Msg) : Prop := m.hdr.sequence.toNat ≠ 0 ∧ m.hdr.sequence.toNat ≠ 2 ^ 64 - 1

/-- The request that a message makes. -/
def requestOf (s : State) (t : MsgType) (m : Msg) (ep : Endpoint) (payload : List Byte) (key : Option (BitVec 256)) : Staged :=
  { type := t.code, msg := m, payload := payload, key := key, pick := (heard s m).arrival, mgmt := ep == .mgmt }

/-- What a message's number is to its window. -/
def standing (s : State) (m : Msg) : Standing :=
  ((heard s m).net.windows.get (windowKey m.hdr) Window.empty).judge m.hdr.sequence.toNat

/-- The state with the number taken into its window. -/
def numbered (s : State) (m : Msg) (w : Window) : State :=
  let h := heard s m
  { h with net := { h.net with windows := h.net.windows.put (windowKey m.hdr) w Window.empty } }

/-- A message reaches its handler as request r over state u: it comes to an endpoint, its header is sound, it authenticates, its number is
new, and header values and form are right (R339 to R341, R344, R360). -/
def Reaches (s : State) (t : MsgType) (m : Msg) (r : Staged) (u : State) : Prop :=
  ∃ ep payload key w, Comes s m ep ∧ Sound m ep ∧ Numbered m ∧ (heard s m).authenticate t m = .ok (payload, key)
    ∧ standing s m = .fresh w ∧ headerFails m.hdr t ep = none ∧ formFails t.form t.tail payload = none
    ∧ r = requestOf s t m ep payload key ∧ u = numbered s m w

/-- An authenticated message comes to an endpoint under a live session of its origin, with a new number and right header values: request and
state are what a payload that its tag verifies for gives (R341, R360). -/
structure Authenticates (s : State) (t : MsgType) (m : Msg) (ep : Endpoint) (k : Session) (w : Window) : Prop where
  comes : Comes s m ep
  sound : Sound m ep
  number : Numbered m
  session : (heard s m).sec.sessions.find? (sessionKey m.hdr) = some k
  origin : k.origin = hdrOrigin m.hdr
  fresh : standing s m = .fresh w
  header : headerFails m.hdr t ep = none

/-- The payload of an authenticated message, if its tag verifies. -/
def opened (t : MsgType) (m : Msg) (k : Session) : Option (List Byte) :=
  gcmOpen k.kMsg (msgNonce 0 (hdrOrigin m.hdr) m.hdr.sequence.toNat) (msgHeader m.hdr t.code) m.payload

/-- The command ends with a reply of a status, a field and a body to request r, over a state of which something holds. -/
def Replies (c : Instr) (s : State) (r : Staged) (status field : Nat) (body : List Byte) (P : State → Prop) : Prop :=
  ∃ v, P v ∧ exec c s = .next (v.reply r status field 0 body true r.pick)

/-- The request is done. -/
def Done (c : Instr) (s : State) (r : Staged) (body : List Byte) (P : State → Prop) : Prop := Replies c s r 0 0 body P

/-- The request is staged, behind those that wait (R345). -/
def Stages (c : Instr) (s : State) (r : Staged) (u : State) (P : State → Prop) : Prop :=
  Replies c s r 1 0 [] (fun v => v.net.staged = u.net.staged ++ [r] ∧ P v)

/-- The message rows, each with its type (R344). -/
def msgRows : List (MsgType × (Msg → Instr)) :=
  [(typeEcho, .echo), (ctrlType 0x0002 true [.any 4, .any 2, .zero 2], .regRead), (typeRegWrite, .regWrite),
   (ctrlType 0x0100 false [.any 1, .zero 7, .any 8, .any 8], .runSubmit), (ctrlType 0x0101 false formStreamOpen, .streamOpen),
   (ctrlType 0x0102 false formStreamStep, .streamReset), (ctrlType 0x0103 false formStreamStep, .streamClose),
   (ctrlType 0x0104 true formId, .streamStatus)]
  ++ [(ctrlType 0x0108 false formSeqOpen, .seqOpen), (ctrlType 0x0109 false formSeqPolicy, .seqPolicy), (ctrlType 0x010A false formId, .seqClose),
   (ctrlType 0x0110 false [.any 2, .zero 2, .any 64], .creelOpen), (ctrlType 0x0111 false [.any 2, .zero 6], .creelClose),
   (ctrlType 0x0112 true [.any 2, .zero 6], .creelStatus), (ctrlType 0x0118 false formConnect, .qpConnect),
   (ctrlType 0x0119 false [.any 2, .zero 6], .qpClose), (ctrlType 0x0120 false formDest, .reportSet)]
  ++ [(mgmtType 0x0200 formBegin false, .draftBegin), (mgmtType 0x0201 formData true, .draftData), (mgmtType 0x0202 [] false, .draftEnd),
   (mgmtType 0x0203 [] false, .draftAbort), (mgmtType 0x0210 [.count 8, .any 2, .zero 6, .any 8] false, .modeAnnounce),
   (mgmtType 0x0220 formDest false, .noticeSet), (mgmtType 0x0300 formBegin false, .fwBegin), (mgmtType 0x0301 formData true, .fwData),
   (mgmtType 0x0302 [] false, .fwEnd), (mgmtType 0x0303 [] false, .fwRestart), (mgmtType 0x0304 [] false, .fwConfirm)]
  ++ [(mgmtType 0x0310 formSlot false, .draftSave), (mgmtType 0x0311 formSlot false, .draftStandbyLoad),
   (mgmtType 0x0312 formSlot false, .draftErase), (mgmtType 0x0318 [] false, .netSave), (mgmtType 0x0320 formFence false, .fence),
   (mgmtType 0x0321 formFence false, .unfence), (mgmtType 0x0322 [.any 1, .zero 7] false, .linkRetrain),
   (mgmtType 0x0328 [] false, .storeCompactNow), (mgmtType 0x0330 [] false, .telemetryRead),
   (mgmtType 0x0331 [.any 4, .zero 4] false, .acctRead)]
  ++ [(secType 0x0400 true false [] false, .secIdentity), (secType 0x0401 true false [.any 32] false, .secQuote),
   (secType 0x0402 true false [.any 32, .any 1568, .any 32] false, .secSessionOpen),
   (secType 0x0403 true true [.any 2, .zero 6] true, .secKeyLoad), (secType 0x0404 true true [.any 1, .zero 7] false, .secSessionClose),
   (secType 0x0410 false false [] false, .partitionDestroy), (secType 0x0411 false false [] false, .moduleZeroise),
   (secType 0x0420 false false [.any 1, .zero 7, .any 32] false, .signerEnrol), (secType 0x0421 false false [.any 1, .zero 7] false, .signerRemove),
   (secType 0x0430 false false [] false, .debugChallenge), (secType 0x0431 false false formToken false, .debugUnlock)]
  ++ [(mgmtType 0x0500 [.any 1, .zero 7, .any 8, .count 8] false, .swatchArm), (mgmtType 0x0501 [] false, .swatchStop),
   (mgmtType 0x0502 [] false, .swatchDisarm)]

end Sys2Proof.Claims

/-- What no Septa message does before its handler (R332, R333, R339 to R344, R358, R360): of every message row, a message at a port without
link, or to no endpoint, changes nothing but what its frame shows; an unsound header only counts; a reserved number, a failed
authentication, a stale number, wrong header values and a wrong form are answered so, a duplicate with the kept reply; none of them has any
other effect. -/
def Obligations.RequestsAreScreened : Prop :=
  ∀ e ∈ msgRows, ∀ (s : State) (m : Msg),
    let t := e.1
    let run := exec (e.2 m) s
    let h := heard s m
    ((s.port m.route.port).link = false → run = .next s)
      ∧ ((s.port m.route.port).link = true → (s.port m.route.port).macsec = 1 →
          run = .next (s.bump (.netPort m.route.port) Fl.netPort_MACSEC_DROP 1))
      ∧ ((s.port m.route.port).link = true → (s.port m.route.port).macsec ≠ 1 →
          (h.endpointAt m.route.port m.route.vlan.toNat m.route.dst = none
            ∨ (h.endpointAt m.route.port m.route.vlan.toNat m.route.dst = some .mgmt ∧ h.mgmtReady = false)) → run = .next h)
      ∧ ∀ ep, Comes s m ep →
          (¬ Sound m ep → run = .next (h.bump .netCount Fl.netCount_BAD_HEADER 1))
            ∧ (Sound m ep → ¬ Numbered m →
                run = .next (h.reply (requestOf s t m ep m.payload none) 2 0xFFFF 8 [] false h.arrival))
            ∧ (Sound m ep → Numbered m → t.authentic = true → h.sec.sessions.find? (sessionKey m.hdr) = none →
                run = .next (h.reply (requestOf s t m ep m.payload none) 4 0xFFFF 6 [] false h.arrival))
            ∧ (∀ k, Sound m ep → Numbered m → t.authentic = true → h.sec.sessions.find? (sessionKey m.hdr) = some k →
                k.origin = hdrOrigin m.hdr → standing s m = .stale →
                match gcmOpen k.kMsg (msgNonce 0 (hdrOrigin m.hdr) m.hdr.sequence.toNat) (msgHeader m.hdr t.code) m.payload with
                | none => run = .next (((h.bump .secCount Fl.secCount_MSG_FAIL 1).report (beamUnit 0x28) 0x0804 0).reply
                    (requestOf s t m ep m.payload none) 2 0xFFFF 0 [] false h.arrival)
                | some payload => run = .next (h.reply (requestOf s t m ep payload (some k.kMsg)) 5 0xFFFF 8 [] false h.arrival))
            ∧ (Sound m ep → Numbered m → t.authentic = false →
                let payload := m.payload
                let r := requestOf s t m ep payload none
                (standing s m = .stale → run = .next (h.reply r 5 0xFFFF 8 [] false h.arrival))
                  ∧ (standing s m = .duplicate →
                      let d := h.bump .netCount Fl.netCount_DUPLICATES 1
                      run = .next (match h.net.kept.find? (fun k => k.answers m.hdr) with
                        | some k => d.sendBack m.route k.datagrams
                        | none => d.reply r 6 0 0 [] false h.arrival))
                  ∧ (∀ w st fd hd body, standing s m = .fresh w → headerFails m.hdr t ep = some (.reply st fd hd body) →
                      run = .next ((numbered s m w).reply r st fd hd body true h.arrival))
                  ∧ (∀ w off, standing s m = .fresh w → headerFails m.hdr t ep = none → formFails t.form t.tail payload = some off →
                      run = .next ((numbered s m w).reply r 2 off 0 [] true h.arrival)))

/-- Replies (R342, R343): a reply is kept for its request, among at most 4,096, refusals count, and nothing else changes but what is sent; one
that fits a datagram and is not authenticated leaves whole, to where its request came from, with the request's number and the device's
flag. -/
def Obligations.RepliesAnswerTheirRequests : Prop :=
  ∀ (v : State) (r : Staged) (status field head : Nat) (body : List Byte) (pick : Word),
    let t := v.reply r status field head body true pick
    (t.net.kept.length ≤ 4096
        ∧ (v.net.kept.length ≤ 4096 → ∃ k ∈ t.net.kept, k.answers r.msg.hdr = true
            ∧ k.datagrams = v.replyBytes r status field head body pick)
        ∧ (status = 5 → Counts v t .netCount Fl.netCount_STALE 1)
        ∧ (status = 2 ∨ status = 3 ∨ status = 4 ∨ status = 7 → Counts v t .netCount Fl.netCount_REFUSED 1)
        ∧ (status = 0 ∨ status = 1 ∨ status = 6 → t.regs = v.regs)
        ∧ (∀ reg, reg ≠ .netCount → t.reg reg = v.reg reg)
        ∧ { t with regs := v.regs, net := { t.net with kept := v.net.kept, tx := v.net.tx } } = v)
      ∧ (r.key = none → 8 + body.length ≤ v.udpRoom r.msg.route.dst.v4 - 32 → (v.port r.msg.route.port).link = true →
          (v.port r.msg.route.port).macsec ≠ 1 →
          ∃ k, t.net.tx = v.net.tx ++ [k] ∧ k.kind = .septa ∧ k.port = r.msg.route.port.val ∧ k.vlan = r.msg.route.vlan.toNat
            ∧ k.mac = some r.msg.route.srcMac ∧ k.dst = r.msg.route.src ∧ k.dstPort = r.msg.route.srcPort
            ∧ k.bytes = septaHeader r.msg.hdr.plane.toNat r.msg.hdr.partition.toNat r.msg.hdr.context.toNat
                (5 + hdrOrigin r.msg.hdr * 256) r.msg.hdr.sequence.toNat pick.toNat (8 + body.length) r.type
              ++ beBytes 1 status ++ beBytes 1 (if field = 0xFFFF then head else 0) ++ beBytes 2 field ++ [0, 0, 0, 0] ++ body)

/-- ECHO, REG_READ and REG_WRITE (R7, R8, R11, R344, R347): ECHO returns its payload; REG_READ answers the values of its registers, clearing
what reads clear on the management plane only, or is refused whole; REG_WRITE writes every register or none: an accepted write of an
ordinary register puts RW fields, clears the W1C bits written as 1, and changes nothing else. -/
def Sys2Proof.Claims.RegisterMessages : Prop :=
  (∀ (s : State) (m : Msg) (r : Staged) (u : State), Reaches s typeEcho m r u →
      (m.payload.length ≤ 256 → Done (.echo m) s r m.payload (· = u))
        ∧ (256 < m.payload.length → Replies (.echo m) s r 2 256 [] (· = u)))
    ∧ (∀ (s : State) (m : Msg) (r : Staged) (u : State), Reaches s (ctrlType 0x0002 true [.any 4, .any 2, .zero 2]) m r u →
        let a := r.num 0 4
        let n := r.num 4 2
        (n = 0 ∨ 64 < n → Replies (.regRead m) s r 2 4 [] (· = u))
          ∧ (0 < n → n ≤ 64 → (∃ i < n, Reg.ofAddr (a + 8 * i) = none) → Replies (.regRead m) s r 2 0 [] (· = u))
          ∧ (0 < n → n ≤ 64 → (∀ i < n, Reg.ofAddr (a + 8 * i) ≠ none) → ∃ body : List Byte, body.length = 8 * n
              ∧ Done (.regRead m) s r body (fun v => { v with regs := u.regs, freeCount := u.freeCount } = u
                  ∧ (r.mgmt = false → v.regs = u.regs)))
          ∧ (∀ reg, n = 1 → Reg.ofAddr a = some reg → Done (.regRead m) s r (beBytes 8 (u.readReg reg).1.toNat) (fun v =>
              (∀ q, q ≠ reg → v.reg q = u.reg q) ∧ ∀ f ∈ reg.fields, v.fld reg f = (if r.mgmt = true ∧ f.acc = .rc then 0 else u.fld reg f))))
    ∧ (∀ (s : State) (m : Msg) (r : Staged) (u : State), Reaches s typeRegWrite m r u → r.num 0 2 = 1 → m.payload.length = 24 →
        let a := r.num 8 4
        let w : Word := BitVec.ofNat 64 (r.num 16 8)
        (r.num 12 4 ≠ 0 → Replies (.regWrite m) s r 2 12 [] (· = u))
          ∧ (r.num 12 4 = 0 → u.mayWrite a w = none → Replies (.regWrite m) s r 2 8 [] (· = u))
          ∧ (∀ reg, r.num 12 4 = 0 → u.mayWrite a w = some reg → reg ≠ .pickSource → reg ≠ .farCmd → reg ≠ .moduleReset →
              (∀ k, reg ≠ .memEvac k) →
              Done (.regWrite m) s r [] (fun v => { v with regs := u.regs } = u ∧ (∀ q, q ≠ reg → v.reg q = u.reg q)
                ∧ ∀ f ∈ reg.fields, v.fld reg f =
                    (if f.acc = .rw then f.get w else if f.acc = .w1c ∧ f.get w = 1 then 0 else u.fld reg f))))
    ∧ (∀ (s : State) (m : Msg) (r : Staged) (u : State) (i : Nat), Reaches s typeRegWrite m r u → 0 < r.num 0 2 → r.num 0 2 ≤ 64 →
        m.payload.length = 8 + 16 * r.num 0 2 → i < r.num 0 2 → r.num (12 + 16 * i) 4 = 0 →
        u.mayWrite (r.num (8 + 16 * i) 4) (BitVec.ofNat 64 (r.num (16 + 16 * i) 8)) = none →
        ∃ off, Replies (.regWrite m) s r 2 off [] (· = u))

/-- The writes that arm and disarm the pick source, and the reset request (R52 to R54, R414): from a disarmed source with PERIOD_NS in range an
arming write puts PICK_SOURCE and begins acquiring, with no pick formed; a write of SEL 0 while no partition has started disarms; a source is
not armed while another is; MODULE_RESET asks for a reset. -/
def Sys2Proof.Claims.PickSourceAndResetWrites : Prop :=
  ∀ (s : State) (q : WriteReq) (r : Staged) (u : State),
    (Reaches s typeRegWrite (writeMsg q .pickSource) r u → (Reg.pickSource).zeroBits q.value = true →
        (u.sel = 0 → 500000 ≤ u.period → u.period ≤ 1000000000 →
            (Fl.pickSource_SEL.get q.value = 1 → Done (.pickSourceArmPtp q) s r [] (fun v => v.reg .pickSource = q.value
                ∧ v.sourceState = 1 ∧ v.pick.formed = false ∧ v.pick.lockRun = 0 ∧ v.pick.lockTime = none ∧ v.now = u.now ∧ v.safety = u.safety))
              ∧ (Fl.pickSource_SEL.get q.value = 2 → 1000 ≤ Fl.pickSource_WINDOW_NS.get q.value →
                  4 * Fl.pickSource_WINDOW_NS.get q.value ≤ u.period →
                  Done (.pickSourceArmPulse q) s r [] (fun v => v.reg .pickSource = q.value ∧ v.sourceState = 1 ∧ v.pick.formed = false
                    ∧ v.pick.anchor = none ∧ v.pick.lastEdge = none ∧ v.pick.due = none ∧ v.now = u.now ∧ v.safety = u.safety)))
          ∧ (u.sel ≠ 0 → (∀ e ∈ u.parts, e.2.started = false) → Fl.pickSource_SEL.get q.value = 0 →
              Done (.pickSourceDisarm q) s r [] (fun v => v.sel = 0 ∧ v.sourceState = 0 ∧ v.pick.formed = false ∧ v.now = u.now
                ∧ v.fld .pickStatus Fl.pickStatus_HOLDOVER_PICKS = 0 ∧ v.safety = u.safety))
          ∧ (u.sel ≠ 0 → Fl.pickSource_SEL.get q.value = 1 → Replies (.pickSourceArmPtp q) s r 2 8 [] (· = u))
          ∧ (u.sel ≠ 0 → Fl.pickSource_SEL.get q.value = 2 → Replies (.pickSourceArmPulse q) s r 2 8 [] (· = u)))
      ∧ (Reaches s typeRegWrite (writeMsg q .moduleReset) r u → (Reg.moduleReset).zeroBits q.value = true →
          Fl.moduleReset_REQUEST.get q.value = 1 →
          Done (.moduleResetRequest q) s r [] (fun v => v = { u with power := { u.power with resetDue := true } }))

/-- Register messages, and the two registers whose write does more than set a value. -/
def Obligations.RegistersAreReadAndWritten : Prop :=
  Claims.RegisterMessages ∧ Claims.PickSourceAndResetWrites
namespace Sys2Proof.Claims

open Sys2Proof Sys2Proof.Machine

/-- The partition that a request names has started. -/
def Targets (u : State) (r : Staged) (p : Fin 16) (x : Part) : Prop :=
  r.part? = some p ∧ u.part? p = some x ∧ x.started = true

/-- A queue as it is, whether its entries are held or not. -/
def unheld (x : Part) (c : Fin 8) (i : Nat) : List QEntry := (queueOf x c i).map (fun e => { e with held := false })

/-- A request has been staged: nothing but the queue of requests and the held marks of its partition's entries has changed (R215, R232). -/
def HeldOnly (u v : State) (p : Fin 16) (x : Part) : Prop :=
  (∃ y, v.part? p = some y ∧ { y with ctxs := x.ctxs } = x ∧ ∀ c, (∀ i, unheld y c i = unheld x c i)
      ∧ { y.ctx c with queues := (x.ctx c).queues } = x.ctx c)
    ∧ (∀ q, q ≠ p → v.part? q = u.part? q) ∧ { v with net := { v.net with staged := u.net.staged }, parts := u.parts } = u

/-- Nothing but the queue of requests has changed. -/
def QueuedOnly (u v : State) : Prop := { v with net := { v.net with staged := u.net.staged } } = u

/-- A control-plane row whose requests are staged: it stages a request of a started partition that is well formed and not in replay, and
nothing else; a field that breaks the form is named, and a replaying partition is busy (R345, R392). -/
def StagesFor (c : Msg → Instr) (t : MsgType) (fails : Staged → Part → Option Nat) : Prop :=
  ∀ (s : State) (m : Msg) (r : Staged) (u : State) (p : Fin 16) (x : Part), Reaches s t m r u → Targets u r p x →
    (fails r x = none → x.replaying = false → Stages (c m) s r u (fun v => HeldOnly u v p x))
      ∧ (∀ off, fails r x = some off → Replies (c m) s r 2 off [] (· = u))
      ∧ (fails r x = none → x.replaying = true → Replies (c m) s r 7 0 [] (· = u))

/-- Transactions of the store number their records upwards. -/
def SerialsBelow (k : StoreUnit) : Prop := ∀ e ∈ k.records, e.txn < k.nextSerial

end Sys2Proof.Claims

/-- RUN_SUBMIT (R321, R322): a run for a control-fed queue with room, of a context that neither faulted nor ended in a partition that runs, is
posted with its token and the current pick, and counts; any other is answered with its status code and counts as refused. -/
def Obligations.RunsAreSubmitted : Prop :=
  ∀ (s : State) (m : Msg) (r : Staged) (u : State), Reaches s (ctrlType 0x0100 false [.any 1, .zero 7, .any 8, .any 8]) m r u →
    (∀ p x c, Targets u r p x → r.ctx? = some c → c.val < x.cfg.nctx → x.replaying = false →
        let i := r.num 0 1
        let n := (x.ctx c).acct.submitted + 1
        let stopped := x.safe.isSome = true ∨ x.stopping.isSome = true ∨ u.safety.moduleSafe = true
        let ended := (x.ctx c).fault.isSome = true ∨ u.ctxEnded x c = true
        let full := (x.cfg.queueCfg c i).depth ≤ (queueOf x c i).length
        let refused := fun (code : Nat) => Done (.runSubmit m) s r (beBytes 1 code ++ List.replicate 7 0 ++ beBytes 8 0) (fun v =>
          ∃ y, v.part? p = some y ∧ (y.ctx c).acct = { (x.ctx c).acct with refused := (x.ctx c).acct.refused + 1 }
            ∧ (∀ o j, queueOf y o j = queueOf x o j) ∧ { y with ctxs := x.ctxs } = x ∧ { v with parts := u.parts } = u)
        (¬ stopped → ¬ ended → x.cfg.controlFed c i = true → ¬ full →
            Done (.runSubmit m) s r (beBytes 1 0 ++ List.replicate 7 0 ++ beBytes 8 n) (fun v =>
              ∃ y held, v.part? p = some y
                ∧ queueOf y c i = queueOf x c i ++ [{ w0 := runToken p c n, w1 := BitVec.ofNat 64 (r.num 8 8), w2 := u.now,
                                                      w3 := BitVec.ofNat 64 (r.num 16 8), pick := u.now, beat := u.beat, run := true,
                                                      held := held }]
                ∧ (∀ o j, ¬ (o = c ∧ j = i) → queueOf y o j = queueOf x o j)
                ∧ (y.ctx c).acct = { (x.ctx c).acct with submitted := n, lastSeq := m.hdr.sequence.toNat }
                ∧ (x.swatch = none → { y with ctxs := x.ctxs } = x ∧ { v with parts := u.parts } = u)))
          ∧ (stopped → refused 5) ∧ (¬ stopped → ended → refused 4) ∧ (¬ stopped → ¬ ended → x.cfg.controlFed c i = false → refused 2)
          ∧ (¬ stopped → ¬ ended → x.cfg.controlFed c i = true → full → refused 3))
      ∧ (∀ p, r.part? = some p → (∀ x, u.part? p = some x → x.started = false) →
          Done (.runSubmit m) s r (beBytes 1 1 ++ List.replicate 7 0 ++ beBytes 8 0) (· = u))

/-- The requests that the next boundary applies (R189, R215, R253, R310, R345, R349, R361, R388, R407): STREAM_OPEN, STREAM_RESET,
STREAM_CLOSE, SEQ_OPEN, SEQ_POLICY, SEQ_CLOSE, CREEL_OPEN, CREEL_CLOSE, REPORT_SET, SEC_KEY_LOAD, SEC_SESSION_CLOSE, PARTITION_DESTROY, FENCE,
UNFENCE and SWATCH_STOP are answered STAGED and wait; nothing else changes yet. -/
def Obligations.RequestsAreStaged : Prop :=
  StagesFor .streamOpen (ctrlType 0x0101 false formStreamOpen) (fun r x => openBreaks r x.cfg.maskMode)
    ∧ StagesFor .streamReset (ctrlType 0x0102 false formStreamStep) (fun _ _ => none)
    ∧ StagesFor .streamClose (ctrlType 0x0103 false formStreamStep) (fun _ _ => none)
    ∧ StagesFor .seqOpen (ctrlType 0x0108 false formSeqOpen) (fun r _ => seqOpenBreaks r)
    ∧ StagesFor .seqPolicy (ctrlType 0x0109 false formSeqPolicy) (fun r _ => seqPolicyBreaks r)
    ∧ StagesFor .seqClose (ctrlType 0x010A false formId) (fun _ _ => none)
    ∧ StagesFor .reportSet (ctrlType 0x0120 false formDest) (fun r _ => destBreaks r)
    ∧ StagesFor .creelOpen (ctrlType 0x0110 false [.any 2, .zero 2, .any 64])
        (fun r x => match r.slotOf x with | none => some 0 | some c => openCreelBreaks x.cfg c r)
    ∧ StagesFor .creelClose (ctrlType 0x0111 false [.any 2, .zero 6]) (fun r x => if (r.slotOf x).isNone then some 0 else none)
    ∧ (∀ (s : State) (m : Msg) (ep : Endpoint) (k : Session) (w : Window),
        let u := numbered s m w
        let loads := secType 0x0403 true true [.any 2, .zero 6] true
        let closes := secType 0x0404 true true [.any 1, .zero 7] false
        (∀ e ∈ u.parts, e.2.replaying = false) →
        (Authenticates s loads m ep k w → match opened loads m k with
            | none => ∃ v, { v with regs := (heard s m).regs, safety := (heard s m).safety, net := (heard s m).net } = heard s m
                ∧ exec (.secKeyLoad m) s = .next v
            | some payload =>
              let r := requestOf s loads m ep payload (some k.kMsg)
              (∀ off, formFails loads.form true payload = none → keyLoadBreaks r.mgmt payload = some off →
                  Replies (.secKeyLoad m) s r 2 off [] (· = u))
                ∧ (∀ j, formFails loads.form true payload = none → keyLoadBreaks r.mgmt payload = none → u.secKey r = .ok j →
                    Stages (.secKeyLoad m) s r u (QueuedOnly u)))
          ∧ (Authenticates s closes m ep k w → match opened closes m k with
            | none => ∃ v, { v with regs := (heard s m).regs, safety := (heard s m).safety, net := (heard s m).net } = heard s m
                ∧ exec (.secSessionClose m) s = .next v
            | some payload =>
              let r := requestOf s closes m ep payload (some k.kMsg)
              ∀ j, formFails closes.form false payload = none → r.num 0 1 ≤ 1 → u.secKey r = .ok j →
                (∀ p x, r.part? = some p → u.part? p = some x → r.mgmt = false → u.protectedSlotOpen p x = false) →
                Stages (.secSessionClose m) s r u (QueuedOnly u)))
    ∧ (∀ (s : State) (m : Msg) (r : Staged) (u : State) (p : Fin 16) (x : Part), r.part? = some p → u.part? p = some x →
        (Reaches s (secType 0x0410 false false [] false) m r u → Stages (.partitionDestroy m) s r u (QueuedOnly u))
          ∧ (Reaches s (mgmtType 0x0501 [] false) m r u → Stages (.swatchStop m) s r u (QueuedOnly u)))
    ∧ (∀ (s : State) (m : Msg) (r : Staged) (u : State) (looms links mills : Nat), fenceOf r = .ok (looms, links, mills) →
        (Reaches s (mgmtType 0x0320 formFence false) m r u →
            (u.fenceBusy looms links = false → Stages (.fence m) s r u (QueuedOnly u))
              ∧ (u.fenceBusy looms links = true → Replies (.fence m) s r 7 0 [] (· = u)))
          ∧ (Reaches s (mgmtType 0x0321 formFence false) m r u → Stages (.unfence m) s r u (QueuedOnly u)))

/-- What a staged request does at the boundary that applies it (R191 to R193, R200, R214, R310, R345, R346, R349, R407): an open fills an entry
that was not live, a reset or close that is not behind its stream is set, a sequence takes the lowest free run of frames; a refused one
changes nothing of its table; either is recorded in a REQUEST record; destruction stops its partition and withdraws its runs; a fence enters
the fence map. -/
def Obligations.StagedRequestsTakeEffect : Prop :=
  (∀ (s : State) (r : Staged) (n : Word) (p : Fin 16) (x : Part), r.mgmt = false → s.waits r n = false → r.part? = some p → s.part? p = some x →
      x.swatch = none → r.type ∈ [0x0101, 0x0102, 0x0103, 0x0108, 0x0109, 0x010A, 0x0120] →
      let rec_ := fun (st field : Nat) => RptRec.request (hdrOrigin r.msg.hdr) st r.type field r.msg.hdr.sequence
      (∀ y, x.apply r = .ok y → y.swatch = none → s.applyStaged r n = s.setPart p (y.note (rec_ 0 0)))
        ∧ (∀ f, x.apply r = .error f →
            s.applyStaged r n = (s.bump .netCount Fl.netCount_REFUSED 1).setPart p (x.note (rec_ 2 f))))
    ∧ (∀ (x : Part) (r : Staged),
        let id := r.num 0 2
        let mask := x.cfg.maskMode
        let others := fun (y : Part) => (∀ j, j ≠ id → y.stream? j = x.stream? j)
          ∧ { y with streams := x.streams, dests := x.dests, recent := x.recent } = x
        (r.type = 0x0101 → ((x.stream? id).isSome = true ∨ x.cfg.streamCount ≤ id) → x.apply r = .error 0)
          ∧ (∀ c, r.type = 0x0101 → x.stream? id = none → id < x.cfg.streamCount → r.ctx? = some c → c.val < x.cfg.nctx →
              (mask = true → r.num 3 1 = 0) → x.cfg.inCarve c (r.num 8 8) (r.num 2 1 * r.num 4 2 * 4096) (fun v => !v.far) = true →
              (r.num 16 8 ≠ 0 → x.cfg.inCarve c (r.num 16 8) (r.num 2 1 * r.num 4 2 * 4096) (fun v => v.far) = true) →
              r.num 2 1 ≤ x.cfg.looms.length →
              ∃ y e, x.apply r = .ok y ∧ y.stream? id = some e ∧ e.statePtr = r.num 8 8 ∧ e.partLen = r.num 4 2 ∧ e.farPtr = r.num 16 8
                ∧ e.parts = r.num 2 1 ∧ e.ctx = c ∧ e.step = 0 ∧ e.resident = 0
                ∧ (mask = false → e.cadence = r.num 36 4 ∧ e.base = BitVec.ofNat 64 (r.num 40 8) ∧ e.resetAt = 1 ∧ e.lookahead = r.num 48 1)
                ∧ others y)
          ∧ (∀ e, r.type = 0x0102 → x.stream? id = some e → mask = false → e.stat stClosing = false → e.resetAt = 0 →
              (r.num 8 8 ≤ e.step.toNat → x.apply r = .error 8)
                ∧ (e.step.toNat < r.num 8 8 → r.num 8 8 < 2 ^ 64 → ∃ y f, x.apply r = .ok y ∧ y.stream? id = some f ∧ f.resetAt.toNat = r.num 8 8
                    ∧ f.stat stResetPending = true ∧ f.step = e.step ∧ others y))
          ∧ (∀ e, r.type = 0x0103 → x.stream? id = some e → mask = false → e.stat stClosing = false →
              (r.num 8 8 < e.step.toNat → x.apply r = .error 8)
                ∧ (e.step.toNat ≤ r.num 8 8 → r.num 8 8 < 2 ^ 64 → ∃ y f, x.apply r = .ok y ∧ y.stream? id = some f ∧ f.final.toNat = r.num 8 8
                    ∧ f.stat stClosing = true ∧ f.step = e.step ∧ others y))
          ∧ (∀ e, r.type = 0x0103 → x.stream? id = some e → mask = true → e.releasing = false →
              ∃ y f, x.apply r = .ok y ∧ y.stream? id = some f ∧ f.releasing = true ∧ others y)
          ∧ (∀ f, r.type = 0x0108 → x.pool.seq? id = none → id < x.cfg.pools.seqs → (pageFmt (r.num 5 1)).size ≤ x.cfg.pools.frame →
              bit (r.num 6 1) 6 = false →
              lowestRun (fun g => !x.pool.isFree g) x.cfg.pools.pages (tableFrames (r.num 2 2) (r.num 4 1) (r.num 8 4) x.cfg.pools.frame) = some f →
              ∃ y e, x.apply r = .ok y ∧ y.pool.seq? id = some e ∧ e.tableFrame = f ∧ e.length = 0 ∧ e.limit = r.num 8 4 ∧ e.layers = r.num 2 2
                ∧ e.heads = r.num 4 1 ∧ (∀ j, j ≠ id → y.pool.seq? j = x.pool.seq? j) ∧ { y with pool := x.pool } = x)
          ∧ (∀ e, r.type = 0x0109 → x.pool.seq? id = some e → ∃ y, x.apply r = .ok y ∧ y.pool.seq? id = some { e with
              tolerate := bit (r.num 2 1) 0, share := bit (r.num 2 1) 1, pin := bit (r.num 2 1) 2, budget := r.num 4 2, decay := r.num 3 1 }
              ∧ (∀ j, j ≠ id → y.pool.seq? j = x.pool.seq? j) ∧ { y with pool := x.pool } = x)
          ∧ (∀ e, r.type = 0x010A → x.pool.seq? id = some e → ∃ y, x.apply r = .ok y ∧ y.pool.seq? id = none
              ∧ (∀ j, j ≠ id → y.pool.seq? j = x.pool.seq? j) ∧ { y with pool := x.pool } = x)
          ∧ (r.type = 0x0120 → ∃ y, x.apply r = .ok y ∧ (r.num 2 2 = 0 → Tab.find? y.dests (r.num 0 1) = none)
              ∧ (r.num 2 2 ≠ 0 → ∃ d, Tab.find? y.dests (r.num 0 1) = some d ∧ d.interval = r.num 2 2 ∧ d.port = BitVec.ofNat 16 (r.num 4 2)
                  ∧ d.last = none)
              ∧ { y with dests := x.dests } = x))
    ∧ (∀ (s : State) (r : Staged) (n : Word) (p : Fin 16) (x : Part), r.mgmt = true → s.waits r n = false → r.part? = some p →
        s.part? p = some x → r.type = 0x0410 → s.panel? p.val = none →
        let t := s.applyStaged r n
        t.net.outcomes = s.net.outcomes ++ [(r, 0, 0)] ∧ (∀ q, q ≠ p → t.part? q = s.part? q) ∧ t.looms = s.looms
          ∧ ∃ y, t.part? p = some y ∧ y.stopping = some .destroy ∧ (∀ c i, queueOf y c i = []) ∧ (∀ c, (y.ctx c).runs = []) ∧ y.cfg = x.cfg)
    ∧ (∀ (s : State) (r : Staged) (n : Word) (g : Nat), r.mgmt = true → s.waits r n = false → SerialsBelow s.store → r.num 0 1 = 1 → g = r.num 2 2 →
        g < 256 →
        let t := s.applyStaged r n
        (r.type = 0x0320 → s.fenceBusy (2 ^ g) 0 = false → (s.store.update? [.write (objectOf 9 0) (fenceBytes (s.store.fenceLooms ||| 2 ^ g)
            s.store.fenceLinks s.store.fenceMills)]).isSome = true →
            t.net.outcomes = s.net.outcomes ++ [(r, 0, 0)]
              ∧ ∀ h < 256, bit t.store.fenceLooms h = (decide (h = g) || bit s.store.fenceLooms h))
          ∧ (r.type = 0x0321 → (s.store.update? [.write (objectOf 9 0) (fenceBytes (s.store.fenceLooms - (s.store.fenceLooms &&& 2 ^ g))
              s.store.fenceLinks s.store.fenceMills)]).isSome = true →
              t.net.outcomes = s.net.outcomes ++ [(r, 0, 0)]
                ∧ ∀ h < 256, bit t.store.fenceLooms h = (!decide (h = g) && bit s.store.fenceLooms h)))

/-- Messages that only tell (R188, R253, R356, R406, R409): STREAM_STATUS a live stream's entry or zeros, CREEL_STATUS a slot's context to its
partition, TELEMETRY_READ the last sample, ACCT_READ a stored accounting record, SEC_IDENTITY the two identity records; none of them
changes anything. -/
def Obligations.StatusMessagesTell : Prop :=
  (∀ (s : State) (m : Msg) (r : Staged) (u : State) (p : Fin 16) (x : Part), Reaches s (ctrlType 0x0104 true formId) m r u → Targets u r p x →
      (r.num 0 2 < x.cfg.streamCount → ∃ body : List Byte, Done (.streamStatus m) s r body (· = u)
          ∧ body.length = (if x.cfg.maskMode = true then 32 else 128)
          ∧ (x.stream? (r.num 0 2) = none → ∀ b ∈ body, b = 0)
          ∧ (∀ e, x.stream? (r.num 0 2) = some e → beNat (slice body 16 8) = e.resident.toNat
              ∧ (x.cfg.maskMode = false → beNat (slice body 40 8) = e.step.toNat ∧ slice body 97 1 = [e.status])))
        ∧ (x.cfg.streamCount ≤ r.num 0 2 → Replies (.streamStatus m) s r 2 0 [] (· = u)))
    ∧ (∀ (s : State) (m : Msg) (r : Staged) (u : State), Reaches s (ctrlType 0x0112 true [.any 2, .zero 6]) m r u →
        let k := u.slot (Fin.ofNat 1024 (r.num 0 2))
        (r.num 0 2 < 1024 → (r.mgmt = true ∨ (r.part?.isSome = true ∧ k.part = r.part?)) → ∃ body : List Byte,
            Done (.creelStatus m) s r body (· = u)
              ∧ slice body 0 4 = beBytes 2 (r.num 0 2) ++ [BitVec.ofNat 8 k.state, BitVec.ofNat 8 k.engine])
          ∧ (1024 ≤ r.num 0 2 ∨ (r.mgmt = false ∧ k.part ≠ r.part?) → Replies (.creelStatus m) s r 2 0 [] (· = u)))
    ∧ (∀ (s : State) (m : Msg) (r : Staged) (u : State), Reaches s (mgmtType 0x0330 [] false) m r u →
        (∀ n mask bs, u.tele.sample = some (n, mask, bs) →
            Done (.telemetryRead m) s r (beBytes 8 n.toNat ++ beBytes 8 mask.toNat ++ bs) (· = u))
          ∧ (u.tele.sample = none → Done (.telemetryRead m) s r (List.replicate 16 0) (· = u)))
    ∧ (∀ (s : State) (m : Msg) (r : Staged) (u : State), Reaches s (mgmtType 0x0331 [.any 4, .zero 4] false) m r u →
        (∀ c, r.num 0 4 < 2 ^ 24 → u.store.content (objectOf 0x0A (r.num 0 4)) = some c → c.length = 144 →
            ∃ body : List Byte, body.length = 144 ∧ slice body 0 8 = slice c 0 8 ∧ beNat (slice body 8 8) = leNat (slice c 8 8)
              ∧ Done (.acctRead m) s r body (· = u))
          ∧ ((2 ^ 24 ≤ r.num 0 4 ∨ u.store.content (objectOf 0x0A (r.num 0 4)) = none) → Replies (.acctRead m) s r 2 0 [] (· = u)))
    ∧ (∀ (s : State) (m : Msg) (r : Staged) (u : State), Reaches s (secType 0x0400 true false [] false) m r u →
        (u.sec.identity = true → Done (.secIdentity m) s r (identityWire u.identityRecord ++ u.sec.akRecord) (· = u))
          ∧ (u.sec.identity = false → Replies (.secIdentity m) s r 7 0 [] (· = u)))
namespace Sys2Proof.Claims

open Sys2Proof Sys2Proof.Machine

/-- What a mode change of a kind and value sets (R61, R408), and that nothing else of the kind moves. -/
def ModeSet (s t : State) (kind value : Nat) : Prop :=
  t.tele.cap = (if kind = 1 then value else s.tele.cap) ∧ t.tele.ceiling = (if kind = 2 then value else s.tele.ceiling)
    ∧ t.safety.selfTest = (if kind = 3 then value == 1 else s.safety.selfTest)
    ∧ t.tele.mask = (if kind = 4 then BitVec.ofNat 6 value else s.tele.mask)

/-- The participating units that have not answered a change. -/
def silentUnits (s : State) (c : Change) : List Nat := s.participants.filter (fun u => !c.answered.contains (BitVec.ofNat 16 u))

/-- The state with another draft transfer. -/
def withDraft (u : State) (t : Option Transfer) : State := { u with net := { u.net with transfer := t } }

/-- The state with another firmware transfer. -/
def withImage (u : State) (t : Option Transfer) : State := { u with store := { u.store with transfer := t } }

/-- A transfer opens empty, in place of its origin's own; another origin's makes it busy (R348, R402). -/
def Begins (c : Instr) (s : State) (r : Staged) (u : State) (old : Option Transfer) (with_ : State → Option Transfer → State) : Prop :=
  let fresh : Transfer := { origin := hdrOrigin r.msg.hdr, total := r.num 0 4, units := [], bytes := [] }
  (r.num 0 4 ≤ 2 ^ 28 → (∀ t, old = some t → t.origin = hdrOrigin r.msg.hdr) → Done c s r [] (· = with_ u (some fresh)))
    ∧ (∀ t, r.num 0 4 ≤ 2 ^ 28 → old = some t → t.origin ≠ hdrOrigin r.msg.hdr → Replies c s r 7 0 [] (· = u))
    ∧ (2 ^ 28 < r.num 0 4 → Replies c s r 2 0 [] (· = u))

/-- A chunk of an open transfer lands at its offset: multiples of 1,024, but that it may end at the total length (R348, R402). -/
def Takes (c : Instr) (s : State) (r : Staged) (u : State) (old : Option Transfer) (with_ : State → Option Transfer → State) : Prop :=
  let off := r.num 0 4
  let len := r.num 4 4
  ∀ t, old = some t →
    (t.origin = hdrOrigin r.msg.hdr → off % 1024 = 0 → off + len ≤ t.total → (len % 1024 = 0 ∨ off + len = t.total) → r.payload.length = 8 + len →
        ∃ n : Transfer, Done c s r [] (· = with_ u (some n)) ∧ n.origin = t.origin ∧ n.total = t.total
          ∧ (∀ i, Tab.get n.bytes i 0 = if off ≤ i ∧ i < off + len then r.payload.getD (8 + (i - off)) 0 else Tab.get t.bytes i 0)
          ∧ (∀ k, Tab.get n.units k false = (decide (off ≤ 1024 * k ∧ 1024 * k < off + len) || Tab.get t.units k false)))
      ∧ (t.origin ≠ hdrOrigin r.msg.hdr ∨ off % 1024 ≠ 0 → Replies c s r 2 0 [] (· = u))
      ∧ (t.origin = hdrOrigin r.msg.hdr → off % 1024 = 0 → off ≤ t.total → t.total < off + len → Replies c s r 2 4 [] (· = u))

/-- A refusal of the loader (R40, R49): its code is recorded by the loader and stands in LAST_FAULT, and no partition or loom has changed. -/
def Refuses (s t : State) (code : Nat) : Prop :=
  (∃ r, t.safety.flight = s.safety.flight ++ [r] ∧ r.unit = BitVec.ofNat 16 (beamUnit 0x2B) ∧ r.code = BitVec.ofNat 16 code)
    ∧ t.fld .storeDraftState Fl.storeDraftState_LAST_FAULT = code % 65536 ∧ t.parts = s.parts ∧ t.looms = s.looms ∧ t.mem = s.mem

/-- The request behind a draft in hand is owed its outcome (R346). -/
def Owes (s t : State) (l : Loading) (status field : Nat) : Prop :=
  t.draft.loading = none ∧ (∀ r, l.request = some r → t.net.outcomes = s.net.outcomes ++ [(r, status, field)])
    ∧ (l.request = none → t.net.outcomes = s.net.outcomes)

/-- One object has been given content in one transaction, others being as they were; nothing else changes but what the store reports. -/
def Writes (u v : State) (o : BitVec 32) (bs : List Byte) : Prop :=
  v.store.content o = some bs ∧ (∀ q, q ≠ o → v.store.content q = u.store.content q)
    ∧ { v with store := u.store, safety := u.safety } = u

/-- One object has been deleted. -/
def Deletes (u v : State) (o : BitVec 32) : Prop :=
  v.store.content o = none ∧ (∀ q, q ≠ o → v.store.content q = u.store.content q)
    ∧ { v with store := u.store, safety := u.safety } = u

/-- The store takes the items (R401). -/
def HasRoom (u : State) (items : List StoreItem) : Prop := (u.store.update? items).isSome = true

/-- Firmware has restarted alone (R403, R404, R414), CAUSE 3: the image there is runs if it verifies; else none does, and PHASE reads failed. -/
def Restarted (u v : State) (image : Option Nat) : Prop :=
  v.fld .moduleState Fl.moduleState_CAUSE = 3
    ∧ { v with regs := u.regs, store := { v.store with running := u.store.running }, safety := u.safety } = u
    ∧ match image with
      | none => v.store.running = none ∧ v.fld .moduleState Fl.moduleState_PHASE = 6 ∧ v.safety = u.safety
      | some i =>
        if imageOk u.fuses.count ((u.store.content (imageObject i)).getD []) = true then
          v.store.running = some (i, imageSvn ((u.store.content (imageObject i)).getD []), true, u.store.attempts i)
            ∧ v.fld .moduleState Fl.moduleState_PHASE = u.fld .moduleState Fl.moduleState_PHASE ∧ v.safety = u.safety
        else v.store.running = none ∧ v.fld .moduleState Fl.moduleState_PHASE = 6
          ∧ v.safety.flight = u.safety.flight ++ [u.record (beamUnit 0x28) 0x0808 0, u.record (beamUnit 0x2C) 0x0B05 0]

end Sys2Proof.Claims

/-- MODE_ANNOUNCE, MODE_CHANGE_ACK, MODE_CHANGE_DECIDE and MODE_CHANGE_APPLY (R61, R62, R64, R408): a change at least two picks ahead is
announced; units answer it; at its boundary it is committed if all have, a new generation that takes effect loom by loom, and cancelled
otherwise, with the units that were silent counted and no setting changed. -/
def Obligations.ModeChangesAreAgreed : Prop :=
  (∀ (s : State) (m : Msg) (r : Staged) (u : State), Reaches s (mgmtType 0x0210 [.count 8, .any 2, .zero 6, .any 8] false) m r u →
      let kind := r.num 8 2
      let valid := 1 ≤ kind ∧ kind ≤ 4 ∧ modeOk kind (r.num 16 8) = true
      let phase := u.fld .pickMode Fl.pickMode_PHASE
      let refused := fun (status : Nat) => Replies (.modeAnnounce m) s r status 0 [] (fun v => OnlyReports u v [u.record (beamUnit 0x20) 0x0C08 0])
      (valid → phase = 0 → u.pick.formed = true → u.now.toNat + 2 ≤ r.num 0 8 → Done (.modeAnnounce m) s r [] (fun v =>
          v.fld .pickMode Fl.pickMode_PHASE = 1 ∧ (v.reg .pickModePick).toNat = r.num 0 8
            ∧ (∃ c, v.pick.change = some c ∧ c.kind = kind ∧ c.value.toNat = r.num 16 8 ∧ c.pick.toNat = r.num 0 8 ∧ c.answered = [] ∧ c.toApply = [])
            ∧ ModeSet u v 0 0 ∧ { v with regs := u.regs, pick := u.pick } = u))
        ∧ (valid → phase ≠ 0 → refused 7)
        ∧ (valid → phase = 0 → (u.pick.formed = false ∨ r.num 0 8 < u.now.toNat + 2) → refused 2)
        ∧ (kind = 0 ∨ 4 < kind → Replies (.modeAnnounce m) s r 2 8 [] (· = u))
        ∧ (1 ≤ kind → kind ≤ 4 → modeOk kind (r.num 16 8) = false → Replies (.modeAnnounce m) s r 2 16 [] (· = u)))
    ∧ (∀ (s : State) (unit : BitVec 16) (c : Change), s.pick.change = some c → s.fld .pickMode Fl.pickMode_PHASE = 1 →
        s.canAnswer c unit.toNat = true → unit ∉ c.answered → (s.pick.formed = true → s.now.toNat < c.pick.toNat) →
        Gives (.modeChangeAck unit) s (fun t => t.pick.change = some { c with answered := unit :: c.answered } ∧ OnlyPick s t))
    ∧ (∀ (s : State) (c : Change), s.pick.change = some c → s.fld .pickMode Fl.pickMode_PHASE = 1 → s.pick.formed = true →
        c.pick.toNat ≤ s.now.toNat → 1 ≤ c.kind → c.kind ≤ 4 →
        (silentUnits s c = [] → Gives .modeChangeDecide s (fun t =>
            t.fld .pickMode Fl.pickMode_GENERATION = (s.fld .pickMode Fl.pickMode_GENERATION + 1) % 2 ^ 48 ∧ ModeSet s t c.kind c.value.toNat
              ∧ (t.fld .pickMode Fl.pickMode_PHASE = 0 ∧ t.fld .pickMode Fl.pickMode_LAST_OUTCOME = 1 ∧ t.pick.change = none
                  ∨ t.fld .pickMode Fl.pickMode_PHASE = 2 ∧ ∃ d, t.pick.change = some d ∧ d.toApply ≠ []
                    ∧ ∀ u ∈ d.toApply, (s.loom (unitLoom u.toNat)).busy = true)
              ∧ t.safety.flight = s.safety.flight ∧ t.looms = s.looms ∧ t.parts = s.parts))
          ∧ (silentUnits s c ≠ [] → Gives .modeChangeDecide s (fun t =>
              t.fld .pickMode Fl.pickMode_PHASE = 0 ∧ t.fld .pickMode Fl.pickMode_LAST_OUTCOME = 2
                ∧ t.fld .pickMode Fl.pickMode_NOT_ANSWERED = min (silentUnits s c).length 4095
                ∧ t.fld .pickMode Fl.pickMode_GENERATION = s.fld .pickMode Fl.pickMode_GENERATION ∧ t.pick.change = none ∧ ModeSet s t 0 0
                ∧ t.safety.flight.length = s.safety.flight.length + ((silentUnits s c).length + 6) / 7
                ∧ (∀ e ∈ t.safety.flight.drop s.safety.flight.length, e.code = 0x0C06) ∧ t.looms = s.looms ∧ t.parts = s.parts)))
    ∧ (∀ (s : State) (unit : BitVec 16) (c : Change), s.pick.change = some c → unit ∈ c.toApply →
        (s.loom (unitLoom unit.toNat)).busy = false →
        Gives (.modeChangeApply unit) s (fun t =>
          ((∀ u ∈ c.toApply, u = unit) → t.fld .pickMode Fl.pickMode_PHASE = 0 ∧ t.fld .pickMode Fl.pickMode_LAST_OUTCOME = 1
              ∧ t.pick.change = none)
            ∧ ((∃ u ∈ c.toApply, u ≠ unit) → t.regs = s.regs
                ∧ t.pick.change = some { c with toApply := c.toApply.filter (fun u => u != unit) })
            ∧ ModeSet s t 0 0 ∧ t.looms = s.looms ∧ t.parts = s.parts))

/-- Transfers of drafts and of firmware (R348, R402, R420): DRAFT_BEGIN, FW_BEGIN, DRAFT_DATA, FW_DATA, DRAFT_END and DRAFT_ABORT open, fill, hand to
the loader and discard the one transfer of their kind; the outcome of DRAFT_END follows its verdict. -/
def Obligations.TransfersMoveInUnits : Prop :=
  ∀ (s : State) (m : Msg) (r : Staged) (u : State),
    (Reaches s (mgmtType 0x0200 formBegin false) m r u →
        (u.draftPhase = true → Begins (.draftBegin m) s r u u.net.transfer withDraft)
          ∧ (u.draftPhase = false → Replies (.draftBegin m) s r 7 0 [] (· = u)))
      ∧ (Reaches s (mgmtType 0x0300 formBegin false) m r u →
          ((∀ i n a, u.store.running ≠ some (i, n, false, a)) → Begins (.fwBegin m) s r u u.store.transfer withImage)
            ∧ (∀ i n a, u.store.running = some (i, n, false, a) → Replies (.fwBegin m) s r 7 0 [] (· = u)))
      ∧ (Reaches s (mgmtType 0x0201 formData true) m r u → Takes (.draftData m) s r u u.net.transfer withDraft
          ∧ (u.net.transfer = none → Replies (.draftData m) s r 2 0 [] (· = u)))
      ∧ (Reaches s (mgmtType 0x0301 formData true) m r u → Takes (.fwData m) s r u u.store.transfer withImage
          ∧ (u.store.transfer = none → Replies (.fwData m) s r 2 0 [] (· = u)))
      ∧ (Reaches s (mgmtType 0x0202 [] false) m r u →
          (∀ t, u.net.transfer = some t → t.origin = hdrOrigin m.hdr → (∀ k, 1024 * k < t.total → Tab.get t.units k false = true) →
              (u.draft.loading = none → ∃ l : Loading, l.bytes.length = t.total ∧ (∀ i, i < t.total → l.bytes.getD i 0 = Tab.get t.bytes i 0)
                ∧ l.pick = r.pick ∧ l.request = some r
                ∧ Replies (.draftEnd m) s r 1 0 [] (fun v => { v with draft := { v.draft with loading := none } } = withDraft u none
                    ∧ v.draft.loading = some l))
                ∧ (u.draft.loading ≠ none → Replies (.draftEnd m) s r 7 0 [] (· = u)))
            ∧ ((∀ t, u.net.transfer = some t → t.origin ≠ hdrOrigin m.hdr ∨ ∃ k, 1024 * k < t.total ∧ Tab.get t.units k false = false) →
                Replies (.draftEnd m) s r 2 0xFFFF [] (· = u)))
      ∧ (Reaches s (mgmtType 0x0203 [] false) m r u → Done (.draftAbort m) s r [] (fun v =>
          (∀ t, u.net.transfer = some t → t.origin = hdrOrigin m.hdr → v = withDraft u none)
            ∧ ((∀ t, u.net.transfer = some t → t.origin ≠ hdrOrigin m.hdr) → v = u)))

/-- DRAFT_LOADER_VERDICT, PANEL_CHECK_DEADLINE and PANEL_RECHECK (R40, R44, R45, R47, R49): a draft that a step refuses is recorded and changes no
partition; a full draft that passes creates its partitions, none of them started; a panel draft that passes is pending; one whose boundary
comes while it is in hand is refused with 0x0D1B, and a pending one that no longer fits the module is cancelled with 0x0D1D. -/
def Obligations.DraftsAreJudged : Prop :=
  (∀ (s : State) (l : Loading), s.draft.loading = some l →
      (s.panelLate l = true → Gives .draftLoaderVerdict s (fun t => Refuses s t 0x0D1B ∧ Owes s t l 2 0xFFFF)
          ∧ Gives (.panelCheckDeadline (Fin.ofNat 16 (draftTarget l.bytes))) s (fun t => draftTarget l.bytes < 16 →
              Refuses s t 0x0D1B ∧ Owes s t l 2 0xFFFF))
        ∧ (s.panelLate l = false → match s.judge l.bytes l.pick with
            | .error (_, b) => Gives .draftLoaderVerdict s (fun t => Refuses s t b.code ∧ Owes s t l 2 0xFFFF ∧ t.draft.panels = s.draft.panels)
            | .ok cfgs =>
              (s.drbgReady = true → draftPanel l.bytes = false → Gives .draftLoaderVerdict s (fun t => Owes s t l 0 0
                ∧ (∀ e ∈ cfgs, ∃ y, t.part? (Fin.ofNat 16 e.1) = some y ∧ y.cfg = e.2 ∧ y.start = none ∧ y.due = none ∧ y.safe = none
                    ∧ y.entry = .idle ∧ y.streams = [] ∧ y.qps = [] ∧ y.dests = [])
                ∧ (∀ p : Fin 16, (∀ e ∈ cfgs, e.1 ≠ p.val) → t.part? p = s.part? p)
                ∧ (s.fld .moduleState Fl.moduleState_PHASE = 3 → t.fld .moduleState Fl.moduleState_PHASE = 4)
                ∧ t.safety = s.safety))
              ∧ (s.drbgReady = true → draftPanel l.bytes = true → Gives .draftLoaderVerdict s (fun t => Owes s t l 0 0 ∧ t.parts = s.parts
                ∧ t.looms = s.looms ∧ t.safety = s.safety
                ∧ t.draft.panels = s.draft.panels ++ cfgs.map (fun e =>
                    { part := Fin.ofNat 16 e.1, effective := BitVec.ofNat 64 (draftPick l.bytes), cfg := e.2, replaced := false })))))
    ∧ (∀ (s : State) (p : Fin 16) (k : Panel), s.panel? p.val = some k → s.pick.formed = true → k.effective = s.now + 1 →
        (s.panelBroken k = true → Gives (.panelRecheck p) s (fun t => Refuses s t 0x0D1D
            ∧ t.draft.panels = s.draft.panels.filter (fun e => e.part != p)))
          ∧ (s.panelBroken k = false → exec (.panelRecheck p) s = .next s))

/-- PARTITION_START and PANEL_REPLACE (R44, R46, R112, R117, R314, R349): a loaded partition starts at its boundary, at position 0 of its plan, its
sequencers at their entries; once its looms have stopped a replaced partition is cleared but for the carves both drafts keep, and its new
treadlings are loaded; it starts at the boundary after the effective pick. -/
def Obligations.PartitionsStart : Prop :=
  (∀ (s : State) (p : Fin 16) (x : Part) (n : Word), s.part? p = some x → x.start = none → x.due = some n → x.stopping = none →
      s.safety.moduleSafe = false → s.safety.armings.find? p.val = none →
      Gives (.partitionStart p) s (fun t =>
        (∃ y, t.part? p = some y ∧ y.start = some n ∧ y.due = none ∧ y.position = 0
            ∧ y.entry = x.cfg.entryAt n.toNat n.toNat s.safety.selfTest ∧ (∀ c i, queueOf y c i = [])
            ∧ { y with start := x.start, due := x.due, position := x.position, cycles := x.cycles, code := x.code, entry := x.entry,
                       ctxs := x.ctxs } = x)
          ∧ (∀ g : Fin 256, g.val ∈ x.cfg.looms → (t.loom g).part = some p ∧ (t.loom g).store = (s.loom g).store ∧ (t.loom g).fells = []
              ∧ ∀ c, (t.seq { loom := g, ctx := c }).run = .notStarted ∧ (t.seq { loom := g, ctx := c }).tile = none
                ∧ ∀ tr, x.cfg.treads.filter (fun e => e.ctx == c.val && e.loom == g.val) = [tr] →
                    (t.seq { loom := g, ctx := c }).pc = BitVec.ofNat 32 tr.entry)
          ∧ (∀ g : Fin 256, (∀ h ∈ x.cfg.looms, Fin.ofNat 256 h ≠ g) → t.loom g = s.loom g)
          ∧ (∀ q, q ≠ p → t.part? q = s.part? q) ∧ { t with looms := s.looms, parts := s.parts } = s))
    ∧ (∀ (s : State) (p : Fin 16), s.safety.moduleSafe = true → exec (.partitionStart p) s = .next s)
    ∧ (∀ (s : State) (p : Fin 16) (x : Part) (k : Panel), s.panel? p.val = some k → s.part? p = some x → k.replaced = false →
        x.stopping = some .panel → s.stoppedAll x = true →
        Gives (.panelReplace p) s (fun t =>
          (∃ y, t.part? p = some y ∧ y.cfg = x.cfg ∧ y.qps = [] ∧ ∀ c, (∀ i, queueOf y c i = []) ∧ (y.ctx c).runs = [])
            ∧ (∀ g : Fin 256, g.val ∈ k.cfg.looms → (t.loom g).store = k.cfg.loadCode g)
            ∧ (∀ g : Fin 256, g.val ∈ x.cfg.looms → (∀ h ∈ k.cfg.looms, Fin.ofNat 256 h ≠ g) → (t.loom g).store = [])
            ∧ (∀ m c i, t.byteAt (.mill m p c) i = 0) ∧ (∀ q, q ≠ p → t.part? q = s.part? q ∧ ∀ m c i, t.byteAt (.mill m q c) i = s.byteAt (.mill m q c) i)
            ∧ (∀ a, t.byteAt (.cloth p) a = if inAny (kept x.cfg k.cfg) a then s.byteAt (.cloth p) a else 0)
            ∧ (t.sec.sessions.find? p.val = none ∧ t.sec.region.find? p.val = none)
            ∧ ∀ e ∈ t.draft.panels, e.part = p → e.replaced = true))
    ∧ (∀ (s : State) (p : Fin 16) (x : Part) (k : Panel), s.panel? p.val = some k → s.part? p = some x → k.replaced = true →
        x.start.isSome = true → s.pick.formed = true → k.effective.toNat < s.now.toNat → s.safety.moduleSafe = false →
        s.safety.armings.find? p.val = none →
        Gives (.partitionStart p) s (fun t =>
          (∃ y, t.part? p = some y ∧ y.cfg = k.cfg ∧ y.start = some (k.effective + 1) ∧ y.stopping = none ∧ y.safe = none ∧ y.dests = x.dests
              ∧ y.streams = [] ∧ ∀ c i, queueOf y c i = [])
            ∧ (∀ a, t.byteAt (.cloth p) a = if inAny (kept x.cfg k.cfg) a then s.byteAt (.cloth p) a else 0)
            ∧ (∀ g : Fin 256, g.val ∈ k.cfg.looms → (t.loom g).part = some p)
            ∧ (∀ q, q ≠ p → t.part? q = s.part? q) ∧ t.panel? p.val = none))

/-- Firmware (R366, R367, R402 to R405, R414): FW_END commits a verified image into a free instance and reports any other with 0x0808; FW_CONFIRM confirms the running
image and burns the fuses up to its SVN; FW_RESTART, and MGMT_WATCHDOG_EXPIRY while firmware runs, start the confirmed image if it verifies, or leave the
module failed where none does. -/
def Obligations.FirmwareIsVerified : Prop :=
  (∀ (s : State) (m : Msg) (r : Staged) (u : State) (bs : List Byte), Reaches s (mgmtType 0x0302 [] false) m r u →
      (endTransfer u.store.transfer r = none → Replies (.fwEnd m) s r 2 0xFFFF [] (· = u))
        ∧ (endTransfer u.store.transfer r = some bs → u.store.contentTxn (imageObject 0) = none → SerialsBelow u.store →
            HasRoom u [.write (imageObject 0) bs] →
            if imageOk u.fuses.count bs = true then
              Done (.fwEnd m) s r [] (fun v => Writes (withImage u none) v (imageObject 0) bs)
            else Replies (.fwEnd m) s r 2 0xFFFF [] (fun v => OnlyReports (withImage u none) v [u.record (beamUnit 0x28) 0x0808 0])))
    ∧ (∀ (s : State) (m : Msg) (r : Staged) (u : State) (i svn n : Nat) (b : Bool), Reaches s (mgmtType 0x0304 [] false) m r u →
        u.store.running = some (i, svn, b, n) → i < 2 → u.store.contentTxn (imageObject (1 - i)) = none →
        HasRoom u [.confirm (imageObject i) (u.store.imageNote i)] →
        Done (.fwConfirm m) s r [] (fun v => v.store.running = some (i, svn, true, n)
          ∧ v.fuses.count = (if svn ≤ u.fuses.count then u.fuses.count else min svn 127)
          ∧ { v with store := u.store, fuses := u.fuses, safety := u.safety } = u))
    ∧ (∀ (s : State) (m : Msg) (r : Staged) (u : State), Reaches s (mgmtType 0x0303 [] false) m r u →
        let free := u.net.transfer = none ∧ u.store.transfer = none ∧ u.draft.panels = [] ∧ u.fld .pickMode Fl.pickMode_PHASE = 0
        (¬ free → Replies (.fwRestart m) s r 7 0 [] (· = u))
          ∧ (∀ i, free → u.store.images = [i] → u.store.confirmed i = true → Done (.fwRestart m) s r [] (fun v => Restarted u v (some i)))
          ∧ (free → u.store.images = [] → Done (.fwRestart m) s r [] (fun v => Restarted u v none)))
    ∧ (∀ (s : State),
        (s.store.running = none → exec .mgmtWatchdogExpiry s = .next s)
          ∧ (∀ i, s.store.running.isSome = true → s.store.images = [i] → s.store.confirmed i = true →
              Gives .mgmtWatchdogExpiry s (fun t => Restarted s t (some i)))
          ∧ (s.store.running.isSome = true → s.store.images = [] → Gives .mgmtWatchdogExpiry s (fun t => Restarted s t none)))
namespace Sys2Proof.Claims

open Sys2Proof Sys2Proof.Machine

/-- Records of the store with no place: what a full store answers (R401). -/
def StoreFull (c : Instr) (s : State) (r : Staged) (u : State) : Prop :=
  Replies c s r 7 0 [] (fun v => OnlyReports u v [u.record (beamUnit 0x2C) 0x0B03 0])

/-- A message that puts one object: it does where the store has room, and is busy where it has none. -/
def Puts (c : Instr) (s : State) (r : Staged) (u after : State) (o : BitVec 32) (bs : List Byte) : Prop :=
  (HasRoom u [.write o bs] → Done c s r [] (fun v => Writes after v o bs)) ∧ (¬ HasRoom u [.write o bs] → StoreFull c s r u)

/-- A message that deletes one object. -/
def Drops (c : Instr) (s : State) (r : Staged) (u : State) (o : BitVec 32) : Prop :=
  (u.store.contentTxn o = none → Done c s r [] (· = u))
    ∧ (u.store.contentTxn o ≠ none → HasRoom u [.delete o] → Done c s r [] (fun v => Deletes u v o))
    ∧ (u.store.contentTxn o ≠ none → ¬ HasRoom u [.delete o] → StoreFull c s r u)

/-- The request waits for the entropy source, unanswered (R354). -/
def AwaitsEntropy (c : Instr) (s : State) (r : Staged) (u : State) : Prop :=
  exec c s = .next { u with net := { u.net with waiting := u.net.waiting ++ [(96, r)] } }

/-- A record of the security engine is on its way. -/
def Secures (u v : State) (code : Nat) : Prop :=
  ∃ e ∈ v.safety.flight.drop u.safety.flight.length, e.unit = BitVec.ofNat 16 (beamUnit 0x28) ∧ e.code = BitVec.ofNat 16 code

/-- The keys of a session as R359 derives them: 0 K_msg, 1 and 2 the confirmation keys. -/
def sessionKeyOf (g : PendingKem) (ct : List Byte) (k origin i : Nat) : BitVec 256 :=
  hkdf (Config.kemDecap g.secret ct) (sha256 g.quote) (sessionInfo (if k < 16 then k else 0xFF) origin) i

end Sys2Proof.Claims

/-- The store's messages and its compaction (R368, R397, R400, R401, R406): DRAFT_SAVE, NET_SAVE and SIGNER_ENROL write an object, DRAFT_ERASE and
SIGNER_REMOVE delete one, DRAFT_STANDBY_LOAD hands one to the loader; each leaves every other object as it was, and a store without room refuses with
0x0B03; STORE_COMPACT_NOW asks for a pass, COMPACTION_PASS frees the oldest segment, and COMPACTION_WINDOW_END records a pass that is late. -/
def Obligations.StoredObjectsReadBack : Prop :=
  (∀ (s : State) (m : Msg) (r : Staged) (u : State), SerialsBelow u.store →
      (Reaches s (mgmtType 0x0310 formSlot false) m r u → r.num 0 1 < 8 → ∀ bs, endTransfer u.net.transfer r = some bs →
          match firstStep headSteps (u.load bs r.pick) 1 with
          | none => Puts (.draftSave m) s r u (withDraft u none) (standby (r.num 0 1)) bs
          | some (_, b) => Replies (.draftSave m) s r 2 0xFFFF [] (fun v => Refuses (withDraft u none) v b.code ∧ v.store = u.store))
        ∧ (Reaches s (mgmtType 0x0318 [] false) m r u → Puts (.netSave m) s r u u (objectOf 7 0)
            (leBytes 8 (u.reg .netMgmt).toNat ++ leBytes 8 (u.reg .netMgmtAddrHi).toNat ++ leBytes 8 (u.reg .netMgmtAddrLo).toNat))
        ∧ (Reaches s (secType 0x0420 false false [.any 1, .zero 7, .any 32] false) m r u → r.num 0 1 < 8 →
            Puts (.signerEnrol m) s r u u (objectOf 8 (1 + r.num 0 1)) (slice r.payload 8 32))
        ∧ (Reaches s (mgmtType 0x0312 formSlot false) m r u → r.num 0 1 < 8 → Drops (.draftErase m) s r u (standby (r.num 0 1)))
        ∧ (Reaches s (secType 0x0421 false false [.any 1, .zero 7] false) m r u → r.num 0 1 < 8 →
            Drops (.signerRemove m) s r u (objectOf 8 (1 + r.num 0 1)))
        ∧ (Reaches s (mgmtType 0x0311 formSlot false) m r u →
            (∀ bs, r.num 0 1 < 8 → u.store.content (standby (r.num 0 1)) = some bs → u.draftPhase = true → u.draft.loading = none →
                Replies (.draftStandbyLoad m) s r 1 0 []
                  (· = { u with draft := { u.draft with loading := some { bytes := bs, pick := r.pick, request := some r } } }))
              ∧ (8 ≤ r.num 0 1 ∨ u.store.content (standby (r.num 0 1)) = none → Replies (.draftStandbyLoad m) s r 2 0 [] (· = u)))
        ∧ (Reaches s (mgmtType 0x0328 [] false) m r u →
            Done (.storeCompactNow m) s r [] (· = { u with store := { u.store with wanted := true } })))
    ∧ (∀ (s : State), s.compacting = false → exec .compactionPass s = .next s)
    ∧ (∀ (s : State) (a : JRec) (rest : List JRec) (k : Nat), s.compacting = true → s.store.records = a :: rest →
        (∀ e ∈ s.store.records.take k, e.segment = a.segment) → (∀ e ∈ s.store.records.drop k, e.segment ≠ a.segment) →
        (∀ e ∈ s.store.records, e.segment = a.segment → e.kind = 1 → s.store.contentTxn e.object ≠ some e.txn) →
        Gives .compactionPass s (fun t => t.store.records = s.store.records.drop k ∧ t.store.wanted = false
          ∧ (∀ o, t.store.content o = s.store.content o) ∧ { t with store := s.store, safety := s.safety } = s))
    ∧ (∀ (s : State), s.store.passDue = true → s.pick.formed = true → 0 < s.now.toNat → s.windowOpen (s.now - 1) = true →
        s.windowOpen s.now = false →
        Gives .compactionWindowEnd s (fun t => OncePerPick s t (beamUnit 0x2C, 0x0B06, 0) (beamUnit 0x2C) 0x0B06
          ∧ { t with safety := s.safety } = s))

/-- SEC_QUOTE and SEC_SESSION_OPEN (R357, R359): a quote carries its nonce and a fresh key, which replaces the pending one and counts; a session opens over the
pending pair when nonce and confirmation are right, with its keys; a wrong confirmation is recorded with 0x0803 and opens none, and either way the pair is
used up. -/
def Sys2Proof.Claims.QuotesAndSessions : Prop :=
  (∀ (s : State) (m : Msg) (r : Staged) (u : State) (k ak : Nat), Reaches s (secType 0x0401 true false [.any 32] false) m r u →
      u.secKey r = .ok k → u.sec.attestation = some ak →
      (u.sec.entropy = 1 → ∃ q secret, Done (.secQuote m) s r (q ++ Config.kemPublic secret) (fun v =>
          v.sec.pendings.find? k = some { secret := secret, nonce := slice r.payload 0 32, quote := q }
            ∧ (∀ j, j ≠ k → v.sec.pendings.find? j = u.sec.pendings.find? j) ∧ slice q 24 32 = slice r.payload 0 32
            ∧ Counts u v .secCount Fl.secCount_QUOTES 1
            ∧ { v with regs := u.regs, freeCount := u.freeCount, sec := { v.sec with requests := u.sec.requests, pendings := u.sec.pendings } } = u))
        ∧ (u.sec.entropy = 3 → Replies (.secQuote m) s r 7 0 [] (· = u))
        ∧ (u.sec.entropy = 0 ∨ u.sec.entropy = 2 → AwaitsEntropy (.secQuote m) s r u))
    ∧ (∀ (s : State) (m : Msg) (r : Staged) (u : State) (k : Nat), Reaches s (secType 0x0402 true false [.any 32, .any 1568, .any 32] false) m r u →
        u.secKey r = .ok k → u.sec.identity = true →
        (∀ e, u.sec.sessions.find? k = some e → Replies (.secSessionOpen m) s r 7 0 [] (· = u))
          ∧ (u.sec.sessions.find? k = none → u.sec.pendings.find? k = none → Replies (.secSessionOpen m) s r 2 0 [] (· = u))
          ∧ (∀ g, u.sec.sessions.find? k = none → u.sec.pendings.find? k = some g →
              let nonce := slice r.payload 0 32
              let ct := slice r.payload 32 1568
              let o := hdrOrigin m.hdr
              let confirmed := slice r.payload 1600 32 = beBytes 32 (hmac (sessionKeyOf g ct k o 1) (ct ++ nonce)).toNat
              (nonce ≠ g.nonce → Replies (.secSessionOpen m) s r 2 0 [] (· = u.dropPending k))
                ∧ (nonce = g.nonce → ¬ confirmed → Replies (.secSessionOpen m) s r 2 1600 []
                    (fun v => OnlyReports (u.dropPending k) v [u.record (beamUnit 0x28) 0x0803 0]))
                ∧ (nonce = g.nonce → confirmed →
                    Done (.secSessionOpen m) s r (beBytes 32 (hmac (sessionKeyOf g ct k o 2) (ct ++ nonce)).toNat) (fun v =>
                      v.sec.sessions.find? k = some { origin := o, kMsg := sessionKeyOf g ct k o 0, kCt := sessionKeyOf g ct k o 1,
                                                      kCd := sessionKeyOf g ct k o 2 }
                        ∧ (∀ j, j ≠ k → v.sec.sessions.find? j = u.sec.sessions.find? j) ∧ v.sec.pendings.find? k = none
                        ∧ { v with sec := u.sec } = u))))

/-- Keys, zeroisation, debug mode and the entropy source (R354, R361, R363, R368, R369): a staged key load gives a partition its region secret once, a session's
close zeroises its keys; MODULE_ZEROISE is refused while partitions exist, deletes the enrolled keys and signers and records 0x080B; a debug token that
verifies unlocks its scopes and zeroises every key, any other is recorded with 0x0809; the source restarts up to three times, then fails for good with
0x0802. -/
def Sys2Proof.Claims.KeysAreZeroised : Prop :=
  (∀ (s : State) (r : Staged) (n : Word) (p : Fin 16) (x : Part), r.mgmt = false → s.waits r n = false → r.part? = some p → s.part? p = some x →
      x.swatch = none → s.sec.sessions.has p.val = true →
      (r.type = 0x0403 → r.num 0 2 = 1 → itemKind (keyItem r.payload 0) = 1 → s.sec.region.find? p.val = none →
          let t := s.applyStaged r n
          t.sec.region.find? p.val = some (BitVec.ofNat 256 (beNat (slice r.payload 16 32)))
            ∧ (∀ j, j ≠ p.val → t.sec.region.find? j = s.sec.region.find? j) ∧ t.sec.sessions = s.sec.sessions)
        ∧ (r.type = 0x0404 → s.protectedSlotOpen p x = false → r.num 0 1 = 0 →
            let t := s.applyStaged r n
            t.sec.sessions.find? p.val = none ∧ t.sec.region.find? p.val = none ∧ t.sec.sealKeys.find? p.val = none
              ∧ (∀ j, j ≠ p.val → t.sec.sessions.find? j = s.sec.sessions.find? j ∧ t.sec.region.find? j = s.sec.region.find? j)
              ∧ ∀ st i, t.byteAt st i = s.byteAt st i))
    ∧ (∀ (s : State) (m : Msg) (r : Staged) (u : State), Reaches s (secType 0x0411 false false [] false) m r u →
        let objects := ((List.range 9).map (objectOf 8)).filter (fun o => (u.store.contentTxn o).isSome)
        (u.parts ≠ [] → Replies (.moduleZeroise m) s r 7 0 [] (· = u))
          ∧ (u.parts = [] → u.sec.entropy = 1 → (objects = [] ∨ HasRoom u (objects.map .delete)) →
              Done (.moduleZeroise m) s r [] (fun v => (∀ i < 9, v.store.content (objectOf 8 i) = none) ∧ v.sec.sessions.find? 16 = none
                ∧ Secures u v 0x080B ∧ (∀ i, (v.port i).link = (u.port i).link ∧ ((u.port i).link = true → (v.port i).macsec = 0))
                ∧ v.looms = u.looms ∧ v.mem = u.mem ∧ v.fuses = u.fuses)))
    ∧ (∀ (s : State) (m : Msg) (r : Staged) (u : State), Reaches s (secType 0x0430 false false [] false) m r u →
        (u.sec.entropy = 1 → ∃ c : List Byte, c.length = 32 ∧ Done (.debugChallenge m) s r c (fun v => v.sec.challenge = some c
            ∧ { v with freeCount := u.freeCount, sec := { v.sec with requests := u.sec.requests, challenge := u.sec.challenge } } = u))
          ∧ (u.sec.entropy = 3 → Replies (.debugChallenge m) s r 7 0 [] (· = u))
          ∧ (u.sec.entropy = 0 ∨ u.sec.entropy = 2 → AwaitsEntropy (.debugChallenge m) s r u))
    ∧ (∀ (s : State) (m : Msg) (r : Staged) (u : State), Reaches s (secType 0x0431 false false formToken false) m r u →
        (u.parts ≠ [] → Replies (.debugUnlock m) s r 7 0 [] (· = u))
          ∧ (u.parts = [] → tokenBreaks r = none → u.sec.entropy = 1 → match u.tokenFails r with
            | some off => Replies (.debugUnlock m) s r 2 off [] (fun v => OnlyReports u v [u.record (beamUnit 0x28) 0x0809 0])
            | none => Done (.debugUnlock m) s r [] (fun v => v.sec.debug = true ∧ v.sec.scopes = u.sec.scopes ||| BitVec.ofNat 3 (r.num 6 2)
                ∧ v.sec.sessions = [] ∧ v.sec.region = [] ∧ v.sec.sealKeys = [] ∧ v.sec.srtp = [] ∧ v.sec.pendings = [] ∧ Secures u v 0x080A
                ∧ { v with sec := u.sec, safety := u.safety, freeCount := u.freeCount } = u)))
    ∧ (∀ (s : State),
        (s.sec.entropy = 1 → exec .entropyHealthFailure s = .next { s with sec := { s.sec with entropy := 2, restarts := 0 } })
          ∧ (s.sec.entropy = 2 → s.sec.restarts < 2 →
              exec .entropyHealthFailure s = .next { s with sec := { s.sec with restarts := s.sec.restarts + 1 } })
          ∧ (s.sec.entropy = 2 → 2 ≤ s.sec.restarts → Gives .entropyHealthFailure s (fun t => t.sec.entropy = 3
              ∧ t.safety.flight = s.safety.flight ++ [s.record (beamUnit 0x28) 0x0802 0] ∧ (∀ e ∈ t.net.waiting, e.1 ≠ 96)
              ∧ t.parts = s.parts ∧ t.looms = s.looms))
          ∧ (s.sec.entropy = 2 → Gives .entropyRestartComplete s (fun t => t.sec.entropy = 1 ∧ (∀ e ∈ t.net.waiting, e.1 ≠ 96)
              ∧ ((∀ e ∈ s.net.waiting, e.1 ≠ 96) → { t with sec := s.sec } = s))))

/-- Quotes and sessions of the security controller, and the zeroising of keys. -/
def Obligations.QuotesSessionsAndKeys : Prop :=
  Claims.QuotesAndSessions ∧ Claims.KeysAreZeroised
namespace Sys2Proof.Claims

open Sys2Proof Sys2Proof.Machine

/-- MEM_EVAC of the mill of a stack shows a status and what remains. -/
def EvacShows (t : State) (k : Fin 32) (status remaining : Nat) : Prop :=
  t.fld (evacReg k) Fl.memEvac_STATUS = status ∧ t.fld (evacReg k) Fl.memEvac_REMAINING = remaining % 2 ^ 34

/-- FAR_CMD shows a status and what remains. -/
def FarShows (t : State) (status remaining : Nat) : Prop :=
  t.fld .farCmd Fl.farCmd_STATUS = status ∧ t.fld .farCmd Fl.farCmd_REMAINING = remaining % 2 ^ 33

/-- No byte of any storage, no loom and no partition has changed. -/
def MemoryStays (s t : State) : Prop := t.parts = s.parts ∧ t.looms = s.looms ∧ t.mem.millStore = s.mem.millStore

/-- A far-home page of a partition. -/
def pageOf (s : State) (p : Fin 16) (k : Nat) : Option Page := (s.part? p).bind (fun x => x.cloth.pages.find? k)

/-- One page has become another; every byte of every storage, and every other page, is as it was. -/
def PageBecomes (s t : State) (p : Fin 16) (k : Nat) (g : Page) : Prop :=
  pageOf t p k = some g ∧ (∀ q j, ¬ (q = p ∧ j = k) → pageOf t q j = pageOf s q j) ∧ (∀ st i, t.byteAt st i = s.byteAt st i) ∧ t.looms = s.looms

/-- A far port is lost (R308): it reads failed, its reset is asserted, a removal of its pages ends, and 0x0508 is on its way; no byte of cloth changes. -/
def Lost (s t : State) (n : Fin 4) : Prop :=
  (t.farPort n).state = 5 ∧ (t.farPort n).perst = false ∧ (t.farPort n).capacity = (s.farPort n).capacity ∧ t.mem.removal ≠ some n
    ∧ t.safety.flight = s.safety.flight ++ [s.record (farUnit n) 0x0508 0] ∧ MemoryStays s t ∧ ∀ i, i ≠ n → t.farPort i = s.farPort i

end Sys2Proof.Claims

/-- Stacks (R306, R308): the three writes of MEM_EVAC move a ready stack's granules off where the rest has room for them, recalibrate a stack that is out or
failed, and move granules back, and are refused with 0x0509 otherwise; EVACUATION_GRANULE_MOVE moves one granule, one whose CRC fails being reported, until
none is left; STACK_RECALIBRATION_COMPLETE and STACK_FAILURE set the stack's state. Cloth keeps its bytes throughout. -/
def Obligations.StacksAreEvacuated : Prop :=
  (∀ (s : State) (q : WriteReq) (mill : Fin 8) (r : Staged) (u : State), Reaches s typeRegWrite (writeMsg q (.memEvac mill)) r u →
      (Reg.memEvac mill).zeroBits q.value = true →
      let k := stackOf mill (Fl.memEvac_STACK.get q.value)
      let op := Fl.memEvac_OP.get q.value
      let refused := fun (v : State) => EvacShows v k 3 0 ∧ v.safety.flight = u.safety.flight ++ [u.record (stackUnit k) 0x0509 0]
        ∧ v.mem = u.mem ∧ MemoryStays u v
      (op = 1 → ((u.stack k = 2 ∧ u.mem.evac = none ∧ u.evacFits k = true) →
            Done (.memEvacEvacuate mill q) s r [] (fun v => MemoryStays u v ∧ v.safety = u.safety
              ∧ (0 < u.granulesOn k → v.stack k = 3 ∧ v.mem.evac = some (k, u.granulesOn k) ∧ EvacShows v k 1 (u.granulesOn k))
              ∧ (u.granulesOn k = 0 → v.stack k = 4 ∧ v.mem.evac = none ∧ EvacShows v k 2 0)
              ∧ ∀ j, j ≠ k → v.stack j = u.stack j))
          ∧ (¬ (u.stack k = 2 ∧ u.mem.evac = none ∧ u.evacFits k = true) → Done (.memEvacEvacuate mill q) s r [] refused))
        ∧ (op = 2 → ((u.stack k = 4 ∨ u.stack k = 6) ∧ u.mem.recal = none →
            Done (.memEvacRecalibrate mill q) s r [] (fun v => v.mem = { u.mem with recal := some k } ∧ EvacShows v k 4 0 ∧ v.safety = u.safety
              ∧ MemoryStays u v))
          ∧ (¬ ((u.stack k = 4 ∨ u.stack k = 6) ∧ u.mem.recal = none) → Done (.memEvacRecalibrate mill q) s r [] refused))
        ∧ (op = 3 → (u.stack k = 4 ∧ u.mem.evac = none ∧ u.mem.recal ≠ some k →
            Done (.memEvacReturn mill q) s r [] (fun v => MemoryStays u v ∧ v.safety = u.safety ∧ (∀ j, j ≠ k → v.stack j = u.stack j)
              ∧ (v.stack k = 5 ∧ (∃ n, v.mem.evac = some (k, n) ∧ 0 < n ∧ EvacShows v k 1 n)
                  ∨ v.stack k = 2 ∧ v.mem.evac = none ∧ EvacShows v k 2 0)))
          ∧ (¬ (u.stack k = 4 ∧ u.mem.evac = none ∧ u.mem.recal ≠ some k) → Done (.memEvacReturn mill q) s r [] refused)))
    ∧ (∀ (s : State) (k : Fin 32) (n : Nat) (crcOk : Bool), s.mem.evac = some (k, n) →
        Gives (.evacuationGranuleMove (Fin.ofNat 8 (k.val / 4)) crcOk) s (fun t => MemoryStays s t
          ∧ (1 < n → t.mem = { s.mem with evac := some (k, n - 1) } ∧ EvacShows t k 1 (n - 1))
          ∧ (n ≤ 1 → t.mem.evac = none ∧ t.stack k = (if s.stack k = 5 then 2 else 4) ∧ EvacShows t k 2 0)
          ∧ (crcOk = true → t.safety = s.safety)
          ∧ (crcOk = false → t.safety.flight = s.safety.flight ++ [s.record (stackUnit k) 0x0501 0])))
    ∧ (∀ (s : State) (k : Fin 32), s.mem.recal = some k →
        Gives (.stackRecalibrationComplete k true) s (fun t => t.stack k = 4 ∧ t.mem.recal = none ∧ EvacShows t k 2 0 ∧ MemoryStays s t
            ∧ (∀ j, j ≠ k → t.stack j = s.stack j) ∧ ((∀ c : List Byte, c.length = 8 → HasRoom s [.write (objectOf 5 k.val) c]) →
                t.store.calibrated k.val = true))
          ∧ Gives (.stackRecalibrationComplete k false) s (fun t => t.stack k = 6 ∧ t.mem.recal = none ∧ MemoryStays s t ∧ t.store = s.store
            ∧ t.safety.flight = s.safety.flight ++ [s.record (stackUnit k) 0x0507 0]))
    ∧ (∀ (s : State) (k : Fin 32), s.stack k ≠ 6 → Gives (.stackFailure k) s (fun t => t.stack k = 6
        ∧ t.safety.flight = s.safety.flight ++ [s.record (stackUnit k) 0x0507 0] ∧ MemoryStays s t ∧ (∀ j, j ≠ k → t.stack j = s.stack j)
        ∧ (∀ n, t.mem.evac ≠ some (k, n)) ∧ t.mem.recal ≠ some k))

/-- Far ports (R290, R294, R307, R308, R423): the writes of FAR_CMD begin to move the pages off an up port whose pages fit on the others, bring a port up that is
not, and flush, or are refused with 0x0509; FAR_PAGE_MOVE moves one page; PERST_RELEASE and FAR_PORT_TRAINED bring a device of at most 4 TiB up;
FAR_DEVICE_LOST and FAR_DEVICE_PRESENCE_CHANGE take a port out. -/
def Sys2Proof.Claims.FarDevicesComeAndGo : Prop :=
  (∀ (s : State) (q : WriteReq) (r : Staged) (u : State), Reaches s typeRegWrite (writeMsg q .farCmd) r u → (Reg.farCmd).zeroBits q.value = true →
      let n : Fin 4 := Fin.ofNat 4 (Fl.farCmd_PORT.get q.value)
      let op := Fl.farCmd_OP.get q.value
      let k := u.farPort n
      let room := ((List.finRange 4).filter (fun i => i != n)).foldl (fun t i => t + u.freePages i) 0
      let canMove := u.mem.removal = none ∧ u.mem.evac = none ∧ u.mem.flushing = false ∧ k.state = 2 ∧ u.pagesOn n ≤ room
      let refused := fun (v : State) => FarShows v 3 0 ∧ v.safety.flight = u.safety.flight ++ [u.record (farUnit n) 0x0509 0] ∧ v.mem = u.mem
        ∧ MemoryStays u v
      (op = 1 → (canMove → Done (.farCmdMovePagesOff q) s r [] (fun v => MemoryStays u v ∧ v.safety = u.safety
              ∧ (0 < u.pagesOn n → (v.farPort n).state = 3 ∧ v.mem.removal = some n ∧ FarShows v 1 (u.pagesOn n))
              ∧ (u.pagesOn n = 0 → (v.farPort n).state = 4 ∧ v.mem.removal = none ∧ FarShows v 2 0)))
          ∧ (¬ canMove → Done (.farCmdMovePagesOff q) s r [] refused))
        ∧ (op = 2 → (¬ (k.state = 1 ∨ k.state = 2 ∨ k.state = 3) → Done (.farCmdBringUp q) s r [] (fun v =>
              v.farPort n = { k with state := 1, clock := true, perst := false } ∧ FarShows v 1 0 ∧ MemoryStays u v ∧ v.safety = u.safety))
          ∧ (k.state = 1 ∨ k.state = 2 ∨ k.state = 3 → Done (.farCmdBringUp q) s r [] (fun v => FarShows v 2 0 ∧ v.mem = u.mem
              ∧ MemoryStays u v)))
        ∧ (op = 3 → (u.mem.removal = none → u.mem.flushing = false →
              Done (.farCmdFlush q) s r [] (fun v => (∀ st i, v.byteAt st i = u.byteAt st i) ∧ v.looms = u.looms ∧ v.safety = u.safety
                ∧ (∀ p j g, pageOf u p j = some g → g.dirty ≠ [] ∨ g.writing = true →
                    (∃ h, pageOf v p j = some h ∧ h.writing = true ∧ h.flush = true) ∧ v.mem.flushing = true
                      ∧ v.fld .farCmd Fl.farCmd_STATUS = 1)
                ∧ ((∀ e ∈ u.farPages, e.2.2.dirty = [] ∧ e.2.2.writing = false ∧ e.2.2.flush = false) →
                    v.mem.flushing = false ∧ FarShows v 2 0 ∧ v.parts = u.parts)))
          ∧ (¬ (u.mem.removal = none ∧ u.mem.flushing = false) → Done (.farCmdFlush q) s r [] refused)))
    ∧ (∀ (s : State) (port other : Fin 4) (p : Fin 16) (k : Nat) (g : Page), s.mem.removal = some port →
        s.farPages.find? (fun e => e.2.2.port == port.val) = some (p, k, g) → pageOf s p k = some g → s.nextPort port = some other →
        Gives (.farPageMove port) s (fun t =>
          (∃ h, PageBecomes s t p k h ∧ h.port = other.val ∧ (g.dirty = [] → h = { g with port := other.val })
              ∧ (g.dirty ≠ [] → h.dirty = [] ∧ h.writing = false ∧ Counts s t (.memStage (Fin.ofNat 8 g.mill)) Fl.memStage_WRITEBACKS 1))
            ∧ (t.pagesOn port = 0 → (t.farPort port).state = 4 ∧ t.mem.removal = none ∧ FarShows t 2 0)
            ∧ (t.pagesOn port ≠ 0 → t.farPort port = s.farPort port ∧ t.mem.removal = some port ∧ FarShows t 1 (t.pagesOn port))))
    ∧ (∀ (s : State) (n : Fin 4), (s.farPort n).state = 1 →
        ((s.farPort n).clock = true → Gives (.perstRelease n) s (fun t => t.farPort n = { s.farPort n with perst := true }
            ∧ (∀ i, i ≠ n → t.farPort i = s.farPort i) ∧ { t with mem := { t.mem with far := s.mem.far } } = s))
          ∧ (∀ gib : BitVec 13, (s.farPort n).perst = true → gib.toNat ≤ 4096 → Gives (.farPortTrained n true gib) s (fun t =>
              t.farPort n = { s.farPort n with state := 2, capacity := gib.toNat } ∧ MemoryStays s t))
          ∧ (∀ (ok : Bool) (gib : BitVec 13), (s.farPort n).perst = true → (ok = false ∨ 4096 < gib.toNat) →
              Gives (.farPortTrained n ok gib) s (fun t => t.farPort n = { s.farPort n with state := 5, perst := false } ∧ MemoryStays s t)))
    ∧ (∀ (s : State) (n : Fin 4),
        ((s.farPort n).state = 2 ∨ (s.farPort n).state = 3 → Gives (.farDeviceLost n) s (fun t => Lost s t n ∧ (t.farPort n).present = (s.farPort n).present))
          ∧ ((s.farPort n).present = true → (s.farPort n).state ≠ 4 →
              Gives (.farDevicePresenceChange n false) s (fun t => Lost s t n ∧ (t.farPort n).present = false))
          ∧ ((s.farPort n).present = true → (s.farPort n).state = 4 → Gives (.farDevicePresenceChange n false) s (fun t =>
              t.farPort n = FarPort.reset ∧ t.safety = s.safety ∧ MemoryStays s t))
          ∧ ((s.farPort n).present = false → Gives (.farDevicePresenceChange n true) s (fun t =>
              t.farPort n = { s.farPort n with present := true } ∧ t.safety = s.safety ∧ MemoryStays s t)))

/-- Far-home pages (R292, R293, R308): STAGING_COMPLETE makes a page's near copy the one that is read, WRITE_BACK_COMPLETE leaves only what was written since dirty and frees an
evicted page once it is clean, WRITE_BACK_FAILURE leaves the page staged and dirty, with 0x050A, and the third in succession loses the port with 0x0508. -/
def Sys2Proof.Claims.FarPagesAreStagedAndWrittenBack : Prop :=
  ∀ (s : State) (p : Fin 16) (x : Part) (k : BitVec 27) (g : Page), s.part? p = some x → pageOf s p k.toNat = some g →
    let n : Fin 4 := Fin.ofNat 4 g.port
    (g.staging = true → Gives (.stagingComplete p k) s (fun t =>
        PageBecomes s t p k.toNat { g with staged := some x.cloth.stagings, staging := false }
          ∧ Counts s t (.memStage (Fin.ofNat 8 g.mill)) Fl.memStage_STAGES 1 ∧ t.safety = s.safety))
      ∧ (g.staging = false → exec (.stagingComplete p k) s = .next s)
      ∧ (g.writing = true → Gives (.writeBackComplete p k) s (fun t => ∃ h, PageBecomes s t p k.toNat h ∧ h.dirty = g.again ∧ h.again = []
          ∧ h.fails = 0 ∧ h.flush = false ∧ h.unwritten = false ∧ h.port = g.port
          ∧ (g.evict = false → h.writing = false ∧ h.staged = g.staged)
          ∧ (g.evict = true → g.again = [] → h.staged = none ∧ h.evict = false ∧ h.writing = false)
          ∧ (g.evict = true → g.again ≠ [] → h.staged = g.staged ∧ h.writing = true)
          ∧ Counts s t (.memStage (Fin.ofNat 8 g.mill)) Fl.memStage_WRITEBACKS 1 ∧ t.safety = s.safety))
      ∧ (g.writing = true → Gives (.writeBackFailure p k) s (fun t => ∃ h, PageBecomes s t p k.toNat h ∧ h.writing = false ∧ h.fails = g.fails + 1
          ∧ h.staged = g.staged ∧ (∀ b, Tab.get g.dirty b false = true ∨ (∃ e ∈ g.again, e.1 = b) → Tab.get h.dirty b false = true)
          ∧ (g.fails < 2 → Counts s t (.farCount n) Fl.farCount_WB_FAIL 1 ∧ t.safety.flight = s.safety.flight ++ [s.record (farUnit n) 0x050A 0]
              ∧ t.mem = s.mem)
          ∧ (2 ≤ g.fails → (t.farPort n).state = 5 ∧ t.safety.flight = s.safety.flight ++ [s.record (farUnit n) 0x0508 0])))

/-- Far devices come and go; far pages are staged and written back. -/
def Obligations.FarMemoryServesItsPages : Prop :=
  Claims.FarDevicesComeAndGo ∧ Claims.FarPagesAreStagedAndWrittenBack
namespace Sys2Proof.Claims

open Sys2Proof Sys2Proof.Machine

/-- An RTP packet comes to a stream of its partition: port, endpoint, SSRC, version and payload type fit (R248). -/
structure Hears (s : State) (k : RtpPkt) (x : Part) (c : CreelCfg) : Prop where
  link : (s.port k.port).link = true
  clear : (s.port k.port).macsec ≠ 1
  part : s.part? k.part = some x
  live : x.replaying = false
  endpoint : ∃ e, x.cfg.endpoints[k.endpoint.toNat]? = some e ∧ e.plane = 2 ∧ e.port ≠ 0 ∧ names e.banks (bankOf k.port) = true
  stream : s.rtpSlot k.part x k.endpoint.toNat k.ssrc.toNat = some c

/-- The piece that a packet brings. -/
def pieceOf (k : RtpPkt) : Piece := { seq := k.seq.toNat, marker := k.marker, bytes := k.payload, dropped := false }

/-- A slot's frames are those of fs; one that is complete with them, and has not been handed to decode, is handed over now. Nothing else
has changed, if the stream is not paused. -/
def Assembled (s t : State) (i : Fin 1024) (fs : List FrameIn) : Prop :=
  let g := s.slot i
  let h : Slot := { g with frames := fs }
  t.slot i = { g with frames := fs.map (fun f => if f.handed.isNone && h.complete f then { f with handed := some s.arrival } else f) }
    ∧ (∀ j, j ≠ i → t.slot j = s.slot j) ∧ t.safety = s.safety ∧ t.parts = s.parts ∧ t.looms = s.looms ∧ t.mem = s.mem
    ∧ (g.state = 1 → t.regs = s.regs)

/-- A sample-ready entry has gone to the end of the slot's queue; every other queue is as it was. -/
def Posted (s t : State) (p : Fin 16) (x : Part) (c : CreelCfg) (w0 frame addr : Nat) (pick : Word) : Prop :=
  let ctx : Fin 8 := Fin.ofNat 8 c.ctx
  ∃ y, t.part? p = some y
    ∧ queueOf y ctx c.queue = queueOf x ctx c.queue ++ [{ w0 := BitVec.ofNat 64 w0, w1 := BitVec.ofNat 64 frame, w2 := pick,
                                                          w3 := BitVec.ofNat 64 addr, pick := pick, beat := s.beat, run := false, held := false }]
    ∧ ∀ d j, ¬ (d = ctx ∧ j = c.queue) → queueOf y d j = queueOf x d j

/-- An ABSENT entry: no tensor, with a kind or a fault code. -/
def absentWord (c : CreelCfg) (code : Nat) : Nat := c.slot + 0x8000 * 2 ^ 16 + code * 2 ^ 32

/-- A stream faults with a code (R255, R264): its input is gone and counted, a record is on its way, and one ABSENT entry is posted, or owed
while the queue is full. No byte of any storage changes. -/
def CreelFaults (s t : State) (i : Fin 1024) (p : Fin 16) (x : Part) (c : CreelCfg) (code : Nat) : Prop :=
  let g := s.slot i
  (t.slot i).state = 3 ∧ (t.slot i).lastFault = BitVec.ofNat 16 code ∧ (t.slot i).frames = [] ∧ (t.slot i).decoding = none
    ∧ t.safety.flight = s.safety.flight ++ [s.record (beamUnit 0x22) code (i.val + p.val * 2 ^ 16)]
    ∧ Counts s t (.creelCount i) Fl.creelCount_LOST (g.frames.foldl (fun n f => n + f.pieces.length) 0)
    ∧ (x.creelFull c = true → (t.slot i).owed = some code ∧ t.parts = s.parts)
    ∧ (x.creelFull c = false → (t.slot i).owed = none ∧ Posted s t p x c (absentWord c code) g.frame 0 (s.pickFor x)
        ∧ (t.slot i).frame = g.frame + 1)
    ∧ (∀ j, j ≠ i → t.slot j = s.slot j) ∧ ∀ st a, t.byteAt st a = s.byteAt st a

/-- Decode begins on a frame, or faults the stream: its size is held against the admission ceiling, then against the crop (R255). -/
def DecodeBegins (s t : State) (i : Fin 1024) (p : Fin 16) (x : Part) (c : CreelCfg) (f : FrameIn) : Prop :=
  let g := s.slot i
  let begun := fun (h : Slot) => t.slot i = { h with decoding := some f, posted := 0 } ∧ t.safety = s.safety ∧ t.parts = s.parts
    ∧ (∀ j, j ≠ i → t.slot j = s.slot j) ∧ t.looms = s.looms ∧ ∀ st a, t.byteAt st a = s.byteAt st a
  match f.absent c.format g.history, Config.readHeader c.format g.history f.input with
  | none, .size w h level =>
    let (x0, y0, cw, ch) := g.crop
    let fits := w ≤ c.width ∧ h ≤ c.height
    let cropped := cw ≠ 0 → x0 + cw ≤ w ∧ y0 + ch ≤ h
    (fits → cropped → begun { g with level := level % 256 }) ∧ (¬ fits → CreelFaults s t i p x c 0x0101)
      ∧ (fits → ¬ cropped → CreelFaults s t i p x c 0x0104)
  | none, .unsupported => CreelFaults s t i p x c 0x0102
  | _, _ => begun g

/-- A slot pauses for want of room: what it decodes stays. -/
def Pauses (s t : State) (i : Fin 1024) : Prop :=
  (t.slot i).state = (if (s.slot i).state = 1 then 2 else (s.slot i).state) ∧ (t.slot i).decoding = (s.slot i).decoding
    ∧ (t.slot i).posted = (s.slot i).posted ∧ ((s.slot i).state = 1 → Counts s t (.creelCount i) Fl.creelCount_PAUSES 1)
    ∧ (∀ j, j ≠ i → t.slot j = s.slot j) ∧ t.parts = s.parts ∧ t.safety = s.safety

/-- A frame has left decode: its bytes are reference history, and a ring's CONSUMED has passed its record. -/
def Leaves (t : State) (p : Fin 16) (i : Fin 1024) (g : Slot) (f : FrameIn) : Prop :=
  (t.slot i).decoding = none ∧ (t.slot i).history = g.history ++ [f.input]
    ∧ (f.ringEnd ≠ 0 → (t.slot i).ringRead = f.ringEnd ∧ t.bytesAt (.cloth p) (g.num 0x10 8 + 8) 8 = leBytes 8 f.ringEnd)

/-- A stream that can decode: open, with nothing in decode, in a partition that runs. -/
structure CanDecode (s : State) (i : Fin 1024) (p : Fin 16) (x : Part) (c : CreelCfg) : Prop where
  cfg : s.creelCfg i = some (p, x, c)
  running : (s.slot i).state = 1
  free : (s.slot i).decoding = none ∧ s.engineBusy (s.slot i).engine = false
  safe : x.safe = none ∧ s.safety.moduleSafe = false
  live : x.replaying = false

end Sys2Proof.Claims

/-- Packets and frames (R248 to R250, R365): RTP_PACKET latches a packet of a new or a waiting frame, once, and hands over a frame that it completes;
a late packet counts in LATE_PKTS, one of a faulted stream in LOST, one that names no stream in BAD_HEADER, an SRTP packet that fails in
AUTH_FAIL, and none of them does more; RTCP_PACKET does nothing; CREEL_FRAME_DEADLINE hands over every frame whose deadline boundary has come and counts its missing
packets as lost. -/
def Obligations.CreelFramesAreAssembled : Prop :=
  (∀ (s : State) (k : RtpPkt) (x : Part) (c : CreelCfg), Hears s k x c →
      let i : Fin 1024 := Fin.ofNat 1024 c.slot
      let g := s.slot i
      let q := pieceOf k
      let f₀ : FrameIn := { unit := k.stamp.toNat, pick := s.arrival, pieces := [q], ringEnd := 0, handed := none, broken := false }
      let taken := k.version = 2 ∧ k.ptype.toNat = g.num 0x0C 1
      let room := fun (fs : List FrameIn) => g.state = 1 ∨ (g.state = 2 ∧ ({ g with frames := fs } : Slot).buffered ≤ c.jitter)
      (¬ taken → exec (.rtpPacket k) s = .next (s.bump .netCount Fl.netCount_BAD_HEADER 1))
        ∧ (taken → g.state = 3 → exec (.rtpPacket k) s = .next (s.bump (.creelCount i) Fl.creelCount_LOST 1))
        ∧ (taken → g.state = 4 → exec (.rtpPacket k) s = .next s)
        ∧ (taken → srtpFormat c.format = false → g.frames.find? (fun f => f.unit == k.stamp.toNat) = none →
            (∀ l, g.lastStamp = some l → before (2 ^ 32) l k.stamp.toNat = true) → room (g.frames ++ [f₀]) →
            Gives (.rtpPacket k) s (fun t => Assembled s t i (g.frames ++ [f₀])))
        ∧ (∀ f, taken → srtpFormat c.format = false → g.frames.find? (fun f => f.unit == k.stamp.toNat) = some f → g.state = 1 ∨ g.state = 2 →
            let fs := g.frames.map (fun (h : FrameIn) => if h.unit = k.stamp.toNat then ({ h with pieces := h.pieces ++ [q] } : FrameIn) else h)
            let dup := ∃ e ∈ f.pieces, e.seq = k.seq.toNat
            let late := f.handed.isSome = true ∨ f.pick.toNat + g.num 0x0E 2 ≤ s.arrival.toNat
            (dup → exec (.rtpPacket k) s = .next s)
              ∧ (¬ dup → late → exec (.rtpPacket k) s = .next (s.bump (.creelCount i) Fl.creelCount_LATE_PKTS 1))
              ∧ (¬ dup → ¬ late → room fs → Gives (.rtpPacket k) s (fun t => Assembled s t i fs)))
        ∧ (∀ l, taken → srtpFormat c.format = false → g.frames.find? (fun f => f.unit == k.stamp.toNat) = none → g.state = 1 ∨ g.state = 2 →
            g.lastStamp = some l → before (2 ^ 32) l k.stamp.toNat = false → g.decoding = none →
            exec (.rtpPacket k) s = .next (s.bump (.creelCount i) Fl.creelCount_LATE_PKTS 1))
        ∧ (∀ key salt n, taken → srtpFormat c.format = true → g.state = 1 ∨ g.state = 2 → s.sec.srtp.find? i.val = some (key, salt) →
            srtpIndex g.seen k.seq.toNat = some n →
            (srtpReplayed g.seen n = true → exec (.rtpPacket k) s = .next (s.bump (.creelCount i) Fl.creelCount_AUTH_FAIL 1))
              ∧ (srtpReplayed g.seen n = false → match srtpOpen key salt n k.ssrc (rtpBytes k) with
                | none => exec (.rtpPacket k) s = .next (s.bump (.creelCount i) Fl.creelCount_AUTH_FAIL 1)
                | some bs => g.frames = [] → g.lastStamp = none → g.state = 1 → Gives (.rtpPacket k) s (fun t =>
                    (t.slot i).seen = srtpSeen g.seen n ∧ (t.slot i).frames.map (fun f => (f.unit, f.pieces))
                      = [(k.stamp.toNat, [{ q with bytes := bs }])])))
        ∧ (taken → srtpFormat c.format = true → g.state = 1 ∨ g.state = 2 → s.sec.srtp.find? i.val = none →
            exec (.rtpPacket k) s = .next (s.bump (.creelCount i) Fl.creelCount_AUTH_FAIL 1)))
    ∧ (∀ (g : Slot) (f : FrameIn) (a : Nat) (m : Piece), g.firstOf f = some a → a < 65536 → m ∈ f.pieces → m.marker = true →
        (∀ q ∈ f.pieces, q.marker = true → q = m) → (∀ q ∈ f.pieces, q.seq < 65536) → (f.pieces.map (fun q => q.seq)).Nodup →
        (g.complete f = true ↔ ∀ j < spanOf a ((m.seq + 1) % 65536), ∃ q ∈ f.pieces, q.seq = (a + j) % 65536))
    ∧ (∀ (s : State) (port : Fin 8), exec (.rtcpPacket port) s = .next s)
    ∧ (∀ (s : State) (i : Fin 1024), (s.slot i).state = 1 ∨ (s.slot i).state = 2 → s.pick.formed = true →
        let g := s.slot i
        let due := fun (f : FrameIn) => f.handed.isNone && decide (f.pick.toNat + g.num 0x0E 2 ≤ s.now.toNat)
        Gives (.creelFrameDeadline i) s (fun t =>
          t.slot i = { g with frames := g.frames.map (fun f =>
              if due f then { f with handed := some (BitVec.ofNat 64 (f.pick.toNat + g.num 0x0E 2)) } else f) }
            ∧ Counts s t (.creelCount i) Fl.creelCount_LOST ((g.frames.filter due).foldl (fun n f => n + g.missing f) 0)
            ∧ (∀ j, j ≠ i → t.slot j = s.slot j) ∧ { t with regs := s.regs, slots := s.slots } = s))

/-- Decode (R251, R255, R258, R260 to R264): CREEL_DECODE_START takes the oldest frame handed over, or the ring's next record, and begins on it unless its
size breaks the ceiling or the crop, which faults the stream; CREEL_DECODE_COMPLETE writes the next picture's sample, raises WRITTEN and posts its entry, posts an
ABSENT entry for a frame that gives no picture, and pauses a stream without room; CREEL_RESUME resumes it once there is room, and posts what a fault owes. -/
def Obligations.CreelFramesAreDecoded : Prop :=
  (∀ (s : State) (i : Fin 1024) (p : Fin 16) (x : Part) (c : CreelCfg), CanDecode s i p x c →
      let g := s.slot i
      (∀ f, rtpFormat c.format = true → g.nextFrame = some f →
          let u := s.setSlot i { g with frames := g.frames.erase f, nextSeq := f.after, lastStamp := some f.unit }
          Gives (.creelDecodeStart i) s (fun t => DecodeBegins u t i p x c f))
        ∧ (rtpFormat c.format = true → g.nextFrame = none → exec (.creelDecodeStart i) s = .next s)
        ∧ (∀ unit addr len pos, rtpFormat c.format = false →
            (x.cfg.touchesProtected (g.num 0x10 8) (g.num 0x18 4) = true → s.hasRegion p = true) → s.ringNext p c g = .record unit addr len pos →
            s.anyBad (.cloth p) addr len = false → s.anyTagBad (.cloth p) addr len = false →
            let u := s.setSlot i { g with ringSeen := max g.ringSeen (s.word64 p (g.num 0x10 8)) }
            Gives (.creelDecodeStart i) s (fun t => ∃ f, DecodeBegins u t i p x c f ∧ f.unit = unit ∧ f.ringEnd = pos ∧ f.broken = false
              ∧ f.handed = some s.now ∧ f.input = [s.bytesAt (.cloth p) addr len]))
        ∧ (rtpFormat c.format = false → (x.cfg.touchesProtected (g.num 0x10 8) (g.num 0x18 4) = true → s.hasRegion p = true) →
            s.ringNext p c g = .malformed → Gives (.creelDecodeStart i) s (fun t => CreelFaults s t i p x c 0x0108)))
    ∧ (∀ (s : State) (i : Fin 1024) (p : Fin 16) (x : Part) (c : CreelCfg) (f : FrameIn), s.creelCfg i = some (p, x, c) → x.safe = none →
        s.safety.moduleSafe = false → x.swatch = none → (s.slot i).decoding = some f →
        let g := s.slot i
        (s.releasedNow p c g = none → Gives (.creelDecodeComplete i) s (fun t => CreelFaults s t i p x c 0x0108))
          ∧ (∀ r, s.releasedNow p c g = some r →
              let pick := s.pickFor x
              let room := ({ g with released := r } : Slot).ringFull = false ∧ x.creelFull c = false
              match f.absent c.format g.history with
              | some kind =>
                (room → Gives (.creelDecodeComplete i) s (fun t => Posted s t p x c (absentWord c kind) g.frame 0 pick ∧ Leaves t p i g f
                    ∧ (t.slot i).frame = g.frame + 1 ∧ (t.slot i).written = g.written
                    ∧ t.safety.flight = s.safety.flight ++ [s.record (beamUnit 0x22) 0x0107 (i.val + p.val * 2 ^ 16)]))
                  ∧ (¬ room → Gives (.creelDecodeComplete i) s (fun t => Pauses s t i))
              | none =>
                let pics := Config.decodeFrame c.format g.history f.input
                match pics[g.posted]? with
                | none => Gives (.creelDecodeComplete i) s (fun t => Leaves t p i g f ∧ (∀ d j, ∀ y, t.part? p = some y → queueOf y d j = queueOf x d j)
                    ∧ t.safety = s.safety)
                | some pic =>
                  let addr := c.ringBase + 4096 + g.written % max 1 g.sampleSlots * g.sampleBytes
                  let rec_ := g.sample i.val pic f.unit (f.handed.getD pick) (g.tensor pic)
                  (g.colour ≠ 0 → pic.components < 3 → Gives (.creelDecodeComplete i) s (fun t => CreelFaults s t i p x c 0x0102))
                    ∧ ((g.colour = 0 ∨ 3 ≤ pic.components) → ¬ room → Gives (.creelDecodeComplete i) s (fun t => Pauses s t i))
                    ∧ ((g.colour = 0 ∨ 3 ≤ pic.components) → room → Gives (.creelDecodeComplete i) s (fun t =>
                        Posted s t p x c (c.slot + sampleFlags pic * 2 ^ 16) g.frame addr pick
                          ∧ (t.slot i).written = g.written + 1 ∧ (t.slot i).frame = g.frame + 1
                          ∧ (g.posted + 1 < pics.length → (t.slot i).decoding = some f ∧ (t.slot i).posted = g.posted + 1)
                          ∧ (pics.length ≤ g.posted + 1 → Leaves t p i g f)
                          ∧ (f.ringEnd = 0 → t.bytesAt (.cloth p) c.ringBase 8 = leBytes 8 (g.written + 1)
                              ∧ (g.fits pic = true → t.bytesAt (.cloth p) addr rec_.length = rec_
                                ∧ ∀ st a, (st = .cloth p → (a < c.ringBase ∨ c.ringBase + 8 ≤ a) ∧ (a < addr ∨ addr + rec_.length ≤ a)) →
                                    t.byteAt st a = s.byteAt st a))))))
    ∧ (∀ (s : State) (i : Fin 1024) (p : Fin 16) (x : Part) (c : CreelCfg), s.creelCfg i = some (p, x, c) → x.safe = none →
        s.safety.moduleSafe = false → x.creelFull c = false →
        let g := s.slot i
        (∀ code, g.owed = some code → Gives (.creelResume i) s (fun t => (t.slot i).owed = none ∧ (t.slot i).state = g.state
            ∧ Posted s t p x c (absentWord c code) g.frame 0 (s.pickFor x) ∧ t.safety = s.safety))
          ∧ (∀ r, g.owed = none → g.state = 2 → s.releasedNow p c g = some r →
              Gives (.creelResume i) s (fun t => t = s.setSlot i (if g.written - r < g.sampleSlots then { g with released := r, state := 1 }
                else { g with released := r })))
          ∧ (g.owed = none → g.state = 2 → s.releasedNow p c g = none → Gives (.creelResume i) s (fun t => CreelFaults s t i p x c 0x0108)))
namespace Sys2Proof.Claims

open Sys2Proof Sys2Proof.Machine

/-- A queue pair that carries traffic, with the endpoint it stands on and the port on which its packets leave. -/
structure QpUp (s : State) (p : Fin 16) (x : Part) (i : Nat) (q : Qp) (e : EndpointCfg) (port : Fin 8) : Prop where
  part : s.part? p = some x
  pair : x.qp? i = some q
  runs : q.error = false
  endpoint : x.cfg.endpoints[q.endpoint]? = some e
  leaves : s.qpPort q.bank i = some port
  clear : (s.port port).macsec ≠ 1

/-- A request comes to a queue pair, on a port that takes frames and not marked by congestion (R335). -/
structure ToQp (s : State) (k : RdmaReq) (p : Fin 16) (x : Part) (i : Nat) (q : Qp) (e : EndpointCfg) (port : Fin 8) : Prop where
  up : QpUp s p x i q e port
  link : (s.port k.port).link = true
  clear : (s.port k.port).macsec ≠ 1
  named : s.qpOf k.qpn = some (p, x, i, q)
  unmarked : k.ce = false

/-- The state once its frame has been seen (R330). -/
def heardQp (s : State) (k : RdmaReq) (q : Qp) (e : EndpointCfg) : State := s.sawFrame k.port.val e.vlan q.remote k.srcMac

/-- A packet of a queue pair, to its remote address. -/
def qpPacket (q : Qp) (e : EndpointCfg) (port : Fin 8) (kind : PktKind) (mac : Option (BitVec 48)) (bs : List Byte) : Packet :=
  { kind := kind, port := port.val, vlan := e.vlan, mac := mac, dst := q.remote, dstPort := 4791, bytes := bs }

/-- An acknowledgement of a PSN with a syndrome: 0 for an ACK. -/
def answerBytes (q : Qp) (psn : BitVec 24) (syndrome : Nat) : List Byte := q.header 0x11 psn ++ beBytes 1 syndrome

/-- The queue pair of a partition is now q; everything else of every partition, but for cloth space, is as it was. -/
def PairBecomes (s t : State) (p : Fin 16) (x : Part) (i : Nat) (q : Qp) : Prop :=
  (∃ y, t.part? p = some y ∧ y.qp? i = some q ∧ (∀ j, j ≠ i → y.qp? j = x.qp? j) ∧ { y with qps := x.qps, cloth := x.cloth } = x)
    ∧ (∀ r, r ≠ p → t.part? r = s.part? r) ∧ t.looms = s.looms ∧ t.slots = s.slots

/-- Bytes of one storage have been written; no other byte has changed. -/
def BytesBecome (s t : State) (st : Store) (a : Nat) (bs : List Byte) : Prop :=
  t.bytesAt st a bs.length = bs ∧ ∀ su i, (su = st → i < a ∨ a + bs.length ≤ i) → t.byteAt su i = s.byteAt su i

/-- No byte of any storage has changed. -/
def BytesStay (s t : State) : Prop := ∀ st i, t.byteAt st i = s.byteAt st i

/-- An access is refused: it is counted, recorded with its code if it has one, and answered with a NAK of a remote access error; nothing is
written and the pair stays as it was. -/
def Refused (s t : State) (k : RdmaReq) (p : Fin 16) (i : Nat) (q : Qp) (e : EndpointCfg) (port : Fin 8) (code : Option Nat) : Prop :=
  Counts s t .netRoceCount Fl.netRoceCount_NAK_ACCESS 1 ∧ t.parts = s.parts ∧ BytesStay s t
    ∧ t.net.tx = s.net.tx ++ [qpPacket q e port .nak (some k.srcMac) (answerBytes q k.psn nakAccess)]
    ∧ t.safety.flight = s.safety.flight ++ (match code with
        | none => []
        | some n => [s.record (beamUnit 0x23) n (i + p.val * 2 ^ 16 + q.ctx.val * 2 ^ 24)])

/-- A READ is served: the packets of its response carry bytes to the requester, each behind its base header. -/
def Serves (s t : State) (k : RdmaReq) (q : Qp) (e : EndpointCfg) (port : Fin 8) (bs : List Byte) : Prop :=
  ∃ ps : List (List Byte), t.net.tx = s.net.tx ++ ps.map (qpPacket q e port .roce (some k.srcMac)) ∧ ps.flatMap (fun b => b.drop 7) = bs
    ∧ ps.length = max 1 ((bs.length + 4095) / 4096) ∧ BytesStay s t ∧ t.safety = s.safety

/-- Packets of a pair leave once more, to a remote address whose MAC address is known. -/
def Resends (s t : State) (q : Qp) (e : EndpointCfg) (port : Fin 8) (us : List Unacked) : Prop :=
  ∀ mac, s.macOf (vlanKey port.val e.vlan) q.remote = some mac →
    t.net.tx = s.net.tx ++ us.map (fun u => qpPacket q e port .roce (some mac) u.bytes)

end Sys2Proof.Claims

/-- QP_CONNECT and QP_CLOSE (R336, R338): a request that fits the partition makes a queue pair, with the context, endpoint, remote address, remote number,
expected PSN and ring that it names, and answers with the local number, the first PSN and the key; an index in use is busy; QP_CLOSE ends the pair. -/
def Obligations.QueuePairsConnect : Prop :=
  ∀ (s : State) (m : Msg) (r : Staged) (u : State) (p : Fin 16) (x : Part), Targets u r p x →
    let i := r.num 0 2
    (∀ c, Reaches s (ctrlType 0x0118 false formConnect) m r u → r.ctx? = some c → c.val < x.cfg.nctx →
        (∀ off, x.cfg.connectBreaks x c r = some off → Replies (.qpConnect m) s r 2 off [] (· = u))
          ∧ (x.cfg.connectBreaks x c r = none → (x.qp? i).isSome = true → Replies (.qpConnect m) s r 7 0 [] (· = u))
          ∧ (x.cfg.connectBreaks x c r = none → x.qp? i = none → ∃ q : Qp,
              Done (.qpConnect m) s r (beBytes 4 q.qpn.toNat ++ beBytes 4 q.sendPsn.toNat ++ beBytes 4 q.rkey.toNat ++ [0, 0, 0, 0])
                (fun v => PairBecomes u v p x i q ∧ BytesStay u v ∧ v.safety = u.safety)
              ∧ q.ctx = c ∧ q.endpoint = r.num 2 1 ∧ q.remote = r.address (r.num 3 1) 4 ∧ q.remoteQpn.toNat = r.num 20 4
              ∧ q.recvPsn.toNat = r.num 24 4 ∧ q.timeout = r.num 28 1 ∧ q.target = bit (r.num 29 1) 0 ∧ q.sealed_ = bit (r.num 29 1) 1
              ∧ q.bankB = bit (r.num 29 1) 2 ∧ q.ring = r.num 32 8 ∧ q.ringLen = r.num 40 4 ∧ q.served = 0 ∧ q.unacked = [] ∧ q.error = false
              ∧ q.rate = 1 ∧ q.rateExp = 0))
      ∧ (Reaches s (ctrlType 0x0119 false [.any 2, .zero 6]) m r u →
          ((x.qp? i).isSome = true → Done (.qpClose m) s r [] (fun v => (∃ y, v.part? p = some y ∧ y.qp? i = none
              ∧ (∀ j, j ≠ i → y.qp? j = x.qp? j) ∧ { y with qps := x.qps } = x) ∧ { v with parts := u.parts } = u))
            ∧ (x.qp? i = none → Replies (.qpClose m) s r 2 0 [] (· = u)))

/-- RDMA_WRITE and RDMA_READ (R335, R336, R363, R364, R377): a write that its pair may take lands whole, moves the expected PSN on and is acknowledged; a
read is answered with the bytes that stand there; a repeated write is acknowledged without effect and a repeated read served again; one out of order, to a
pair that is no target, or refused access is answered with its NAK and changes no byte; a sealed chunk lands as its plaintext or fails with 0x0807. -/
def Obligations.RemoteWritesAndReads : Prop :=
  ∀ (s : State) (k : RdmaReq) (p : Fin 16) (x : Part) (i : Nat) (q : Qp) (e : EndpointCfg) (port : Fin 8), ToQp s k p x i q e port →
    x.swatch = none →
    let h := heardQp s k q e
    let d := (k.psn - q.recvPsn).toNat
    let va := k.va.toNat
    let n := k.data.length
    let last := k.psn + BitVec.ofNat 24 (mtuCount n - 1)
    let next := k.psn + BitVec.ofNat 24 (mtuCount k.length.toNat)
    let answer := fun (v : State) (kind : PktKind) (psn : BitVec 24) (syndrome : Nat) =>
      v.send (qpPacket q e port kind (some k.srcMac) (answerBytes q psn syndrome))
    (2 ^ 23 ≤ d → exec (.rdmaWrite k) s = .next (answer h .ack last 0))
      ∧ (d ≠ 0 → d < 2 ^ 23 → exec (.rdmaWrite k) s = .next (answer h .nak q.recvPsn nakSequence)
          ∧ exec (.rdmaRead k) s = .next (answer h .nak q.recvPsn nakSequence))
      ∧ (d = 0 → q.target = false → exec (.rdmaWrite k) s = .next (answer h .nak k.psn nakInvalid)
          ∧ exec (.rdmaRead k) s = .next (answer h .nak k.psn nakInvalid))
      ∧ (d = 0 → q.target = true → x.safe.isSome = true → Gives (.rdmaWrite k) s (fun t => Refused h t k p i q e port none)
          ∧ Gives (.rdmaRead k) s (fun t => Refused h t k p i q e port none))
      ∧ (d = 0 → q.target = true → x.safe = none →
          (∀ c, h.accessFault p x.cfg q k.rkey va n = some c → Gives (.rdmaWrite k) s (fun t => Refused h t k p i q e port (some c)))
            ∧ (∀ c, h.accessFault p x.cfg q k.rkey va k.length.toNat = some c →
                Gives (.rdmaRead k) s (fun t => Refused h t k p i q e port (some c))))
      ∧ (d = 0 → q.target = true → x.safe = none → q.sealed_ = false → h.accessFault p x.cfg q k.rkey va n = none →
          Gives (.rdmaWrite k) s (fun t => BytesBecome h t (.cloth p) va k.data ∧ PairBecomes h t p x i { q with recvPsn := last + 1 }
            ∧ t.net.tx = (answer h .ack last 0).net.tx ∧ t.safety = h.safety))
      ∧ (d = 0 → q.target = true → x.safe = none → q.sealed_ = true → n = 4128 → h.accessFault p x.cfg q k.rkey va n = none →
          match h.openChunk p q.ctx va (slice k.data 0 4128) with
          | some (plain, v) => Gives (.rdmaWrite k) s (fun t => BytesBecome h t (.cloth p) va plain
              ∧ PairBecomes h t p x i { q with recvPsn := last + 1 } ∧ t.sec = v.sec ∧ t.net.tx = (answer h .ack last 0).net.tx)
          | none => Gives (.rdmaWrite k) s (fun t => BytesStay h t ∧ t.parts = h.parts ∧ t.sec = h.sec
              ∧ Counts h t .secCount Fl.secCount_SEAL_FAIL 1
              ∧ t.safety.flight = h.safety.flight ++ [h.record (beamUnit 0x28) 0x0807 (i + p.val * 2 ^ 16 + q.ctx.val * 2 ^ 24)]
              ∧ t.net.tx = (answer h .nak k.psn nakOperation).net.tx))
      ∧ (q.target = true → x.safe = none → q.sealed_ = false → h.accessFault p x.cfg q k.rkey va k.length.toNat = none →
          h.sourceFails p q.ctx va k.length.toNat = none →
          (d = 0 → Gives (.rdmaRead k) s (fun t => Serves h t k q e port (h.bytesAt (.cloth p) va k.length.toNat)
              ∧ PairBecomes h t p x i { q with recvPsn := next }))
            ∧ (2 ^ 23 ≤ d → Gives (.rdmaRead k) s (fun t => Serves h t k q e port (h.bytesAt (.cloth p) va k.length.toNat)
              ∧ PairBecomes h t p x i q)))
      ∧ (∀ key, d = 0 → q.target = true → x.safe = none → q.sealed_ = true → k.length.toNat = 4128 →
          h.accessFault p x.cfg q k.rkey va 4128 = none → h.sourceFails p q.ctx va 4096 = none → h.sec.sealKeys.find? p.val = some key →
          let count := h.sec.sealOut.get p.val 1
          let nonce := [1, 0, 0, 0] ++ beBytes 8 count
          Gives (.rdmaRead k) s (fun t => PairBecomes h t p x i { q with recvPsn := next } ∧ t.sec.sealOut.get p.val 1 = count + 1
            ∧ Serves h t k q e port (nonce ++ [0, 0, 0, 0] ++ gcmSeal key nonce (chunkAad p q.ctx va 1) (h.bytesAt (.cloth p) va 4096))))
      ∧ (d = 0 → q.target = true → x.safe = none → q.sealed_ = false → h.accessFault p x.cfg q k.rkey va k.length.toNat = none →
          h.sourceFails p q.ctx va k.length.toNat ≠ none → Gives (.rdmaRead k) s (fun t => BytesStay h t
            ∧ t.net.tx = (answer h .nak k.psn nakOperation).net.tx ∧ ∃ y, t.part? p = some y ∧ (y.ctx q.ctx).fault.isSome = true
              ∧ y.qps = x.qps))
      ∧ (q.sealed_ = false → ∀ a w, h.accessFault p x.cfg q k.rkey a w = (if k.rkey ≠ q.rkey ∨ x.cfg.outside q.ctx a w = true then some 0x0705
          else if x.cfg.touchesProtected a w = true then (if h.hasRegion p then some 0x0705 else some 0x0806) else none))

/-- Push rings (R337, R338, R364): PUSH_RING_POLL serves the descriptors that PRODUCED covers, each as packets that wait for their acknowledgement, and stops at
a malformed one, which puts the pair in error and faults its context with 0x0706; ROCE_ACK and RDMA_READ_RESPONSE move CONSUMED past what is done; TRANSPORT_TIMEOUT
sends again what waits, and RETRIES_EXHAUSTED puts the pair in error with 0x0704; CNP_RECEIVED and RATE_INCREASE set the send rate (R335). -/
def Obligations.PushRingsServeDescriptors : Prop :=
  ∀ (s : State) (p : Fin 16) (x : Part) (qp : BitVec 16) (q : Qp) (e : EndpointCfg) (port : Fin 8), QpUp s p x qp.toNat q e port →
    x.swatch = none →
    let i := qp.toNat
    let room := q.ringLen - 4096
    let d := readPush (s.bytesAt (.cloth p) (q.ring + 4096 + q.served % max 32 room) 32)
    let open_ := d.malformed x.cfg q = false ∧ (x.cfg.touchesProtected d.local_ d.len = true → s.hasRegion p = true)
    let consumed := fun (t : State) (us : List Unacked) => ∃ c, BytesBecome s t (.cloth p) (q.ring + 8) (leBytes 8 c)
      ∧ (us = [] → c = q.served) ∧ ∀ u rest n, us = u :: rest → u.ends = some n → c = n - 32
    let dataDone := fun (t : State) (us : List Unacked) => ∃ c, t.bytesAt (.cloth p) (q.ring + 8) 8 = leBytes 8 c ∧ (us = [] → c = q.served)
    (s.word64 p q.ring < q.served + 32 → exec (.pushRingPoll p qp) s = .next s)
      ∧ (x.safe = none → s.safety.moduleSafe = false → q.ringLen ≠ 0 → s.word64 p q.ring = q.served + 32 → q.served + 32 ≤ q.consumed + room →
          (open_ → q.sealed_ = false → d.op ≠ 5 → s.sourceFails p q.ctx d.local_ d.len = none →
              let us := d.packets q (mtuPieces (s.bytesAt (.cloth p) d.local_ d.len) (d.len + 1))
              Gives (.pushRingPoll p qp) s (fun t => BytesStay s t ∧ Resends s t q e port us ∧ t.safety = s.safety
                ∧ PairBecomes s t p x i { q with served := q.served + 32, pushes := q.pushes + 1, unacked := q.unacked ++ us, sendPsn := q.sendPsn + BitVec.ofNat 24 us.length }))
            ∧ (open_ → q.sealed_ = false → d.op = 5 → Gives (.pushRingPoll p qp) s (fun t => BytesStay s t
                ∧ Resends s t q e port [d.request q] ∧ t.safety = s.safety
                ∧ PairBecomes s t p x i { q with served := q.served + 32, pushes := q.pushes + 1, unacked := q.unacked ++ [d.request q], sendPsn := q.sendPsn + BitVec.ofNat 24 (mtuCount d.len) }))
            ∧ (d.malformed x.cfg q = true → Gives (.pushRingPoll p qp) s (fun t => BytesStay s t ∧ t.net = s.net
                ∧ t.safety.flight = s.safety.flight ++ [s.record (beamUnit 0x23) 0x0706 (i + attribution p q.ctx)]
                ∧ ∃ y, t.part? p = some y ∧ y.qp? i = some { q with error := true } ∧ (y.ctx q.ctx).fault.isSome = true
                  ∧ (y.ctx q.ctx).runs = [])))
      ∧ (∀ psn : BitVec 24, let us := q.unacked.filter (fun u => u.read.isSome || !psnUpTo u.psn psn)
          (us = q.unacked → exec (.roceAck p qp psn) s = .next s)
            ∧ (us.length < q.unacked.length → Gives (.roceAck p qp psn) s (fun t =>
                consumed t us ∧ PairBecomes s t p x i { q with unacked := us, retries := 0 } ∧ t.safety = s.safety)))
      ∧ (∀ (psn : BitVec 24) (data : List Byte) (u : Unacked) (addr n : Nat), q.unacked.find? (fun u => u.read.isSome && u.psn == psn) = some u →
          u.read = some (addr, n) → x.safe = none → addr + n ≤ q.ring + 8 ∨ q.ring + 16 ≤ addr →
          let us := q.unacked.erase u
          (q.sealed_ = false → data.length = n → Gives (.rdmaReadResponse p qp psn data) s (fun t => t.bytesAt (.cloth p) addr n = data
              ∧ dataDone t us ∧ (∀ st a, (st = .cloth p → (a < addr ∨ addr + n ≤ a) ∧ (a < q.ring + 8 ∨ q.ring + 16 ≤ a)) →
                  t.byteAt st a = s.byteAt st a)
              ∧ PairBecomes s t p x i { q with unacked := us, retries := 0 } ∧ t.safety = s.safety))
            ∧ (data.length ≠ (if q.sealed_ then n / 4096 * 4128 else n) → exec (.rdmaReadResponse p qp psn data) s = .next s)
            ∧ (q.sealed_ = true → n = 4096 → data.length = 4128 → match s.openChunk p q.ctx addr (slice data 0 4128) with
              | none => Gives (.rdmaReadResponse p qp psn data) s (fun t => BytesStay s t ∧ t.parts = s.parts
                  ∧ Counts s t .secCount Fl.secCount_SEAL_FAIL 1
                  ∧ t.safety.flight = s.safety.flight ++ [s.record (beamUnit 0x28) 0x0807 (i + p.val * 2 ^ 16 + q.ctx.val * 2 ^ 24)])
              | some (plain, v) => Gives (.rdmaReadResponse p qp psn data) s (fun t => t.bytesAt (.cloth p) addr 4096 = plain
                  ∧ t.sec = v.sec ∧ dataDone t us ∧ PairBecomes s t p x i { q with unacked := us, retries := 0 })))
      ∧ (q.unacked ≠ [] → q.retries < 7 → Gives (.transportTimeout p qp) s (fun t => Resends s t q e port q.unacked
            ∧ Counts s t .netRoceCount Fl.netRoceCount_RETRIES 1 ∧ BytesStay s t ∧ PairBecomes s t p x i { q with retries := q.retries + 1 }))
      ∧ (q.unacked = [] ∨ 7 ≤ q.retries → exec (.transportTimeout p qp) s = .next s)
      ∧ (q.unacked ≠ [] → 7 ≤ q.retries → Gives (.retriesExhausted p qp) s (fun t => BytesStay s t
            ∧ t.safety.flight = s.safety.flight ++ [s.record (beamUnit 0x23) 0x0704 (i + p.val * 2 ^ 16 + q.ctx.val * 2 ^ 24)]
            ∧ PairBecomes s t p x i { q with error := true } ∧ t.net = s.net))
      ∧ (q.unacked = [] ∨ q.retries < 7 → exec (.retriesExhausted p qp) s = .next s)
      ∧ Gives (.cnpReceived p qp) s (fun t => PairBecomes s t p x i { q with rateExp := q.rateExp + 1 } ∧ BytesStay s t)
      ∧ Gives (.rateIncrease p qp) s (fun t => BytesStay s t ∧ ∃ m k : Nat, PairBecomes s t p x i { q with rate := m, rateExp := k }
          ∧ m * (16 * 2 ^ q.rateExp) = min (16 * 2 ^ q.rateExp) (16 * q.rate + 2 ^ q.rateExp) * 2 ^ k)
namespace Sys2Proof.Claims

open Sys2Proof Sys2Proof.Machine

/-- The state once a frame has been seen. -/
def heardFrame (s : State) (f : NetFrame) : State := s.sawFrame f.port.val f.vlan.toNat f.src f.srcMac

/-- What answers a frame: a packet to its source, on its port. -/
def frameAnswer (f : NetFrame) (kind : PktKind) (bs : List Byte) : Packet :=
  { kind := kind, port := f.port.val, vlan := f.vlan.toNat, mac := some f.srcMac, dst := f.src, dstPort := 0, bytes := bs }

/-- One port has become another; nothing else has changed. -/
def PortBecomes (s t : State) (port : Fin 8) (k : Port) : Prop :=
  t.port port = k ∧ (∀ j, j ≠ port → t.port j = s.port j) ∧ { t with net := { t.net with ports := s.net.ports } } = s

/-- One link has become another; every other link, and every byte, is as it was. -/
def LinkBecomes (s t : State) (i : Fin 96) (k : Link) : Prop :=
  t.link i = k ∧ (∀ j, j ≠ i → t.link j = s.link j) ∧ t.parts = s.parts ∧ t.looms = s.looms ∧ t.mem = s.mem

/-- LANE_FAULT shows at both ends of a link (R22). -/
def LaneFaultShows (t : State) (i : Fin 96) : Prop :=
  t.fld (.linkState (linkMill i) (linkEnd i)) Fl.linkState_LANE_FAULT = 1
    ∧ ∀ m e, linkFar? i = some (m, e) → t.fld (.linkState m e) Fl.linkState_LANE_FAULT = 1

/-- One record about a link, by the mill that reports its conditions, is the next on its way (R435). -/
def LinkReports (s t : State) (i : Fin 96) (code lane : Nat) : Prop :=
  ∃ rest, t.safety.flight
    = s.safety.flight ++ [s.record (millUnit (linkMill i) 0x19) code (i.val + (linkEnd i).val * 2 ^ 8 + lane * 2 ^ 16)] ++ rest

/-- Lanes of one half of a link alone. -/
def OneHalf (lanes : List Nat) : Prop := (∀ n ∈ lanes, n < 32) ∨ (∀ n ∈ lanes, 32 ≤ n)

end Sys2Proof.Claims

/-- Frames that are no message (R328 to R330, R332, R333, R335): ARP_REQUEST, NEIGHBOR_SOLICITATION and ICMP_ECHO_REQUEST are answered for the device's own
addresses; ADDRESS_RESOLUTION_REPLY, like every frame, makes its source known and lets the packets that waited for it leave; DISCARDED_PACKET counts where the spec
names a count and does nothing else; PFC_FRAME pauses or resumes the bank's priority. -/
def Sys2Proof.Claims.FramesAreAnswered : Prop :=
  (∀ (s : State) (f : NetFrame) (c : Instr), c = .arpRequest f ∨ c = .neighborSolicitation f ∨ c = .icmpEchoRequest f ∨ c = .addressResolutionReply f →
      ((s.port f.port).link = false → exec c s = .next s)
        ∧ ((s.port f.port).link = true → (s.port f.port).macsec = 1 → exec c s = .next (s.bump (.netPort f.port) Fl.netPort_MACSEC_DROP 1)))
    ∧ (∀ (s : State) (f : NetFrame), (s.port f.port).link = true → (s.port f.port).macsec ≠ 1 →
        let h := heardFrame s f
        let own := h.answersFor f.port f.vlan.toNat f.target = true
        (own → f.target.v4 = true → exec (.arpRequest f) s = .next (h.send (frameAnswer f .arp [])))
          ∧ (¬ own ∨ f.target.v4 = false → exec (.arpRequest f) s = .next h)
          ∧ (own → f.target.v4 = false → exec (.neighborSolicitation f) s = .next (h.send (frameAnswer f .nd [])))
          ∧ (¬ own ∨ f.target.v4 = true → exec (.neighborSolicitation f) s = .next h)
          ∧ (own → exec (.icmpEchoRequest f) s = .next (h.send (frameAnswer f .icmp f.payload)))
          ∧ (¬ own → exec (.icmpEchoRequest f) s = .next h)
          ∧ exec (.addressResolutionReply f) s = .next h)
    ∧ (∀ (s : State) (f : NetFrame),
        let h := heardFrame s f
        let key := vlanKey f.port.val f.vlan.toNat
        let waited := s.net.unresolved.filter (fun u => vlanKey u.port u.vlan == key && u.dst == f.src)
        h.macOf key f.src = some f.srcMac ∧ (∀ k a, ¬ (k = key ∧ a = f.src) → h.macOf k a = s.macOf k a)
          ∧ (∀ u ∈ h.net.unresolved, u ∈ s.net.unresolved ∧ ¬ (vlanKey u.port u.vlan = key ∧ u.dst = f.src))
          ∧ ((∀ u ∈ waited, (s.port (Fin.ofNat 8 u.port)).link = true ∧ (s.port (Fin.ofNat 8 u.port)).macsec ≠ 1) →
              h.net.tx = s.net.tx ++ waited.map (fun u => { u with mac := some f.srcMac }))
          ∧ { h with net := s.net } = s)
    ∧ (∀ (s : State) (port : Fin 8), (s.port port).link = true →
        exec (.discardedPacket port .noAcceptedKind) s = .next (s.bump .netCount Fl.netCount_BAD_HEADER 1)
          ∧ exec (.discardedPacket port .icrc) s = .next (s.bump .netRoceCount Fl.netRoceCount_ICRC_FAIL 1)
          ∧ Gives (.discardedPacket port .oversized) s (fun t =>
              PortBecomes s t port { s.port port with oversized := (s.port port).oversized + 1 })
          ∧ ((s.port port).macsec ≠ 0 →
              exec (.discardedPacket port .unprotected) s = .next (s.bump (.netPort port) Fl.netPort_MACSEC_DROP 1))
          ∧ exec (.discardedPacket port .fecUncorrected) s = .next (s.bump (.netPort port) Fl.netPort_FEC_UNCORRECTED 1)
          ∧ exec (.discardedPacket port .unsupportedFrame) s = .next s ∧ exec (.discardedPacket port .fragment) s = .next s)
    ∧ (∀ (s : State) (port : Fin 8) (enabled : BitVec 8) (quanta : Vector (BitVec 16) 8), (s.port port).link = true → (s.port port).macsec ≠ 1 →
        (∀ i, s.pfc port = some i → enabled.getLsbD i.val = true →
            Gives (.pfcFrame port enabled quanta) s (fun t => PortBecomes s t port { s.port port with paused := decide (quanta[i] ≠ 0) }))
          ∧ (∀ i, s.pfc port = some i → enabled.getLsbD i.val = false → exec (.pfcFrame port enabled quanta) s = .next s)
          ∧ (s.pfc port = none → exec (.pfcFrame port enabled quanta) s = .next s))

/-- Ports (R328, R333): MKA_FRAME is answered under the CAK enrolled, and a frame that installs an association secures the port; MACSEC_SA_LOST puts the
port back to MKA alone, with 0x0703; PORT_LINK_LOST reports 0x0701, and 0x0702 where its bank has no port left; PORT_LINK_UP brings the port back, in required mode
where a CAK is enrolled. -/
def Sys2Proof.Claims.PortsComeAndGo : Prop :=
  ∀ (s : State) (port : Fin 8),
    (∀ frame, (s.port port).link = true → (s.port port).macsec ≠ 0 → match s.store.cak port.val with
        | none => exec (.mkaFrame port frame) s = .next s
        | some cak => Gives (.mkaFrame port frame) s (fun t => ∃ k, k.kind = .mka ∧ k.port = port.val ∧ k.bytes = Config.mkaAnswer cak frame
            ∧ t.net.tx = s.net.tx ++ [k]
            ∧ PortBecomes { s with net := { s.net with tx := s.net.tx ++ [k] } } t port
                (if Config.mkaInstalls cak frame = true then { s.port port with macsec := 2 } else s.port port)))
      ∧ (∀ frame, (s.port port).link = false ∨ (s.port port).macsec = 0 → exec (.mkaFrame port frame) s = .next s)
      ∧ ((s.port port).link = true → (s.port port).macsec = 2 → Gives (.macsecSaLost port) s (fun t =>
          t.safety = { s.safety with flight := s.safety.flight ++ [s.record (beamUnit 0x23) 0x0703 port.val] }
            ∧ PortBecomes { s with safety := t.safety } t port { s.port port with macsec := 1 }))
      ∧ ((s.port port).link = true → Gives (.portLinkLost port) s (fun t =>
          PortBecomes { s with safety := t.safety } t port { s.port port with link := false, macsec := 0, paused := false }
            ∧ ((∃ j, j ≠ port ∧ bankOf j = bankOf port ∧ (s.port j).link = true) →
                t.safety = { s.safety with flight := s.safety.flight ++ [s.record (beamUnit 0x23) 0x0701 port.val] })
            ∧ ((∀ j, j ≠ port → bankOf j = bankOf port → (s.port j).link = false) →
                t.safety = { s.safety with flight := s.safety.flight
                  ++ [s.record (beamUnit 0x23) 0x0701 port.val, s.record (beamUnit 0x23) 0x0702 (bankOf port)] })))
      ∧ ((s.port port).link = false → s.power.inReset = false → Gives (.portLinkUp port) s (fun t =>
          PortBecomes s t port { s.port port with link := true, macsec := if (s.store.cak port.val).isSome then 1 else 0 }))

/-- Die links (R20 to R24, R372, R435): LINK_RETRAIN starts a retraining and is answered when it ends; FLIT_RECEIVED delivers a good flit and settles its credit, counts a
failed one and holds what comes meanwhile; LANE_FAILURE narrows a link to the half without it, or takes it down; RETRY_LIMIT_REACHED retrains it in place;
LINK_RETRAINING_COMPLETE leaves it full, narrowed or down; SIDEBAND_HEARTBEAT_LOSS takes a mill's four beam links down. -/
def Obligations.LinksCarryFlits : Prop :=
  (∀ (s : State) (m : Msg) (r : Staged) (u : State), Reaches s (mgmtType 0x0322 [.any 1, .zero 7] false) m r u →
      let i : Fin 96 := Fin.ofNat 96 (r.num 0 1)
      (96 ≤ r.num 0 1 → Replies (.linkRetrain m) s r 2 0 [] (· = u))
        ∧ (r.num 0 1 < 96 → (u.link i).training = true → Replies (.linkRetrain m) s r 7 0 [] (· = u))
        ∧ (r.num 0 1 < 96 → (u.link i).training = false → Gives (.linkRetrain m) s (fun t => LinkBecomes u t i { u.link i with training := true }
            ∧ t.net = { u.net with waiting := u.net.waiting ++ [(i.val, r)] } ∧ t.safety = u.safety)))
    ∧ (∀ (s : State) (f : Flit),
        let k := s.link f.link
        let fails := k.failsOf f.down
        let stopped := k.training = true ∨ 8 ≤ fails
        let d := if f.down then (k.delivered.1, k.delivered.2 + 1) else (k.delivered.1 + 1, k.delivered.2)
        let good := fun (n : Nat) (used : Tab Nat) => ({ k.setFails f.down n with delivered := d, used := used } : Link)
        (k.width = 0 → exec (.flitReceived f) s = .next s)
          ∧ (k.width ≠ 0 → stopped → Gives (.flitReceived f) s (fun t => LinkBecomes s t f.link { k with held := k.held ++ [f] } ∧ t.safety = s.safety))
          ∧ (k.width ≠ 0 → ¬ stopped → f.crcOk = false → Gives (.flitReceived f) s (fun t =>
              LinkBecomes s t f.link (k.setFails f.down (fails + 1)) ∧ t.safety = s.safety
                ∧ (f.down = true → Counts s t (.linkState (linkMill f.link) (linkEnd f.link)) Fl.linkState_RETRIES 1)
                ∧ (∀ m e, f.down = false → linkFar? f.link = some (m, e) → Counts s t (.linkState m e) Fl.linkState_RETRIES 1)))
          ∧ (k.width ≠ 0 → ¬ stopped → f.crcOk = true → s.newer f = true →
              Gives (.flitReceived f) s (fun t => LinkBecomes s t f.link { k.setFails f.down 0 with held := k.held ++ [f] } ∧ t.safety = s.safety))
          ∧ (∀ g, k.width ≠ 0 → ¬ stopped → f.crcOk = true → s.newer f = false → f.kind = .data g →
              let key := creditKey f.down f.part f.ctx
              let used := k.used.get key 0
              (used < s.creditsOn f.part f.ctx f.link → Gives (.flitReceived f) s (fun t =>
                  LinkBecomes s t f.link (good 0 (k.used.put key (used + 1) 0)) ∧ t.safety = s.safety))
                ∧ (s.creditsOn f.part f.ctx f.link ≤ used → Gives (.flitReceived f) s (fun t => LinkBecomes s t f.link (good 0 k.used)
                  ∧ ∃ r, t.safety.flight = s.safety.flight ++ [r] ∧ r.code = 0x0604)))
          ∧ (∀ n, k.width ≠ 0 → ¬ stopped → f.crcOk = true → f.kind = .credit n →
              let key := creditKey (!f.down) f.part f.ctx
              let used := k.used.get key 0
              (n.toNat ≤ used → Gives (.flitReceived f) s (fun t =>
                  LinkBecomes s t f.link (good 0 (k.used.put key (used - n.toNat) 0)) ∧ t.safety = s.safety))
                ∧ (used < n.toNat → Gives (.flitReceived f) s (fun t => LinkBecomes s t f.link (good 0 k.used)
                  ∧ ∃ r, t.safety.flight = s.safety.flight ++ [r] ∧ r.code = 0x0604))))
    ∧ (∀ (s : State) (i : Fin 96) (lane : Fin 64), lane.val ∉ (s.link i).failedLanes →
        let k := s.link i
        let lanes := lane.val :: k.failedLanes
        (k.width = 0 → exec (.laneFailure i lane) s = .next s)
          ∧ (k.width ≠ 0 → k.training = true → Gives (.laneFailure i lane) s (fun t =>
              LinkBecomes s t i { k with failedLanes := lanes } ∧ LaneFaultShows t i ∧ t.safety = s.safety))
          ∧ (k.width = 2 → k.training = false → OneHalf lanes → Gives (.laneFailure i lane) s (fun t =>
              LinkBecomes s t i { k with failedLanes := lanes, width := 1 } ∧ LaneFaultShows t i
                ∧ LinkReports s t i 0x0601 (lanes.foldl min 63)))
          ∧ (k.width = 1 → k.training = false → OneHalf lanes → Gives (.laneFailure i lane) s (fun t =>
              LinkBecomes s t i { k with failedLanes := lanes } ∧ LaneFaultShows t i ∧ t.safety = s.safety))
          ∧ (k.width ≠ 0 → k.training = false → ¬ OneHalf lanes → Gives (.laneFailure i lane) s (fun t =>
              LinkBecomes s t i { k with failedLanes := lanes, width := 0, held := [] } ∧ LaneFaultShows t i
                ∧ LinkReports s t i 0x0603 (lanes.foldl min 63))))
    ∧ (∀ (s : State) (i : Fin 96), let k := s.link i
        (k.width ≠ 0 → k.training = false → 8 ≤ k.fails.1 ∨ 8 ≤ k.fails.2 → Gives (.retryLimitReached i) s (fun t =>
            LinkBecomes s t i { k with training := true } ∧ LinkReports s t i 0x0602 0))
          ∧ (k.width = 0 ∨ k.training = true ∨ (k.fails.1 < 8 ∧ k.fails.2 < 8) → exec (.retryLimitReached i) s = .next s))
    ∧ (∀ (s : State) (i : Fin 96), (s.link i).training = true → (∀ f ∈ (s.link i).held, f.link = i) →
        let ends := fun (t : State) => (t.link i).training = false ∧ (t.link i).fails = (0, 0)
          ∧ (∀ j, j ≠ i → t.link j = s.link j) ∧ (∀ e ∈ t.net.waiting, e ∈ s.net.waiting ∧ e.1 ≠ i.val)
        let waits := (s.link i).held.filter (fun f => f.crcOk && s.newer f)
        Gives (.linkRetrainingComplete i .full) s (fun t => ends t ∧ (t.link i).width = 2 ∧ (t.link i).failedLanes = [] ∧ (t.link i).held = waits)
          ∧ (∀ bad : List (Fin 64), bad ≠ [] → OneHalf (bad.map Fin.val) → Gives (.linkRetrainingComplete i (.lanes bad)) s (fun t =>
              ends t ∧ (t.link i).width = 1 ∧ (t.link i).held = waits ∧ (∀ n : Fin 64, n.val ∈ (t.link i).failedLanes ↔ n ∈ bad) ∧ LaneFaultShows t i
                ∧ LinkReports s t i 0x0601 ((bad.map Fin.val).foldl min 63)))
          ∧ (∀ bad : List (Fin 64), ¬ OneHalf (bad.map Fin.val) → Gives (.linkRetrainingComplete i (.lanes bad)) s (fun t =>
              ends t ∧ (t.link i).width = 0 ∧ (t.link i).held = [] ∧ LaneFaultShows t i ∧ LinkReports s t i 0x0603 ((bad.map Fin.val).foldl min 63)))
          ∧ Gives (.linkRetrainingComplete i .failed) s (fun t => ends t ∧ (t.link i).width = 0 ∧ (t.link i).held = [] ∧ LinkReports s t i 0x0603 0))
    ∧ (∀ (s : State) (m : Fin 8), Gives (.sidebandHeartbeatLoss m) s (fun t =>
        (∀ i : Fin 96, 64 ≤ i.val → linkMill i = m → (t.link i).width = 0 ∧ (t.link i).training = false ∧ (t.link i).held = [])
          ∧ (∀ i : Fin 96, i.val < 64 ∨ linkMill i ≠ m → t.link i = s.link i)
          ∧ (t.safety.flight = s.safety.flight ++ (List.range 4).map (fun j =>
              s.record (beamUnit 0x19) 0x0603 (64 + 4 * m.val + j + (4 * m.val + j) * 2 ^ 8)))
          ∧ t.parts = s.parts ∧ t.looms = s.looms ∧ t.mem = s.mem))

/-- Frames are answered; ports come and go. -/
def Obligations.NetworkPortsServe : Prop :=
  Claims.FramesAreAnswered ∧ Claims.PortsComeAndGo
namespace Sys2Proof.Claims

open Sys2Proof Sys2Proof.Machine

/-- A reset of the module with a cause (R413 to R415): the store, the fuses, the straps and the fitted far devices stay; the store's requests and transfer, the running image, every
other register and all other state are as right after reset. -/
def ResetTo (s t : State) (cause : Nat) : Prop :=
  { t with pending := [], freeCount := 0, beat := 0, boundaryBeat := 0, regs := [], power := Power.reset, fuses := Fuses.reset,
           store := StoreUnit.reset, mem := { t.mem with far := [] } } = State.reset
    ∧ t.store = { s.store with wanted := false, transfer := none, running := none } ∧ t.fuses = s.fuses ∧ t.power.straps = s.power.straps
    ∧ t.power.inReset = true ∧ t.power.resetDue = false
    ∧ (∀ i : Fin 4, t.farPort i = { FarPort.reset with present := (s.farPort i).present })
    ∧ (∀ r : Reg, r ≠ .moduleState → t.reg r = r.resetWord) ∧ t.fld .moduleState Fl.moduleState_CAUSE = cause
    ∧ t.fld .moduleState Fl.moduleState_PHASE = 0

/-- What a boot that starts an image has brought up (R416 to R418): the phase is draft-ready, the ports that train have link, a loom is out if its mill or its own test
failed, a stack is ready if it and its mill came up, and every link whose ends and lanes trained runs at full width. -/
def BroughtUp (s t : State) (b : BootReport) : Prop :=
  t.fld .moduleState Fl.moduleState_PHASE = 3 ∧ t.power.inReset = false ∧ t.store.running.isSome = true ∧ t.parts = s.parts
    ∧ (∀ i : Fin 8, (t.port i).link = ((s.port i).link || b.ports.getLsbD i.val))
    ∧ (∀ m : Fin 8, bit (t.fld .moduleState Fl.moduleState_MILL_FAILED) m.val
        = (bit (s.fld .moduleState Fl.moduleState_MILL_FAILED) m.val || !millBoots b m))
    ∧ (∀ g : Fin 256, (t.loom g).failed = ((s.loom g).failed || !millBoots b (millOf g.val) || !b.loomsOk.getLsbD g.val)
        ∧ (b.railsOk.getLsbD (millOf g.val).val = true →
            t.fld (.safeTest g) Fl.safeTest_RESULT = (if b.loomsOk.getLsbD g.val = true then 1 else 2)))
    ∧ (∀ k : Fin 32, t.stack k = if millBoots b (Fin.ofNat 8 (k.val / 4)) = true ∧ b.stacksOk.getLsbD k.val = true then 2 else 6)
    ∧ (∀ i : Fin 96, t.link i = if linkBoots b i = true ∧ b.linksOk.getLsbD i.val = true then { Link.reset with width := 2 } else s.link i)

/-- A replay that has read its header: x is its partition, w the swatch. -/
structure Replays (s : State) (p : Fin 16) (x : Part) (w : Swatch) : Prop where
  part : s.part? p = some x
  swatch : x.swatch = some w
  replay : w.replay = true ∧ w.ended = false
  formed : s.pick.formed = true
  decoded : s.decoded x = true

end Sys2Proof.Claims

/-- Power and reset (R413 to R415, R426): POWER_UP and POWER_GOOD_DEASSERT leave the module reset with cause 0, on and off; RESET_INPUT_ASSERT resets a running module with cause
1, and keeps the cause of one in reset; RESET_INPUT_RELEASE lets it boot; MODULE_RESET_EXECUTE carries out a request that is due with cause 2. -/
def Obligations.ResetsClearTheModule : Prop :=
  ∀ s : State,
    (s.power.pwrGood = false → Gives .powerUp s (fun t => ResetTo s t 0 ∧ t.power.pwrGood = true ∧ t.power.resetLow = s.power.resetLow))
      ∧ (s.power.pwrGood = true → exec .powerUp s = .next s)
      ∧ (s.power.pwrGood = true → Gives .powerGoodDeassert s (fun t =>
          ResetTo s t 0 ∧ t.power.pwrGood = false ∧ t.power.resetLow = s.power.resetLow))
      ∧ (s.power.pwrGood = false → exec .powerGoodDeassert s = .next s)
      ∧ (s.power.resetLow = false → s.power.pwrGood = true → s.power.inReset = false → Gives .resetInputAssert s (fun t =>
          ResetTo s t 1 ∧ t.power.resetLow = true ∧ t.power.pwrGood = true))
      ∧ (s.power.resetLow = false → (s.power.pwrGood = false ∨ s.power.inReset = true) →
          exec .resetInputAssert s = .next { s with power := { s.power with resetLow := true } })
      ∧ (s.power.resetLow = true → exec .resetInputAssert s = .next s)
      ∧ exec .resetInputRelease s = .next { s with power := { s.power with resetLow := false } }
      ∧ (s.power.resetDue = true → Gives .moduleResetExecute s (fun t =>
          ResetTo s t 2 ∧ t.power.pwrGood = s.power.pwrGood ∧ t.power.resetLow = s.power.resetLow))
      ∧ (s.power.resetDue = false → exec .moduleResetExecute s = .next s)

/-- BOOT, BOARD_SERVICE_READ and EEPROM_WRITE (R404, R416 to R418, R427, R428): a boot whose checkers pass and whose one confirmed image verifies brings the module up; without an image, or
with a failing checker, PHASE reads failed; the identity EEPROM reads as R428 lays it out, no device answers elsewhere, and a write is not acknowledged and changes nothing. -/
def Obligations.BootBringsTheModuleUp : Prop :=
  (∀ (s : State) (b : BootReport), s.power.inReset = true → s.power.pwrGood = true → s.power.resetLow = false →
      (b.beamOk = false → Gives (.boot b) s (fun t => t.fld .moduleState Fl.moduleState_PHASE = 6 ∧ t.power.inReset = false
          ∧ (∃ r, t.safety.flight = s.safety.flight ++ [r] ∧ r.code = 0x0902) ∧ t.looms = s.looms ∧ t.parts = s.parts ∧ t.mem = s.mem
          ∧ t.net = s.net ∧ t.store = s.store))
        ∧ (b.beamOk = true → b.flashError = false → s.store.images = [] → Gives (.boot b) s (fun t =>
            t.fld .moduleState Fl.moduleState_PHASE = 6 ∧ t.power.inReset = false ∧ t.store.running = none ∧ t.looms = s.looms ∧ t.mem = s.mem
              ∧ t.net = s.net))
        ∧ (∀ i, b.beamOk = true → b.flashError = false → s.store.images = [i] → s.store.confirmed i = true →
            Gives (.boot b) s (fun t =>
              if imageOk s.fuses.count ((s.store.content (imageObject i)).getD []) = true then BroughtUp s t b
              else t.fld .moduleState Fl.moduleState_PHASE = 6 ∧ t.power.inReset = false ∧ t.store.running = none ∧ t.looms = s.looms)))
    ∧ (∀ (s : State) (b : BootReport), s.power.inReset = false ∨ s.power.pwrGood = false ∨ s.power.resetLow = true → exec (.boot b) s = .next s)
    ∧ (∀ (s : State) (a : BitVec 7) (r n : BitVec 9),
        (a.toNat = 0x50 + s.power.straps.toNat → r.toNat + n.toNat ≤ 512 → exec (.boardServiceRead a r n) s
            = .next { s with power := { s.power with service := some (slice s.eeprom r.toNat n.toNat) } })
          ∧ ((a.toNat = 0x48 + s.power.straps.toNat ∨ a.toNat = 0x4C + s.power.straps.toNat) → Gives (.boardServiceRead a r n) s (fun t =>
              (∃ v, t.power.service = some v ∧ v.length = n.toNat)
                ∧ { t with power := { t.power with service := s.power.service }, freeCount := s.freeCount } = s))
          ∧ (a.toNat ≠ 0x50 + s.power.straps.toNat → a.toNat ≠ 0x48 + s.power.straps.toNat → a.toNat ≠ 0x4C + s.power.straps.toNat →
              exec (.boardServiceRead a r n) s = .next { s with power := { s.power with service := none } })
          ∧ (∀ data, exec (.eepromWrite a r data) s = .next { s with power := { s.power with service := none } }))
    ∧ (∀ s : State, s.eeprom.length = 512 ∧ leNat (slice s.eeprom 0 4) = 0x38344E44 ∧ slice s.eeprom 8 7 = [0x44, 0x4E, 0x34, 0x38, 0x2D, 0x4D, 0x31]
        ∧ leNat (slice s.eeprom 24 8) = s.fuses.serial.toNat ∧ leNat (slice s.eeprom 32 1) = s.fuses.stepping.toNat
        ∧ leNat (slice s.eeprom 92 4) = crc32c (slice s.eeprom 0 92) ∧ ∀ b ∈ s.eeprom.drop 96, b = 0)

/-- NOTICE_SET, SWATCH_ARM, SWATCH_DISARM and REPLAY_VIRTUAL_BOUNDARY (R352, R388, R391, R392, R394): a notice destination is set or removed at once; an arming waits for its partition's start until
it is cancelled; a replay reads its header, delivers the records of its virtual pick and, with a real boundary behind them all, takes the next virtual boundary's steps. -/
def Obligations.SwatchesArmAndReplay : Prop :=
  (∀ (s : State) (m : Msg) (r : Staged) (u : State), Reaches s (mgmtType 0x0220 formDest false) m r u → m.hdr.partition = 0xFF →
      (∀ off, destBreaks r = some off → Replies (.noticeSet m) s r 2 off [] (· = u))
        ∧ (destBreaks r = none → Done (.noticeSet m) s r [] (fun v =>
            (r.num 2 2 = 0 → Tab.find? v.net.notices (r.num 0 1) = none)
              ∧ (r.num 2 2 ≠ 0 → ∃ d, Tab.find? v.net.notices (r.num 0 1) = some d ∧ d.a = r.addr 8 ∧ d.b = r.addr 24
                  ∧ d.port.toNat = r.num 4 2 ∧ d.v4 = decide (r.num 6 1 = 4))
              ∧ (∀ k, k ≠ r.num 0 1 → Tab.find? v.net.notices k = Tab.find? u.net.notices k)
              ∧ { v with net := { v.net with notices := u.net.notices } } = u)))
    ∧ (∀ (s : State) (m : Msg) (r : Staged) (u : State) (p : Fin 16), r.part? = some p →
        (∀ c, Reaches s (mgmtType 0x0500 [.any 1, .zero 7, .any 8, .count 8] false) m r u → r.ctx? = some c →
            (r.num 0 1 ≠ 1 → r.num 0 1 ≠ 2 → Replies (.swatchArm m) s r 2 0 [] (· = u))
              ∧ (r.num 0 1 = 1 ∨ r.num 0 1 = 2 → Tab.find? u.safety.armings p.val = none → Done (.swatchArm m) s r [] (fun v =>
                  Tab.find? v.safety.armings p.val = some { replay := decide (r.num 0 1 = 2), ctx := c, base := r.num 8 8, len := r.num 16 8 }
                    ∧ (∀ k, k ≠ p.val → Tab.find? v.safety.armings k = Tab.find? u.safety.armings k)
                    ∧ { v with safety := { v.safety with armings := u.safety.armings } } = u))
              ∧ (r.num 0 1 = 1 ∨ r.num 0 1 = 2 → (Tab.find? u.safety.armings p.val).isSome = true → Replies (.swatchArm m) s r 7 0 [] (· = u)))
          ∧ (Reaches s (mgmtType 0x0502 [] false) m r u → Done (.swatchDisarm m) s r [] (fun v =>
              Tab.find? v.safety.armings p.val = none ∧ (∀ k, k ≠ p.val → Tab.find? v.safety.armings k = Tab.find? u.safety.armings k)
                ∧ { v with safety := { v.safety with armings := u.safety.armings } } = u)))
    ∧ (∀ (s : State) (p : Fin 16) (x : Part) (w : Swatch), Replays s p x w →
        (∀ r v, w.begun = false → x.started = true → s.swRecord p w 0 = .got r → r.kind = 1 → leNat (slice r.body 0 4) = 0x48545753 →
            leNat (slice r.body 4 2) = 1 → beNat (slice r.body 8 32) = x.cfg.measure.toNat → v = leNat (slice r.body 48 8) →
            s.word64 p w.base = r.len →
            Gives (.replayVirtualBoundary p) s (fun t => (∃ y, t.part? p = some y ∧ y.start = some (BitVec.ofNat 64 v) ∧ y.position = 0 ∧ y.cycles = 0
                ∧ y.swatch = some { w with begun := true, virtualPick := BitVec.ofNat 64 v, pos := r.len, records := 1 }) ∧ t.safety = s.safety))
          ∧ (∀ r, w.begun = false → x.started = true → s.swRecord p w 0 = .got r → beNat (slice r.body 8 32) ≠ x.cfg.measure.toNat →
              Gives (.replayVirtualBoundary p) s (fun t => (∃ y, t.part? p = some y ∧ y.swatch = some { w with ended := true })
                ∧ t.safety.flight = s.safety.flight ++ [s.record (beamUnit 0x29) 0x090B (attributionPart p + 1)] ∧ BytesStay s t))
          ∧ (w.begun = true → s.swRecord p w w.pos = .none → exec (.replayVirtualBoundary p) s = .next s)
          ∧ (∀ r, w.begun = true → s.swRecord p w w.pos = .got r → r.kind = 2 → r.pick ≤ w.virtualPick.toNat →
              s.word64 p w.base = w.pos + r.len →
              let addr := leNat (slice r.body 0 8)
              let n := leNat (slice r.body 8 4)
              1 ≤ n → n ≤ 32768 → 32 + n ≤ r.len → (∃ v ∈ x.cfg.carves, v.base ≤ addr ∧ addr + n ≤ v.base + v.len) →
              addr + n ≤ w.base ∨ w.base + 8 ≤ addr →
              Gives (.replayVirtualBoundary p) s (fun t => BytesBecome s t (.cloth p) addr (slice r.body 16 n)
                ∧ ∃ y, t.part? p = some y ∧ y.swatch = some { w with pos := w.pos + r.len, records := w.records + 1 }))
          ∧ (∀ n0, w.begun = true → s.pickDone p x w = true → w.realPick ≠ some s.now → x.start = some n0 →
              let n := w.virtualPick + 1
              Gives (.replayVirtualBoundary p) s (fun t => ∃ y v, t.part? p = some y ∧ y.swatch = some v ∧ v.virtualPick = n
                ∧ v.realPick = some s.now ∧ y.start = some n0
                ∧ y.entry = (if t.halted y then .idle else y.cfg.entryAt n0.toNat n.toNat t.safety.selfTest)))
          ∧ (w.begun = true → s.pickDone p x w = true → w.realPick = some s.now → exec (.replayVirtualBoundary p) s = .next s))

/-- The states of a fell (R77): a finite fell takes the state of an infinity it receives, the opposite infinity makes NaN of an infinite one,
NaN absorbs, and a fell that has left the finite state has S and W 0, its LOST as it was, and keeps it all through every finite contribution. -/
def Obligations.FellsLeaveTheFiniteStateForGood : Prop :=
  ∀ f : Fell,
    (f.state = .finite → ∀ neg, f.add (.inf neg) = { f with s := 0, w := 0, state := if neg then .negInf else .posInf })
      ∧ (f.state = .posInf → f.add (.inf false) = f ∧ f.add (.inf true) = { f with s := 0, w := 0, state := .nan })
      ∧ (f.state = .negInf → f.add (.inf true) = f ∧ f.add (.inf false) = { f with s := 0, w := 0, state := .nan })
      ∧ (f.state ≠ .nan → f.add .nan = { f with s := 0, w := 0, state := .nan })
      ∧ (f.state = .nan → ∀ x, f.add x = f)
      ∧ (f.state ≠ .finite → ∀ neg m e, f.add (.fin neg m e) = f)
      ∧ ∀ x, f.state = .finite → (f.add x).state ≠ .finite → (f.add x).s = 0 ∧ (f.add x).w = 0
          ∧ (f.lost = true → (f.add x).lost = true)
          ∧ ∀ xs : List Machine.Num, (∀ y ∈ xs, ∃ neg m e, y = .fin neg m e) → xs.foldl Fell.add (f.add x) = f.add x

/-- A reset request (R192) is judged when it is applied: refused, and counted and recorded as such, if the stream is not live (as in a
partition of slots), is closing, has a reset waiting, or has come to the named step; otherwise it sets RESET_AT and RESET_PENDING. -/
def Obligations.ResetRequestsAreJudgedWhenApplied : Prop :=
  ∀ (s : State) (r : Staged) (n : Word) (p : Fin 16) (x : Part), r.mgmt = false → r.type = 0x0102 → s.waits r n = false →
    r.part? = some p → s.part? p = some x → x.swatch = none →
    let id := r.num 0 2
    let step : Word := BitVec.ofNat 64 (r.num 8 8)
    let rec_ := fun (st field : Nat) => RptRec.request (hdrOrigin r.msg.hdr) st 0x0102 field r.msg.hdr.sequence
    ((x.cfg.maskMode = true ∨ x.stream? id = none
        ∨ (∃ e, x.stream? id = some e ∧ (e.stat stClosing = true ∨ e.resetAt ≠ 0 ∨ step.toNat ≤ e.step.toNat))) →
      ∃ f, s.applyStaged r n = (s.bump .netCount Fl.netCount_REFUSED 1).setPart p (x.note (rec_ 2 f)))
    ∧ (∀ e, x.cfg.maskMode = false → x.stream? id = some e → e.stat stClosing = false → e.resetAt = 0 → e.step.toNat < step.toNat →
        s.applyStaged r n
          = s.setPart p ((x.setStream id ({ e with resetAt := step }.setStat stResetPending true)).note (rec_ 0 0)))

/-- The comparison of the two rounders of a drain (R102): a difference is reported as 0x0303, and the output is not written: no byte of any
storage changes. -/
def Obligations.RoundersThatDifferWriteNothing : Prop :=
  ∀ (s : State) (g : Fin 256), Gives (.drainRounderMismatch g) s (fun t =>
    (∃ d, t.safety.flight = s.safety.flight ++ [s.record (loomUnit g 2) 0x0303 d]) ∧ ∀ st i, t.byteAt st i = s.byteAt st i)
end

