-- ==== Sys2Proof/Laws/Exec.lean ====
section
/-! SUPPORT. Sys2Proof/Laws/Exec.lean: exec by command, so that no proof unfolds its match. -/

namespace Sys2Proof.Machine

open Sys2Proof

@[simp] theorem exec_nop (a : At) (w : SWord) (s : State) : exec (.nop a w) s = execNop a w s := rfl
@[simp] theorem exec_jmp (a : At) (w : JWord) (s : State) : exec (.jmp a w) s = execJmp a w s := rfl
@[simp] theorem exec_bst (a : At) (w : JWord) (s : State) : exec (.bst a w) s = execBst a w s := rfl
@[simp] theorem exec_loop (a : At) (w : JWord) (s : State) : exec (.loop a w) s = execLoop a w s := rfl
@[simp] theorem exec_endloop (a : At) (w : JWord) (s : State) : exec (.endloop a w) s = execEndloop a w s := rfl
@[simp] theorem exec_endT (a : At) (w : SWord) (s : State) : exec (.endT a w) s = execEndT a w s := rfl
@[simp] theorem exec_movi (a : At) (w : SWord) (s : State) : exec (.movi a w) s = execMovi a w s := rfl
@[simp] theorem exec_alu (a : At) (w : SWord) (s : State) : exec (.alu a w) s = execAlu a w s := rfl
@[simp] theorem exec_cmp (a : At) (w : SWord) (s : State) : exec (.cmp a w) s = execCmp a w s := rfl
@[simp] theorem exec_plogic (a : At) (w : SWord) (s : State) : exec (.plogic a w) s = execPlogic a w s := rfl
@[simp] theorem exec_abind (a : At) (w : SWord) (s : State) : exec (.abind a w) s = execAbind a w s := rfl
@[simp] theorem exec_aadd (a : At) (w : SWord) (s : State) : exec (.aadd a w) s = execAadd a w s := rfl
@[simp] theorem exec_ldb (a : At) (w : SWord) (s : State) : exec (.ldb a w) s = execLdb a w s := rfl
@[simp] theorem exec_stb (a : At) (w : SWord) (s : State) : exec (.stb a w) s = execStb a w s := rfl
@[simp] theorem exec_tbegin (a : At) (w : TWord) (s : State) : exec (.tbegin a w) s = execTbegin a w s := rfl
@[simp] theorem exec_mac (a : At) (w : TWord) (s : State) : exec (.mac a w) s = execMac a w s := rfl
@[simp] theorem exec_drain (a : At) (w : TWord) (s : State) : exec (.drain a w) s = execDrain a w s := rfl
@[simp] theorem exec_tend (a : At) (w : TWord) (s : State) : exec (.tend a w) s = execTend a w s := rfl
@[simp] theorem exec_tileCompletion (g : Fin 256) (s : State) : exec (.tileCompletion g) s = execTileCompletion g s := rfl
@[simp] theorem exec_fill (a : At) (w : TWord) (s : State) : exec (.fill a w) s = execFill a w s := rfl
@[simp] theorem exec_fillAdmit (g : Fin 256) (s : State) : exec (.fillAdmit g) s = execFillAdmit g s := rfl
@[simp] theorem exec_bankReady (g : Fin 256) (bank : Fin 2) (s : State) : exec (.bankReady g bank) s = execBankReady g bank s := rfl
@[simp] theorem exec_attn (a : At) (w : TWord) (s : State) : exec (.attn a w) s = execAttn a w s := rfl
@[simp] theorem exec_moveCopy (a : At) (w : SWord) (s : State) : exec (.moveCopy a w) s = execMoveCopy a w s := rfl
@[simp] theorem exec_moveCompress (a : At) (w : SWord) (s : State) : exec (.moveCompress a w) s = execMoveCompress a w s := rfl
@[simp] theorem exec_moveExpand (a : At) (w : SWord) (s : State) : exec (.moveExpand a w) s = execMoveExpand a w s := rfl
@[simp] theorem exec_moveStrided (a : At) (w : SWord) (s : State) : exec (.moveStrided a w) s = execMoveStrided a w s := rfl
@[simp] theorem exec_moveZero (a : At) (w : SWord) (s : State) : exec (.moveZero a w) s = execMoveZero a w s := rfl
@[simp] theorem exec_moveComplete (a : At) (s : State) : exec (.moveComplete a) s = execMoveComplete a s := rfl
@[simp] theorem exec_tsend (a : At) (w : SWord) (s : State) : exec (.tsend a w) s = execTsend a w s := rfl
@[simp] theorem exec_trecv (a : At) (w : SWord) (s : State) : exec (.trecv a w) s = execTrecv a w s := rfl
@[simp] theorem exec_trecvLanded (a : At) (s : State) : exec (.trecvLanded a) s = execTrecvLanded a s := rfl
@[simp] theorem exec_vop (a : At) (w : SWord) (s : State) : exec (.vop a w) s = execVop a w s := rfl
@[simp] theorem exec_vld (a : At) (w : SWord) (s : State) : exec (.vld a w) s = execVld a w s := rfl
@[simp] theorem exec_vst (a : At) (w : SWord) (s : State) : exec (.vst a w) s = execVst a w s := rfl
@[simp] theorem exec_vred (a : At) (w : SWord) (s : State) : exec (.vred a w) s = execVred a w s := rfl
@[simp] theorem exec_vrng (a : At) (w : SWord) (s : State) : exec (.vrng a w) s = execVrng a w s := rfl
@[simp] theorem exec_sig (a : At) (w : SWord) (s : State) : exec (.sig a w) s = execSig a w s := rfl
@[simp] theorem exec_swait (a : At) (w : SWord) (s : State) : exec (.swait a w) s = execSwait a w s := rfl
@[simp] theorem exec_swaitResume (a : At) (s : State) : exec (.swaitResume a) s = execSwaitResume a s := rfl
@[simp] theorem exec_put (a : At) (w : SWord) (s : State) : exec (.put a w) s = execPut a w s := rfl
@[simp] theorem exec_take (a : At) (w : SWord) (s : State) : exec (.take a w) s = execTake a w s := rfl
@[simp] theorem exec_takeResume (a : At) (s : State) : exec (.takeResume a) s = execTakeResume a s := rfl
@[simp] theorem exec_takeTimeout (a : At) (s : State) : exec (.takeTimeout a) s = execTakeTimeout a s := rfl
@[simp] theorem exec_waitsp (a : At) (w : SWord) (s : State) : exec (.waitsp a w) s = execWaitsp a w s := rfl
@[simp] theorem exec_waitspResume (a : At) (s : State) : exec (.waitspResume a) s = execWaitspResume a s := rfl
@[simp] theorem exec_pwait (a : At) (w : SWord) (s : State) : exec (.pwait a w) s = execPwait a w s := rfl
@[simp] theorem exec_done (a : At) (w : SWord) (s : State) : exec (.done a w) s = execDone a w s := rfl
@[simp] theorem exec_sin (a : At) (w : SWord) (s : State) : exec (.sin a w) s = execSin a w s := rfl
@[simp] theorem exec_sinLanded (a : At) (s : State) : exec (.sinLanded a) s = execSinLanded a s := rfl
@[simp] theorem exec_sout (a : At) (w : SWord) (s : State) : exec (.sout a w) s = execSout a w s := rfl
@[simp] theorem exec_soutLanded (a : At) (s : State) : exec (.soutLanded a) s = execSoutLanded a s := rfl
@[simp] theorem exec_sstep (a : At) (w : SWord) (s : State) : exec (.sstep a w) s = execSstep a w s := rfl
@[simp] theorem exec_streamHomeUpdate (p : Fin 16) (s : State) : exec (.streamHomeUpdate p) s = execStreamHomeUpdate p s := rfl
@[simp] theorem exec_fork (a : At) (w : SWord) (s : State) : exec (.fork a w) s = execFork a w s := rfl
@[simp] theorem exec_forkResume (a : At) (s : State) : exec (.forkResume a) s = execForkResume a s := rfl
@[simp] theorem exec_prune (a : At) (w : SWord) (s : State) : exec (.prune a w) s = execPrune a w s := rfl
@[simp] theorem exec_join (a : At) (w : SWord) (s : State) : exec (.join a w) s = execJoin a w s := rfl
@[simp] theorem exec_scatter (a : At) (w : SWord) (s : State) : exec (.scatter a w) s = execScatter a w s := rfl
@[simp] theorem exec_scatterResume (a : At) (s : State) : exec (.scatterResume a) s = execScatterResume a s := rfl
@[simp] theorem exec_pgfill (a : At) (w : SWord) (s : State) : exec (.pgfill a w) s = execPgfill a w s := rfl
@[simp] theorem exec_tileWatchdogExpiry (g : Fin 256) (s : State) : exec (.tileWatchdogExpiry g) s = execTileWatchdogExpiry g s := rfl
@[simp] theorem exec_contextSwitch (g : Fin 256) (s : State) : exec (.contextSwitch g) s = execContextSwitch g s := rfl
@[simp] theorem exec_loomSelfTest (g : Fin 256) (s : State) : exec (.loomSelfTest g) s = execLoomSelfTest g s := rfl
@[simp] theorem exec_loomSelfTestEnd (g : Fin 256) (pass : Bool) (block : BitVec 8) (s : State) : exec (.loomSelfTestEnd g pass block) s = execLoomSelfTestEnd g pass block s := rfl
@[simp] theorem exec_selfTestAbandon (g : Fin 256) (s : State) : exec (.selfTestAbandon g) s = execSelfTestAbandon g s := rfl
@[simp] theorem exec_pickBoundary  (s : State) : exec .pickBoundary s = execPickBoundary s := rfl
@[simp] theorem exec_cadenceCheck (p : Fin 16) (id : BitVec 16) (s : State) : exec (.cadenceCheck p id) s = execCadenceCheck p id s := rfl
@[simp] theorem exec_pickPulse (t : Nat) (s : State) : exec (.pickPulse t) s = execPickPulse t s := rfl
@[simp] theorem exec_pulseMissed (t : Nat) (s : State) : exec (.pulseMissed t) s = execPulseMissed t s := rfl
@[simp] theorem exec_holdoverExpired  (s : State) : exec .holdoverExpired s = execHoldoverExpired s := rfl
@[simp] theorem exec_ptpSync (m : PtpMsg) (s : State) : exec (.ptpSync m) s = execPtpSync m s := rfl
@[simp] theorem exec_ptpFollowUp (m : PtpMsg) (s : State) : exec (.ptpFollowUp m) s = execPtpFollowUp m s := rfl
@[simp] theorem exec_ptpDelayResp (m : PtpMsg) (s : State) : exec (.ptpDelayResp m) s = execPtpDelayResp m s := rfl
@[simp] theorem exec_ptpAnnounce (m : PtpMsg) (s : State) : exec (.ptpAnnounce m) s = execPtpAnnounce m s := rfl
@[simp] theorem exec_delayReq (port : Fin 8) (t : Nat) (s : State) : exec (.delayReq port t) s = execDelayReq port t s := rfl
@[simp] theorem exec_ptpAnnounceTimeout  (s : State) : exec .ptpAnnounceTimeout s = execPtpAnnounceTimeout s := rfl
@[simp] theorem exec_refLost  (s : State) : exec .refLost s = execRefLost s := rfl
@[simp] theorem exec_refRestored  (s : State) : exec .refRestored s = execRefRestored s := rfl
@[simp] theorem exec_modeAnnounce (m : Msg) (s : State) : exec (.modeAnnounce m) s = execModeAnnounce m s := rfl
@[simp] theorem exec_modeChangeAck (unit : BitVec 16) (s : State) : exec (.modeChangeAck unit) s = execModeChangeAck unit s := rfl
@[simp] theorem exec_modeChangeDecide  (s : State) : exec .modeChangeDecide s = execModeChangeDecide s := rfl
@[simp] theorem exec_modeChangeApply (unit : BitVec 16) (s : State) : exec (.modeChangeApply unit) s = execModeChangeApply unit s := rfl
@[simp] theorem exec_pickSourceArmPtp (q : WriteReq) (s : State) : exec (.pickSourceArmPtp q) s = execPickSourceArmPtp q s := rfl
@[simp] theorem exec_pickSourceArmPulse (q : WriteReq) (s : State) : exec (.pickSourceArmPulse q) s = execPickSourceArmPulse q s := rfl
@[simp] theorem exec_pickSourceDisarm (q : WriteReq) (s : State) : exec (.pickSourceDisarm q) s = execPickSourceDisarm q s := rfl
@[simp] theorem exec_moduleResetRequest (q : WriteReq) (s : State) : exec (.moduleResetRequest q) s = execModuleResetRequest q s := rfl
@[simp] theorem exec_moduleResetExecute  (s : State) : exec .moduleResetExecute s = execModuleResetExecute s := rfl
@[simp] theorem exec_memEvacEvacuate (mill : Fin 8) (q : WriteReq) (s : State) : exec (.memEvacEvacuate mill q) s = execMemEvacEvacuate mill q s := rfl
@[simp] theorem exec_memEvacRecalibrate (mill : Fin 8) (q : WriteReq) (s : State) : exec (.memEvacRecalibrate mill q) s = execMemEvacRecalibrate mill q s := rfl
@[simp] theorem exec_memEvacReturn (mill : Fin 8) (q : WriteReq) (s : State) : exec (.memEvacReturn mill q) s = execMemEvacReturn mill q s := rfl
@[simp] theorem exec_evacuationGranuleMove (mill : Fin 8) (crcOk : Bool) (s : State) : exec (.evacuationGranuleMove mill crcOk) s = execEvacuationGranuleMove mill crcOk s := rfl
@[simp] theorem exec_stackRecalibrationComplete (stack : Fin 32) (ok : Bool) (s : State) : exec (.stackRecalibrationComplete stack ok) s = execStackRecalibrationComplete stack ok s := rfl
@[simp] theorem exec_farCmdMovePagesOff (q : WriteReq) (s : State) : exec (.farCmdMovePagesOff q) s = execFarCmdMovePagesOff q s := rfl
@[simp] theorem exec_farPageMove (port : Fin 4) (s : State) : exec (.farPageMove port) s = execFarPageMove port s := rfl
@[simp] theorem exec_farCmdBringUp (q : WriteReq) (s : State) : exec (.farCmdBringUp q) s = execFarCmdBringUp q s := rfl
@[simp] theorem exec_perstRelease (port : Fin 4) (s : State) : exec (.perstRelease port) s = execPerstRelease port s := rfl
@[simp] theorem exec_farPortTrained (port : Fin 4) (ok : Bool) (gib : BitVec 13) (s : State) : exec (.farPortTrained port ok gib) s = execFarPortTrained port ok gib s := rfl
@[simp] theorem exec_farCmdFlush (q : WriteReq) (s : State) : exec (.farCmdFlush q) s = execFarCmdFlush q s := rfl
@[simp] theorem exec_farDevicePresenceChange (port : Fin 4) (present : Bool) (s : State) : exec (.farDevicePresenceChange port present) s = execFarDevicePresenceChange port present s := rfl
@[simp] theorem exec_stagingComplete (p : Fin 16) (page : BitVec 27) (s : State) : exec (.stagingComplete p page) s = execStagingComplete p page s := rfl
@[simp] theorem exec_writeBackComplete (p : Fin 16) (page : BitVec 27) (s : State) : exec (.writeBackComplete p page) s = execWriteBackComplete p page s := rfl
@[simp] theorem exec_writeBackFailure (p : Fin 16) (page : BitVec 27) (s : State) : exec (.writeBackFailure p page) s = execWriteBackFailure p page s := rfl
@[simp] theorem exec_stackFailure (stack : Fin 32) (s : State) : exec (.stackFailure stack) s = execStackFailure stack s := rfl
@[simp] theorem exec_farDeviceLost (port : Fin 4) (s : State) : exec (.farDeviceLost port) s = execFarDeviceLost port s := rfl
@[simp] theorem exec_regRead (m : Msg) (s : State) : exec (.regRead m) s = execRegRead m s := rfl
@[simp] theorem exec_regWrite (m : Msg) (s : State) : exec (.regWrite m) s = execRegWrite m s := rfl
@[simp] theorem exec_echo (m : Msg) (s : State) : exec (.echo m) s = execEcho m s := rfl
@[simp] theorem exec_runSubmit (m : Msg) (s : State) : exec (.runSubmit m) s = execRunSubmit m s := rfl
@[simp] theorem exec_streamOpen (m : Msg) (s : State) : exec (.streamOpen m) s = execStreamOpen m s := rfl
@[simp] theorem exec_streamReset (m : Msg) (s : State) : exec (.streamReset m) s = execStreamReset m s := rfl
@[simp] theorem exec_streamClose (m : Msg) (s : State) : exec (.streamClose m) s = execStreamClose m s := rfl
@[simp] theorem exec_streamStatus (m : Msg) (s : State) : exec (.streamStatus m) s = execStreamStatus m s := rfl
@[simp] theorem exec_seqOpen (m : Msg) (s : State) : exec (.seqOpen m) s = execSeqOpen m s := rfl
@[simp] theorem exec_seqPolicy (m : Msg) (s : State) : exec (.seqPolicy m) s = execSeqPolicy m s := rfl
@[simp] theorem exec_seqClose (m : Msg) (s : State) : exec (.seqClose m) s = execSeqClose m s := rfl
@[simp] theorem exec_creelOpen (m : Msg) (s : State) : exec (.creelOpen m) s = execCreelOpen m s := rfl
@[simp] theorem exec_creelClose (m : Msg) (s : State) : exec (.creelClose m) s = execCreelClose m s := rfl
@[simp] theorem exec_creelStatus (m : Msg) (s : State) : exec (.creelStatus m) s = execCreelStatus m s := rfl
@[simp] theorem exec_qpConnect (m : Msg) (s : State) : exec (.qpConnect m) s = execQpConnect m s := rfl
@[simp] theorem exec_qpClose (m : Msg) (s : State) : exec (.qpClose m) s = execQpClose m s := rfl
@[simp] theorem exec_reportSet (m : Msg) (s : State) : exec (.reportSet m) s = execReportSet m s := rfl
@[simp] theorem exec_draftBegin (m : Msg) (s : State) : exec (.draftBegin m) s = execDraftBegin m s := rfl
@[simp] theorem exec_draftData (m : Msg) (s : State) : exec (.draftData m) s = execDraftData m s := rfl
@[simp] theorem exec_draftEnd (m : Msg) (s : State) : exec (.draftEnd m) s = execDraftEnd m s := rfl
@[simp] theorem exec_draftAbort (m : Msg) (s : State) : exec (.draftAbort m) s = execDraftAbort m s := rfl
@[simp] theorem exec_draftLoaderVerdict  (s : State) : exec .draftLoaderVerdict s = execDraftLoaderVerdict s := rfl
@[simp] theorem exec_partitionStart (p : Fin 16) (s : State) : exec (.partitionStart p) s = execPartitionStart p s := rfl
@[simp] theorem exec_panelCheckDeadline (p : Fin 16) (s : State) : exec (.panelCheckDeadline p) s = execPanelCheckDeadline p s := rfl
@[simp] theorem exec_panelRecheck (p : Fin 16) (s : State) : exec (.panelRecheck p) s = execPanelRecheck p s := rfl
@[simp] theorem exec_panelReplace (p : Fin 16) (s : State) : exec (.panelReplace p) s = execPanelReplace p s := rfl
@[simp] theorem exec_noticeSet (m : Msg) (s : State) : exec (.noticeSet m) s = execNoticeSet m s := rfl
@[simp] theorem exec_faultNotice  (s : State) : exec .faultNotice s = execFaultNotice s := rfl
@[simp] theorem exec_fwBegin (m : Msg) (s : State) : exec (.fwBegin m) s = execFwBegin m s := rfl
@[simp] theorem exec_fwData (m : Msg) (s : State) : exec (.fwData m) s = execFwData m s := rfl
@[simp] theorem exec_fwEnd (m : Msg) (s : State) : exec (.fwEnd m) s = execFwEnd m s := rfl
@[simp] theorem exec_fwRestart (m : Msg) (s : State) : exec (.fwRestart m) s = execFwRestart m s := rfl
@[simp] theorem exec_fwConfirm (m : Msg) (s : State) : exec (.fwConfirm m) s = execFwConfirm m s := rfl
@[simp] theorem exec_draftSave (m : Msg) (s : State) : exec (.draftSave m) s = execDraftSave m s := rfl
@[simp] theorem exec_draftStandbyLoad (m : Msg) (s : State) : exec (.draftStandbyLoad m) s = execDraftStandbyLoad m s := rfl
@[simp] theorem exec_draftErase (m : Msg) (s : State) : exec (.draftErase m) s = execDraftErase m s := rfl
@[simp] theorem exec_netSave (m : Msg) (s : State) : exec (.netSave m) s = execNetSave m s := rfl
@[simp] theorem exec_fence (m : Msg) (s : State) : exec (.fence m) s = execFence m s := rfl
@[simp] theorem exec_unfence (m : Msg) (s : State) : exec (.unfence m) s = execUnfence m s := rfl
@[simp] theorem exec_linkRetrain (m : Msg) (s : State) : exec (.linkRetrain m) s = execLinkRetrain m s := rfl
@[simp] theorem exec_storeCompactNow (m : Msg) (s : State) : exec (.storeCompactNow m) s = execStoreCompactNow m s := rfl
@[simp] theorem exec_telemetryRead (m : Msg) (s : State) : exec (.telemetryRead m) s = execTelemetryRead m s := rfl
@[simp] theorem exec_acctRead (m : Msg) (s : State) : exec (.acctRead m) s = execAcctRead m s := rfl
@[simp] theorem exec_compactionPass  (s : State) : exec .compactionPass s = execCompactionPass s := rfl
@[simp] theorem exec_compactionWindowEnd  (s : State) : exec .compactionWindowEnd s = execCompactionWindowEnd s := rfl
@[simp] theorem exec_secIdentity (m : Msg) (s : State) : exec (.secIdentity m) s = execSecIdentity m s := rfl
@[simp] theorem exec_secQuote (m : Msg) (s : State) : exec (.secQuote m) s = execSecQuote m s := rfl
@[simp] theorem exec_secSessionOpen (m : Msg) (s : State) : exec (.secSessionOpen m) s = execSecSessionOpen m s := rfl
@[simp] theorem exec_secKeyLoad (m : Msg) (s : State) : exec (.secKeyLoad m) s = execSecKeyLoad m s := rfl
@[simp] theorem exec_secSessionClose (m : Msg) (s : State) : exec (.secSessionClose m) s = execSecSessionClose m s := rfl
@[simp] theorem exec_partitionDestroy (m : Msg) (s : State) : exec (.partitionDestroy m) s = execPartitionDestroy m s := rfl
@[simp] theorem exec_moduleZeroise (m : Msg) (s : State) : exec (.moduleZeroise m) s = execModuleZeroise m s := rfl
@[simp] theorem exec_signerEnrol (m : Msg) (s : State) : exec (.signerEnrol m) s = execSignerEnrol m s := rfl
@[simp] theorem exec_signerRemove (m : Msg) (s : State) : exec (.signerRemove m) s = execSignerRemove m s := rfl
@[simp] theorem exec_debugChallenge (m : Msg) (s : State) : exec (.debugChallenge m) s = execDebugChallenge m s := rfl
@[simp] theorem exec_debugUnlock (m : Msg) (s : State) : exec (.debugUnlock m) s = execDebugUnlock m s := rfl
@[simp] theorem exec_swatchArm (m : Msg) (s : State) : exec (.swatchArm m) s = execSwatchArm m s := rfl
@[simp] theorem exec_swatchStop (m : Msg) (s : State) : exec (.swatchStop m) s = execSwatchStop m s := rfl
@[simp] theorem exec_swatchDisarm (m : Msg) (s : State) : exec (.swatchDisarm m) s = execSwatchDisarm m s := rfl
@[simp] theorem exec_replayVirtualBoundary (p : Fin 16) (s : State) : exec (.replayVirtualBoundary p) s = execReplayVirtualBoundary p s := rfl
@[simp] theorem exec_rtpPacket (k : RtpPkt) (s : State) : exec (.rtpPacket k) s = execRtpPacket k s := rfl
@[simp] theorem exec_rtcpPacket (port : Fin 8) (s : State) : exec (.rtcpPacket port) s = execRtcpPacket port s := rfl
@[simp] theorem exec_creelFrameDeadline (slot : Fin 1024) (s : State) : exec (.creelFrameDeadline slot) s = execCreelFrameDeadline slot s := rfl
@[simp] theorem exec_creelDecodeStart (slot : Fin 1024) (s : State) : exec (.creelDecodeStart slot) s = execCreelDecodeStart slot s := rfl
@[simp] theorem exec_creelDecodeComplete (slot : Fin 1024) (s : State) : exec (.creelDecodeComplete slot) s = execCreelDecodeComplete slot s := rfl
@[simp] theorem exec_creelResume (slot : Fin 1024) (s : State) : exec (.creelResume slot) s = execCreelResume slot s := rfl
@[simp] theorem exec_rdmaWrite (k : RdmaReq) (s : State) : exec (.rdmaWrite k) s = execRdmaWrite k s := rfl
@[simp] theorem exec_rdmaRead (k : RdmaReq) (s : State) : exec (.rdmaRead k) s = execRdmaRead k s := rfl
@[simp] theorem exec_pushRingPoll (p : Fin 16) (qp : BitVec 16) (s : State) : exec (.pushRingPoll p qp) s = execPushRingPoll p qp s := rfl
@[simp] theorem exec_roceAck (p : Fin 16) (qp : BitVec 16) (psn : BitVec 24) (s : State) : exec (.roceAck p qp psn) s = execRoceAck p qp psn s := rfl
@[simp] theorem exec_rdmaReadResponse (p : Fin 16) (qp : BitVec 16) (psn : BitVec 24) (data : List Byte) (s : State) : exec (.rdmaReadResponse p qp psn data) s = execRdmaReadResponse p qp psn data s := rfl
@[simp] theorem exec_transportTimeout (p : Fin 16) (qp : BitVec 16) (s : State) : exec (.transportTimeout p qp) s = execTransportTimeout p qp s := rfl
@[simp] theorem exec_retriesExhausted (p : Fin 16) (qp : BitVec 16) (s : State) : exec (.retriesExhausted p qp) s = execRetriesExhausted p qp s := rfl
@[simp] theorem exec_cnpReceived (p : Fin 16) (qp : BitVec 16) (s : State) : exec (.cnpReceived p qp) s = execCnpReceived p qp s := rfl
@[simp] theorem exec_rateIncrease (p : Fin 16) (qp : BitVec 16) (s : State) : exec (.rateIncrease p qp) s = execRateIncrease p qp s := rfl
@[simp] theorem exec_arpRequest (f : NetFrame) (s : State) : exec (.arpRequest f) s = execArpRequest f s := rfl
@[simp] theorem exec_neighborSolicitation (f : NetFrame) (s : State) : exec (.neighborSolicitation f) s = execNeighborSolicitation f s := rfl
@[simp] theorem exec_icmpEchoRequest (f : NetFrame) (s : State) : exec (.icmpEchoRequest f) s = execIcmpEchoRequest f s := rfl
@[simp] theorem exec_discardedPacket (port : Fin 8) (why : DiscardKind) (s : State) : exec (.discardedPacket port why) s = execDiscardedPacket port why s := rfl
@[simp] theorem exec_mkaFrame (port : Fin 8) (frame : List Byte) (s : State) : exec (.mkaFrame port frame) s = execMkaFrame port frame s := rfl
@[simp] theorem exec_macsecSaLost (port : Fin 8) (s : State) : exec (.macsecSaLost port) s = execMacsecSaLost port s := rfl
@[simp] theorem exec_portLinkLost (port : Fin 8) (s : State) : exec (.portLinkLost port) s = execPortLinkLost port s := rfl
@[simp] theorem exec_portLinkUp (port : Fin 8) (s : State) : exec (.portLinkUp port) s = execPortLinkUp port s := rfl
@[simp] theorem exec_flitReceived (f : Flit) (s : State) : exec (.flitReceived f) s = execFlitReceived f s := rfl
@[simp] theorem exec_laneFailure (link : Fin 96) (lane : Fin 64) (s : State) : exec (.laneFailure link lane) s = execLaneFailure link lane s := rfl
@[simp] theorem exec_retryLimitReached (link : Fin 96) (s : State) : exec (.retryLimitReached link) s = execRetryLimitReached link s := rfl
@[simp] theorem exec_linkRetrainingComplete (link : Fin 96) (out : RetrainOutcome) (s : State) : exec (.linkRetrainingComplete link out) s = execLinkRetrainingComplete link out s := rfl
@[simp] theorem exec_sidebandHeartbeatLoss (mill : Fin 8) (s : State) : exec (.sidebandHeartbeatLoss mill) s = execSidebandHeartbeatLoss mill s := rfl
@[simp] theorem exec_residueMismatch (g : Fin 256) (harness : Fin 4) (heddle : Fin 64) (fell : Fin 2) (stateCopy : Bool) (s : State) : exec (.residueMismatch g harness heddle fell stateCopy) s = execResidueMismatch g harness heddle fell stateCopy s := rfl
@[simp] theorem exec_lockstepMismatch (g : Fin 256) (s : State) : exec (.lockstepMismatch g) s = execLockstepMismatch g s := rfl
@[simp] theorem exec_drainRounderMismatch (g : Fin 256) (s : State) : exec (.drainRounderMismatch g) s = execDrainRounderMismatch g s := rfl
@[simp] theorem exec_secdedCorrected (at_ : EccPlace) (s : State) : exec (.secdedCorrected at_) s = execSecdedCorrected at_ s := rfl
@[simp] theorem exec_secdedUncorrectable (at_ : EccPlace) (s : State) : exec (.secdedUncorrectable at_) s = execSecdedUncorrectable at_ s := rfl
@[simp] theorem exec_pageStateUe (p : Fin 16) (s : State) : exec (.pageStateUe p) s = execPageStateUe p s := rfl
@[simp] theorem exec_queueStoreUe (owners : List (Fin 16)) (s : State) : exec (.queueStoreUe owners) s = execQueueStoreUe owners s := rfl
@[simp] theorem exec_duplicatedEngineMismatch (e : DupEngine) (s : State) : exec (.duplicatedEngineMismatch e) s = execDuplicatedEngineMismatch e s := rfl
@[simp] theorem exec_clockOutOfTolerance (d : DieDomain) (s : State) : exec (.clockOutOfTolerance d) s = execClockOutOfTolerance d s := rfl
@[simp] theorem exec_supplyOutOfTolerance (d : Domain) (rail : BitVec 8) (reading : BitVec 32) (s : State) : exec (.supplyOutOfTolerance d rail reading) s = execSupplyOutOfTolerance d rail reading s := rfl
@[simp] theorem exec_junctionOverTemperature (d : Domain) (s : State) : exec (.junctionOverTemperature d) s = execJunctionOverTemperature d s := rfl
@[simp] theorem exec_junctionWarning (d : Domain) (s : State) : exec (.junctionWarning d) s = execJunctionWarning d s := rfl
@[simp] theorem exec_safetyControllerMismatch  (s : State) : exec .safetyControllerMismatch s = execSafetyControllerMismatch s := rfl
@[simp] theorem exec_entropyHealthFailure  (s : State) : exec .entropyHealthFailure s = execEntropyHealthFailure s := rfl
@[simp] theorem exec_entropyRestartComplete  (s : State) : exec .entropyRestartComplete s = execEntropyRestartComplete s := rfl
@[simp] theorem exec_faultRecordArrival  (s : State) : exec .faultRecordArrival s = execFaultRecordArrival s := rfl
@[simp] theorem exec_faultRecordHandled  (s : State) : exec .faultRecordHandled s = execFaultRecordHandled s := rfl
@[simp] theorem exec_powerUp  (s : State) : exec .powerUp s = execPowerUp s := rfl
@[simp] theorem exec_powerGoodDeassert  (s : State) : exec .powerGoodDeassert s = execPowerGoodDeassert s := rfl
@[simp] theorem exec_resetInputAssert  (s : State) : exec .resetInputAssert s = execResetInputAssert s := rfl
@[simp] theorem exec_resetInputRelease  (s : State) : exec .resetInputRelease s = execResetInputRelease s := rfl
@[simp] theorem exec_boot (b : BootReport) (s : State) : exec (.boot b) s = execBoot b s := rfl
@[simp] theorem exec_mgmtWatchdogExpiry  (s : State) : exec .mgmtWatchdogExpiry s = execMgmtWatchdogExpiry s := rfl
@[simp] theorem exec_boardServiceRead (address : BitVec 7) (register : BitVec 9) (count : BitVec 9) (s : State) : exec (.boardServiceRead address register count) s = execBoardServiceRead address register count s := rfl
@[simp] theorem exec_eepromWrite (address : BitVec 7) (register : BitVec 9) (data : List Byte) (s : State) : exec (.eepromWrite address register data) s = execEepromWrite address register data s := rfl
@[simp] theorem exec_fillDamage (g : Fin 256) (bank : Fin 2) (s : State) : exec (.fillDamage g bank) s = execFillDamage g bank s := rfl
@[simp] theorem exec_addressResolutionReply (f : NetFrame) (s : State) : exec (.addressResolutionReply f) s = execAddressResolutionReply f s := rfl
@[simp] theorem exec_pfcFrame (port : Fin 8) (enabled : BitVec 8) (quanta : Vector (BitVec 16) 8) (s : State) : exec (.pfcFrame port enabled quanta) s = execPfcFrame port enabled quanta s := rfl

end Sys2Proof.Machine
end

