-- ==== Sys2Proof/Laws/Tab.lean ====
section
/-! SUPPORT. Sys2Proof/Laws/Tab.lean: tables: a read after a write, and the canonical form that every operation keeps. -/

namespace Sys2Proof.Tab

variable {α : Type}

/-! ### Reads after writes -/

@[simp] theorem get_nil (k : Nat) (d : α) : get ([] : Tab α) k d = d := rfl
@[simp] theorem find?_nil (k : Nat) : find? ([] : Tab α) k = none := rfl

@[simp] theorem get_ins_self (t : Tab α) (k : Nat) (v d : α) : (ins t k v).get k d = v := by
  induction t with
  | nil => simp [ins, get]
  | cons e rest ih =>
    obtain ⟨j, w⟩ := e
    simp only [ins]
    split
    · simp [get]
    · split
      · simp [get]
      · simp_all [get]

theorem get_ins_of_ne (t : Tab α) {k i : Nat} (v d : α) (h : i ≠ k) : (ins t k v).get i d = t.get i d := by
  induction t with
  | nil => simp [ins, get]; omega
  | cons e rest ih =>
    obtain ⟨j, w⟩ := e
    simp only [ins]
    split
    · next hj => subst hj; simp only [get]; split <;> simp_all
    · split
      · simp only [get]; split
        · omega
        · rfl
      · simp only [get, ih]

/-- The later of two writes at a key is the one that stays. -/
@[simp] theorem ins_ins (t : Tab α) (k : Nat) (v w : α) : ins (ins t k v) k w = ins t k w := by
  induction t with
  | nil => simp [ins]
  | cons e rest ih =>
    obtain ⟨j, u⟩ := e
    simp only [ins]
    split
    · simp [ins]
    · split
      · simp [ins]
      · simp only [ins]; rw [if_neg ‹_›, if_neg ‹_›, ih]

theorem find?_ins_self (t : Tab α) (k : Nat) (v : α) : (ins t k v).find? k = some v := by
  induction t with
  | nil => simp [ins, find?]
  | cons e rest ih =>
    obtain ⟨j, w⟩ := e
    simp only [ins]
    split
    · simp [find?]
    · split
      · simp [find?]
      · simp_all [find?]

theorem find?_ins_of_ne (t : Tab α) {k i : Nat} (v : α) (h : i ≠ k) : (ins t k v).find? i = t.find? i := by
  induction t with
  | nil => simp [ins, find?]; omega
  | cons e rest ih =>
    obtain ⟨j, w⟩ := e
    simp only [ins]
    split
    · next hj => subst hj; simp only [find?]; split <;> simp_all
    · split
      · simp only [find?]; split
        · omega
        · rfl
      · simp only [find?, ih]

/-- Where the keys rise above `k`, nothing is listed at it. -/
theorem get_of_rising {t : Tab α} {lo : Nat} (h : rising (some lo) t = true) {k : Nat} (hk : k ≤ lo) (d : α) : t.get k d = d := by
  induction t generalizing lo with
  | nil => rfl
  | cons e rest ih =>
    obtain ⟨j, w⟩ := e
    simp only [rising, Bool.and_eq_true, decide_eq_true_eq] at h
    have hj : j ≠ k := by omega
    simp only [get, if_neg hj]
    exact ih h.2 (by omega)

theorem find?_of_rising {t : Tab α} {lo : Nat} (h : rising (some lo) t = true) {k : Nat} (hk : k ≤ lo) : t.find? k = none := by
  induction t generalizing lo with
  | nil => rfl
  | cons e rest ih =>
    obtain ⟨j, w⟩ := e
    simp only [rising, Bool.and_eq_true, decide_eq_true_eq] at h
    have hj : j ≠ k := by omega
    simp only [find?, if_neg hj]
    exact ih h.2 (by omega)

theorem get_del_self (t : Tab α) (k : Nat) (d : α) : (del t k).get k d = d := by
  induction t with
  | nil => rfl
  | cons e rest ih =>
    obtain ⟨j, w⟩ := e
    simp only [del]
    split
    · exact ih
    · next hj => simp only [get, if_neg hj]; exact ih

theorem get_del_of_ne (t : Tab α) {k i : Nat} (d : α) (h : i ≠ k) : (del t k).get i d = t.get i d := by
  induction t with
  | nil => rfl
  | cons e rest ih =>
    obtain ⟨j, w⟩ := e
    simp only [del]
    split
    · next hj => subst hj; simp only [get, if_neg (Ne.symm h)]; exact ih
    · simp only [get, ih]

/-- A read at the key of a write gives what was written. -/
theorem get_put_self [DecidableEq α] (t : Tab α) (k : Nat) (v d : α) : (put t k v d).get k d = v := by
  unfold put
  split
  · next hv => rw [get_del_self, hv]
  · exact get_ins_self t k v d

/-- A write leaves what every other key reads as. -/
theorem get_put_of_ne [DecidableEq α] (t : Tab α) {k i : Nat} (v d e : α) (h : i ≠ k) : (put t k v d).get i e = t.get i e := by
  unfold put
  split
  · exact get_del_of_ne t e h
  · exact get_ins_of_ne t v e h

/-! ### The canonical form -/

theorem rising_weaken {t : Tab α} {lo : Option Nat} {k : Nat} (h : rising lo t = true) (hk : ∀ l, lo = some l → k ≤ l)
    (hs : lo.isSome = true) : rising (some k) t = true := by
  cases t with
  | nil => rfl
  | cons e rest =>
    obtain ⟨j, w⟩ := e
    cases lo with
    | none => simp at hs
    | some l =>
      simp only [rising, Bool.and_eq_true, decide_eq_true_eq] at h ⊢
      have := hk l rfl
      exact ⟨by omega, h.2⟩

theorem rising_none_of {t : Tab α} {lo : Option Nat} (h : rising lo t = true) : rising none t = true := by
  cases t with
  | nil => rfl
  | cons e rest =>
    obtain ⟨j, w⟩ := e
    simp only [rising, Bool.and_eq_true, Bool.true_and] at h ⊢
    exact h.2

theorem rising_ins {t : Tab α} {lo : Option Nat} (h : rising lo t = true) (k : Nat) (v : α) (hk : ∀ l, lo = some l → l < k) :
    rising lo (ins t k v) = true := by
  induction t generalizing lo with
  | nil => cases lo <;> simp [ins, rising] ; exact hk _ rfl
  | cons e rest ih =>
    obtain ⟨j, w⟩ := e
    simp only [rising, Bool.and_eq_true] at h
    simp only [ins]
    split
    · next hj => subst hj; simp only [rising, Bool.and_eq_true]; exact h
    · split
      · next hj hlt =>
        simp only [rising, Bool.and_eq_true, decide_eq_true_eq]
        refine ⟨?_, hlt, h.2⟩
        cases lo with
        | none => rfl
        | some l => simpa using hk l rfl
      · next hj hlt =>
        simp only [rising, Bool.and_eq_true]
        exact ⟨h.1, ih h.2 (by rintro l hl; cases hl; omega)⟩

theorem rising_del {t : Tab α} {lo : Option Nat} (h : rising lo t = true) (k : Nat) : rising lo (del t k) = true := by
  induction t generalizing lo with
  | nil => rfl
  | cons e rest ih =>
    obtain ⟨j, w⟩ := e
    simp only [rising, Bool.and_eq_true] at h
    simp only [del]
    split
    · cases lo with
      | none => exact rising_none_of (ih h.2)
      | some l =>
        have hl : l < j := of_decide_eq_true h.1
        exact rising_weaken (ih h.2) (by rintro m hm; cases hm; omega) rfl
    · simp only [rising, Bool.and_eq_true]
      exact ⟨h.1, ih h.2⟩

theorem rising_put [DecidableEq α] {t : Tab α} (h : rising none t = true) (k : Nat) (v d : α) : rising none (put t k v d) = true := by
  unfold put
  split
  · exact rising_del h k
  · exact rising_ins h k v (by rintro l ⟨⟩)

theorem mem_ins {t : Tab α} {k : Nat} {v : α} {e : Nat × α} (h : e ∈ ins t k v) : e = (k, v) ∨ e ∈ t := by
  induction t with
  | nil => simp only [ins, List.mem_singleton] at h; exact .inl h
  | cons a rest ih =>
    obtain ⟨j, w⟩ := a
    simp only [ins] at h
    split at h
    · simp only [List.mem_cons] at h ⊢
      rcases h with h | h
      · exact .inl h
      · exact .inr (.inr h)
    · split at h
      · simp only [List.mem_cons] at h ⊢; exact h
      · simp only [List.mem_cons] at h ⊢
        rcases h with h | h
        · exact .inr (.inl h)
        · rcases ih h with h | h
          · exact .inl h
          · exact .inr (.inr h)

theorem mem_del {t : Tab α} {k : Nat} {e : Nat × α} (h : e ∈ del t k) : e ∈ t := by
  induction t with
  | nil => exact h
  | cons a rest ih =>
    obtain ⟨j, w⟩ := a
    simp only [del] at h
    split at h
    · exact List.mem_cons_of_mem _ (ih h)
    · simp only [List.mem_cons] at h ⊢
      rcases h with h | h
      · exact .inl h
      · exact .inr (ih h)

/-- Every write keeps the canonical form. -/
theorem wf_put [DecidableEq α] {t : Tab α} {d : α} (h : wf t d = true) (k : Nat) (v : α) : wf (put t k v d) d = true := by
  simp only [wf, Bool.and_eq_true, List.all_eq_true, decide_eq_true_eq] at h ⊢
  refine ⟨rising_put h.1 k v d, fun e he => ?_⟩
  unfold put at he
  split at he
  · exact h.2 e (mem_del he)
  · next hv =>
    rcases mem_ins he with rfl | he
    · exact hv
    · exact h.2 e he

theorem rising_filter {t : Tab α} {lo : Option Nat} (h : rising lo t = true) (f : Nat × α → Bool) : rising lo (t.filter f) = true := by
  induction t generalizing lo with
  | nil => rfl
  | cons e rest ih =>
    obtain ⟨j, w⟩ := e
    simp only [rising, Bool.and_eq_true] at h
    simp only [List.filter_cons]
    split
    · simp only [rising, Bool.and_eq_true]; exact ⟨h.1, ih h.2⟩
    · cases lo with
      | none => exact rising_none_of (ih h.2)
      | some l =>
        simp only [decide_eq_true_eq] at h
        exact rising_weaken (ih h.2) (by rintro m hm; cases hm; omega) rfl

theorem wf_keep [DecidableEq α] {t : Tab α} {d : α} (h : wf t d = true) (f : Nat → α → Bool) : wf (keep t f) d = true := by
  simp only [wf, Bool.and_eq_true, List.all_eq_true, decide_eq_true_eq] at h ⊢
  exact ⟨rising_filter h.1 _, fun e he => h.2 e (List.mem_filter.mp he).1⟩

@[simp] theorem wf_nil [DecidableEq α] (d : α) : wf ([] : Tab α) d = true := rfl

/-- A canonical table reads the default exactly where it lists nothing. -/
theorem get_of_wf [DecidableEq α] {t : Tab α} {d : α} (h : wf t d = true) : rising none t = true := by
  simp only [wf, Bool.and_eq_true] at h
  exact h.1

end Sys2Proof.Tab
end

