-- ==== Sys2Proof/Laws/State.lean ====
section
/-! SUPPORT. Sys2Proof/Laws/State.lean: what each named update of the state leaves as it was, field by field, and what it writes. -/

namespace Sys2Proof.Machine

open Sys2Proof

/-! ### State.setReg -/

@[simp] theorem State.setReg_pending (s : State) (r : Reg) (v : Word) : (s.setReg r v).pending = s.pending := rfl
@[simp] theorem State.setReg_freeCount (s : State) (r : Reg) (v : Word) : (s.setReg r v).freeCount = s.freeCount := rfl
@[simp] theorem State.setReg_beat (s : State) (r : Reg) (v : Word) : (s.setReg r v).beat = s.beat := rfl
@[simp] theorem State.setReg_boundaryBeat (s : State) (r : Reg) (v : Word) : (s.setReg r v).boundaryBeat = s.boundaryBeat := rfl
@[simp] theorem State.setReg_power (s : State) (r : Reg) (v : Word) : (s.setReg r v).power = s.power := rfl
@[simp] theorem State.setReg_pick (s : State) (r : Reg) (v : Word) : (s.setReg r v).pick = s.pick := rfl
@[simp] theorem State.setReg_net (s : State) (r : Reg) (v : Word) : (s.setReg r v).net = s.net := rfl
@[simp] theorem State.setReg_sec (s : State) (r : Reg) (v : Word) : (s.setReg r v).sec = s.sec := rfl
@[simp] theorem State.setReg_fuses (s : State) (r : Reg) (v : Word) : (s.setReg r v).fuses = s.fuses := rfl
@[simp] theorem State.setReg_safety (s : State) (r : Reg) (v : Word) : (s.setReg r v).safety = s.safety := rfl
@[simp] theorem State.setReg_store (s : State) (r : Reg) (v : Word) : (s.setReg r v).store = s.store := rfl
@[simp] theorem State.setReg_tele (s : State) (r : Reg) (v : Word) : (s.setReg r v).tele = s.tele := rfl
@[simp] theorem State.setReg_mem (s : State) (r : Reg) (v : Word) : (s.setReg r v).mem = s.mem := rfl
@[simp] theorem State.setReg_draft (s : State) (r : Reg) (v : Word) : (s.setReg r v).draft = s.draft := rfl
@[simp] theorem State.setReg_links (s : State) (r : Reg) (v : Word) : (s.setReg r v).links = s.links := rfl
@[simp] theorem State.setReg_looms (s : State) (r : Reg) (v : Word) : (s.setReg r v).looms = s.looms := rfl
@[simp] theorem State.setReg_parts (s : State) (r : Reg) (v : Word) : (s.setReg r v).parts = s.parts := rfl
@[simp] theorem State.setReg_slots (s : State) (r : Reg) (v : Word) : (s.setReg r v).slots = s.slots := rfl
@[simp] theorem State.setReg_creel (s : State) (r : Reg) (v : Word) : (s.setReg r v).creel = s.creel := rfl

/-! ### State.setLoom -/

@[simp] theorem State.setLoom_pending (s : State) (g : Fin 256) (l : Loom) : (s.setLoom g l).pending = s.pending := rfl
@[simp] theorem State.setLoom_freeCount (s : State) (g : Fin 256) (l : Loom) : (s.setLoom g l).freeCount = s.freeCount := rfl
@[simp] theorem State.setLoom_beat (s : State) (g : Fin 256) (l : Loom) : (s.setLoom g l).beat = s.beat := rfl
@[simp] theorem State.setLoom_boundaryBeat (s : State) (g : Fin 256) (l : Loom) : (s.setLoom g l).boundaryBeat = s.boundaryBeat := rfl
@[simp] theorem State.setLoom_regs (s : State) (g : Fin 256) (l : Loom) : (s.setLoom g l).regs = s.regs := rfl
@[simp] theorem State.setLoom_power (s : State) (g : Fin 256) (l : Loom) : (s.setLoom g l).power = s.power := rfl
@[simp] theorem State.setLoom_pick (s : State) (g : Fin 256) (l : Loom) : (s.setLoom g l).pick = s.pick := rfl
@[simp] theorem State.setLoom_net (s : State) (g : Fin 256) (l : Loom) : (s.setLoom g l).net = s.net := rfl
@[simp] theorem State.setLoom_sec (s : State) (g : Fin 256) (l : Loom) : (s.setLoom g l).sec = s.sec := rfl
@[simp] theorem State.setLoom_fuses (s : State) (g : Fin 256) (l : Loom) : (s.setLoom g l).fuses = s.fuses := rfl
@[simp] theorem State.setLoom_safety (s : State) (g : Fin 256) (l : Loom) : (s.setLoom g l).safety = s.safety := rfl
@[simp] theorem State.setLoom_store (s : State) (g : Fin 256) (l : Loom) : (s.setLoom g l).store = s.store := rfl
@[simp] theorem State.setLoom_tele (s : State) (g : Fin 256) (l : Loom) : (s.setLoom g l).tele = s.tele := rfl
@[simp] theorem State.setLoom_mem (s : State) (g : Fin 256) (l : Loom) : (s.setLoom g l).mem = s.mem := rfl
@[simp] theorem State.setLoom_draft (s : State) (g : Fin 256) (l : Loom) : (s.setLoom g l).draft = s.draft := rfl
@[simp] theorem State.setLoom_links (s : State) (g : Fin 256) (l : Loom) : (s.setLoom g l).links = s.links := rfl
@[simp] theorem State.setLoom_parts (s : State) (g : Fin 256) (l : Loom) : (s.setLoom g l).parts = s.parts := rfl
@[simp] theorem State.setLoom_slots (s : State) (g : Fin 256) (l : Loom) : (s.setLoom g l).slots = s.slots := rfl
@[simp] theorem State.setLoom_creel (s : State) (g : Fin 256) (l : Loom) : (s.setLoom g l).creel = s.creel := rfl

/-! ### State.setPart -/

@[simp] theorem State.setPart_pending (s : State) (p : Fin 16) (x : Part) : (s.setPart p x).pending = s.pending := rfl
@[simp] theorem State.setPart_freeCount (s : State) (p : Fin 16) (x : Part) : (s.setPart p x).freeCount = s.freeCount := rfl
@[simp] theorem State.setPart_beat (s : State) (p : Fin 16) (x : Part) : (s.setPart p x).beat = s.beat := rfl
@[simp] theorem State.setPart_boundaryBeat (s : State) (p : Fin 16) (x : Part) : (s.setPart p x).boundaryBeat = s.boundaryBeat := rfl
@[simp] theorem State.setPart_regs (s : State) (p : Fin 16) (x : Part) : (s.setPart p x).regs = s.regs := rfl
@[simp] theorem State.setPart_power (s : State) (p : Fin 16) (x : Part) : (s.setPart p x).power = s.power := rfl
@[simp] theorem State.setPart_pick (s : State) (p : Fin 16) (x : Part) : (s.setPart p x).pick = s.pick := rfl
@[simp] theorem State.setPart_net (s : State) (p : Fin 16) (x : Part) : (s.setPart p x).net = s.net := rfl
@[simp] theorem State.setPart_sec (s : State) (p : Fin 16) (x : Part) : (s.setPart p x).sec = s.sec := rfl
@[simp] theorem State.setPart_fuses (s : State) (p : Fin 16) (x : Part) : (s.setPart p x).fuses = s.fuses := rfl
@[simp] theorem State.setPart_safety (s : State) (p : Fin 16) (x : Part) : (s.setPart p x).safety = s.safety := rfl
@[simp] theorem State.setPart_store (s : State) (p : Fin 16) (x : Part) : (s.setPart p x).store = s.store := rfl
@[simp] theorem State.setPart_tele (s : State) (p : Fin 16) (x : Part) : (s.setPart p x).tele = s.tele := rfl
@[simp] theorem State.setPart_mem (s : State) (p : Fin 16) (x : Part) : (s.setPart p x).mem = s.mem := rfl
@[simp] theorem State.setPart_draft (s : State) (p : Fin 16) (x : Part) : (s.setPart p x).draft = s.draft := rfl
@[simp] theorem State.setPart_links (s : State) (p : Fin 16) (x : Part) : (s.setPart p x).links = s.links := rfl
@[simp] theorem State.setPart_looms (s : State) (p : Fin 16) (x : Part) : (s.setPart p x).looms = s.looms := rfl
@[simp] theorem State.setPart_slots (s : State) (p : Fin 16) (x : Part) : (s.setPart p x).slots = s.slots := rfl
@[simp] theorem State.setPart_creel (s : State) (p : Fin 16) (x : Part) : (s.setPart p x).creel = s.creel := rfl

/-! ### State.setLink -/

@[simp] theorem State.setLink_pending (s : State) (i : Fin 96) (k : Link) : (s.setLink i k).pending = s.pending := rfl
@[simp] theorem State.setLink_freeCount (s : State) (i : Fin 96) (k : Link) : (s.setLink i k).freeCount = s.freeCount := rfl
@[simp] theorem State.setLink_beat (s : State) (i : Fin 96) (k : Link) : (s.setLink i k).beat = s.beat := rfl
@[simp] theorem State.setLink_boundaryBeat (s : State) (i : Fin 96) (k : Link) : (s.setLink i k).boundaryBeat = s.boundaryBeat := rfl
@[simp] theorem State.setLink_regs (s : State) (i : Fin 96) (k : Link) : (s.setLink i k).regs = s.regs := rfl
@[simp] theorem State.setLink_power (s : State) (i : Fin 96) (k : Link) : (s.setLink i k).power = s.power := rfl
@[simp] theorem State.setLink_pick (s : State) (i : Fin 96) (k : Link) : (s.setLink i k).pick = s.pick := rfl
@[simp] theorem State.setLink_net (s : State) (i : Fin 96) (k : Link) : (s.setLink i k).net = s.net := rfl
@[simp] theorem State.setLink_sec (s : State) (i : Fin 96) (k : Link) : (s.setLink i k).sec = s.sec := rfl
@[simp] theorem State.setLink_fuses (s : State) (i : Fin 96) (k : Link) : (s.setLink i k).fuses = s.fuses := rfl
@[simp] theorem State.setLink_safety (s : State) (i : Fin 96) (k : Link) : (s.setLink i k).safety = s.safety := rfl
@[simp] theorem State.setLink_store (s : State) (i : Fin 96) (k : Link) : (s.setLink i k).store = s.store := rfl
@[simp] theorem State.setLink_tele (s : State) (i : Fin 96) (k : Link) : (s.setLink i k).tele = s.tele := rfl
@[simp] theorem State.setLink_mem (s : State) (i : Fin 96) (k : Link) : (s.setLink i k).mem = s.mem := rfl
@[simp] theorem State.setLink_draft (s : State) (i : Fin 96) (k : Link) : (s.setLink i k).draft = s.draft := rfl
@[simp] theorem State.setLink_looms (s : State) (i : Fin 96) (k : Link) : (s.setLink i k).looms = s.looms := rfl
@[simp] theorem State.setLink_parts (s : State) (i : Fin 96) (k : Link) : (s.setLink i k).parts = s.parts := rfl
@[simp] theorem State.setLink_slots (s : State) (i : Fin 96) (k : Link) : (s.setLink i k).slots = s.slots := rfl
@[simp] theorem State.setLink_creel (s : State) (i : Fin 96) (k : Link) : (s.setLink i k).creel = s.creel := rfl

/-! ### State.setPort -/

@[simp] theorem State.setPort_pending (s : State) (i : Fin 8) (k : Port) : (s.setPort i k).pending = s.pending := rfl
@[simp] theorem State.setPort_freeCount (s : State) (i : Fin 8) (k : Port) : (s.setPort i k).freeCount = s.freeCount := rfl
@[simp] theorem State.setPort_beat (s : State) (i : Fin 8) (k : Port) : (s.setPort i k).beat = s.beat := rfl
@[simp] theorem State.setPort_boundaryBeat (s : State) (i : Fin 8) (k : Port) : (s.setPort i k).boundaryBeat = s.boundaryBeat := rfl
@[simp] theorem State.setPort_regs (s : State) (i : Fin 8) (k : Port) : (s.setPort i k).regs = s.regs := rfl
@[simp] theorem State.setPort_power (s : State) (i : Fin 8) (k : Port) : (s.setPort i k).power = s.power := rfl
@[simp] theorem State.setPort_pick (s : State) (i : Fin 8) (k : Port) : (s.setPort i k).pick = s.pick := rfl
@[simp] theorem State.setPort_sec (s : State) (i : Fin 8) (k : Port) : (s.setPort i k).sec = s.sec := rfl
@[simp] theorem State.setPort_fuses (s : State) (i : Fin 8) (k : Port) : (s.setPort i k).fuses = s.fuses := rfl
@[simp] theorem State.setPort_safety (s : State) (i : Fin 8) (k : Port) : (s.setPort i k).safety = s.safety := rfl
@[simp] theorem State.setPort_store (s : State) (i : Fin 8) (k : Port) : (s.setPort i k).store = s.store := rfl
@[simp] theorem State.setPort_tele (s : State) (i : Fin 8) (k : Port) : (s.setPort i k).tele = s.tele := rfl
@[simp] theorem State.setPort_mem (s : State) (i : Fin 8) (k : Port) : (s.setPort i k).mem = s.mem := rfl
@[simp] theorem State.setPort_draft (s : State) (i : Fin 8) (k : Port) : (s.setPort i k).draft = s.draft := rfl
@[simp] theorem State.setPort_links (s : State) (i : Fin 8) (k : Port) : (s.setPort i k).links = s.links := rfl
@[simp] theorem State.setPort_looms (s : State) (i : Fin 8) (k : Port) : (s.setPort i k).looms = s.looms := rfl
@[simp] theorem State.setPort_parts (s : State) (i : Fin 8) (k : Port) : (s.setPort i k).parts = s.parts := rfl
@[simp] theorem State.setPort_slots (s : State) (i : Fin 8) (k : Port) : (s.setPort i k).slots = s.slots := rfl
@[simp] theorem State.setPort_creel (s : State) (i : Fin 8) (k : Port) : (s.setPort i k).creel = s.creel := rfl

/-! ### State.setFarPort -/

@[simp] theorem State.setFarPort_pending (s : State) (i : Fin 4) (k : FarPort) : (s.setFarPort i k).pending = s.pending := rfl
@[simp] theorem State.setFarPort_freeCount (s : State) (i : Fin 4) (k : FarPort) : (s.setFarPort i k).freeCount = s.freeCount := rfl
@[simp] theorem State.setFarPort_beat (s : State) (i : Fin 4) (k : FarPort) : (s.setFarPort i k).beat = s.beat := rfl
@[simp] theorem State.setFarPort_boundaryBeat (s : State) (i : Fin 4) (k : FarPort) : (s.setFarPort i k).boundaryBeat = s.boundaryBeat := rfl
@[simp] theorem State.setFarPort_regs (s : State) (i : Fin 4) (k : FarPort) : (s.setFarPort i k).regs = s.regs := rfl
@[simp] theorem State.setFarPort_power (s : State) (i : Fin 4) (k : FarPort) : (s.setFarPort i k).power = s.power := rfl
@[simp] theorem State.setFarPort_pick (s : State) (i : Fin 4) (k : FarPort) : (s.setFarPort i k).pick = s.pick := rfl
@[simp] theorem State.setFarPort_net (s : State) (i : Fin 4) (k : FarPort) : (s.setFarPort i k).net = s.net := rfl
@[simp] theorem State.setFarPort_sec (s : State) (i : Fin 4) (k : FarPort) : (s.setFarPort i k).sec = s.sec := rfl
@[simp] theorem State.setFarPort_fuses (s : State) (i : Fin 4) (k : FarPort) : (s.setFarPort i k).fuses = s.fuses := rfl
@[simp] theorem State.setFarPort_safety (s : State) (i : Fin 4) (k : FarPort) : (s.setFarPort i k).safety = s.safety := rfl
@[simp] theorem State.setFarPort_store (s : State) (i : Fin 4) (k : FarPort) : (s.setFarPort i k).store = s.store := rfl
@[simp] theorem State.setFarPort_tele (s : State) (i : Fin 4) (k : FarPort) : (s.setFarPort i k).tele = s.tele := rfl
@[simp] theorem State.setFarPort_draft (s : State) (i : Fin 4) (k : FarPort) : (s.setFarPort i k).draft = s.draft := rfl
@[simp] theorem State.setFarPort_links (s : State) (i : Fin 4) (k : FarPort) : (s.setFarPort i k).links = s.links := rfl
@[simp] theorem State.setFarPort_looms (s : State) (i : Fin 4) (k : FarPort) : (s.setFarPort i k).looms = s.looms := rfl
@[simp] theorem State.setFarPort_parts (s : State) (i : Fin 4) (k : FarPort) : (s.setFarPort i k).parts = s.parts := rfl
@[simp] theorem State.setFarPort_slots (s : State) (i : Fin 4) (k : FarPort) : (s.setFarPort i k).slots = s.slots := rfl
@[simp] theorem State.setFarPort_creel (s : State) (i : Fin 4) (k : FarPort) : (s.setFarPort i k).creel = s.creel := rfl

/-! ### State.setSlot -/

@[simp] theorem State.setSlot_pending (s : State) (i : Fin 1024) (k : Slot) : (s.setSlot i k).pending = s.pending := rfl
@[simp] theorem State.setSlot_freeCount (s : State) (i : Fin 1024) (k : Slot) : (s.setSlot i k).freeCount = s.freeCount := rfl
@[simp] theorem State.setSlot_beat (s : State) (i : Fin 1024) (k : Slot) : (s.setSlot i k).beat = s.beat := rfl
@[simp] theorem State.setSlot_boundaryBeat (s : State) (i : Fin 1024) (k : Slot) : (s.setSlot i k).boundaryBeat = s.boundaryBeat := rfl
@[simp] theorem State.setSlot_regs (s : State) (i : Fin 1024) (k : Slot) : (s.setSlot i k).regs = s.regs := rfl
@[simp] theorem State.setSlot_power (s : State) (i : Fin 1024) (k : Slot) : (s.setSlot i k).power = s.power := rfl
@[simp] theorem State.setSlot_pick (s : State) (i : Fin 1024) (k : Slot) : (s.setSlot i k).pick = s.pick := rfl
@[simp] theorem State.setSlot_net (s : State) (i : Fin 1024) (k : Slot) : (s.setSlot i k).net = s.net := rfl
@[simp] theorem State.setSlot_sec (s : State) (i : Fin 1024) (k : Slot) : (s.setSlot i k).sec = s.sec := rfl
@[simp] theorem State.setSlot_fuses (s : State) (i : Fin 1024) (k : Slot) : (s.setSlot i k).fuses = s.fuses := rfl
@[simp] theorem State.setSlot_safety (s : State) (i : Fin 1024) (k : Slot) : (s.setSlot i k).safety = s.safety := rfl
@[simp] theorem State.setSlot_store (s : State) (i : Fin 1024) (k : Slot) : (s.setSlot i k).store = s.store := rfl
@[simp] theorem State.setSlot_tele (s : State) (i : Fin 1024) (k : Slot) : (s.setSlot i k).tele = s.tele := rfl
@[simp] theorem State.setSlot_mem (s : State) (i : Fin 1024) (k : Slot) : (s.setSlot i k).mem = s.mem := rfl
@[simp] theorem State.setSlot_draft (s : State) (i : Fin 1024) (k : Slot) : (s.setSlot i k).draft = s.draft := rfl
@[simp] theorem State.setSlot_links (s : State) (i : Fin 1024) (k : Slot) : (s.setSlot i k).links = s.links := rfl
@[simp] theorem State.setSlot_looms (s : State) (i : Fin 1024) (k : Slot) : (s.setSlot i k).looms = s.looms := rfl
@[simp] theorem State.setSlot_parts (s : State) (i : Fin 1024) (k : Slot) : (s.setSlot i k).parts = s.parts := rfl
@[simp] theorem State.setSlot_creel (s : State) (i : Fin 1024) (k : Slot) : (s.setSlot i k).creel = s.creel := rfl

/-! ### State.setStack -/

@[simp] theorem State.setStack_pending (s : State) (i : Fin 32) (n : Nat) : (s.setStack i n).pending = s.pending := rfl
@[simp] theorem State.setStack_freeCount (s : State) (i : Fin 32) (n : Nat) : (s.setStack i n).freeCount = s.freeCount := rfl
@[simp] theorem State.setStack_beat (s : State) (i : Fin 32) (n : Nat) : (s.setStack i n).beat = s.beat := rfl
@[simp] theorem State.setStack_boundaryBeat (s : State) (i : Fin 32) (n : Nat) : (s.setStack i n).boundaryBeat = s.boundaryBeat := rfl
@[simp] theorem State.setStack_regs (s : State) (i : Fin 32) (n : Nat) : (s.setStack i n).regs = s.regs := rfl
@[simp] theorem State.setStack_power (s : State) (i : Fin 32) (n : Nat) : (s.setStack i n).power = s.power := rfl
@[simp] theorem State.setStack_pick (s : State) (i : Fin 32) (n : Nat) : (s.setStack i n).pick = s.pick := rfl
@[simp] theorem State.setStack_net (s : State) (i : Fin 32) (n : Nat) : (s.setStack i n).net = s.net := rfl
@[simp] theorem State.setStack_sec (s : State) (i : Fin 32) (n : Nat) : (s.setStack i n).sec = s.sec := rfl
@[simp] theorem State.setStack_fuses (s : State) (i : Fin 32) (n : Nat) : (s.setStack i n).fuses = s.fuses := rfl
@[simp] theorem State.setStack_safety (s : State) (i : Fin 32) (n : Nat) : (s.setStack i n).safety = s.safety := rfl
@[simp] theorem State.setStack_store (s : State) (i : Fin 32) (n : Nat) : (s.setStack i n).store = s.store := rfl
@[simp] theorem State.setStack_tele (s : State) (i : Fin 32) (n : Nat) : (s.setStack i n).tele = s.tele := rfl
@[simp] theorem State.setStack_draft (s : State) (i : Fin 32) (n : Nat) : (s.setStack i n).draft = s.draft := rfl
@[simp] theorem State.setStack_links (s : State) (i : Fin 32) (n : Nat) : (s.setStack i n).links = s.links := rfl
@[simp] theorem State.setStack_looms (s : State) (i : Fin 32) (n : Nat) : (s.setStack i n).looms = s.looms := rfl
@[simp] theorem State.setStack_parts (s : State) (i : Fin 32) (n : Nat) : (s.setStack i n).parts = s.parts := rfl
@[simp] theorem State.setStack_slots (s : State) (i : Fin 32) (n : Nat) : (s.setStack i n).slots = s.slots := rfl
@[simp] theorem State.setStack_creel (s : State) (i : Fin 32) (n : Nat) : (s.setStack i n).creel = s.creel := rfl

/-! ### State.send -/

@[simp] theorem State.send_pending (s : State) (k : Packet) : (s.send k).pending = s.pending := rfl
@[simp] theorem State.send_freeCount (s : State) (k : Packet) : (s.send k).freeCount = s.freeCount := rfl
@[simp] theorem State.send_beat (s : State) (k : Packet) : (s.send k).beat = s.beat := rfl
@[simp] theorem State.send_boundaryBeat (s : State) (k : Packet) : (s.send k).boundaryBeat = s.boundaryBeat := rfl
@[simp] theorem State.send_regs (s : State) (k : Packet) : (s.send k).regs = s.regs := rfl
@[simp] theorem State.send_power (s : State) (k : Packet) : (s.send k).power = s.power := rfl
@[simp] theorem State.send_pick (s : State) (k : Packet) : (s.send k).pick = s.pick := rfl
@[simp] theorem State.send_sec (s : State) (k : Packet) : (s.send k).sec = s.sec := rfl
@[simp] theorem State.send_fuses (s : State) (k : Packet) : (s.send k).fuses = s.fuses := rfl
@[simp] theorem State.send_safety (s : State) (k : Packet) : (s.send k).safety = s.safety := rfl
@[simp] theorem State.send_store (s : State) (k : Packet) : (s.send k).store = s.store := rfl
@[simp] theorem State.send_tele (s : State) (k : Packet) : (s.send k).tele = s.tele := rfl
@[simp] theorem State.send_mem (s : State) (k : Packet) : (s.send k).mem = s.mem := rfl
@[simp] theorem State.send_draft (s : State) (k : Packet) : (s.send k).draft = s.draft := rfl
@[simp] theorem State.send_links (s : State) (k : Packet) : (s.send k).links = s.links := rfl
@[simp] theorem State.send_looms (s : State) (k : Packet) : (s.send k).looms = s.looms := rfl
@[simp] theorem State.send_parts (s : State) (k : Packet) : (s.send k).parts = s.parts := rfl
@[simp] theorem State.send_slots (s : State) (k : Packet) : (s.send k).slots = s.slots := rfl
@[simp] theorem State.send_creel (s : State) (k : Packet) : (s.send k).creel = s.creel := rfl

/-! ### State.report -/

@[simp] theorem State.report_pending (s : State) (unit code detail : Nat) : (s.report unit code detail).pending = s.pending := rfl
@[simp] theorem State.report_freeCount (s : State) (unit code detail : Nat) : (s.report unit code detail).freeCount = s.freeCount := rfl
@[simp] theorem State.report_beat (s : State) (unit code detail : Nat) : (s.report unit code detail).beat = s.beat := rfl
@[simp] theorem State.report_boundaryBeat (s : State) (unit code detail : Nat) : (s.report unit code detail).boundaryBeat = s.boundaryBeat := rfl
@[simp] theorem State.report_regs (s : State) (unit code detail : Nat) : (s.report unit code detail).regs = s.regs := rfl
@[simp] theorem State.report_power (s : State) (unit code detail : Nat) : (s.report unit code detail).power = s.power := rfl
@[simp] theorem State.report_pick (s : State) (unit code detail : Nat) : (s.report unit code detail).pick = s.pick := rfl
@[simp] theorem State.report_net (s : State) (unit code detail : Nat) : (s.report unit code detail).net = s.net := rfl
@[simp] theorem State.report_sec (s : State) (unit code detail : Nat) : (s.report unit code detail).sec = s.sec := rfl
@[simp] theorem State.report_fuses (s : State) (unit code detail : Nat) : (s.report unit code detail).fuses = s.fuses := rfl
@[simp] theorem State.report_store (s : State) (unit code detail : Nat) : (s.report unit code detail).store = s.store := rfl
@[simp] theorem State.report_tele (s : State) (unit code detail : Nat) : (s.report unit code detail).tele = s.tele := rfl
@[simp] theorem State.report_mem (s : State) (unit code detail : Nat) : (s.report unit code detail).mem = s.mem := rfl
@[simp] theorem State.report_draft (s : State) (unit code detail : Nat) : (s.report unit code detail).draft = s.draft := rfl
@[simp] theorem State.report_links (s : State) (unit code detail : Nat) : (s.report unit code detail).links = s.links := rfl
@[simp] theorem State.report_looms (s : State) (unit code detail : Nat) : (s.report unit code detail).looms = s.looms := rfl
@[simp] theorem State.report_parts (s : State) (unit code detail : Nat) : (s.report unit code detail).parts = s.parts := rfl
@[simp] theorem State.report_slots (s : State) (unit code detail : Nat) : (s.report unit code detail).slots = s.slots := rfl
@[simp] theorem State.report_creel (s : State) (unit code detail : Nat) : (s.report unit code detail).creel = s.creel := rfl

/-! ### State.withPending -/

@[simp] theorem State.withPending_freeCount (s : State) (q : List Instr) : (s.withPending q).freeCount = s.freeCount := rfl
@[simp] theorem State.withPending_beat (s : State) (q : List Instr) : (s.withPending q).beat = s.beat := rfl
@[simp] theorem State.withPending_boundaryBeat (s : State) (q : List Instr) : (s.withPending q).boundaryBeat = s.boundaryBeat := rfl
@[simp] theorem State.withPending_regs (s : State) (q : List Instr) : (s.withPending q).regs = s.regs := rfl
@[simp] theorem State.withPending_power (s : State) (q : List Instr) : (s.withPending q).power = s.power := rfl
@[simp] theorem State.withPending_pick (s : State) (q : List Instr) : (s.withPending q).pick = s.pick := rfl
@[simp] theorem State.withPending_net (s : State) (q : List Instr) : (s.withPending q).net = s.net := rfl
@[simp] theorem State.withPending_sec (s : State) (q : List Instr) : (s.withPending q).sec = s.sec := rfl
@[simp] theorem State.withPending_fuses (s : State) (q : List Instr) : (s.withPending q).fuses = s.fuses := rfl
@[simp] theorem State.withPending_safety (s : State) (q : List Instr) : (s.withPending q).safety = s.safety := rfl
@[simp] theorem State.withPending_store (s : State) (q : List Instr) : (s.withPending q).store = s.store := rfl
@[simp] theorem State.withPending_tele (s : State) (q : List Instr) : (s.withPending q).tele = s.tele := rfl
@[simp] theorem State.withPending_mem (s : State) (q : List Instr) : (s.withPending q).mem = s.mem := rfl
@[simp] theorem State.withPending_draft (s : State) (q : List Instr) : (s.withPending q).draft = s.draft := rfl
@[simp] theorem State.withPending_links (s : State) (q : List Instr) : (s.withPending q).links = s.links := rfl
@[simp] theorem State.withPending_looms (s : State) (q : List Instr) : (s.withPending q).looms = s.looms := rfl
@[simp] theorem State.withPending_parts (s : State) (q : List Instr) : (s.withPending q).parts = s.parts := rfl
@[simp] theorem State.withPending_slots (s : State) (q : List Instr) : (s.withPending q).slots = s.slots := rfl
@[simp] theorem State.withPending_creel (s : State) (q : List Instr) : (s.withPending q).creel = s.creel := rfl

/-! ### State.setSeq -/

@[simp] theorem State.setSeq_pending (s : State) (a : At) (q : Seq) : (s.setSeq a q).pending = s.pending := rfl
@[simp] theorem State.setSeq_freeCount (s : State) (a : At) (q : Seq) : (s.setSeq a q).freeCount = s.freeCount := rfl
@[simp] theorem State.setSeq_beat (s : State) (a : At) (q : Seq) : (s.setSeq a q).beat = s.beat := rfl
@[simp] theorem State.setSeq_boundaryBeat (s : State) (a : At) (q : Seq) : (s.setSeq a q).boundaryBeat = s.boundaryBeat := rfl
@[simp] theorem State.setSeq_regs (s : State) (a : At) (q : Seq) : (s.setSeq a q).regs = s.regs := rfl
@[simp] theorem State.setSeq_power (s : State) (a : At) (q : Seq) : (s.setSeq a q).power = s.power := rfl
@[simp] theorem State.setSeq_pick (s : State) (a : At) (q : Seq) : (s.setSeq a q).pick = s.pick := rfl
@[simp] theorem State.setSeq_net (s : State) (a : At) (q : Seq) : (s.setSeq a q).net = s.net := rfl
@[simp] theorem State.setSeq_sec (s : State) (a : At) (q : Seq) : (s.setSeq a q).sec = s.sec := rfl
@[simp] theorem State.setSeq_fuses (s : State) (a : At) (q : Seq) : (s.setSeq a q).fuses = s.fuses := rfl
@[simp] theorem State.setSeq_safety (s : State) (a : At) (q : Seq) : (s.setSeq a q).safety = s.safety := rfl
@[simp] theorem State.setSeq_store (s : State) (a : At) (q : Seq) : (s.setSeq a q).store = s.store := rfl
@[simp] theorem State.setSeq_tele (s : State) (a : At) (q : Seq) : (s.setSeq a q).tele = s.tele := rfl
@[simp] theorem State.setSeq_mem (s : State) (a : At) (q : Seq) : (s.setSeq a q).mem = s.mem := rfl
@[simp] theorem State.setSeq_draft (s : State) (a : At) (q : Seq) : (s.setSeq a q).draft = s.draft := rfl
@[simp] theorem State.setSeq_links (s : State) (a : At) (q : Seq) : (s.setSeq a q).links = s.links := rfl
@[simp] theorem State.setSeq_parts (s : State) (a : At) (q : Seq) : (s.setSeq a q).parts = s.parts := rfl
@[simp] theorem State.setSeq_slots (s : State) (a : At) (q : Seq) : (s.setSeq a q).slots = s.slots := rfl
@[simp] theorem State.setSeq_creel (s : State) (a : At) (q : Seq) : (s.setSeq a q).creel = s.creel := rfl

/-! ### State.tick -/

@[simp] theorem State.tick_pending (s : State) : (s.tick).pending = s.pending := rfl
@[simp] theorem State.tick_freeCount (s : State) : (s.tick).freeCount = s.freeCount := rfl
@[simp] theorem State.tick_boundaryBeat (s : State) : (s.tick).boundaryBeat = s.boundaryBeat := rfl
@[simp] theorem State.tick_regs (s : State) : (s.tick).regs = s.regs := rfl
@[simp] theorem State.tick_power (s : State) : (s.tick).power = s.power := rfl
@[simp] theorem State.tick_pick (s : State) : (s.tick).pick = s.pick := rfl
@[simp] theorem State.tick_net (s : State) : (s.tick).net = s.net := rfl
@[simp] theorem State.tick_sec (s : State) : (s.tick).sec = s.sec := rfl
@[simp] theorem State.tick_fuses (s : State) : (s.tick).fuses = s.fuses := rfl
@[simp] theorem State.tick_safety (s : State) : (s.tick).safety = s.safety := rfl
@[simp] theorem State.tick_store (s : State) : (s.tick).store = s.store := rfl
@[simp] theorem State.tick_tele (s : State) : (s.tick).tele = s.tele := rfl
@[simp] theorem State.tick_mem (s : State) : (s.tick).mem = s.mem := rfl
@[simp] theorem State.tick_draft (s : State) : (s.tick).draft = s.draft := rfl
@[simp] theorem State.tick_links (s : State) : (s.tick).links = s.links := rfl
@[simp] theorem State.tick_looms (s : State) : (s.tick).looms = s.looms := rfl
@[simp] theorem State.tick_parts (s : State) : (s.tick).parts = s.parts := rfl
@[simp] theorem State.tick_slots (s : State) : (s.tick).slots = s.slots := rfl
@[simp] theorem State.tick_creel (s : State) : (s.tick).creel = s.creel := rfl

/-! ### What they write -/

@[simp] theorem State.setReg_regs (s : State) (r : Reg) (v : Word) : (s.setReg r v).regs = s.regs.put r.addr v r.resetWord := rfl
@[simp] theorem State.setLoom_looms (s : State) (g : Fin 256) (l : Loom) : (s.setLoom g l).looms = s.looms.put g.val l Loom.reset := rfl
@[simp] theorem State.setPart_parts (s : State) (p : Fin 16) (x : Part) : (s.setPart p x).parts = s.parts.ins p.val x := rfl
@[simp] theorem State.withPending_pending (s : State) (q : List Instr) : (s.withPending q).pending = q := rfl
@[simp] theorem State.tick_beat (s : State) : s.tick.beat = s.beat + 1 := rfl
@[simp] theorem State.send_net (s : State) (k : Packet) : (s.send k).net = { s.net with tx := s.net.tx ++ [k] } := rfl
@[simp] theorem State.report_safety (s : State) (unit code detail : Nat) :
    (s.report unit code detail).safety = { s.safety with flight := s.safety.flight ++ [s.record unit code detail] } := rfl

/-- A register reads what was written to it. -/
@[simp] theorem State.reg_setReg_self (s : State) (r : Reg) (v : Word) : (s.setReg r v).reg r = v :=
  Tab.get_put_self s.regs r.addr v r.resetWord

/-- Writing a register leaves every register of another address. -/
theorem State.reg_setReg_of_ne (s : State) {q r : Reg} (v : Word) (h : q.addr ≠ r.addr) : (s.setReg r v).reg q = s.reg q :=
  Tab.get_put_of_ne s.regs v r.resetWord q.resetWord h

@[simp] theorem State.part?_setPart_self (s : State) (p : Fin 16) (x : Part) : (s.setPart p x).part? p = some x :=
  Tab.find?_ins_self s.parts p.val x

theorem State.part?_setPart_of_ne (s : State) {p q : Fin 16} (x : Part) (h : q ≠ p) : (s.setPart p x).part? q = s.part? q :=
  Tab.find?_ins_of_ne s.parts x (fun e => h (Fin.ext e))

@[simp] theorem State.setPart_setPart (s : State) (p : Fin 16) (x y : Part) : (s.setPart p x).setPart p y = s.setPart p y := by
  simp [State.setPart]

@[simp] theorem State.modPart_setPart (s : State) (p : Fin 16) (x : Part) (f : Part → Part) :
    (s.setPart p x).modPart p f = s.setPart p (f x) := by simp [State.modPart]

/-- Updating a partition that exists. -/
theorem State.modPart_of_some {s : State} {p : Fin 16} {x : Part} (h : s.part? p = some x) (f : Part → Part) :
    s.modPart p f = s.setPart p (f x) := by simp [State.modPart, h]

@[simp] theorem State.loom_setLoom_self (s : State) (g : Fin 256) (l : Loom) : (s.setLoom g l).loom g = l :=
  Tab.get_put_self s.looms g.val l Loom.reset

theorem State.loom_setLoom_of_ne (s : State) {f g : Fin 256} (l : Loom) (h : f ≠ g) : (s.setLoom g l).loom f = s.loom f :=
  Tab.get_put_of_ne s.looms l Loom.reset Loom.reset (fun e => h (Fin.ext e))

/-! ### Storages -/

/-- Writing bytes leaves every byte before them and after them, and the others read what was written. -/
theorem get_putBytes (t : Tab Byte) (a : Nat) (bs : List Byte) (i : Nat) :
    (putBytes t a bs).get i 0 = if a ≤ i ∧ i < a + bs.length then bs.getD (i - a) 0 else t.get i 0 := by
  induction bs generalizing t a with
  | nil => simp only [putBytes, List.length_nil]; rw [if_neg (by omega)]
  | cons b rest ih =>
    simp only [putBytes, List.length_cons]
    rw [ih]
    by_cases hi : i = a
    · subst hi
      rw [if_neg (by omega), if_pos (by omega), Tab.get_put_self, Nat.sub_self]
      rfl
    · rw [Tab.get_put_of_ne t b 0 0 hi]
      by_cases hin : a + 1 ≤ i ∧ i < a + 1 + rest.length
      · rw [if_pos hin, if_pos (by omega)]
        obtain ⟨k, hk⟩ : ∃ k, i - a = k + 1 := ⟨i - (a + 1), by omega⟩
        have hk' : i - (a + 1) = k := by omega
        rw [hk, hk']
        simp
      · rw [if_neg hin, if_neg (by omega)]

/-- Writing bytes keeps the canonical form of a storage. -/
theorem wf_putBytes {t : Tab Byte} (h : Tab.wf t 0 = true) (a : Nat) (bs : List Byte) : Tab.wf (putBytes t a bs) 0 = true := by
  induction bs generalizing t a with
  | nil => exact h
  | cons b rest ih => exact ih (Tab.wf_put h a b) (a + 1)

/-- A storage reads what was written to it, and every other byte of every storage as before; the cloth space of a partition that does
not exist holds nothing. -/
theorem State.byteAt_putAt (s : State) (st : Store) (a : Nat) (bs : List Byte) (su : Store) (i : Nat)
    (h : ∀ p, st = .cloth p → (s.part? p).isSome = true) :
    (s.putAt st a bs).byteAt su i = if su = st ∧ a ≤ i ∧ i < a + bs.length then bs.getD (i - a) 0 else s.byteAt su i := by
  cases st with
  | loom g =>
    cases su with
    | loom f =>
      by_cases hf : f = g
      · subst hf
        simp only [State.putAt, State.byteAt, State.modLoom, State.loom_setLoom_self, get_putBytes, true_and]
      · rw [if_neg (by simp [hf])]
        simp only [State.putAt, State.byteAt, State.modLoom, State.loom_setLoom_of_ne s _ hf]
    | mill m p c => rfl
    | cloth p => rfl
  | mill m p c =>
    cases su with
    | loom f => rfl
    | mill m' p' c' =>
      by_cases hk : millKey m' p' c' = millKey m p c
      · have e : (Store.mill m' p' c') = .mill m p c := by
          have h1 := m.isLt; have h2 := p.isLt; have h3 := c.isLt; have h4 := m'.isLt; have h5 := p'.isLt; have h6 := c'.isLt
          simp only [millKey] at hk
          have : m' = m := Fin.ext (by omega)
          have : p' = p := Fin.ext (by omega)
          have : c' = c := Fin.ext (by omega)
          simp_all
        cases e
        simp only [State.putAt, State.byteAt, Tab.get_put_self, get_putBytes, true_and]
      · have e : ¬ (Store.mill m' p' c') = .mill m p c := by rintro e; cases e; exact hk rfl
        rw [if_neg (by simp [e])]
        simp only [State.putAt, State.byteAt, Tab.get_put_of_ne _ _ _ _ hk]
    | cloth p => rfl
  | cloth p =>
    cases hx : s.part? p with
    | none => have := h p rfl; simp [hx] at this
    | some x =>
      cases su with
      | loom f => simp only [State.putAt, State.modPart, hx]; rfl
      | mill m' p' c' => simp only [State.putAt, State.modPart, hx]; rfl
      | cloth q =>
        by_cases hq : q = p
        · subst hq
          simp only [State.putAt, State.modPart, hx, State.byteAt, State.part?_setPart_self, get_putBytes, true_and]
        · rw [if_neg (by simp [hq])]
          simp only [State.putAt, State.modPart, hx, State.byteAt, State.part?_setPart_of_ne _ _ hq]

end Sys2Proof.Machine
end

