-- ==== Sys2Proof/Laws/Keeps.lean ====
section
/-! SUPPORT. Sys2Proof/Laws/Keeps.lean: what every operation of the machine keeps, whatever else it does. The files Laws/Keeps*.lean say it
of each operation and of each command once, so that nothing that follows unfolds them. -/

namespace Sys2Proof.Machine

open Sys2Proof

/-! ### Tables in order -/

theorem ok_Loom_reset : Loom.reset.Ok := ⟨rfl, rfl, rfl, rfl⟩

theorem State.Ordered.reset : State.reset.Ordered :=
  { regs := rfl, looms := ⟨rfl, fun _ h => absurd h (List.not_mem_nil)⟩, links := rfl, slots := rfl, parts := rfl, ports := rfl,
    mem := ⟨rfl, rfl, rfl, fun _ h => absurd h (List.not_mem_nil)⟩ }

/-- A loom is as its table lists it, or as at reset. -/
theorem Tab.get_mem_or {α : Type} (t : Tab α) (k : Nat) (d : α) : t.get k d = d ∨ ∃ e ∈ t, e.2 = t.get k d := by
  induction t with
  | nil => exact .inl rfl
  | cons e rest ih =>
    obtain ⟨j, v⟩ := e
    simp only [Tab.get]
    split
    · exact .inr ⟨_, List.mem_cons_self, rfl⟩
    · rcases ih with h | ⟨e, he, h⟩
      · exact .inl h
      · exact .inr ⟨e, List.mem_cons_of_mem _ he, h⟩

theorem Looms.Ok.get {t : Tab Loom} (h : Looms.Ok t) (g : Nat) : (t.get g Loom.reset).Ok := by
  rcases Tab.get_mem_or t g Loom.reset with e | ⟨e, he, k⟩
  · rw [e]; exact ok_Loom_reset
  · rw [← k]; exact h.2 e he

theorem State.Ordered.loom {s : State} (h : s.Ordered) (g : Fin 256) : (s.loom g).Ok := h.looms.get g.val

theorem Tab.mem_put {α : Type} [DecidableEq α] {t : Tab α} {k : Nat} {v d : α} {e : Nat × α} (h : e ∈ t.put k v d) : e = (k, v) ∨ e ∈ t := by
  unfold Tab.put at h
  split at h
  · exact .inr (Tab.mem_del h)
  · exact Tab.mem_ins h

theorem Looms.Ok.put {t : Tab Loom} (h : Looms.Ok t) (g : Nat) {l : Loom} (hl : l.Ok) : Looms.Ok (t.put g l Loom.reset) := by
  refine ⟨Tab.rising_put h.1 _ _ _, fun e he => ?_⟩
  rcases Tab.mem_put he with rfl | he
  · exact hl
  · exact h.2 e he

theorem Memory.Ok.putBytes {m : Memory} (h : m.Ok) (k a : Nat) (bs : List Byte) (bad : Tab (Tab Bool)) :
    Memory.Ok { m with millStore := m.millStore.put k (putBytes (m.millStore.get k []) a bs) [], millBad := bad } := by
  refine ⟨h.1, h.2.1, Tab.rising_put h.2.2.1 _ _ _, fun e he => ?_⟩
  rcases Tab.mem_put he with rfl | he
  · apply wf_putBytes
    rcases Tab.get_mem_or m.millStore k [] with e | ⟨e, he, k⟩
    · rw [e]; rfl
    · rw [← k]; exact h.2.2.2 e he
  · exact h.2.2.2 e he

theorem ok_Loom_setSeq {l : Loom} (h : l.Ok) (c : Fin 8) (q : Seq) : (l.setSeq c q).Ok := ⟨h.1, Tab.rising_put h.2.1 _ _ _, h.2.2⟩

theorem ok_Loom_setBank {l : Loom} (h : l.Ok) (b : Fin 2) (k : Bank) : (l.setBank b k).Ok := by
  unfold Loom.setBank
  split
  · exact h
  · exact h

theorem ok_Loom_stopFill {l : Loom} (h : l.Ok) (i : Nat) : (l.stopFill i).Ok := by
  unfold Loom.stopFill
  split
  · exact h
  · exact ok_Loom_setBank h _ _

theorem ok_Loom_stopFills {l : Loom} (h : l.Ok) (n : Nat) : (l.stopFills n).Ok := by
  induction n generalizing l with
  | zero => exact h
  | succ k ih => exact ih (ok_Loom_stopFill h 0)

/-! ### What every operation keeps -/

/-- What no command touches (the queue, the time base, the module's fused identity), what only ever grows (fuses burnt, free
values drawn), and what every command keeps (tables in order, a boundary that is not in the future). -/
structure State.Keeps (s t : State) : Prop where
  pending : t.pending = s.pending
  beat : t.beat = s.beat
  serial : t.fuses.serial = s.fuses.serial
  stepping : t.fuses.stepping = s.fuses.stepping
  burnt : s.fuses.count ≤ 127 → s.fuses.count ≤ t.fuses.count ∧ t.fuses.count ≤ 127
  drawn : s.freeCount ≤ t.freeCount
  order : s.Ordered → t.Ordered
  past : s.boundaryBeat ≤ s.beat → t.boundaryBeat ≤ t.beat

theorem keeps_refl (s : State) : s.Keeps s :=
  { pending := rfl, beat := rfl, serial := rfl, stepping := rfl, burnt := fun b => ⟨Nat.le_refl _, b⟩, drawn := Nat.le_refl _, order := id, past := id }

theorem keeps_trans {s t u : State} (h : s.Keeps t) (k : t.Keeps u) : s.Keeps u :=
  { pending := k.pending.trans h.pending, beat := k.beat.trans h.beat, serial := k.serial.trans h.serial,
    stepping := k.stepping.trans h.stepping,
    burnt := fun b => ⟨Nat.le_trans (h.burnt b).1 (k.burnt (h.burnt b).2).1, (k.burnt (h.burnt b).2).2⟩,
    drawn := Nat.le_trans h.drawn k.drawn, order := fun r => k.order (h.order r), past := fun p => k.past (h.past p) }

/-- An update that leaves what Keeps names, its tables in order. -/
theorem keeps_order {s t u : State} (h : s.Keeps t) (o : t.Ordered → u.Ordered) (pending : u.pending = t.pending := by rfl)
    (freeCount : u.freeCount = t.freeCount := by rfl) (beat : u.beat = t.beat := by rfl)
    (boundaryBeat : u.boundaryBeat = t.boundaryBeat := by rfl) (fuses : u.fuses = t.fuses := by rfl) : s.Keeps u :=
  keeps_trans h { pending := pending, beat := beat, serial := by rw [fuses], stepping := by rw [fuses],
                  burnt := by rw [fuses]; exact fun b => ⟨Nat.le_refl _, b⟩, drawn := Nat.le_of_eq freeCount.symm, order := o,
                  past := by rw [beat, boundaryBeat]; exact id }

/-- An update of the parts that hold none of it. -/
theorem keeps_mk {s t : State} (h : s.Keeps t) (power : Power) (pick : PickUnit) (net : Net) (sec : Sec) (safety : Safety)
    (store : StoreUnit) (tele : Telemetry) (mem : Memory) (draft : Drafts) (parts : Tab Part) (creel : Tab Nat)
    (hn : Tab.rising none t.net.ports = true → Tab.rising none net.ports = true := by exact id)
    (hm : t.mem.Ok → mem.Ok := by exact id)
    (hp : Tab.rising none t.parts = true → Tab.rising none parts = true := by exact id) :
    s.Keeps { t with power := power, pick := pick, net := net, sec := sec, safety := safety, store := store, tele := tele,
                     mem := mem, draft := draft, parts := parts, creel := creel } :=
  keeps_order h (fun o => { o with parts := hp o.parts, ports := hn o.ports, mem := hm o.mem })

/-- The boundary beat of a pick is the current one (R384). -/
theorem keeps_boundary {s t : State} (h : s.Keeps t) (power : Power) (pick : PickUnit) (safety : Safety) :
    s.Keeps { t with boundaryBeat := t.beat, power := power, pick := pick, safety := safety } :=
  keeps_trans h { pending := rfl, beat := rfl, serial := rfl, stepping := rfl, burnt := fun b => ⟨Nat.le_refl _, b⟩, drawn := Nat.le_refl _,
                  order := fun o => { o with }, past := fun _ => Nat.le_refl _ }

theorem keeps_State_setReg {s₀ : State} (s : State) (r : Reg) (v : Word) (k_s : s₀.Keeps s) : s₀.Keeps (s.setReg r v) :=
  keeps_order k_s (fun o => { o with regs := Tab.rising_put o.regs _ _ _ })

/-- A loom whose tables are in canonical form as long as another's are. -/
def Loom.To (l k : Loom) : Prop := l.Ok → k.Ok

theorem to_of {l k : Loom} (h : l.Ok → k.Ok) : l.To k := h

theorem keeps_State_setLoom {s₀ : State} (s : State) (g : Fin 256) (l : Loom) (k_s : s₀.Keeps s) (hl : (s.loom g).To l) :
    s₀.Keeps (s.setLoom g l) :=
  keeps_order k_s (fun o => { o with looms := o.looms.put g.val (hl (o.loom g)) })

theorem keeps_State_modLoom {s₀ : State} (s : State) (g : Fin 256) (f : Loom → Loom) (k_s : s₀.Keeps s) (hf : ∀ l : Loom, l.To (f l)) :
    s₀.Keeps (s.modLoom g f) :=
  keeps_State_setLoom s g _ k_s (hf _)

theorem keeps_State_setLink {s₀ : State} (s : State) (i : Fin 96) (k : Link) (k_s : s₀.Keeps s) : s₀.Keeps (s.setLink i k) :=
  keeps_order k_s (fun o => { o with links := Tab.rising_put o.links _ _ _ })

theorem keeps_State_setPort {s₀ : State} (s : State) (i : Fin 8) (k : Port) (k_s : s₀.Keeps s) : s₀.Keeps (s.setPort i k) :=
  keeps_order k_s (fun o => { o with ports := Tab.rising_put o.ports _ _ _ })

theorem keeps_State_setSlot {s₀ : State} (s : State) (i : Fin 1024) (k : Slot) (k_s : s₀.Keeps s) : s₀.Keeps (s.setSlot i k) :=
  keeps_order k_s (fun o => { o with slots := Tab.rising_put o.slots _ _ _ })

theorem keeps_State_setPart {s₀ : State} (s : State) (p : Fin 16) (x : Part) (k_s : s₀.Keeps s) : s₀.Keeps (s.setPart p x) :=
  keeps_order k_s (fun o => { o with parts := Tab.rising_ins o.parts _ _ (fun _ e => by cases e) })

theorem keeps_State_setFarPort {s₀ : State} (s : State) (i : Fin 4) (k : FarPort) (k_s : s₀.Keeps s) : s₀.Keeps (s.setFarPort i k) :=
  keeps_order k_s (fun o => { o with mem := ⟨Tab.rising_put o.mem.1 _ _ _, o.mem.2⟩ })

theorem keeps_State_setStack {s₀ : State} (s : State) (i : Fin 32) (n : Nat) (k_s : s₀.Keeps s) : s₀.Keeps (s.setStack i n) :=
  keeps_order k_s (fun o => { o with mem := ⟨o.mem.1, Tab.rising_put o.mem.2.1 _ _ _, o.mem.2.2⟩ })

theorem keeps_State_draw {s₀ : State} (s : State) (w : Nat) (k_s : s₀.Keeps s) : s₀.Keeps (s.draw w).2 :=
  keeps_trans k_s { pending := rfl, beat := rfl, serial := rfl, stepping := rfl, burnt := fun b => ⟨Nat.le_refl _, b⟩, drawn := Nat.le_succ _,
                    order := fun o => { o with }, past := id }

theorem keeps_State_draw_eq {s₀ : State} (s : State) (w : Nat) (k_s : s₀.Keeps s) {v : BitVec w} {u : State} (e : s.draw w = (v, u)) :
    s₀.Keeps u := by
  have k := keeps_State_draw s w k_s
  rw [e] at k
  exact k

theorem keeps_foldl {α : Type} {s : State} (f : State → α → State) (l : List α) {t : State} (h : s.Keeps t)
    (hf : ∀ u a, s.Keeps u → s.Keeps (f u a)) : s.Keeps (l.foldl f t) := by
  induction l generalizing t with
  | nil => exact h
  | cons a rest ih => exact ih (hf t a h)

/-- Writing bytes to a storage. -/
theorem keeps_State_putAt {s₀ : State} (s : State) (st : Store) (a : Nat) (bs : List Byte) (k_s : s₀.Keeps s) :
    s₀.Keeps (s.putAt st a bs) := by
  cases st with
  | loom g =>
    simp only [State.putAt]
    exact keeps_State_modLoom s g _ k_s <| fun l => to_of (fun h => ⟨wf_putBytes h.1 a bs, h.2⟩)
  | mill m p c => exact keeps_mk k_s _ _ _ _ _ _ _ _ _ _ _ id (fun h => h.putBytes _ a bs _)
  | cloth p =>
    simp only [State.putAt, State.modPart]
    split
    · exact k_s
    · exact keeps_State_setPart _ _ _ k_s

/-! ### What the updates of a loom keep -/

theorem Loom.to_setSeq (l : Loom) (c : Fin 8) (q : Seq) : l.To (l.setSeq c q) := fun h => ok_Loom_setSeq h c q
theorem Loom.to_setBank (l : Loom) (b : Fin 2) (k : Bank) : l.To (l.setBank b k) := fun h => ok_Loom_setBank h b k
theorem Loom.to_stopFill (l : Loom) (i : Nat) : l.To (l.stopFill i) := fun h => ok_Loom_stopFill h i
theorem Loom.to_stopFills (l : Loom) (n : Nat) : l.To (l.stopFills n) := fun h => ok_Loom_stopFills h n
theorem Loom.to_free (l : Loom) : l.To l.free := fun _ => ok_Loom_reset

theorem Loom.to_releasePicks (l : Loom) (x : Part) (n : Word) : l.To (l.releasePicks x n) := by
  intro h
  unfold Loom.releasePicks
  generalize List.finRange 8 = cs
  induction cs generalizing l with
  | nil => exact h
  | cons c rest ih =>
    rw [List.foldl_cons]
    apply ih
    repeat' split
    · exact ok_Loom_setSeq h _ _
    all_goals exact h

theorem rising_foldl_put {α β : Type} [DecidableEq α] (f : β → Nat) (v : Tab α → β → α) (d : α) (l : List β) {t : Tab α}
    (h : Tab.rising none t = true) : Tab.rising none (l.foldl (fun t b => t.put (f b) (v t b) d) t) = true := by
  induction l generalizing t with
  | nil => exact h
  | cons b rest ih => exact ih (Tab.rising_put h _ _ _)

theorem Loom.to_macs (l : Loom) (t : Tile) (d : Desc) (f : Nat) (w : List (List (Nat × List Num))) : l.To (l.macs t d f w) := by
  intro h
  refine ⟨h.1, h.2.1, ?_, h.2.2.2⟩
  have key : ∀ (hds : List Nat) (tab : Tab Fell), Tab.rising none tab = true → Tab.rising none (hds.foldl (fun tab hd =>
      let elems := w.getD (t.tieup.stream hd) []
      if elems.isEmpty || decide ((t.shape t.warp).rows.toNat ≤ t.tieup.channel hd) then tab
      else
        let k := 2 * hd + f
        tab.put k (reduce (l.bank t.bank) d hd elems (tab.get k Fell.cleared)) Fell.cleared) tab) = true := by
    intro hds
    induction hds with
    | nil => exact fun tab h => h
    | cons hd rest ih =>
      intro tab ht
      apply ih
      dsimp only
      split
      · exact ht
      · exact Tab.rising_put ht _ _ _
  unfold Loom.macs
  generalize List.range 256 = hds
  exact key hds l.fells h.2.2.1

theorem Loom.to_setLanes (l : Loom) (r : Nat) (vs : List (BitVec 32)) : l.To (l.setLanes r vs) := fun h =>
  ⟨h.1, h.2.1, h.2.2.1, rising_foldl_put (fun (e : BitVec 32 × Nat) => r * 64 + e.2) (fun _ e => e.1) 0 _ h.2.2.2⟩

theorem Loom.to_clearFells (l : Loom) (f : Nat) : l.To (l.clearFells f) := fun h => ⟨h.1, h.2.1, Tab.rising_filter h.2.2.1 _, h.2.2.2⟩

theorem wf_loadCode (k : PartCfg) (g : Fin 256) : Tab.wf (k.loadCode g) 0 = true := by
  have h : ∀ (ts : List TreadCfg) (m : Tab Byte), Tab.wf m 0 = true →
      Tab.wf (ts.foldl (fun m t => putBytes m (k.loomCarve (Fin.ofNat 8 t.ctx) g).1 t.code) m) 0 = true := by
    intro ts
    induction ts with
    | nil => exact fun m h => h
    | cons t rest ih => exact fun m h => ih _ (wf_putBytes h _ _)
  exact h _ _ rfl

theorem rising_seqs (k : PartCfg) (g : Fin 256) : Tab.rising none (k.seqs g) = true := by
  have h : ∀ (ts : List TreadCfg) (m : Tab Seq), Tab.rising none m = true →
      Tab.rising none (ts.foldl (fun m t => m.put t.ctx { Seq.zero with pc := BitVec.ofNat 32 t.entry } Seq.zero) m) = true := by
    intro ts
    induction ts with
    | nil => exact fun m h => h
    | cons t rest ih => exact fun m h => ih _ (Tab.rising_put h _ _ _)
  exact h _ _ rfl

theorem Memory.Ok.keep {m : Memory} (h : m.Ok) (f : Nat → Tab Byte → Bool) (bad : Tab (Tab Bool)) :
    Memory.Ok { m with millStore := m.millStore.keep f, millBad := bad } :=
  ⟨h.1, h.2.1, Tab.rising_filter h.2.2.1 _, fun e he => h.2.2.2 e (List.mem_filter.1 he).1⟩

theorem Tab.rising_map {α : Type} (f : Nat × α → α) (t : Tab α) (lo : Option Nat) (h : Tab.rising lo t = true) :
    Tab.rising lo (t.map (fun e => (e.1, f e)) : Tab α) = true := by
  induction t generalizing lo with
  | nil => rfl
  | cons e rest ih =>
    simp only [Tab.rising, List.map_cons, Bool.and_eq_true] at h ⊢
    exact ⟨h.1, ih _ h.2⟩

end Sys2Proof.Machine
end

