-- ==== Sys2Proof/Laws/Issue.lean ====
section
/-! SUPPORT. Sys2Proof/Laws/Issue.lean: what it is for a treadling word to issue, and what an instruction that ends by going on leaves. -/

namespace Sys2Proof.Machine

open Sys2Proof

/-! ### One loom -/

@[simp] theorem State.loom_modLoom_self (s : State) (g : Fin 256) (f : Loom → Loom) : (s.modLoom g f).loom g = f (s.loom g) :=
  State.loom_setLoom_self s g _

theorem State.loom_modLoom_of_ne (s : State) {f g : Fin 256} (k : Loom → Loom) (h : f ≠ g) : (s.modLoom g k).loom f = s.loom f :=
  State.loom_setLoom_of_ne s _ h

theorem State.Ordered.modLoom {s : State} (o : s.Ordered) (g : Fin 256) (f : Loom → Loom) (hf : (s.loom g).To (f (s.loom g))) :
    (s.modLoom g f).Ordered :=
  { o with looms := o.looms.put g.val (hf (o.loom g)) }

@[simp] theorem Loom.seq_setSeq_self (l : Loom) (c : Fin 8) (q : Seq) : (l.setSeq c q).seq c = q :=
  Tab.get_put_self l.seqs c.val q Seq.zero

theorem Loom.seq_setSeq_of_ne (l : Loom) {c d : Fin 8} (q : Seq) (h : d ≠ c) : (l.setSeq c q).seq d = l.seq d :=
  Tab.get_put_of_ne l.seqs q Seq.zero Seq.zero (fun e => h (Fin.ext e))

theorem State.Ordered.setSeq {s : State} (o : s.Ordered) (a : At) (q : Seq) : (s.setSeq a q).Ordered :=
  o.modLoom a.loom _ (Loom.to_setSeq _ _ _)

@[simp] theorem State.seq_setSeq_self (s : State) (a : At) (q : Seq) : (s.setSeq a q).seq a = q := by
  unfold State.seq State.setSeq
  rw [State.loom_modLoom_self]
  exact Loom.seq_setSeq_self (s.loom a.loom) a.ctx q

/-! ### Issue -/

/-- What a word that may issue finds. -/
theorem State.here_spec {s : State} {a : At} {code : Nat} {h : Here} (e : s.here a code = some h) :
    h.a = a ∧ (s.loom a.loom).part = some h.p ∧ s.part? h.p = some h.x ∧ h.x.cfg.tread? a.ctx a.loom = some h.t
      ∧ (s.loom a.loom).mayIssue h.x a.ctx s.safety.moduleSafe = true
      ∧ h.s = s.modLoom a.loom
          (fun l => ({ l with tileDone := false } : Loom).setSeq a.ctx { l.seq a.ctx with run := .running }) := by
  unfold State.here at e
  cases hp : (s.loom a.loom).part with
  | none => rw [hp] at e; simp only [reduceCtorEq] at e
  | some p =>
    simp only [hp] at e
    cases hx : s.part? p with
    | none => rw [hx] at e; simp only [reduceCtorEq] at e
    | some x =>
      simp only [hx] at e
      cases ht : x.cfg.tread? a.ctx a.loom with
      | none => rw [ht] at e; simp only [reduceCtorEq] at e
      | some t =>
        simp only [ht] at e
        split at e
        · next hc =>
          simp only [Option.some.injEq] at e
          subst e
          simp only [Bool.and_eq_true] at hc
          exact ⟨rfl, rfl, hx, ht, hc.1.1, rfl⟩
        · simp only [reduceCtorEq] at e

/-- The issuing sequencer is the one that stood there, running. -/
theorem Here.q_eq {s : State} {a : At} {code : Nat} {h : Here} (e : s.here a code = some h) :
    h.q = { s.seq a with run := .running } := by
  obtain ⟨ha, -, -, -, -, hs⟩ := State.here_spec e
  unfold Here.q State.seq
  rw [ha, hs, State.loom_modLoom_self]
  exact Loom.seq_setSeq_self { s.loom a.loom with tileDone := false } a.ctx _

theorem Here.ordered {s : State} {a : At} {code : Nat} {h : Here} (o : s.Ordered) (e : s.here a code = some h) : h.s.Ordered := by
  obtain ⟨-, -, -, -, -, hs⟩ := State.here_spec e
  rw [hs]
  exact o.modLoom a.loom _ (to_of (fun k => ok_Loom_setSeq (l := { s.loom a.loom with tileDone := false }) k _ _))

/-- A treadling word that issues runs its meaning; where its predicate reads 0 it only goes on. -/
theorem State.issue_eq {s : State} {a : At} {code : Nat} {h : Here} (e : s.here a code = some h) {ok : Bool}
    (hok : ok = true) (name : String) (pred : Fin 8) (pneg : Bool) (f : Here → State) :
    s.issue a ok name code pred pneg f = .next (if (s.seq a).getP pred = pneg then h.go h.q else f h) := by
  subst hok
  have hq : h.q.getP pred = (s.seq a).getP pred := by rw [Here.q_eq e]; rfl
  simp only [State.issue, Bool.not_true, Bool.false_eq_true, if_false, e, hq]
  by_cases hp : (s.seq a).getP pred = pneg <;> simp [hp, bne]

/-- Every storage but the loom stores is apart from the looms, and a loom store is its loom's. -/
theorem State.byteAt_congr {s t : State} (hm : t.mem = s.mem) (hp : t.parts = s.parts) (hl : ∀ g, (t.loom g).store = (s.loom g).store)
    (st : Store) (i : Nat) : t.byteAt st i = s.byteAt st i := by
  cases st with
  | loom g => simp only [State.byteAt, hl]
  | mill m p c => simp only [State.byteAt, hm]
  | cloth p => simp only [State.byteAt, State.part?, hp]

/-- An instruction that only sets its sequencer: what that leaves of everything else. -/
theorem Here.setQ_spec {s : State} {a : At} {code : Nat} {h : Here} (e : s.here a code = some h) (q : Seq) :
    (h.setQ q).seq a = q ∧ { h.setQ q with looms := s.looms } = s ∧ (∀ g, g ≠ a.loom → (h.setQ q).loom g = s.loom g)
      ∧ (∀ c, c ≠ a.ctx → (h.setQ q).seq { a with ctx := c } = s.seq { a with ctx := c })
      ∧ { (h.setQ q).loom a.loom with seqs := (s.loom a.loom).seqs, tileDone := (s.loom a.loom).tileDone } = s.loom a.loom
      ∧ ∀ st i, (h.setQ q).byteAt st i = s.byteAt st i := by
  obtain ⟨ha, -, -, -, -, hs⟩ := State.here_spec e
  have hl : (h.setQ q).loom a.loom
      = (({ s.loom a.loom with tileDone := false } : Loom).setSeq a.ctx { (s.loom a.loom).seq a.ctx with run := .running }).setSeq a.ctx q := by
    unfold Here.setQ State.setSeq
    rw [ha, State.loom_modLoom_self, hs, State.loom_modLoom_self]
  have hne : ∀ g, g ≠ a.loom → (h.setQ q).loom g = s.loom g := by
    intro g hg
    unfold Here.setQ State.setSeq
    rw [ha, State.loom_modLoom_of_ne _ _ hg, hs, State.loom_modLoom_of_ne _ _ hg]
  refine ⟨?_, ?_, hne, ?_, ?_, ?_⟩
  · unfold Here.setQ
    rw [ha]
    exact State.seq_setSeq_self _ a q
  · unfold Here.setQ State.setSeq
    rw [ha, hs]
    rfl
  · intro c hc
    unfold State.seq
    rw [hl]
    exact (Loom.seq_setSeq_of_ne _ _ hc).trans (Loom.seq_setSeq_of_ne _ _ hc)
  · rw [hl]; rfl
  · intro st i
    apply State.byteAt_congr
    · unfold Here.setQ; rw [hs]; rfl
    · unfold Here.setQ; rw [hs]; rfl
    · intro g
      by_cases hg : g = a.loom
      · subst hg; rw [hl]; rfl
      · rw [hne g hg]

/-- An instruction that sets its sequencer and its partition: what that leaves of everything else. -/
theorem Here.setPart_spec {s : State} {a : At} {code : Nat} {h : Here} (e : s.here a code = some h) (y : Part) (q : Seq) :
    let t := (h.s.setPart h.p y).setSeq h.a q
    t.seq a = q ∧ t.part? h.p = some y ∧ (∀ r, r ≠ h.p → t.part? r = s.part? r) ∧ { t with looms := s.looms, parts := s.parts } = s
      ∧ (∀ g, g ≠ a.loom → t.loom g = s.loom g) ∧ (∀ c, c ≠ a.ctx → t.seq { a with ctx := c } = s.seq { a with ctx := c })
      ∧ { t.loom a.loom with seqs := (s.loom a.loom).seqs, tileDone := (s.loom a.loom).tileDone } = s.loom a.loom := by
  obtain ⟨k1, k2, k3, k4, k5, -⟩ := Here.setQ_spec e q
  obtain ⟨ha, -, -, -, -, hs⟩ := State.here_spec e
  have hl : ((h.s.setPart h.p y).setSeq h.a q).looms = (h.setQ q).looms := rfl
  refine ⟨k1, State.part?_setPart_self h.s h.p y, fun r hr => ?_, ?_, k3, k4, k5⟩
  · refine (State.part?_setPart_of_ne h.s y hr).trans ?_
    unfold State.part?
    rw [hs, State.modLoom, State.setLoom_parts]
  · rw [hs]
    generalize s.loom a.loom = l at *
    simp only [State.setSeq, State.modLoom, State.setPart, State.setLoom]

/-- A waiting sequencer that is set, beside its partition: what that leaves of everything else. -/
theorem State.setPartSeq_spec (s : State) (a : At) (p : Fin 16) (y : Part) (q : Seq) :
    let t := (s.setPart p y).setSeq a q
    t.seq a = q ∧ t.part? p = some y ∧ (∀ r, r ≠ p → t.part? r = s.part? r) ∧ { t with looms := s.looms, parts := s.parts } = s
      ∧ (∀ g, g ≠ a.loom → t.loom g = s.loom g) ∧ (∀ c, c ≠ a.ctx → t.seq { a with ctx := c } = s.seq { a with ctx := c })
      ∧ { t.loom a.loom with seqs := (s.loom a.loom).seqs, tileDone := (s.loom a.loom).tileDone } = s.loom a.loom := by
  have hl : ((s.setPart p y).setSeq a q).loom a.loom = (s.loom a.loom).setSeq a.ctx q := by
    unfold State.setSeq
    rw [State.loom_modLoom_self]
    rfl
  refine ⟨State.seq_setSeq_self _ a q, State.part?_setPart_self s p y, fun r hr => State.part?_setPart_of_ne s y hr, rfl, fun g hg => ?_,
    fun c hc => ?_, ?_⟩
  · exact State.loom_modLoom_of_ne (s.setPart p y) _ hg
  · unfold State.seq
    rw [hl]
    exact Loom.seq_setSeq_of_ne _ _ hc
  · rw [hl]; rfl

/-- A waiting sequencer that is set: what that leaves of everything else. -/
theorem State.setSeq_spec (s : State) (a : At) (q : Seq) :
    (s.setSeq a q).seq a = q ∧ { s.setSeq a q with looms := s.looms } = s ∧ (∀ g, g ≠ a.loom → (s.setSeq a q).loom g = s.loom g)
      ∧ (∀ c, c ≠ a.ctx → (s.setSeq a q).seq { a with ctx := c } = s.seq { a with ctx := c })
      ∧ { (s.setSeq a q).loom a.loom with seqs := (s.loom a.loom).seqs, tileDone := (s.loom a.loom).tileDone } = s.loom a.loom
      ∧ ∀ st i, (s.setSeq a q).byteAt st i = s.byteAt st i := by
  have hl : (s.setSeq a q).loom a.loom = (s.loom a.loom).setSeq a.ctx q := State.loom_modLoom_self s a.loom _
  have hne : ∀ g, g ≠ a.loom → (s.setSeq a q).loom g = s.loom g := fun g hg => State.loom_modLoom_of_ne s _ hg
  refine ⟨State.seq_setSeq_self _ a q, rfl, hne, fun c hc => ?_, by rw [hl]; rfl, fun st i => ?_⟩
  · unfold State.seq
    rw [hl]
    exact Loom.seq_setSeq_of_ne _ _ hc
  · apply State.byteAt_congr
    · rfl
    · rfl
    · intro g
      by_cases hg : g = a.loom
      · subst hg; rw [hl]; rfl
      · rw [hne g hg]

/-- What a resuming context finds: its partition, and what its sequencer there waits for. -/
theorem State.resuming_spec {s : State} {a : At} {p : Fin 16} {x : Part} {w : Wait} (e : s.resuming a = some (p, x, w)) :
    (s.loom a.loom).part = some p ∧ s.part? p = some x ∧ (s.seq a).run = .waiting w
      ∧ (s.loom a.loom).inForce x a.ctx s.safety.moduleSafe = true := by
  unfold State.resuming at e
  split at e
  · simp only [reduceCtorEq] at e
  · next p' hp =>
    split at e
    · simp only [reduceCtorEq] at e
    · next x' hx =>
      split at e
      · next w' hw =>
        split at e
        · next hf => cases e; exact ⟨hp, hx, hw, hf⟩
        · simp only [reduceCtorEq] at e
      · simp only [reduceCtorEq] at e

end Sys2Proof.Machine
end

