-- ==== Sys2Proof/Laws/KeepsOps.lean ====
section
/-! SUPPORT. Sys2Proof/Laws/KeepsOps.lean: what the operations of Machine/Ops.lean keep. -/

namespace Sys2Proof.Machine

open Sys2Proof

theorem keeps_State_setFld {s₀ : State} (s : State) (r : Reg) (f : Fld) (n : Nat) (k_s : s₀.Keeps s) :
    s₀.Keeps (State.setFld s r f n) := by
  unfold State.setFld
  repeat' (first | with_reducible assumption | extract_lets | with_reducible apply keeps_State_setReg | (dsimp only))

theorem keeps_State_bump {s₀ : State} (s : State) (r : Reg) (f : Fld) (n : Nat) (k_s : s₀.Keeps s) :
    s₀.Keeps (State.bump s r f n) := by
  unfold State.bump
  repeat' (first | with_reducible assumption | extract_lets | with_reducible apply keeps_State_setFld | (dsimp only))

theorem keeps_State_count {s₀ : State} (s : State) (r : Reg) (n : Nat) (k_s : s₀.Keeps s) :
    s₀.Keeps (State.count s r n) := by
  unfold State.count
  repeat' (first | with_reducible assumption | extract_lets | with_reducible apply keeps_State_setReg | (dsimp only))

theorem keeps_State_report {s₀ : State} (s : State) (unit code detail : Nat) (k_s : s₀.Keeps s) :
    s₀.Keeps (State.report s unit code detail) := by
  unfold State.report
  repeat' (first | with_reducible assumption | exact id | extract_lets | (dsimp only) | with_reducible apply keeps_mk)

theorem keeps_State_reportOnce {s₀ : State} (s : State) (key : Nat × Nat × Nat) (unit code detail : Nat) (k_s : s₀.Keeps s) :
    s₀.Keeps (State.reportOnce s key unit code detail) := by
  unfold State.reportOnce
  repeat' (first | with_reducible assumption | exact id | extract_lets | with_reducible apply keeps_State_report | split | (dsimp only) | (dsimp +zetaDelta only) | with_reducible apply keeps_mk)

theorem keeps_State_reportFirst {s₀ : State} (s : State) (unit code key detail : Nat) (k_s : s₀.Keeps s) :
    s₀.Keeps (State.reportFirst s unit code key detail) := by
  unfold State.reportFirst
  repeat' (first | with_reducible assumption | extract_lets | with_reducible apply keeps_State_reportOnce | (dsimp only))

theorem keeps_State_setSeq {s₀ : State} (s : State) (a : At) (q : Seq) (k_s : s₀.Keeps s) :
    s₀.Keeps (State.setSeq s a q) := by
  unfold State.setSeq
  repeat' (first | with_reducible assumption | exact Loom.to_setSeq _ _ _ | exact Loom.to_setBank _ _ _ | exact fun l => to_of (fun h => h) | exact to_of (fun h => h) | exact fun l => to_of (fun h => ok_Loom_setSeq h _ _) | extract_lets | with_reducible apply keeps_State_modLoom | intro _ _ _ | intro _ | (dsimp only))

theorem keeps_State_modSeq {s₀ : State} (s : State) (a : At) (f : Seq → Seq) (k_s : s₀.Keeps s) :
    s₀.Keeps (State.modSeq s a f) := by
  unfold State.modSeq
  repeat' (first | with_reducible assumption | extract_lets | with_reducible apply keeps_State_setSeq | (dsimp only))

theorem keeps_State_modPart {s₀ : State} (s : State) (p : Fin 16) (f : Part → Part) (k_s : s₀.Keeps s) :
    s₀.Keeps (State.modPart s p f) := by
  unfold State.modPart
  repeat' (first | with_reducible assumption | extract_lets | with_reducible apply keeps_State_setPart | split | (dsimp only))

theorem keeps_State_send {s₀ : State} (s : State) (k : Packet) (k_s : s₀.Keeps s) :
    s₀.Keeps (State.send s k) := by
  unfold State.send
  repeat' (first | with_reducible assumption | exact id | extract_lets | (dsimp only) | with_reducible apply keeps_mk)

theorem keeps_State_setBlockBad {s₀ : State} (s : State) (st : Store) (k : Nat) (b : Bool) (k_s : s₀.Keeps s) :
    s₀.Keeps (State.setBlockBad s st k b) := by
  unfold State.setBlockBad
  repeat' (first | with_reducible assumption | exact id | exact Loom.to_setSeq _ _ _ | exact Loom.to_setBank _ _ _ | exact fun l => to_of (fun h => h) | exact to_of (fun h => h) | extract_lets | with_reducible apply keeps_State_modLoom | with_reducible apply keeps_State_modPart | split | intro _ _ _ | intro _ | (dsimp only) | (dsimp +zetaDelta only) | with_reducible apply keeps_mk)

theorem keeps_State_releaseFills {s₀ : State} (s : State) (g : Fin 256) (k_s : s₀.Keeps s) :
    s₀.Keeps (State.releaseFills s g) := by
  unfold State.releaseFills
  repeat' (first | with_reducible assumption | exact id | exact Loom.to_setSeq _ _ _ | exact Loom.to_setBank _ _ _ | exact fun l => to_of (fun h => h) | exact to_of (fun h => h) | extract_lets | with_reducible apply keeps_State_setLoom | with_reducible apply keeps_State_bump | with_reducible apply keeps_foldl | split | intro _ _ _ | intro _ | (dsimp only) | (dsimp +zetaDelta only) | with_reducible apply keeps_mk)

theorem keeps_State_poison {s₀ : State} (s : State) (a : At) (k_s : s₀.Keeps s) :
    s₀.Keeps (State.poison s a) := by
  unfold State.poison
  repeat' (first | with_reducible assumption | exact id | exact Loom.to_setSeq _ _ _ | exact Loom.to_setBank _ _ _ | exact fun l => to_of (fun h => h) | exact to_of (fun h => h) | exact fun l => to_of (fun h => ok_Loom_setSeq h _ _) | extract_lets | with_reducible apply keeps_State_modLoom | with_reducible apply keeps_State_setSeq | with_reducible apply keeps_State_modPart | with_reducible apply keeps_State_releaseFills | split | intro _ _ _ | intro _ | (dsimp only) | (dsimp +zetaDelta only) | with_reducible apply keeps_mk)

theorem keeps_State_stopSeq {s₀ : State} (s : State) (a : At) (code : BitVec 16) (k_s : s₀.Keeps s) :
    s₀.Keeps (State.stopSeq s a code) := by
  unfold State.stopSeq
  repeat' (first | with_reducible assumption | exact id | extract_lets | with_reducible apply keeps_State_modSeq | intro _ _ _ | intro _ | (dsimp only) | with_reducible apply keeps_mk)

theorem keeps_State_stopElsewhere {s₀ : State} (s : State) (a : At) (code : BitVec 16) (k_s : s₀.Keeps s) :
    s₀.Keeps (State.stopElsewhere s a code) := by
  unfold State.stopElsewhere
  repeat' (first | with_reducible assumption | extract_lets | with_reducible apply keeps_State_stopSeq | split | (dsimp only) | (dsimp +zetaDelta only))

theorem keeps_State_faultCtx {s₀ : State} (s : State) (p : Fin 16) (c : Fin 8) (here : Option (Fin 256)) (unit code detail : Nat) (k_s : s₀.Keeps s) :
    s₀.Keeps (State.faultCtx s p c here unit code detail) := by
  unfold State.faultCtx
  repeat' (first | with_reducible assumption | exact id | extract_lets | with_reducible apply keeps_State_setPart | with_reducible apply keeps_State_report | with_reducible apply keeps_State_poison | with_reducible apply keeps_State_stopSeq | with_reducible apply keeps_State_stopElsewhere | with_reducible apply keeps_foldl | split | intro _ _ _ | intro _ | (dsimp only) | (dsimp +zetaDelta only) | with_reducible apply keeps_mk)

theorem keeps_State_faultAt {s₀ : State} (s : State) (a : At) (kind code detail : Nat) (k_s : s₀.Keeps s) :
    s₀.Keeps (State.faultAt s a kind code detail) := by
  unfold State.faultAt
  repeat' (first | with_reducible assumption | extract_lets | with_reducible apply keeps_State_faultCtx | split | (dsimp only))

end Sys2Proof.Machine
end

