-- ==== Sys2Proof/Laws/KeepsNet.lean ====
section
/-! SUPPORT. Sys2Proof/Laws/KeepsNet.lean: what the operations of Machine/Net.lean keep. -/

namespace Sys2Proof.Machine

open Sys2Proof

theorem keeps_State_emit {s₀ : State} (s : State) (k : Packet) (k_s : s₀.Keeps s) :
    s₀.Keeps (State.emit s k) := by
  unfold State.emit
  repeat' (first | with_reducible assumption | extract_lets | with_reducible apply keeps_State_send | split | (dsimp only) | (dsimp +zetaDelta only))

theorem keeps_State_transmit {s₀ : State} (s : State) (k : Packet) (k_s : s₀.Keeps s) :
    s₀.Keeps (State.transmit s k) := by
  unfold State.transmit
  repeat' (first | with_reducible assumption | exact id | extract_lets | with_reducible apply keeps_State_emit | split | intro _ _ _ | intro _ | (dsimp only) | (dsimp +zetaDelta only) | with_reducible apply keeps_mk)

theorem keeps_State_sawFrame {s₀ : State} (s : State) (port : Nat) (vlan : Nat) (src : Addr) (mac : BitVec 48) (k_s : s₀.Keeps s) :
    s₀.Keeps (State.sawFrame s port vlan src mac) := by
  unfold State.sawFrame
  repeat' (first | with_reducible assumption | exact id | extract_lets | with_reducible apply keeps_State_emit | with_reducible apply keeps_foldl | intro _ _ _ | intro _ | (dsimp only) | (dsimp +zetaDelta only) | with_reducible apply keeps_mk)

end Sys2Proof.Machine
end

