-- ==== Sys2Proof/Laws/KeepsSepta.lean ====
section
/-! SUPPORT. Sys2Proof/Laws/KeepsSepta.lean: what the operations of Machine/Septa.lean keep. -/

namespace Sys2Proof.Machine

open Sys2Proof

theorem keeps_State_sendBack {s₀ : State} (s : State) (t : Route) (l : List (List Byte)) (k_s : s₀.Keeps s) :
    s₀.Keeps (State.sendBack s t l) := by
  unfold State.sendBack
  repeat' (first | with_reducible assumption | exact id | extract_lets | with_reducible apply keeps_State_emit | with_reducible apply keeps_foldl | split | intro _ _ _ | intro _ | (dsimp only) | with_reducible apply keeps_mk)

theorem keeps_State_keep {s₀ : State} (s : State) (r : Staged) (l : List (List Byte)) (k_s : s₀.Keeps s) :
    s₀.Keeps (State.keep s r l) := by
  unfold State.keep
  repeat' (first | with_reducible assumption | exact id | extract_lets | split | intro _ _ _ | intro _ | (dsimp only) | (dsimp +zetaDelta only) | with_reducible apply keeps_mk)

theorem keeps_State_countStatus {s₀ : State} (s : State) (status : Nat) (k_s : s₀.Keeps s) :
    s₀.Keeps (State.countStatus s status) := by
  unfold State.countStatus
  repeat' (first | with_reducible assumption | extract_lets | with_reducible apply keeps_State_bump | split | (dsimp only))

theorem keeps_State_reply {s₀ : State} (s : State) (r : Staged) (status field head : Nat) (body : List Byte) (kept : Bool) (pick : Word) (k_s : s₀.Keeps s) :
    s₀.Keeps (State.reply s r status field head body kept pick) := by
  unfold State.reply
  repeat' (first | with_reducible assumption | extract_lets | with_reducible apply keeps_State_sendBack | with_reducible apply keeps_State_keep | with_reducible apply keeps_State_countStatus | split | (dsimp only) | (dsimp +zetaDelta only))

theorem keeps_State_emptyWindows {s₀ : State} (s : State) (p : Fin 16) (k_s : s₀.Keeps s) :
    s₀.Keeps (State.emptyWindows s p) := by
  unfold State.emptyWindows
  repeat' (first | with_reducible assumption | exact id | extract_lets | intro _ _ _ | intro _ | (dsimp only) | with_reducible apply keeps_mk)

theorem keeps_State_answer {s₀ : State} (s : State) (r : Staged) (f : Staged → State → State × Answer) (k_s : s₀.Keeps s) (k_f : ∀ x0 x1, s₀.Keeps x1 → s₀.Keeps (f x0 x1).1) :
    s₀.Keeps (State.answer s r f) := by
  have h₁ := k_f r s k_s
  unfold State.answer
  cases hf : f r s with
  | mk u a =>
    rw [hf] at h₁
    cases a with
    | reply st fd hd body => exact keeps_State_reply _ _ _ _ _ _ _ _ h₁
    | staged => exact keeps_State_reply _ _ _ _ _ _ _ _ (keeps_mk h₁ _ _ _ _ _ _ _ _ _ _ _)
    | later w => exact keeps_mk h₁ _ _ _ _ _ _ _ _ _ _ _

theorem keeps_State_authenticate {s₀ : State} (s : State) (t : MsgType) (m : Msg) (k_s : s₀.Keeps s) {u : State} {a : Answer}
    (e : s.authenticate t m = .error (u, a)) : s₀.Keeps u := by
  unfold State.authenticate at e
  repeat' (first | contradiction | split at e)
  all_goals (simp only [Except.error.injEq, Prod.mk.injEq] at e; obtain ⟨rfl, -⟩ := e)
  · exact k_s
  · exact k_s
  · exact keeps_State_report _ _ _ _ (keeps_State_bump _ _ _ _ k_s)

theorem keeps_State_request {s₀ : State} (s : State) (t : MsgType) (ep : Endpoint) (m : Msg) (f : Staged → State → State × Answer) (k_s : s₀.Keeps s) (k_f : ∀ x0 x1, s₀.Keeps x1 → s₀.Keeps (f x0 x1).1) :
    s₀.Keeps (State.request s t ep m f) := by
  unfold State.request
  repeat' (first | with_reducible assumption | exact id | extract_lets | with_reducible (refine keeps_State_authenticate _ _ _ ?_ (by with_reducible assumption)) | with_reducible apply keeps_State_bump | with_reducible apply keeps_State_sendBack | with_reducible apply keeps_State_reply | with_reducible apply keeps_State_answer | with_reducible apply k_f | split | intro _ _ _ | intro _ | (dsimp only) | (dsimp +zetaDelta only) | with_reducible apply keeps_mk)

theorem keeps_State_septa {s₀ : State} (s : State) (t : MsgType) (m : Msg) (f : Staged → State → State × Answer) (k_s : s₀.Keeps s) (k_f : ∀ x0 x1, s₀.Keeps x1 → s₀.Keeps (f x0 x1).1) :
    ∃ t₁, (State.septa s t m f) = .next t₁ ∧ s₀.Keeps t₁ := by
  unfold State.septa
  repeat' (first | exact ⟨_, rfl, by with_reducible assumption⟩ | split | (refine ⟨_, rfl, ?_⟩) | with_reducible assumption | exact id | extract_lets | with_reducible apply keeps_State_bump | with_reducible apply keeps_State_sawFrame | with_reducible apply keeps_State_request | with_reducible apply k_f | split | (dsimp only) | (dsimp +zetaDelta only) | with_reducible apply keeps_mk)

theorem keeps_State_outcome {s₀ : State} (s : State) (r : Staged) (status field : Nat) (body : List Byte) (pick : Word) (k_s : s₀.Keeps s) :
    s₀.Keeps (State.outcome s r status field body pick) := by
  unfold State.outcome
  repeat' (first | with_reducible assumption | extract_lets | with_reducible apply keeps_State_reply | (dsimp only))

theorem keeps_State_answerWaiting {s₀ : State} (s : State) (what : Nat) (k_s : s₀.Keeps s) :
    s₀.Keeps (State.answerWaiting s what) := by
  unfold State.answerWaiting
  repeat' (first | with_reducible assumption | exact id | extract_lets | with_reducible apply keeps_State_outcome | with_reducible apply keeps_foldl | intro _ _ _ | intro _ | (dsimp only) | (dsimp +zetaDelta only) | with_reducible apply keeps_mk)

theorem keeps_execEcho {s₀ : State} (m : Msg) (s : State) (k_s : s₀.Keeps s) :
    ∃ t₁, (execEcho m s) = .next t₁ ∧ s₀.Keeps t₁ := by
  unfold execEcho
  repeat' (first | exact ⟨_, rfl, by with_reducible assumption⟩ | split | (refine ⟨_, rfl, ?_⟩) | with_reducible assumption | extract_lets | with_reducible apply keeps_State_septa | split | intro _ _ _ | intro _ | (dsimp only))

end Sys2Proof.Machine
end

