-- ==== Sys2Proof/Laws/KeepsOperands.lean ====
section
/-! SUPPORT. Sys2Proof/Laws/KeepsOperands.lean: what the operations of Machine/Operands.lean keep. -/

namespace Sys2Proof.Machine

open Sys2Proof

theorem keeps_State_noteTrap {s₀ : State} (s : State) (a : At) (p : Fin 16) (t : Trap) (k_s : s₀.Keeps s) :
    s₀.Keeps (State.noteTrap s a p t) := by
  unfold State.noteTrap
  repeat' (first | with_reducible assumption | extract_lets | with_reducible apply keeps_State_setReg | split | (dsimp only) | (dsimp +zetaDelta only))

theorem keeps_State_trap {s₀ : State} (s : State) (a : At) (t : Trap) (k_s : s₀.Keeps s) :
    s₀.Keeps (State.trap s a t) := by
  unfold State.trap
  repeat' (first | with_reducible assumption | extract_lets | with_reducible apply keeps_State_faultCtx | with_reducible apply keeps_State_noteTrap | split | (dsimp only))

end Sys2Proof.Machine
end

