-- ==== Sys2Proof/Laws/Fault.lean ====
section
/-! SUPPORT. Sys2Proof/Laws/Fault.lean: what a fault of a context leaves, whatever it changes of it. -/

namespace Sys2Proof.Machine

open Sys2Proof

/-- Everything that a fault leaves as it was: the memories, what each loom stores and whose it is, and what each partition is. -/
structure State.Quiet (s t : State) : Prop where
  mem : t.mem = s.mem
  store : ∀ g, (t.loom g).store = (s.loom g).store
  owner : ∀ g, (t.loom g).part = (s.loom g).part
  parts : ∀ p, (t.part? p).map (fun x => (x.cfg, x.cloth)) = (s.part? p).map (fun x => (x.cfg, x.cloth))

theorem State.Quiet.refl (s : State) : s.Quiet s := ⟨rfl, fun _ => rfl, fun _ => rfl, fun _ => rfl⟩

theorem State.Quiet.trans {s t u : State} (h : s.Quiet t) (k : t.Quiet u) : s.Quiet u :=
  ⟨k.mem.trans h.mem, fun g => (k.store g).trans (h.store g), fun g => (k.owner g).trans (h.owner g),
   fun p => (k.parts p).trans (h.parts p)⟩

theorem State.Quiet.byteAt {s t : State} (h : s.Quiet t) (st : Store) (i : Nat) : t.byteAt st i = s.byteAt st i := by
  cases st with
  | loom g => simp only [State.byteAt, h.store]
  | mill m p c => simp only [State.byteAt, h.mem]
  | cloth p =>
    have hp := h.parts p
    simp only [State.byteAt]
    cases ht : t.part? p <;> cases hs : s.part? p <;> simp_all

theorem State.Quiet.part {s t : State} (h : s.Quiet t) {p : Fin 16} {x : Part} (hx : s.part? p = some x) :
    ∃ y, t.part? p = some y ∧ y.cfg = x.cfg ∧ y.cloth = x.cloth := by
  have hp := h.parts p
  rw [hx] at hp
  cases ht : t.part? p with
  | none => rw [ht] at hp; simp at hp
  | some y =>
    rw [ht] at hp
    simp only [Option.map_some, Option.some.injEq, Prod.mk.injEq] at hp
    exact ⟨y, rfl, hp.1, hp.2⟩

theorem State.quiet_setReg (s : State) (r : Reg) (v : Word) : s.Quiet (s.setReg r v) := ⟨rfl, fun _ => rfl, fun _ => rfl, fun _ => rfl⟩
theorem State.quiet_report (s : State) (u c d : Nat) : s.Quiet (s.report u c d) := ⟨rfl, fun _ => rfl, fun _ => rfl, fun _ => rfl⟩

theorem State.quiet_modLoom {s : State} (g : Fin 256) (f : Loom → Loom) (h : (f (s.loom g)).store = (s.loom g).store)
    (hp : (f (s.loom g)).part = (s.loom g).part) : s.Quiet (s.modLoom g f) := by
  refine ⟨rfl, fun k => ?_, fun k => ?_, fun _ => rfl⟩ <;>
  · by_cases hk : k = g
    · subst hk; rw [State.loom_modLoom_self]; assumption
    · rw [State.loom_modLoom_of_ne s f hk]

theorem State.quiet_setPart (s : State) (p : Fin 16) (x y : Part) (hx : s.part? p = some x) (hc : y.cfg = x.cfg) (hd : y.cloth = x.cloth) :
    s.Quiet (s.setPart p y) := by
  refine ⟨rfl, fun _ => rfl, fun _ => rfl, fun q => ?_⟩
  by_cases hq : q = p
  · subst hq; rw [State.part?_setPart_self, hx]; simp [hc, hd]
  · rw [State.part?_setPart_of_ne s y hq]

theorem State.quiet_modPart (s : State) (p : Fin 16) (f : Part → Part) (hc : ∀ x, (f x).cfg = x.cfg) (hd : ∀ x, (f x).cloth = x.cloth) :
    s.Quiet (s.modPart p f) := by
  unfold State.modPart
  split
  · exact State.Quiet.refl s
  · next x hx => exact State.quiet_setPart s p x _ hx (hc x) (hd x)

theorem State.quiet_setSeq {s : State} (a : At) (q : Seq) : s.Quiet (s.setSeq a q) :=
  State.quiet_modLoom _ _ rfl rfl

/-! ### A part's own changes -/

theorem Part.endRuns_cfg (x : Part) (c : Fin 8) (n : Nat) (k : BitVec 16) :
    (x.endRuns c n k).cfg = x.cfg ∧ (x.endRuns c n k).cloth = x.cloth := by
  have h : ∀ (l : List Word) (y : Part), (l.foldl (fun y t => y.note (.run n k t)) y).cfg = y.cfg
      ∧ (l.foldl (fun y t => y.note (.run n k t)) y).cloth = y.cloth := by
    intro l
    induction l with
    | nil => exact fun y => ⟨rfl, rfl⟩
    | cons a rest ih => exact fun y => ih (y.note (.run n k a))
  exact h (x.runsOf c) x

theorem Part.endRuns_ended (x : Part) (c : Fin 8) (n : Nat) (k : BitVec 16) :
    (x.endRuns c n k).ended = x.ended ++ (x.runsOf c).map (.run n k) := by
  have h : ∀ (l : List Word) (y : Part), (l.foldl (fun y t => y.note (.run n k t)) y).ended = y.ended ++ l.map (.run n k) := by
    intro l
    induction l with
    | nil => simp
    | cons a rest ih =>
      intro y
      rw [List.foldl_cons, ih]
      simp [Part.note, List.append_assoc]
  exact h (x.runsOf c) x

theorem Part.ctx_setCtx {x : Part} (c : Fin 8) {k : Ctx} (h : k ≠ Ctx.zero) : (x.setCtx c k).ctx c = k := by
  simp only [Part.setCtx, Part.ctx, Tab.put, h, if_false]
  exact Tab.get_ins_self _ _ _ _

/-! ### Poisoning and stopping -/

theorem State.ordered_setPart {s : State} (o : s.Ordered) (p : Fin 16) (x : Part) : (s.setPart p x).Ordered :=
  (keeps_State_setPart s p x (keeps_refl s)).order o

/-- The runs of every partition, open, queued and ended, are as before. -/
def State.SameRuns (s t : State) : Prop := ∀ p x, s.part? p = some x → ∃ y, t.part? p = some y ∧ y.ended = x.ended ∧ y.ctxs = x.ctxs

theorem State.sameRuns_of {s t : State} (h : t.parts = s.parts) : s.SameRuns t := fun _ x hx => ⟨x, by unfold State.part?; rw [h]; exact hx, rfl, rfl⟩

theorem State.SameRuns.trans {s t u : State} (h : s.SameRuns t) (k : t.SameRuns u) : s.SameRuns u := by
  intro p x hx
  obtain ⟨y, hy, e1, e2⟩ := h p x hx
  obtain ⟨z, hz, f1, f2⟩ := k p y hy
  exact ⟨z, hz, f1.trans e1, f2.trans e2⟩

/-- What letting held fills go leaves. -/
theorem State.releaseFills_spec {s : State} (g : Fin 256) :
    s.Quiet (s.releaseFills g) ∧ (s.releaseFills g).safety = s.safety
      ∧ ∀ a, (s.releaseFills g).seq a = s.seq a := by
  have hl : ∀ l : Loom, l.store = (s.loom g).store → l.part = (s.loom g).part → s.Quiet (s.setLoom g l) := fun l h k =>
    State.quiet_modLoom g (fun _ => l) h k
  refine ⟨State.Quiet.trans (hl { s.loom g with fills := (s.loom g).fills.map (fun f => { f with heldSince := none }) } rfl rfl)
    (State.quiet_setReg _ _ _), rfl, fun a => ?_⟩
  · unfold State.seq
    by_cases ha : a.loom = g
    · subst ha
      have h := congrArg (fun l => Loom.seq l a.ctx) (State.loom_setLoom_self s a.loom
        { s.loom a.loom with fills := (s.loom a.loom).fills.map (fun f => { f with heldSince := none }) })
      exact h
    · exact congrArg (fun l => Loom.seq l a.ctx) (State.loom_setLoom_of_ne s _ ha)

theorem State.modPart_spec {s : State} (p : Fin 16) (f : Part → Part) (hc : ∀ x, (f x).cfg = x.cfg)
    (hd : ∀ x, (f x).cloth = x.cloth) (he : ∀ x, (f x).ended = x.ended ∧ (f x).ctxs = x.ctxs) :
    s.Quiet (s.modPart p f) ∧ (s.modPart p f).safety = s.safety ∧ (s.modPart p f).looms = s.looms
      ∧ s.SameRuns (s.modPart p f) := by
  refine ⟨State.quiet_modPart s p f hc hd, ?_, ?_, ?_⟩ <;> unfold State.modPart <;> split
  · rfl
  · rfl
  · rfl
  · rfl
  · exact fun _ _ h => ⟨_, h, rfl, rfl⟩
  · next y hy =>
    intro q x hx
    by_cases hq : q = p
    · subst hq
      rw [hy] at hx
      cases hx
      exact ⟨_, State.part?_setPart_self _ _ _, (he y).1, (he y).2⟩
    · exact ⟨x, by rw [State.part?_setPart_of_ne _ _ hq]; exact hx, rfl, rfl⟩

theorem State.setTile_spec {u : State} (a : At) (q : Seq) (hq : q.tile = none) :
    let v := (u.modLoom a.loom (fun l => { l.setSeq a.ctx q with undrained := [] })).releaseFills a.loom
    u.Quiet v ∧ v.safety = u.safety ∧ (v.seq a).tile = none := by
  obtain ⟨h1, h3, h4⟩ := State.releaseFills_spec (s := u.modLoom a.loom (fun l => { l.setSeq a.ctx q with undrained := [] })) a.loom
  refine ⟨(State.quiet_modLoom a.loom (fun l => { l.setSeq a.ctx q with undrained := [] }) rfl rfl).trans h1, h3, ?_⟩
  rw [h4]
  unfold State.seq
  rw [State.loom_modLoom_self]
  show (((u.loom a.loom).setSeq a.ctx q).seq a.ctx).tile = none
  rw [Loom.seq_setSeq_self, hq]

/-- What poisoning the open tile of a context leaves. -/
theorem State.poison_spec {s : State} (a : At) :
    s.Quiet (s.poison a) ∧ (s.poison a).safety = s.safety ∧ ((s.poison a).seq a).tile = none
      ∧ s.SameRuns (s.poison a) := by
  unfold State.poison
  extract_lets q
  cases hq : q.tile with
  | none => exact ⟨State.Quiet.refl s, rfl, hq, State.sameRuns_of rfl⟩
  | some t =>
    dsimp only
    cases (s.loom a.loom).part with
    | none =>
      obtain ⟨k1, k3, k4⟩ := State.setTile_spec (u := s) a
        { q with tile := none, moves := q.moves.filter (fun m => !m.inTile) } rfl
      exact ⟨k1, k3, k4, State.sameRuns_of rfl⟩
    | some p =>
      obtain ⟨h1, h3, h4, h5⟩ := State.modPart_spec (s := s) p (fun x => x.dropSnapshots t.snapshots) (fun _ => rfl) (fun _ => rfl)
        (fun _ => ⟨rfl, rfl⟩)
      obtain ⟨k1, k3, k4⟩ := State.setTile_spec (u := s.modPart p (fun x => x.dropSnapshots t.snapshots)) a
        { q with tile := none, moves := q.moves.filter (fun m => !m.inTile) } rfl
      exact ⟨h1.trans k1, k3.trans h3, k4, h5.trans (State.sameRuns_of rfl)⟩

/-- A context stopping elsewhere leaves a sequencer that has already faulted. -/
theorem State.stopElsewhere_spec {s : State} (b : At) (k : BitVec 16) :
    s.Quiet (s.stopElsewhere b k) ∧ (s.stopElsewhere b k).safety = s.safety
      ∧ (s.stopElsewhere b k).parts = s.parts
      ∧ ∀ a c, (s.seq a).run = .faulted c → (s.stopElsewhere b k).seq a = s.seq a := by
  unfold State.stopElsewhere
  extract_lets q
  split
  · exact ⟨State.Quiet.refl s, rfl, rfl, fun _ _ _ => rfl⟩
  · exact ⟨State.Quiet.refl s, rfl, rfl, fun _ _ _ => rfl⟩
  · next hn hf =>
    split
    · exact ⟨State.Quiet.refl s, rfl, rfl, fun _ _ _ => rfl⟩
    · refine ⟨State.quiet_setSeq _ _, rfl, rfl, fun a c ha => ?_⟩
      by_cases hl : a.loom = b.loom
      · by_cases hc : a.ctx = b.ctx
        · have : a = b := by cases a; cases b; simp_all
          subst this; exact absurd ha (hf c)
        · unfold State.stopSeq State.modSeq State.setSeq State.seq
          rw [hl, State.loom_modLoom_self, Loom.seq_setSeq_of_ne _ _ hc]
      · unfold State.stopSeq State.modSeq State.setSeq State.seq
        rw [State.loom_modLoom_of_ne _ _ hl]

/-- What a fault at a loom leaves and does (R155, R373). -/
theorem State.faultCtx_spec {s : State} {a : At} {p : Fin 16} {x : Part} (hx : s.part? p = some x) (unit code detail : Nat) :
    s.Quiet (s.faultCtx p a.ctx (some a.loom) unit code detail)
      ∧ ((s.faultCtx p a.ctx (some a.loom) unit code detail).seq a).run = .faulted (BitVec.ofNat 16 code)
      ∧ ((s.faultCtx p a.ctx (some a.loom) unit code detail).seq a).tile = none
      ∧ (s.faultCtx p a.ctx (some a.loom) unit code detail).safety.flight
          = s.safety.flight ++ [s.record unit code (detail + attribution p a.ctx)]
      ∧ ∃ y, (s.faultCtx p a.ctx (some a.loom) unit code detail).part? p = some y ∧ y.cfg = x.cfg
          ∧ (y.ctx a.ctx).fault.isSome = true
          ∧ y.ended = x.ended ++ (x.runsOf a.ctx).map (.run 2 (BitVec.ofNat 16 code)) := by
  unfold State.faultCtx
  extract_lets k s₁ s₂
  have q₁ : s.Quiet s₁ := State.quiet_report s _ _ _
  obtain ⟨qp, sp, tp, rp⟩ := State.poison_spec (s := s₁) a
  have q₂ : s.Quiet s₂ := q₁.trans (qp.trans (State.quiet_setSeq _ _))
  have r₂ : s₂.seq a = { (s₁.poison a).seq a with run := .faulted k } := State.seq_setSeq_self _ a _
  have f₂ : s₂.safety.flight = s.safety.flight ++ [s.record unit code (detail + attribution p a.ctx)] := by
    show (s₁.poison a).safety.flight = _
    rw [sp]; rfl
  have m₂ : s.SameRuns s₂ := State.SameRuns.trans (t := s₁) (State.sameRuns_of rfl) (State.SameRuns.trans rp (State.sameRuns_of rfl))
  clear_value s₂
  obtain ⟨x₂, hx₂, he₂, hk₂⟩ := m₂ p x hx
  obtain ⟨x₃, hx₃, hc₂, hd₂⟩ := q₂.part hx
  rw [hx₂] at hx₃
  cases hx₃
  simp only [hx₂]
  generalize hy : ((x₂.endRuns a.ctx 2 k).modCtx a.ctx (fun y => { y with fault := some (y.fault.getD k) })) = y
  have hyc : y.cfg = x₂.cfg ∧ y.cloth = x₂.cloth := by subst hy; exact Part.endRuns_cfg x₂ a.ctx 2 k
  have hyx : (y.ctx a.ctx).fault.isSome = true := by
    subst hy
    exact (congrArg (fun c => c.fault.isSome) (Part.ctx_setCtx (k := { (x₂.endRuns a.ctx 2 k).ctx a.ctx with
      fault := some (((x₂.endRuns a.ctx 2 k).ctx a.ctx).fault.getD k) }) a.ctx (by simp [Ctx.zero]))).trans rfl
  have hye : y.ended = x.ended ++ (x.runsOf a.ctx).map (.run 2 k) := by
    subst hy
    have hr : x₂.runsOf a.ctx = x.runsOf a.ctx := by unfold Part.runsOf Part.ctx; rw [hk₂]
    rw [← hr, ← he₂]
    exact Part.endRuns_ended x₂ a.ctx 2 k
  have hfold : ∀ (ts : List TreadCfg) (u : State), (u.seq a).run = .faulted k →
      let v := ts.foldl (fun s t => s.stopElsewhere { loom := Fin.ofNat 256 t.loom, ctx := a.ctx } k) u
      u.Quiet v ∧ v.seq a = u.seq a ∧ v.safety = u.safety ∧ v.parts = u.parts := by
    intro ts
    induction ts with
    | nil => exact fun u _ => ⟨State.Quiet.refl u, rfl, rfl, rfl⟩
    | cons t rest ih =>
      intro u ru
      obtain ⟨e1, e3, e4, e5⟩ := State.stopElsewhere_spec (s := u) { loom := Fin.ofNat 256 t.loom, ctx := a.ctx } k
      have es := e5 a k ru
      obtain ⟨g1, g2, g3, g4⟩ := ih _ (by rw [es]; exact ru)
      exact ⟨e1.trans g1, g2.trans es, g3.trans e3, g4.trans e4⟩
  have rs : ((s₂.setPart p y).seq a) = s₂.seq a := rfl
  have := hfold (x₂.cfg.treads.filter (fun t => t.ctx == a.ctx.val)) (s₂.setPart p y) (by rw [rs, r₂])
  obtain ⟨g1, g2, g3, g4⟩ := this
  refine ⟨q₂.trans ((State.quiet_setPart s₂ p x₂ y hx₂ hyc.1 hyc.2).trans g1), ?_, ?_, ?_, y, ?_, hyc.1.trans hc₂, hyx, hye⟩
  · rw [g2, rs, r₂]
  · rw [g2, rs, r₂]; exact tp
  · rw [g3]; exact f₂
  · unfold State.part?
    rw [g4]
    exact State.part?_setPart_self s₂ p y

/-- Noting a trap writes the two registers that name it, or nothing. -/
theorem State.noteTrap_eq (s : State) (a : At) (p : Fin 16) (t : Trap) :
    ∃ r₁ v₁ r₂ v₂, s.noteTrap a p t = s ∨ s.noteTrap a p t = (s.setReg r₁ v₁).setReg r₂ v₂ := by
  unfold State.noteTrap
  split
  · extract_lets v
    exact ⟨_, _, _, _, .inr rfl⟩
  · split
    · extract_lets m v
      exact ⟨_, _, _, _, .inr rfl⟩
    · exact ⟨.moduleId, 0, .moduleId, 0, .inl rfl⟩

theorem State.noteTrap_spec (s : State) (a : At) (p : Fin 16) (t : Trap) :
    s.Quiet (s.noteTrap a p t) ∧ (s.noteTrap a p t).safety = s.safety
      ∧ (s.noteTrap a p t).parts = s.parts := by
  obtain ⟨r₁, v₁, r₂, v₂, e | e⟩ := State.noteTrap_eq s a p t
  · rw [e]; exact ⟨State.Quiet.refl s, rfl, rfl⟩
  · refine ⟨?_, ?_, ?_⟩
    · rw [e]; exact (State.quiet_setReg _ _ _).trans (State.quiet_setReg _ _ _)
    · rw [e]; rfl
    · rw [e]; rfl

/-- A faulting instruction (R144): its fault, the registers that name it, and nothing else. -/
theorem State.trap_spec {s : State} {a : At} {p : Fin 16} {x : Part} (hp : (s.loom a.loom).part = some p)
    (hx : s.part? p = some x) (t : Trap) :
    s.Quiet (s.trap a t) ∧ ((s.trap a t).seq a).run = .faulted (BitVec.ofNat 16 t.code) ∧ ((s.trap a t).seq a).tile = none
      ∧ (∃ r, (s.trap a t).safety.flight = s.safety.flight ++ [r] ∧ r.code = BitVec.ofNat 16 t.code
          ∧ r.unit = BitVec.ofNat 16 (t.unit a.loom))
      ∧ ∃ y, (s.trap a t).part? p = some y ∧ y.cfg = x.cfg ∧ (y.ctx a.ctx).fault.isSome = true
          ∧ y.ended = x.ended ++ (x.runsOf a.ctx).map (.run 2 (BitVec.ofNat 16 t.code)) := by
  obtain ⟨h1, h3, h4⟩ := State.noteTrap_spec s a p t
  have hx' : (s.noteTrap a p t).part? p = some x := by unfold State.part?; rw [h4]; exact hx
  unfold State.trap
  simp only [hp]
  obtain ⟨k1, k2, k3, k4, k5⟩ := State.faultCtx_spec hx' (t.unit a.loom) t.code t.detail
  refine ⟨h1.trans k1, k2, k3, ⟨_, by rw [k4, h3], rfl, rfl⟩, k5⟩

end Sys2Proof.Machine
end

