-- ==== Sys2Proof/Laws/KeepsIssue.lean ====
section
/-! SUPPORT. Sys2Proof/Laws/KeepsIssue.lean: what the operations of Machine/Issue.lean keep. -/

namespace Sys2Proof.Machine

open Sys2Proof

theorem keeps_Here_setQ {s₀ : State} (h : Here) (q : Seq) (k_h : s₀.Keeps h.s) :
    s₀.Keeps (Here.setQ h q) := by
  unfold Here.setQ
  repeat' (first | with_reducible assumption | extract_lets | with_reducible apply keeps_State_setSeq | (dsimp only))

theorem keeps_Here_go {s₀ : State} (h : Here) (q : Seq) (k_h : s₀.Keeps h.s) :
    s₀.Keeps (Here.go h q) := by
  unfold Here.go
  repeat' (first | with_reducible assumption | extract_lets | with_reducible apply keeps_Here_setQ | (dsimp only))

theorem keeps_Here_hold {s₀ : State} (h : Here) (k_h : s₀.Keeps h.s) :
    s₀.Keeps (Here.hold h) := by
  unfold Here.hold
  repeat' (first | with_reducible assumption | extract_lets | (dsimp only))

theorem keeps_Here_trap {s₀ : State} (h : Here) (t : Trap) (k_h : s₀.Keeps h.s) :
    s₀.Keeps (Here.trap h t) := by
  unfold Here.trap
  repeat' (first | with_reducible assumption | extract_lets | with_reducible apply keeps_State_trap | (dsimp only))

theorem keeps_State_here {s₀ : State} (s : State) (a : At) (code : Nat) (k_s : s₀.Keeps s) {h : Here} (e : s.here a code = some h) :
    s₀.Keeps h.s := by
  unfold State.here at e
  repeat' (first | contradiction | split at e)
  cases e
  dsimp only
  exact keeps_State_modLoom _ _ _ k_s (fun l => to_of (fun h => ok_Loom_setSeq h _ _))

theorem keeps_State_issue {s₀ : State} (s : State) (a : At) (ok : Bool) (name : String) (code : Nat) (pred : Fin 8) (pneg : Bool)
    (f : Here → State) (k_s : s₀.Keeps s) (hok : ok = true) (k_f : ∀ h, s₀.Keeps h.s → s₀.Keeps (f h)) :
    ∃ t, State.issue s a ok name code pred pneg f = .next t ∧ s₀.Keeps t := by
  subst hok
  simp only [State.issue, Bool.not_true, Bool.false_eq_true, if_false]
  cases hh : s.here a code with
  | none => exact ⟨s, rfl, k_s⟩
  | some h =>
    have k_h : s₀.Keeps h.s := keeps_State_here s a code k_s hh
    refine ⟨_, rfl, ?_⟩
    split
    · exact k_f h k_h
    · exact keeps_Here_go h h.q k_h

theorem keeps_State_issueS {s₀ : State} (s : State) (a : At) (w : SWord) (op : Nat) (ok : Bool) (name : String)
    (f : Here → State) (k_s : s₀.Keeps s) (hok : ok = true) (k_f : ∀ h, s₀.Keeps h.s → s₀.Keeps (f h)) :
    ∃ t, State.issueS s a w op ok name f = .next t ∧ s₀.Keeps t :=
  keeps_State_issue s a ok name _ _ _ f k_s hok k_f

theorem keeps_State_issueJ {s₀ : State} (s : State) (a : At) (w : JWord) (op : Nat) (ok : Bool) (name : String)
    (f : Here → State) (k_s : s₀.Keeps s) (hok : ok = true) (k_f : ∀ h, s₀.Keeps h.s → s₀.Keeps (f h)) :
    ∃ t, State.issueJ s a w op ok name f = .next t ∧ s₀.Keeps t :=
  keeps_State_issue s a ok name _ _ _ f k_s hok k_f

theorem keeps_State_issueT {s₀ : State} (s : State) (a : At) (w : TWord) (op : Nat) (ok : Bool) (name : String)
    (f : Here → State) (k_s : s₀.Keeps s) (hok : ok = true) (k_f : ∀ h, s₀.Keeps h.s → s₀.Keeps (f h)) :
    ∃ t, State.issueT s a w op ok name f = .next t ∧ s₀.Keeps t :=
  keeps_State_issue s a ok name _ _ _ f k_s hok k_f

theorem keeps_Here_reading {s₀ : State} (h : Here) (w : Option Place) (off : Int) (n : Nat) (f : Nat → State) (k_h : s₀.Keeps h.s) (k_f : ∀ x0, s₀.Keeps (f x0)) :
    s₀.Keeps (Here.reading h w off n f) := by
  unfold Here.reading
  repeat' (first | with_reducible assumption | extract_lets | with_reducible apply keeps_State_trap | with_reducible apply keeps_Here_hold | with_reducible apply keeps_Here_trap | with_reducible apply k_f | split | (dsimp only))

theorem keeps_Here_writing {s₀ : State} (h : Here) (w : Option Place) (off : Int) (n : Nat) (f : Nat → State) (k_h : s₀.Keeps h.s) (k_f : ∀ x0, s₀.Keeps (f x0)) :
    s₀.Keeps (Here.writing h w off n f) := by
  unfold Here.writing
  repeat' (first | with_reducible assumption | extract_lets | with_reducible apply keeps_State_trap | with_reducible apply keeps_Here_hold | with_reducible apply keeps_Here_trap | with_reducible apply k_f | split | (dsimp only))

end Sys2Proof.Machine
end

