-- ==== Sys2Proof/Laws/KeepsTile.lean ====
section
/-! SUPPORT. Sys2Proof/Laws/KeepsTile.lean: what the operations of Machine/Tile.lean keep. -/

namespace Sys2Proof.Machine

open Sys2Proof

theorem keeps_State_noteDrainSets {s₀ : State} (s : State) (a : At) (recs : List Nat) (loads : Nat) (k_s : s₀.Keeps s) :
    s₀.Keeps (State.noteDrainSets s a recs loads) := by
  unfold State.noteDrainSets
  repeat' (first | with_reducible assumption | extract_lets | with_reducible apply keeps_State_setFld | with_reducible apply keeps_State_bump | (dsimp only) | (dsimp +zetaDelta only))

theorem keeps_Here_openTile {s₀ : State} (h : Here) (w : TWord) (roles : List (Nat × Role)) (recs : List Nat) (pre : List (Nat × Fell)) (sets : List DrainSet) (loads : Nat) (k_h : s₀.Keeps h.s) :
    s₀.Keeps (Here.openTile h w roles recs pre sets loads) := by
  unfold Here.openTile
  repeat' (first | with_reducible assumption | exact id | exact Loom.to_setSeq _ _ _ | exact Loom.to_setBank _ _ _ | exact fun l => to_of (fun h => h) | exact to_of (fun h => h) | exact fun l => to_of (fun h => ⟨h.1, h.2.1, rising_foldl_put _ _ _ _ rfl, rfl⟩) | extract_lets | with_reducible apply keeps_State_modLoom | with_reducible apply keeps_State_modPart | with_reducible apply keeps_Here_go | with_reducible apply keeps_State_noteDrainSets | with_reducible apply keeps_foldl | split | intro _ _ _ | intro _ | (dsimp only) | (dsimp +zetaDelta only) | with_reducible apply keeps_mk)

theorem keeps_Here_tryOpen {s₀ : State} (h : Here) (w : TWord) (k_h : s₀.Keeps h.s) :
    s₀.Keeps (Here.tryOpen h w) := by
  unfold Here.tryOpen
  repeat' (first | with_reducible assumption | extract_lets | with_reducible apply keeps_State_trap | with_reducible apply keeps_Here_hold | with_reducible apply keeps_Here_trap | with_reducible apply keeps_Here_openTile | split | intro _ _ _ | intro _ | (dsimp only) | (dsimp +zetaDelta only))

theorem keeps_execTbegin {s₀ : State} (a : At) (w : TWord) (s : State) (k_s : s₀.Keeps s) (hok : tbeginOk w = true) :
    ∃ t₁, (execTbegin a w s) = .next t₁ ∧ s₀.Keeps t₁ := by
  unfold execTbegin
  apply keeps_State_issueT s a w _ _ _ _ k_s hok
  intro h k_h
  repeat' (first | with_reducible assumption | extract_lets | with_reducible apply keeps_State_trap | with_reducible apply keeps_Here_go | with_reducible apply keeps_Here_hold | with_reducible apply keeps_Here_trap | with_reducible apply keeps_State_issueT | with_reducible apply keeps_Here_tryOpen | split | intro _ _ _ | intro _ | (dsimp only) | (dsimp +zetaDelta only))

theorem keeps_Here_awaitBank {s₀ : State} (h : Here) (t : Tile) (k_h : s₀.Keeps h.s) :
    s₀.Keeps (Here.awaitBank h t) := by
  unfold Here.awaitBank
  repeat' (first | with_reducible assumption | exact id | extract_lets | with_reducible apply keeps_Here_setQ | (dsimp only) | with_reducible apply keeps_mk)

theorem keeps_execMac {s₀ : State} (a : At) (w : TWord) (s : State) (k_s : s₀.Keeps s) (hok : macOk w = true) :
    ∃ t₁, (execMac a w s) = .next t₁ ∧ s₀.Keeps t₁ := by
  unfold execMac
  apply keeps_State_issueT s a w _ _ _ _ k_s hok
  intro h k_h
  repeat' (first | with_reducible assumption | exact Loom.to_setSeq _ _ _ | exact Loom.to_setBank _ _ _ | exact fun l => to_of (fun h => h) | exact to_of (fun h => h) | exact fun l => Loom.to_macs _ _ _ _ _ | extract_lets | with_reducible apply keeps_State_modLoom | with_reducible apply keeps_State_count | with_reducible apply keeps_State_trap | with_reducible apply keeps_Here_go | with_reducible apply keeps_Here_hold | with_reducible apply keeps_Here_trap | with_reducible apply keeps_State_issueT | with_reducible apply keeps_Here_awaitBank | split | intro _ _ _ | intro _ | (dsimp only) | (dsimp +zetaDelta only))

theorem keeps_execDrain {s₀ : State} (a : At) (w : TWord) (s : State) (k_s : s₀.Keeps s) (hok : drainOk w = true) :
    ∃ t₁, (execDrain a w s) = .next t₁ ∧ s₀.Keeps t₁ := by
  unfold execDrain
  apply keeps_State_issueT s a w _ _ _ _ k_s hok
  intro h k_h
  repeat' (first | with_reducible assumption | exact Loom.to_setSeq _ _ _ | exact Loom.to_setBank _ _ _ | exact fun l => to_of (fun h => h) | exact to_of (fun h => h) | exact fun l => Loom.to_clearFells _ _ | extract_lets | with_reducible apply keeps_State_modLoom | with_reducible apply keeps_State_putAt | with_reducible apply keeps_State_trap | with_reducible apply keeps_Here_go | with_reducible apply keeps_Here_hold | with_reducible apply keeps_Here_trap | with_reducible apply keeps_State_issueT | with_reducible apply keeps_foldl | split | intro _ _ _ | intro _ | (dsimp only) | (dsimp +zetaDelta only))

theorem keeps_execTend {s₀ : State} (a : At) (w : TWord) (s : State) (k_s : s₀.Keeps s) (hok : tendOk w = true) :
    ∃ t₁, (execTend a w s) = .next t₁ ∧ s₀.Keeps t₁ := by
  unfold execTend
  apply keeps_State_issueT s a w _ _ _ _ k_s hok
  intro h k_h
  repeat' (first | with_reducible assumption | exact id | extract_lets | with_reducible apply keeps_State_trap | with_reducible apply keeps_Here_go | with_reducible apply keeps_Here_trap | with_reducible apply keeps_State_issueT | with_reducible apply keeps_Here_writing | split | intro _ _ _ | intro _ | (dsimp only) | (dsimp +zetaDelta only) | with_reducible apply keeps_mk)

theorem keeps_State_stopAtEnd {s₀ : State} (s : State) (a : At) (k_s : s₀.Keeps s) :
    s₀.Keeps (State.stopAtEnd s a) := by
  unfold State.stopAtEnd
  repeat' (first | with_reducible assumption | exact id | extract_lets | with_reducible apply keeps_State_stopSeq | split | (dsimp only) | with_reducible apply keeps_mk)

theorem keeps_execTileCompletion {s₀ : State} (g : Fin 256) (s : State) (k_s : s₀.Keeps s) :
    ∃ t₁, (execTileCompletion g s) = .next t₁ ∧ s₀.Keeps t₁ := by
  unfold execTileCompletion
  repeat' (first | exact ⟨_, rfl, by with_reducible assumption⟩ | split | (refine ⟨_, rfl, ?_⟩) | with_reducible assumption | exact id | exact Loom.to_setSeq _ _ _ | exact Loom.to_setBank _ _ _ | exact fun l => to_of (fun h => h) | exact to_of (fun h => h) | exact fun l => to_of (fun h => ⟨h.1, h.2.1, rfl, rfl⟩) | exact to_of (fun h => ⟨h.1, h.2.1, rfl, rfl⟩) | extract_lets | with_reducible apply keeps_State_modLoom | with_reducible apply keeps_State_putAt | with_reducible apply keeps_State_count | with_reducible apply keeps_State_modSeq | with_reducible apply keeps_State_modPart | with_reducible apply keeps_State_releaseFills | with_reducible apply keeps_State_stopAtEnd | with_reducible apply keeps_foldl | split | intro _ _ _ | intro _ | (dsimp only) | (dsimp +zetaDelta only) | with_reducible apply keeps_mk)

theorem keeps_State_loomCheckFails {s₀ : State} (s : State) (a : At) (kind code detail : Nat) (k_s : s₀.Keeps s) :
    s₀.Keeps (State.loomCheckFails s a kind code detail) := by
  unfold State.loomCheckFails
  repeat' (first | with_reducible assumption | extract_lets | with_reducible apply keeps_State_report | with_reducible apply keeps_State_poison | with_reducible apply keeps_State_stopSeq | split | (dsimp only))

theorem keeps_execTileWatchdogExpiry {s₀ : State} (g : Fin 256) (s : State) (k_s : s₀.Keeps s) :
    ∃ t₁, (execTileWatchdogExpiry g s) = .next t₁ ∧ s₀.Keeps t₁ := by
  unfold execTileWatchdogExpiry
  repeat' (first | exact ⟨_, rfl, by with_reducible assumption⟩ | split | (refine ⟨_, rfl, ?_⟩) | with_reducible assumption | exact id | extract_lets | with_reducible apply keeps_State_setFld | with_reducible apply keeps_State_loomCheckFails | split | intro _ _ _ | intro _ | (dsimp only) | (dsimp +zetaDelta only) | with_reducible apply keeps_mk)

end Sys2Proof.Machine
end

