-- ==== Sys2Proof/Laws/KeepsCloth.lean ====
section
/-! SUPPORT. Sys2Proof/Laws/KeepsCloth.lean: what the operations of Machine/Cloth.lean keep. -/

namespace Sys2Proof.Machine

open Sys2Proof

theorem keeps_State_modPage {s₀ : State} (s : State) (p : Fin 16) (k : Nat) (f : Page → Page) (k_s : s₀.Keeps s) :
    s₀.Keeps (State.modPage s p k f) := by
  unfold State.modPage
  repeat' (first | with_reducible assumption | exact id | extract_lets | with_reducible apply keeps_State_modPart | split | intro _ _ _ | intro _ | (dsimp only) | with_reducible apply keeps_mk)

theorem keeps_State_writeBack {s₀ : State} (s : State) (p : Fin 16) (k : Nat) (evict : Bool) (k_s : s₀.Keeps s) :
    s₀.Keeps (State.writeBack s p k evict) := by
  unfold State.writeBack
  repeat' (first | with_reducible assumption | exact id | extract_lets | with_reducible apply keeps_Here_writing | with_reducible apply keeps_State_modPage | intro _ _ _ | intro _ | (dsimp only) | with_reducible apply keeps_mk)

theorem keeps_State_evictPage {s₀ : State} (s : State) (p : Fin 16) (k : Nat) (g : Page) (k_s : s₀.Keeps s) :
    s₀.Keeps (State.evictPage s p k g) := by
  unfold State.evictPage
  repeat' (first | with_reducible assumption | exact id | extract_lets | with_reducible apply keeps_State_modPage | with_reducible apply keeps_State_writeBack | split | intro _ _ _ | intro _ | (dsimp only) | with_reducible apply keeps_mk)

theorem keeps_State_makeRoom {s₀ : State} (s : State) (p : Fin 16) (ctx mill : Nat) (k_s : s₀.Keeps s) :
    s₀.Keeps (State.makeRoom s p ctx mill) := by
  unfold State.makeRoom
  repeat' (first | with_reducible assumption | extract_lets | with_reducible apply keeps_State_evictPage | split | intro _ _ _ | intro _ | (dsimp only) | (dsimp +zetaDelta only))

theorem keeps_State_staged {s₀ : State} (s : State) (p : Fin 16) (k : Nat) (k_s : s₀.Keeps s) :
    s₀.Keeps (State.staged s p k) := by
  unfold State.staged
  repeat' (first | with_reducible assumption | exact id | extract_lets | with_reducible apply keeps_State_setPart | with_reducible apply keeps_State_bump | split | (dsimp only) | with_reducible apply keeps_mk)

theorem keeps_State_requestStage {s₀ : State} (s : State) (p : Fin 16) (k : Nat) (k_s : s₀.Keeps s) :
    s₀.Keeps (State.requestStage s p k) := by
  unfold State.requestStage
  repeat' (first | with_reducible assumption | exact id | extract_lets | with_reducible apply keeps_State_modPage | with_reducible apply keeps_State_makeRoom | with_reducible apply keeps_State_staged | split | intro _ _ _ | intro _ | (dsimp only) | with_reducible apply keeps_mk)

theorem keeps_State_stageForWrite {s₀ : State} (s : State) (p : Fin 16) (k : Nat) (k_s : s₀.Keeps s) :
    s₀.Keeps (State.stageForWrite s p k) := by
  unfold State.stageForWrite
  repeat' (first | with_reducible assumption | exact id | extract_lets | with_reducible apply keeps_State_modPage | with_reducible apply keeps_State_makeRoom | with_reducible apply keeps_State_staged | split | intro _ _ _ | intro _ | (dsimp only) | with_reducible apply keeps_mk)

theorem keeps_State_markDirty {s₀ : State} (s : State) (p : Fin 16) (a n : Nat) (k_s : s₀.Keeps s) :
    s₀.Keeps (State.markDirty s p a n) := by
  unfold State.markDirty
  repeat' (first | with_reducible assumption | exact id | extract_lets | with_reducible apply keeps_Here_writing | with_reducible apply keeps_State_modPage | with_reducible apply keeps_foldl | split | intro _ _ _ | intro _ | (dsimp only) | with_reducible apply keeps_mk)

theorem keeps_State_traffic {s₀ : State} (s : State) (p : Fin 16) (a n : Nat) (k_s : s₀.Keeps s) :
    s₀.Keeps (State.traffic s p a n) := by
  unfold State.traffic
  repeat' (first | with_reducible assumption | exact id | extract_lets | with_reducible apply keeps_State_count | with_reducible apply keeps_State_staged | with_reducible apply keeps_foldl | split | intro _ _ _ | intro _ | (dsimp only) | (dsimp +zetaDelta only) | with_reducible apply keeps_mk)

theorem keeps_State_store_ {s₀ : State} (s : State) (st : Store) (a : Nat) (bs : List Byte) (k_s : s₀.Keeps s) :
    s₀.Keeps (State.store_ s st a bs) := by
  unfold State.store_
  repeat' (first | with_reducible assumption | extract_lets | with_reducible apply keeps_State_putAt | with_reducible apply keeps_State_stageForWrite | with_reducible apply keeps_State_markDirty | with_reducible apply keeps_State_traffic | with_reducible apply keeps_foldl | split | intro _ _ _ | intro _ | (dsimp only) | (dsimp +zetaDelta only))

theorem keeps_State_prefetch {s₀ : State} (s : State) (p : Fin 16) (a : At) (k_s : s₀.Keeps s) :
    s₀.Keeps (State.prefetch s p a) := by
  unfold State.prefetch
  repeat' (first | with_reducible assumption | extract_lets | with_reducible apply keeps_State_requestStage | with_reducible apply keeps_foldl | split | intro _ _ _ | intro _ | (dsimp only) | (dsimp +zetaDelta only))

theorem keeps_State_moveCursor {s₀ : State} (s : State) (p : Fin 16) (a : At) (addr n : Nat) (k_s : s₀.Keeps s) :
    s₀.Keeps (State.moveCursor s p a addr n) := by
  unfold State.moveCursor
  repeat' (first | with_reducible assumption | exact id | extract_lets | with_reducible apply keeps_State_setPart | with_reducible apply keeps_State_prefetch | split | intro _ _ _ | intro _ | (dsimp only) | (dsimp +zetaDelta only) | with_reducible apply keeps_mk)

theorem keeps_State_countUnstaged {s₀ : State} (s : State) (m : Fin 8) (n : Nat) (k_s : s₀.Keeps s) :
    s₀.Keeps (State.countUnstaged s m n) := by
  unfold State.countUnstaged
  repeat' (first | with_reducible assumption | exact id | extract_lets | with_reducible apply keeps_State_bump | (dsimp only) | (dsimp +zetaDelta only) | with_reducible apply keeps_mk)

theorem keeps_State_load_ {s₀ : State} (s : State) (who : Option At) (st : Store) (addr n : Nat) (k_s : s₀.Keeps s) :
    s₀.Keeps (State.load_ s who st addr n) := by
  unfold State.load_
  repeat' (first | with_reducible assumption | extract_lets | with_reducible apply keeps_State_traffic | with_reducible apply keeps_State_moveCursor | with_reducible apply keeps_State_countUnstaged | split | (dsimp only) | (dsimp +zetaDelta only))

end Sys2Proof.Machine
end

