-- ==== Sys2Proof/Laws/KeepsSwatch.lean ====
section
/-! SUPPORT. Sys2Proof/Laws/KeepsSwatch.lean: what the operations of Machine/Swatch.lean keep. -/

namespace Sys2Proof.Machine

open Sys2Proof

theorem keeps_State_putRing {s₀ : State} (s : State) (p : Fin 16) (base room pos : Nat) (bs : List Byte) (k_s : s₀.Keeps s) :
    s₀.Keeps (State.putRing s p base room pos bs) := by
  unfold State.putRing
  repeat' (first | with_reducible assumption | extract_lets | with_reducible apply keeps_State_store_ | split | (dsimp only) | (dsimp +zetaDelta only))

theorem keeps_State_appendRecord {s₀ : State} (s : State) (p : Fin 16) (r : List Byte) (k_s : s₀.Keeps s) :
    s₀.Keeps (State.appendRecord s p r) := by
  unfold State.appendRecord
  repeat' (first | with_reducible assumption | exact id | extract_lets | with_reducible apply keeps_State_setPart | with_reducible apply keeps_State_store_ | with_reducible apply keeps_State_putRing | split | (dsimp only) | (dsimp +zetaDelta only) | with_reducible apply keeps_mk)

theorem keeps_State_endRecording {s₀ : State} (s : State) (p : Fin 16) (reason : Nat) (k_s : s₀.Keeps s) :
    s₀.Keeps (State.endRecording s p reason) := by
  unfold State.endRecording
  repeat' (first | with_reducible assumption | exact id | extract_lets | with_reducible apply keeps_State_modPart | with_reducible apply keeps_State_appendRecord | split | intro _ _ _ | intro _ | (dsimp only) | (dsimp +zetaDelta only) | with_reducible apply keeps_mk)

theorem keeps_State_recordSwatch {s₀ : State} (s : State) (p : Fin 16) (kind flags : Nat) (pick : Word) (body : List Byte) (k_s : s₀.Keeps s) :
    s₀.Keeps (State.recordSwatch s p kind flags pick body) := by
  unfold State.recordSwatch
  repeat' (first | with_reducible assumption | extract_lets | with_reducible apply keeps_State_setFld | with_reducible apply keeps_State_report | with_reducible apply keeps_State_appendRecord | with_reducible apply keeps_State_endRecording | split | (dsimp only))

theorem keeps_State_recordCloth {s₀ : State} (s : State) (p : Fin 16) (flags addr : Nat) (bs : List Byte) (fuel : Nat) (k_s : s₀.Keeps s) :
    s₀.Keeps (State.recordCloth s p flags addr bs fuel) := by
  induction fuel generalizing s addr bs with
  | zero => exact k_s
  | succ k ih =>
    unfold State.recordCloth
    split
    · exact k_s
    · apply ih
      exact keeps_State_recordSwatch _ _ _ _ _ _ k_s

theorem keeps_State_writeOutside {s₀ : State} (s : State) (p : Fin 16) (addr : Nat) (bs : List Byte) (k_s : s₀.Keeps s) :
    s₀.Keeps (State.writeOutside s p addr bs) := by
  unfold State.writeOutside
  repeat' (first | with_reducible assumption | extract_lets | with_reducible apply keeps_State_store_ | with_reducible apply keeps_State_recordCloth | (dsimp only))

theorem keeps_State_recordEntry {s₀ : State} (s : State) (p : Fin 16) (c : Fin 8) (queue : Nat) (e : QEntry) (k_s : s₀.Keeps s) :
    s₀.Keeps (State.recordEntry s p c queue e) := by
  unfold State.recordEntry
  repeat' (first | with_reducible assumption | extract_lets | with_reducible apply keeps_State_recordSwatch | (dsimp only))

end Sys2Proof.Machine
end

