-- ==== Sys2Proof/Laws/KeepsStore.lean ====
section
/-! SUPPORT. Sys2Proof/Laws/KeepsStore.lean: what the operations of Machine/Store.lean keep. -/

namespace Sys2Proof.Machine

open Sys2Proof

theorem keeps_State_storeReport {s₀ : State} (s : State) (code : Nat) (k_s : s₀.Keeps s) :
    s₀.Keeps (State.storeReport s code) := by
  unfold State.storeReport
  repeat' (first | with_reducible assumption | extract_lets | with_reducible apply keeps_State_report | (dsimp only))

theorem keeps_State_withStore {s₀ : State} (s : State) (k : StoreUnit) (k_s : s₀.Keeps s) :
    s₀.Keeps (State.withStore s k) := by
  unfold State.withStore
  repeat' (first | with_reducible assumption | exact id | extract_lets | with_reducible apply keeps_State_storeReport | split | (dsimp only) | (dsimp +zetaDelta only) | with_reducible apply keeps_mk)

theorem keeps_State_commit {s₀ : State} (s : State) (items : List StoreItem) (k_s : s₀.Keeps s) :
    s₀.Keeps (State.commit s items).1 := by
  unfold State.commit
  repeat' (first | with_reducible assumption | extract_lets | with_reducible apply keeps_State_storeReport | with_reducible apply keeps_State_withStore | split | (dsimp only))

theorem keeps_State_commit_eq {s₀ : State} (s : State) (items : List StoreItem) (k_s : s₀.Keeps s) {r₁ r₂} (e : (State.commit s items) = (r₁, r₂)) :
    s₀.Keeps r₁ := by
  have h₁ := keeps_State_commit s items k_s
  rw [e] at h₁
  exact h₁

theorem keeps_State_commit_ {s₀ : State} (s : State) (items : List StoreItem) (k_s : s₀.Keeps s) :
    s₀.Keeps (State.commit_ s items) := by
  unfold State.commit_
  repeat' (first | with_reducible assumption | extract_lets | with_reducible apply keeps_State_commit | with_reducible (refine keeps_State_commit_eq _ _ ?_ (by with_reducible assumption)) | (dsimp only))

theorem keeps_State_calibrate {s₀ : State} (s : State) (inst : Nat) (k_s : s₀.Keeps s) :
    s₀.Keeps (State.calibrate s inst) := by
  unfold State.calibrate
  repeat' (first | with_reducible assumption | extract_lets | with_reducible apply keeps_State_draw | with_reducible (refine keeps_State_draw_eq _ _ ?_ (by with_reducible assumption)) | with_reducible apply keeps_State_commit_ | split | (dsimp only) | (dsimp +zetaDelta only))

theorem keeps_State_commitAccounts {s₀ : State} (s : State) (rs : List (List Byte)) (k_s : s₀.Keeps s) :
    s₀.Keeps (State.commitAccounts s rs) := by
  unfold State.commitAccounts
  repeat' (first | with_reducible assumption | extract_lets | with_reducible apply keeps_State_commit_ | with_reducible apply keeps_foldl | split | intro _ _ _ | intro _ | (dsimp only) | (dsimp +zetaDelta only))

theorem keeps_execCompactionPass {s₀ : State} (s : State) (k_s : s₀.Keeps s) :
    ∃ t₁, (execCompactionPass s) = .next t₁ ∧ s₀.Keeps t₁ := by
  unfold execCompactionPass
  repeat' (first | exact ⟨_, rfl, by with_reducible assumption⟩ | split | (refine ⟨_, rfl, ?_⟩) | with_reducible assumption | extract_lets | with_reducible apply keeps_State_withStore | split | (dsimp only))

theorem keeps_execCompactionWindowEnd {s₀ : State} (s : State) (k_s : s₀.Keeps s) :
    ∃ t₁, (execCompactionWindowEnd s) = .next t₁ ∧ s₀.Keeps t₁ := by
  unfold execCompactionWindowEnd
  repeat' (first | exact ⟨_, rfl, by with_reducible assumption⟩ | split | (refine ⟨_, rfl, ?_⟩) | with_reducible assumption | extract_lets | with_reducible apply keeps_State_reportOnce | split | (dsimp only))

theorem keeps_State_scanStore {s₀ : State} (s : State) (flashError : Bool) (k_s : s₀.Keeps s) :
    s₀.Keeps (State.scanStore s flashError) := by
  unfold State.scanStore
  repeat' (first | with_reducible assumption | exact id | extract_lets | with_reducible apply keeps_State_draw | with_reducible (refine keeps_State_draw_eq _ _ ?_ (by with_reducible assumption)) | with_reducible apply keeps_State_storeReport | split | (dsimp only) | (dsimp +zetaDelta only) | with_reducible apply keeps_mk)

theorem keeps_State_chooseImage {s₀ : State} (s : State) (l : List Nat) (k_s : s₀.Keeps s) :
    s₀.Keeps (State.chooseImage s l).1 := by
  induction l generalizing s with
  | nil => exact k_s
  | cons i rest ih =>
    unfold State.chooseImage
    dsimp only
    split
    · exact k_s
    · apply ih
      apply keeps_State_storeReport
      split
      · exact k_s
      · exact keeps_State_report _ _ _ _ k_s

theorem keeps_State_chooseImage_eq {s₀ : State} (s : State) (l : List Nat) (k_s : s₀.Keeps s) {r₁ r₂} (e : (State.chooseImage s l) = (r₁, r₂)) :
    s₀.Keeps r₁ := by
  have h₁ := keeps_State_chooseImage s l k_s
  rw [e] at h₁
  exact h₁

theorem keeps_State_startImage {s₀ : State} (s : State) (k_s : s₀.Keeps s) :
    s₀.Keeps (State.startImage s).1 := by
  unfold State.startImage
  repeat' (first | with_reducible assumption | exact id | extract_lets | with_reducible apply keeps_State_commit_ | with_reducible apply keeps_State_chooseImage | with_reducible (refine keeps_State_chooseImage_eq _ _ ?_ (by with_reducible assumption)) | split | (dsimp only) | (dsimp +zetaDelta only) | with_reducible apply keeps_mk)

theorem keeps_State_startImage_eq {s₀ : State} (s : State) (k_s : s₀.Keeps s) {r₁ r₂} (e : (State.startImage s) = (r₁, r₂)) :
    s₀.Keeps r₁ := by
  have h₁ := keeps_State_startImage s k_s
  rw [e] at h₁
  exact h₁

theorem keeps_State_commitImage {s₀ : State} (s : State) (bs : List Byte) (k_s : s₀.Keeps s) :
    s₀.Keeps (State.commitImage s bs).1 := by
  unfold State.commitImage
  extract_lets run free old
  cases free with
  | some i => exact keeps_State_commit _ _ k_s
  | none =>
    cases old with
    | some i => exact keeps_State_commit _ _ k_s
    | none => exact k_s

theorem keeps_State_commitImage_eq {s₀ : State} (s : State) (bs : List Byte) (k_s : s₀.Keeps s) {r₁ r₂} (e : (State.commitImage s bs) = (r₁, r₂)) :
    s₀.Keeps r₁ := by
  have h₁ := keeps_State_commitImage s bs k_s
  rw [e] at h₁
  exact h₁

theorem keeps_State_burnFuses {s₀ : State} (s : State) (svn : Nat) (k_s : s₀.Keeps s) :
    s₀.Keeps (State.burnFuses s svn) := by
  unfold State.burnFuses
  split
  · exact k_s
  · next h =>
    apply keeps_State_commit_
    refine keeps_trans k_s { pending := rfl, beat := rfl, serial := rfl, stepping := rfl, burnt := fun b => ?_,
                             drawn := Nat.le_refl _, order := fun o => { o with }, past := id }
    show s.fuses.count ≤ min svn 127 ∧ min svn 127 ≤ 127
    omega

theorem keeps_State_confirmImage {s₀ : State} (s : State) (k_s : s₀.Keeps s) :
    s₀.Keeps (State.confirmImage s).1 := by
  unfold State.confirmImage
  repeat' (first | with_reducible assumption | exact id | extract_lets | with_reducible apply keeps_State_commit | with_reducible (refine keeps_State_commit_eq _ _ ?_ (by with_reducible assumption)) | with_reducible apply keeps_State_burnFuses | split | intro _ _ _ | intro _ | (dsimp only) | (dsimp +zetaDelta only) | with_reducible apply keeps_mk)

theorem keeps_State_confirmImage_eq {s₀ : State} (s : State) (k_s : s₀.Keeps s) {r₁ r₂} (e : (State.confirmImage s) = (r₁, r₂)) :
    s₀.Keeps r₁ := by
  have h₁ := keeps_State_confirmImage s k_s
  rw [e] at h₁
  exact h₁

end Sys2Proof.Machine
end

