-- ==== Sys2Proof/Laws/KeepsTiers.lean ====
section
/-! SUPPORT. Sys2Proof/Laws/KeepsTiers.lean: what the operations of Machine/Tiers.lean keep. -/

namespace Sys2Proof.Machine

open Sys2Proof

theorem keeps_execSecdedCorrected {s₀ : State} (at_ : EccPlace) (s : State) (k_s : s₀.Keeps s) (hok : at_.inRange = true) :
    ∃ t₁, (execSecdedCorrected at_ s) = .next t₁ ∧ s₀.Keeps t₁ := by
  unfold execSecdedCorrected
  rw [hok]
  refine ⟨_, rfl, ?_⟩
  dsimp only
  split
  · repeat' (first | with_reducible assumption | apply keeps_State_reportOnce | apply keeps_State_setFld | apply keeps_State_bump)
  · repeat' (first | with_reducible assumption | apply keeps_State_reportOnce | apply keeps_State_setFld | apply keeps_State_bump)
  · exact k_s
  · repeat' (first | with_reducible assumption | apply keeps_State_reportFirst | apply keeps_State_setFld | apply keeps_State_bump)
  · repeat' (first | with_reducible assumption | apply keeps_State_reportFirst | apply keeps_State_setFld | apply keeps_State_bump)

theorem keeps_execSecdedUncorrectable {s₀ : State} (at_ : EccPlace) (s : State) (k_s : s₀.Keeps s) (hok : at_.inRange = true) :
    ∃ t₁, (execSecdedUncorrectable at_ s) = .next t₁ ∧ s₀.Keeps t₁ := by
  unfold execSecdedUncorrectable
  simp only [hok, Bool.not_true, Bool.false_eq_true, if_false]
  repeat' (first | exact ⟨_, rfl, by with_reducible assumption⟩ | split | (refine ⟨_, rfl, ?_⟩) | with_reducible assumption | exact id | exact fun h => Memory.Ok.keep h _ _ | extract_lets | with_reducible apply keeps_State_setFld | with_reducible apply keeps_State_bump | with_reducible apply keeps_State_report | with_reducible apply keeps_State_setBlockBad | with_reducible apply keeps_State_loomCheckFails | split | intro _ _ _ | intro _ | (dsimp only) | (dsimp +zetaDelta only) | with_reducible apply keeps_mk)

theorem keeps_State_evacStatus {s₀ : State} (s : State) (k : Fin 32) (status remaining : Nat) (k_s : s₀.Keeps s) :
    s₀.Keeps (State.evacStatus s k status remaining) := by
  unfold State.evacStatus
  repeat' (first | with_reducible assumption | extract_lets | with_reducible apply keeps_State_setFld | (dsimp only))

theorem keeps_State_evacRefused {s₀ : State} (s : State) (k : Fin 32) (k_s : s₀.Keeps s) :
    s₀.Keeps (State.evacRefused s k) := by
  unfold State.evacRefused
  repeat' (first | with_reducible assumption | extract_lets | with_reducible apply keeps_State_report | with_reducible apply keeps_State_evacStatus | (dsimp only))

theorem keeps_State_startMoves {s₀ : State} (s : State) (k : Fin 32) (during after n : Nat) (k_s : s₀.Keeps s) :
    s₀.Keeps (State.startMoves s k during after n) := by
  unfold State.startMoves
  repeat' (first | with_reducible assumption | exact id | extract_lets | with_reducible apply keeps_State_setStack | with_reducible apply keeps_State_evacStatus | split | (dsimp only) | (dsimp +zetaDelta only) | with_reducible apply keeps_mk)

theorem keeps_State_writeEvac {s₀ : State} (s : State) (m : Fin 8) (v : Word) (k_s : s₀.Keeps s) :
    s₀.Keeps (State.writeEvac s m v) := by
  unfold State.writeEvac
  repeat' (first | with_reducible assumption | exact id | extract_lets | with_reducible apply keeps_State_setStack | with_reducible apply keeps_State_setFld | with_reducible apply keeps_State_evacStatus | with_reducible apply keeps_State_evacRefused | with_reducible apply keeps_State_startMoves | split | (dsimp only) | (dsimp +zetaDelta only) | with_reducible apply keeps_mk)

theorem keeps_execEvacuationGranuleMove {s₀ : State} (mill : Fin 8) (crcOk : Bool) (s : State) (k_s : s₀.Keeps s) :
    ∃ t₁, (execEvacuationGranuleMove mill crcOk s) = .next t₁ ∧ s₀.Keeps t₁ := by
  unfold execEvacuationGranuleMove
  repeat' (first | exact ⟨_, rfl, by with_reducible assumption⟩ | split | (refine ⟨_, rfl, ?_⟩) | with_reducible assumption | exact id | extract_lets | with_reducible apply keeps_State_setStack | with_reducible apply keeps_State_report | with_reducible apply keeps_State_evacStatus | split | (dsimp only) | (dsimp +zetaDelta only) | with_reducible apply keeps_mk)

theorem keeps_execStackFailure {s₀ : State} (stack : Fin 32) (s : State) (k_s : s₀.Keeps s) :
    ∃ t₁, (execStackFailure stack s) = .next t₁ ∧ s₀.Keeps t₁ := by
  unfold execStackFailure
  repeat' (first | exact ⟨_, rfl, by with_reducible assumption⟩ | split | (refine ⟨_, rfl, ?_⟩) | with_reducible assumption | exact id | extract_lets | with_reducible apply keeps_State_setStack | with_reducible apply keeps_State_report | split | (dsimp only) | (dsimp +zetaDelta only) | with_reducible apply keeps_mk)

theorem keeps_execStackRecalibrationComplete {s₀ : State} (stack : Fin 32) (ok : Bool) (s : State) (k_s : s₀.Keeps s) :
    ∃ t₁, (execStackRecalibrationComplete stack ok s) = .next t₁ ∧ s₀.Keeps t₁ := by
  unfold execStackRecalibrationComplete
  repeat' (first | exact ⟨_, rfl, by with_reducible assumption⟩ | split | (refine ⟨_, rfl, ?_⟩) | with_reducible assumption | exact id | extract_lets | with_reducible apply keeps_State_setStack | with_reducible apply keeps_State_report | with_reducible apply keeps_State_calibrate | with_reducible apply keeps_State_evacStatus | split | (dsimp only) | (dsimp +zetaDelta only) | with_reducible apply keeps_mk)

theorem keeps_execStagingComplete {s₀ : State} (p : Fin 16) (page : BitVec 27) (s : State) (k_s : s₀.Keeps s) :
    ∃ t₁, (execStagingComplete p page s) = .next t₁ ∧ s₀.Keeps t₁ := by
  unfold execStagingComplete
  repeat' (first | exact ⟨_, rfl, by with_reducible assumption⟩ | split | (refine ⟨_, rfl, ?_⟩) | with_reducible assumption | extract_lets | with_reducible apply keeps_State_staged | split | (dsimp only))

theorem keeps_State_farStatus {s₀ : State} (s : State) (status remaining : Nat) (k_s : s₀.Keeps s) :
    s₀.Keeps (State.farStatus s status remaining) := by
  unfold State.farStatus
  repeat' (first | with_reducible assumption | extract_lets | with_reducible apply keeps_State_setFld | (dsimp only))

theorem keeps_State_noteFlush {s₀ : State} (s : State) (k_s : s₀.Keeps s) :
    s₀.Keeps (State.noteFlush s) := by
  unfold State.noteFlush
  repeat' (first | with_reducible assumption | exact id | extract_lets | with_reducible apply keeps_State_farStatus | split | intro _ _ _ | intro _ | (dsimp only) | (dsimp +zetaDelta only) | with_reducible apply keeps_mk)

theorem keeps_execWriteBackComplete {s₀ : State} (p : Fin 16) (page : BitVec 27) (s : State) (k_s : s₀.Keeps s) :
    ∃ t₁, (execWriteBackComplete p page s) = .next t₁ ∧ s₀.Keeps t₁ := by
  unfold execWriteBackComplete
  repeat' (first | exact ⟨_, rfl, by with_reducible assumption⟩ | split | (refine ⟨_, rfl, ?_⟩) | with_reducible assumption | extract_lets | with_reducible apply keeps_State_bump | with_reducible apply keeps_Here_writing | with_reducible apply keeps_State_modPage | with_reducible apply keeps_State_noteFlush | split | (dsimp only))

theorem keeps_State_farLost {s₀ : State} (s : State) (n : Fin 4) (k_s : s₀.Keeps s) :
    s₀.Keeps (State.farLost s n) := by
  unfold State.farLost
  repeat' (first | with_reducible assumption | exact id | extract_lets | with_reducible apply keeps_State_setFarPort | with_reducible apply keeps_State_report | with_reducible apply keeps_State_farStatus | split | (dsimp only) | (dsimp +zetaDelta only) | with_reducible apply keeps_mk)

theorem keeps_execWriteBackFailure {s₀ : State} (p : Fin 16) (page : BitVec 27) (s : State) (k_s : s₀.Keeps s) :
    ∃ t₁, (execWriteBackFailure p page s) = .next t₁ ∧ s₀.Keeps t₁ := by
  unfold execWriteBackFailure
  repeat' (first | exact ⟨_, rfl, by with_reducible assumption⟩ | split | (refine ⟨_, rfl, ?_⟩) | with_reducible assumption | extract_lets | with_reducible apply keeps_State_bump | with_reducible apply keeps_State_report | with_reducible apply keeps_Here_writing | with_reducible apply keeps_State_modPage | with_reducible apply keeps_State_farLost | split | (dsimp only) | (dsimp +zetaDelta only))

theorem keeps_State_retryWriteBacks {s₀ : State} (s : State) (k_s : s₀.Keeps s) :
    s₀.Keeps (State.retryWriteBacks s) := by
  unfold State.retryWriteBacks
  repeat' (first | with_reducible assumption | extract_lets | with_reducible apply keeps_Here_writing | with_reducible apply keeps_State_writeBack | with_reducible apply keeps_foldl | split | intro _ _ _ | intro _ | (dsimp only) | (dsimp +zetaDelta only))

theorem keeps_State_farRefused {s₀ : State} (s : State) (n : Fin 4) (k_s : s₀.Keeps s) :
    s₀.Keeps (State.farRefused s n) := by
  unfold State.farRefused
  repeat' (first | with_reducible assumption | extract_lets | with_reducible apply keeps_State_report | with_reducible apply keeps_State_farStatus | (dsimp only))

theorem keeps_State_removable {s₀ : State} (s : State) (n : Fin 4) (k_s : s₀.Keeps s) :
    s₀.Keeps (State.removable s n) := by
  unfold State.removable
  repeat' (first | with_reducible assumption | exact id | extract_lets | with_reducible apply keeps_State_setFarPort | with_reducible apply keeps_State_farStatus | (dsimp only) | (dsimp +zetaDelta only) | with_reducible apply keeps_mk)

theorem keeps_State_flush {s₀ : State} (s : State) (k_s : s₀.Keeps s) :
    s₀.Keeps (State.flush s) := by
  unfold State.flush
  repeat' (first | with_reducible assumption | exact id | extract_lets | with_reducible apply keeps_Here_writing | with_reducible apply keeps_State_modPage | with_reducible apply keeps_State_writeBack | with_reducible apply keeps_State_noteFlush | with_reducible apply keeps_foldl | intro _ _ _ | intro _ | (dsimp only) | (dsimp +zetaDelta only) | with_reducible apply keeps_mk)

theorem keeps_State_writeFarCmd {s₀ : State} (s : State) (v : Word) (k_s : s₀.Keeps s) :
    s₀.Keeps (State.writeFarCmd s v) := by
  unfold State.writeFarCmd
  repeat' (first | with_reducible assumption | exact id | extract_lets | with_reducible apply keeps_State_setFarPort | with_reducible apply keeps_State_setFld | with_reducible apply keeps_State_farStatus | with_reducible apply keeps_State_farRefused | with_reducible apply keeps_State_removable | with_reducible apply keeps_State_flush | with_reducible apply keeps_foldl | split | intro _ _ _ | intro _ | (dsimp only) | (dsimp +zetaDelta only) | with_reducible apply keeps_mk)

theorem keeps_execFarPageMove {s₀ : State} (port : Fin 4) (s : State) (k_s : s₀.Keeps s) :
    ∃ t₁, (execFarPageMove port s) = .next t₁ ∧ s₀.Keeps t₁ := by
  unfold execFarPageMove
  repeat' (first | exact ⟨_, rfl, by with_reducible assumption⟩ | split | (refine ⟨_, rfl, ?_⟩) | with_reducible assumption | exact id | extract_lets | with_reducible apply keeps_State_bump | with_reducible apply keeps_Here_writing | with_reducible apply keeps_State_modPage | with_reducible apply keeps_State_staged | with_reducible apply keeps_State_farStatus | with_reducible apply keeps_State_removable | split | intro _ _ _ | intro _ | (dsimp only) | (dsimp +zetaDelta only) | with_reducible apply keeps_mk)

theorem keeps_execPerstRelease {s₀ : State} (port : Fin 4) (s : State) (k_s : s₀.Keeps s) :
    ∃ t₁, (execPerstRelease port s) = .next t₁ ∧ s₀.Keeps t₁ := by
  unfold execPerstRelease
  repeat' (first | exact ⟨_, rfl, by with_reducible assumption⟩ | split | (refine ⟨_, rfl, ?_⟩) | with_reducible assumption | exact id | extract_lets | with_reducible apply keeps_State_setFarPort | split | (dsimp only) | (dsimp +zetaDelta only) | with_reducible apply keeps_mk)

theorem keeps_execFarPortTrained {s₀ : State} (port : Fin 4) (ok : Bool) (gib : BitVec 13) (s : State) (k_s : s₀.Keeps s) :
    ∃ t₁, (execFarPortTrained port ok gib s) = .next t₁ ∧ s₀.Keeps t₁ := by
  unfold execFarPortTrained
  repeat' (first | exact ⟨_, rfl, by with_reducible assumption⟩ | split | (refine ⟨_, rfl, ?_⟩) | with_reducible assumption | exact id | extract_lets | with_reducible apply keeps_State_setFarPort | with_reducible apply keeps_State_calibrate | with_reducible apply keeps_State_farStatus | split | (dsimp only) | (dsimp +zetaDelta only) | with_reducible apply keeps_mk)

theorem keeps_execFarDeviceLost {s₀ : State} (port : Fin 4) (s : State) (k_s : s₀.Keeps s) :
    ∃ t₁, (execFarDeviceLost port s) = .next t₁ ∧ s₀.Keeps t₁ := by
  unfold execFarDeviceLost
  repeat' (first | exact ⟨_, rfl, by with_reducible assumption⟩ | split | (refine ⟨_, rfl, ?_⟩) | with_reducible assumption | extract_lets | with_reducible apply keeps_State_farLost | split | (dsimp only))

theorem keeps_execFarDevicePresenceChange {s₀ : State} (port : Fin 4) (present : Bool) (s : State) (k_s : s₀.Keeps s) :
    ∃ t₁, (execFarDevicePresenceChange port present s) = .next t₁ ∧ s₀.Keeps t₁ := by
  unfold execFarDevicePresenceChange
  repeat' (first | exact ⟨_, rfl, by with_reducible assumption⟩ | split | (refine ⟨_, rfl, ?_⟩) | with_reducible assumption | exact id | extract_lets | with_reducible apply keeps_State_setFarPort | with_reducible apply keeps_State_farLost | split | (dsimp only) | (dsimp +zetaDelta only) | with_reducible apply keeps_mk)

end Sys2Proof.Machine
end

