-- ==== Sys2Proof/Laws/KeepsLinks.lean ====
section
/-! SUPPORT. Sys2Proof/Laws/KeepsLinks.lean: what the operations of Machine/Links.lean keep. -/

namespace Sys2Proof.Machine

open Sys2Proof

theorem keeps_State_linkReport {s₀ : State} (s : State) (i : Fin 96) (code lane : Nat) (k_s : s₀.Keeps s) :
    s₀.Keeps (State.linkReport s i code lane) := by
  unfold State.linkReport
  repeat' (first | with_reducible assumption | extract_lets | with_reducible apply keeps_State_report | (dsimp only))

theorem keeps_State_setLaneFault {s₀ : State} (s : State) (i : Fin 96) (k_s : s₀.Keeps s) :
    s₀.Keeps (State.setLaneFault s i) := by
  unfold State.setLaneFault
  repeat' (first | with_reducible assumption | extract_lets | with_reducible apply keeps_State_setFld | split | (dsimp only) | (dsimp +zetaDelta only))

theorem keeps_State_narrow {s₀ : State} (s : State) (i : Fin 96) (k : Link) (k_s : s₀.Keeps s) :
    s₀.Keeps (State.narrow s i k) := by
  unfold State.narrow
  repeat' (first | with_reducible assumption | exact id | extract_lets | with_reducible apply keeps_State_setLink | with_reducible apply keeps_State_linkReport | with_reducible apply keeps_State_setLaneFault | split | (dsimp only) | (dsimp +zetaDelta only) | with_reducible apply keeps_mk)

theorem keeps_execLaneFailure {s₀ : State} (link : Fin 96) (lane : Fin 64) (s : State) (k_s : s₀.Keeps s) :
    ∃ t₁, (execLaneFailure link lane s) = .next t₁ ∧ s₀.Keeps t₁ := by
  unfold execLaneFailure
  repeat' (first | exact ⟨_, rfl, by with_reducible assumption⟩ | split | (refine ⟨_, rfl, ?_⟩) | with_reducible assumption | exact id | extract_lets | with_reducible apply keeps_State_setLink | with_reducible apply keeps_State_setLaneFault | with_reducible apply keeps_State_narrow | split | (dsimp only) | (dsimp +zetaDelta only) | with_reducible apply keeps_mk)

theorem keeps_execRetryLimitReached {s₀ : State} (link : Fin 96) (s : State) (k_s : s₀.Keeps s) :
    ∃ t₁, (execRetryLimitReached link s) = .next t₁ ∧ s₀.Keeps t₁ := by
  unfold execRetryLimitReached
  repeat' (first | exact ⟨_, rfl, by with_reducible assumption⟩ | split | (refine ⟨_, rfl, ?_⟩) | with_reducible assumption | exact id | extract_lets | with_reducible apply keeps_State_setLink | with_reducible apply keeps_State_linkReport | split | (dsimp only) | (dsimp +zetaDelta only) | with_reducible apply keeps_mk)

theorem keeps_State_creditBreach {s₀ : State} (s : State) (f : Flit) (k_s : s₀.Keeps s) :
    s₀.Keeps (State.creditBreach s f) := by
  unfold State.creditBreach
  repeat' (first | with_reducible assumption | extract_lets | with_reducible apply keeps_State_report | with_reducible apply keeps_State_linkReport | split | (dsimp only))

theorem keeps_State_deliver {s₀ : State} (s : State) (f : Flit) (k_s : s₀.Keeps s) :
    s₀.Keeps (State.deliver s f) := by
  unfold State.deliver
  repeat' (first | with_reducible assumption | exact id | extract_lets | with_reducible apply keeps_State_setLink | with_reducible apply keeps_State_creditBreach | split | (dsimp only) | (dsimp +zetaDelta only) | with_reducible apply keeps_mk)

theorem keeps_State_countRetry {s₀ : State} (s : State) (f : Flit) (k_s : s₀.Keeps s) :
    s₀.Keeps (State.countRetry s f) := by
  unfold State.countRetry
  repeat' (first | with_reducible assumption | extract_lets | with_reducible apply keeps_State_bump | split | (dsimp only))

theorem keeps_execFlitReceived {s₀ : State} (f : Flit) (s : State) (k_s : s₀.Keeps s) :
    ∃ t₁, (execFlitReceived f s) = .next t₁ ∧ s₀.Keeps t₁ := by
  unfold execFlitReceived
  repeat' (first | exact ⟨_, rfl, by with_reducible assumption⟩ | split | (refine ⟨_, rfl, ?_⟩) | with_reducible assumption | exact id | extract_lets | with_reducible apply keeps_State_setLink | with_reducible apply keeps_State_deliver | with_reducible apply keeps_State_countRetry | split | (dsimp only) | (dsimp +zetaDelta only) | with_reducible apply keeps_mk)

theorem keeps_State_release {s₀ : State} (s : State) (i : Fin 96) (k_s : s₀.Keeps s) :
    s₀.Keeps (State.release s i) := by
  unfold State.release
  repeat' (first | with_reducible assumption | exact id | extract_lets | with_reducible apply keeps_State_setLink | with_reducible apply keeps_State_deliver | with_reducible apply keeps_foldl | intro _ _ _ | intro _ | (dsimp only) | (dsimp +zetaDelta only) | with_reducible apply keeps_mk)

theorem keeps_execLinkRetrainingComplete {s₀ : State} (link : Fin 96) (out : RetrainOutcome) (s : State) (k_s : s₀.Keeps s) (hok : out ≠ .lanes []) :
    ∃ t₁, (execLinkRetrainingComplete link out s) = .next t₁ ∧ s₀.Keeps t₁ := by
  unfold execLinkRetrainingComplete
  extract_lets k k₂
  rw [if_neg hok]
  split
  · exact ⟨_, rfl, k_s⟩
  · split
    · exact ⟨_, rfl, keeps_State_answerWaiting _ _ (keeps_State_calibrate _ _ (keeps_State_release _ _ (keeps_State_setLink _ _ _ k_s)))⟩
    · exact ⟨_, rfl, keeps_State_answerWaiting _ _ (keeps_State_calibrate _ _ (keeps_State_release _ _ (keeps_State_narrow _ _ _ k_s)))⟩
    · exact ⟨_, rfl, keeps_State_answerWaiting _ _ (keeps_State_linkReport _ _ _ _ (keeps_State_setLink _ _ _ k_s))⟩

theorem keeps_execSidebandHeartbeatLoss {s₀ : State} (mill : Fin 8) (s : State) (k_s : s₀.Keeps s) :
    ∃ t₁, (execSidebandHeartbeatLoss mill s) = .next t₁ ∧ s₀.Keeps t₁ := by
  unfold execSidebandHeartbeatLoss
  repeat' (first | exact ⟨_, rfl, by with_reducible assumption⟩ | split | (refine ⟨_, rfl, ?_⟩) | with_reducible assumption | extract_lets | with_reducible apply keeps_State_setLink | with_reducible apply keeps_State_report | with_reducible apply keeps_State_answerWaiting | with_reducible apply keeps_foldl | intro _ _ _ | intro _ | (dsimp only) | (dsimp +zetaDelta only))

end Sys2Proof.Machine
end

