-- ==== Sys2Proof/Laws/KeepsService.lean ====
section
/-! SUPPORT. Sys2Proof/Laws/KeepsService.lean: what the operations of Machine/Service.lean keep. -/

namespace Sys2Proof.Machine

open Sys2Proof

theorem keeps_execFwBegin {s₀ : State} (m : Msg) (s : State) (k_s : s₀.Keeps s) :
    ∃ t₁, (execFwBegin m s) = .next t₁ ∧ s₀.Keeps t₁ := by
  unfold execFwBegin
  repeat' (first | exact ⟨_, rfl, by with_reducible assumption⟩ | split | (refine ⟨_, rfl, ?_⟩) | with_reducible assumption | exact id | extract_lets | with_reducible apply keeps_State_septa | split | intro _ _ _ | intro _ | (dsimp only) | with_reducible apply keeps_mk)

theorem keeps_execFwData {s₀ : State} (m : Msg) (s : State) (k_s : s₀.Keeps s) :
    ∃ t₁, (execFwData m s) = .next t₁ ∧ s₀.Keeps t₁ := by
  unfold execFwData
  repeat' (first | exact ⟨_, rfl, by with_reducible assumption⟩ | split | (refine ⟨_, rfl, ?_⟩) | with_reducible assumption | exact id | extract_lets | with_reducible apply keeps_State_septa | split | intro _ _ _ | intro _ | (dsimp only) | with_reducible apply keeps_mk)

theorem keeps_execFwEnd {s₀ : State} (m : Msg) (s : State) (k_s : s₀.Keeps s) :
    ∃ t₁, (execFwEnd m s) = .next t₁ ∧ s₀.Keeps t₁ := by
  unfold execFwEnd
  repeat' (first | exact ⟨_, rfl, by with_reducible assumption⟩ | split | (refine ⟨_, rfl, ?_⟩) | with_reducible assumption | exact id | extract_lets | with_reducible apply keeps_State_count | with_reducible apply keeps_State_report | with_reducible apply keeps_State_septa | with_reducible apply keeps_State_commitImage | with_reducible (refine keeps_State_commitImage_eq _ _ ?_ (by with_reducible assumption)) | split | intro _ _ _ | intro _ | (dsimp only) | (dsimp +zetaDelta only) | with_reducible apply keeps_mk)

theorem keeps_State_restartFirmware {s₀ : State} (s : State) (k_s : s₀.Keeps s) :
    s₀.Keeps (State.restartFirmware s) := by
  unfold State.restartFirmware
  repeat' (first | with_reducible assumption | extract_lets | with_reducible apply keeps_State_setFld | with_reducible apply keeps_State_startImage | with_reducible (refine keeps_State_startImage_eq _ ?_ (by with_reducible assumption)) | split | (dsimp only) | (dsimp +zetaDelta only))

theorem keeps_execFwRestart {s₀ : State} (m : Msg) (s : State) (k_s : s₀.Keeps s) :
    ∃ t₁, (execFwRestart m s) = .next t₁ ∧ s₀.Keeps t₁ := by
  unfold execFwRestart
  repeat' (first | exact ⟨_, rfl, by with_reducible assumption⟩ | split | (refine ⟨_, rfl, ?_⟩) | with_reducible assumption | extract_lets | with_reducible apply keeps_State_septa | with_reducible apply keeps_State_restartFirmware | split | intro _ _ _ | intro _ | (dsimp only))

theorem keeps_execFwConfirm {s₀ : State} (m : Msg) (s : State) (k_s : s₀.Keeps s) :
    ∃ t₁, (execFwConfirm m s) = .next t₁ ∧ s₀.Keeps t₁ := by
  unfold execFwConfirm
  repeat' (first | exact ⟨_, rfl, by with_reducible assumption⟩ | split | (refine ⟨_, rfl, ?_⟩) | with_reducible assumption | extract_lets | with_reducible apply keeps_State_septa | with_reducible apply keeps_State_confirmImage | with_reducible (refine keeps_State_confirmImage_eq _ ?_ (by with_reducible assumption)) | split | intro _ _ _ | intro _ | (dsimp only) | (dsimp +zetaDelta only))

theorem keeps_execMgmtWatchdogExpiry {s₀ : State} (s : State) (k_s : s₀.Keeps s) :
    ∃ t₁, (execMgmtWatchdogExpiry s) = .next t₁ ∧ s₀.Keeps t₁ := by
  unfold execMgmtWatchdogExpiry
  repeat' (first | exact ⟨_, rfl, by with_reducible assumption⟩ | split | (refine ⟨_, rfl, ?_⟩) | with_reducible assumption | extract_lets | with_reducible apply keeps_State_restartFirmware | split | (dsimp only))

theorem keeps_execNetSave {s₀ : State} (m : Msg) (s : State) (k_s : s₀.Keeps s) :
    ∃ t₁, (execNetSave m s) = .next t₁ ∧ s₀.Keeps t₁ := by
  unfold execNetSave
  repeat' (first | exact ⟨_, rfl, by with_reducible assumption⟩ | split | (refine ⟨_, rfl, ?_⟩) | with_reducible assumption | extract_lets | with_reducible apply keeps_State_septa | with_reducible apply keeps_State_commit | with_reducible (refine keeps_State_commit_eq _ _ ?_ (by with_reducible assumption)) | split | intro _ _ _ | intro _ | (dsimp only) | (dsimp +zetaDelta only))

theorem keeps_execAcctRead {s₀ : State} (m : Msg) (s : State) (k_s : s₀.Keeps s) :
    ∃ t₁, (execAcctRead m s) = .next t₁ ∧ s₀.Keeps t₁ := by
  unfold execAcctRead
  repeat' (first | exact ⟨_, rfl, by with_reducible assumption⟩ | split | (refine ⟨_, rfl, ?_⟩) | with_reducible assumption | extract_lets | with_reducible apply keeps_State_septa | split | intro _ _ _ | intro _ | (dsimp only) | (dsimp +zetaDelta only))

theorem keeps_execFence {s₀ : State} (m : Msg) (s : State) (k_s : s₀.Keeps s) :
    ∃ t₁, (execFence m s) = .next t₁ ∧ s₀.Keeps t₁ := by
  unfold execFence
  repeat' (first | exact ⟨_, rfl, by with_reducible assumption⟩ | split | (refine ⟨_, rfl, ?_⟩) | with_reducible assumption | extract_lets | with_reducible apply keeps_State_septa | with_reducible apply keeps_State_staged | split | intro _ _ _ | intro _ | (dsimp only))

theorem keeps_execUnfence {s₀ : State} (m : Msg) (s : State) (k_s : s₀.Keeps s) :
    ∃ t₁, (execUnfence m s) = .next t₁ ∧ s₀.Keeps t₁ := by
  unfold execUnfence
  repeat' (first | exact ⟨_, rfl, by with_reducible assumption⟩ | split | (refine ⟨_, rfl, ?_⟩) | with_reducible assumption | extract_lets | with_reducible apply keeps_State_septa | with_reducible apply keeps_State_staged | split | intro _ _ _ | intro _ | (dsimp only))

theorem keeps_State_applyFence {s₀ : State} (s : State) (r : Staged) (on : Bool) (k_s : s₀.Keeps s) :
    s₀.Keeps (State.applyFence s r on).1 := by
  unfold State.applyFence
  repeat' (first | with_reducible assumption | extract_lets | with_reducible apply keeps_State_commit | with_reducible (refine keeps_State_commit_eq _ _ ?_ (by with_reducible assumption)) | split | (dsimp only) | (dsimp +zetaDelta only))

theorem keeps_State_applyFence_eq {s₀ : State} (s : State) (r : Staged) (on : Bool) (k_s : s₀.Keeps s) {r₁ r₂} (e : (State.applyFence s r on) = (r₁, r₂)) :
    s₀.Keeps r₁ := by
  have h₁ := keeps_State_applyFence s r on k_s
  rw [e] at h₁
  exact h₁

theorem keeps_execLinkRetrain {s₀ : State} (m : Msg) (s : State) (k_s : s₀.Keeps s) :
    ∃ t₁, (execLinkRetrain m s) = .next t₁ ∧ s₀.Keeps t₁ := by
  unfold execLinkRetrain
  repeat' (first | exact ⟨_, rfl, by with_reducible assumption⟩ | split | (refine ⟨_, rfl, ?_⟩) | with_reducible assumption | exact id | extract_lets | with_reducible apply keeps_State_setLink | with_reducible apply keeps_State_septa | split | intro _ _ _ | intro _ | (dsimp only) | (dsimp +zetaDelta only) | with_reducible apply keeps_mk)

theorem keeps_execStoreCompactNow {s₀ : State} (m : Msg) (s : State) (k_s : s₀.Keeps s) :
    ∃ t₁, (execStoreCompactNow m s) = .next t₁ ∧ s₀.Keeps t₁ := by
  unfold execStoreCompactNow
  repeat' (first | exact ⟨_, rfl, by with_reducible assumption⟩ | split | (refine ⟨_, rfl, ?_⟩) | with_reducible assumption | exact id | extract_lets | with_reducible apply keeps_State_septa | intro _ _ _ | intro _ | (dsimp only) | with_reducible apply keeps_mk)

theorem keeps_State_drawBytes {s₀ : State} (s : State) (n : Nat) (k_s : s₀.Keeps s) :
    s₀.Keeps (State.drawBytes s n).2 := by
  have h : ∀ (l : List Nat) (r : List Byte × State), s₀.Keeps r.2 →
      s₀.Keeps (l.foldl (fun (r : List Byte × State) _ => let (v, s) := r.2.draw 8; (r.1 ++ [v], s)) r).2 := by
    intro l
    induction l with
    | nil => exact fun r k => k
    | cons a rest ih => exact fun r k => ih _ (keeps_State_draw _ 8 k)
  exact h _ _ k_s

theorem keeps_State_drawBytes_eq {s₀ : State} (s : State) (n : Nat) (k_s : s₀.Keeps s) {r₁ r₂} (e : (State.drawBytes s n) = (r₁, r₂)) :
    s₀.Keeps r₂ := by
  have h₁ := keeps_State_drawBytes s n k_s
  rw [e] at h₁
  exact h₁

theorem keeps_State_telemetryBlock {s₀ : State} (s : State) (i : Nat) (k_s : s₀.Keeps s) :
    s₀.Keeps (State.telemetryBlock s i).2 := by
  unfold State.telemetryBlock
  repeat' (first | with_reducible assumption | extract_lets | with_reducible apply keeps_State_draw | with_reducible (refine keeps_State_draw_eq _ _ ?_ (by with_reducible assumption)) | with_reducible apply keeps_State_drawBytes | with_reducible (refine keeps_State_drawBytes_eq _ _ ?_ (by with_reducible assumption)) | with_reducible apply keeps_foldl | split | intro _ _ _ | intro _ | (dsimp only) | (dsimp +zetaDelta only))

theorem keeps_State_telemetryBlock_eq {s₀ : State} (s : State) (i : Nat) (k_s : s₀.Keeps s) {r₁ r₂} (e : (State.telemetryBlock s i) = (r₁, r₂)) :
    s₀.Keeps r₂ := by
  have h₁ := keeps_State_telemetryBlock s i k_s
  rw [e] at h₁
  exact h₁

theorem keeps_State_sampleTelemetry {s₀ : State} (s : State) (k_s : s₀.Keeps s) :
    s₀.Keeps (State.sampleTelemetry s) := by
  have h : ∀ (l : List Nat) (r : List Byte × State), s₀.Keeps r.2 →
      s₀.Keeps (l.foldl (fun (r : List Byte × State) i => let (b, s) := r.2.telemetryBlock i; (r.1 ++ b, s)) r).2 := by
    intro l
    induction l with
    | nil => exact fun r k => k
    | cons a rest ih => exact fun r k => ih _ (keeps_State_telemetryBlock _ a k)
  exact keeps_mk (h ((List.range 6).filter (fun i => s.tele.mask.getLsbD i)) ([], s) k_s) _ _ _ _ _ _ _ _ _ _ _

theorem keeps_execTelemetryRead {s₀ : State} (m : Msg) (s : State) (k_s : s₀.Keeps s) :
    ∃ t₁, (execTelemetryRead m s) = .next t₁ ∧ s₀.Keeps t₁ := by
  unfold execTelemetryRead
  repeat' (first | exact ⟨_, rfl, by with_reducible assumption⟩ | split | (refine ⟨_, rfl, ?_⟩) | with_reducible assumption | extract_lets | with_reducible apply keeps_State_septa | split | intro _ _ _ | intro _ | (dsimp only))

end Sys2Proof.Machine
end

