-- ==== Sys2Proof/Laws/KeepsArming.lean ====
section
/-! SUPPORT. Sys2Proof/Laws/KeepsArming.lean: what the operations of Machine/Arming.lean keep. -/

namespace Sys2Proof.Machine

open Sys2Proof

theorem keeps_execSwatchArm {s₀ : State} (m : Msg) (s : State) (k_s : s₀.Keeps s) :
    ∃ t₁, (execSwatchArm m s) = .next t₁ ∧ s₀.Keeps t₁ := by
  unfold execSwatchArm
  repeat' (first | exact ⟨_, rfl, by with_reducible assumption⟩ | split | (refine ⟨_, rfl, ?_⟩) | with_reducible assumption | exact id | extract_lets | with_reducible apply keeps_State_count | with_reducible apply keeps_State_septa | split | intro _ _ _ | intro _ | (dsimp only) | (dsimp +zetaDelta only) | with_reducible apply keeps_mk)

theorem keeps_execSwatchDisarm {s₀ : State} (m : Msg) (s : State) (k_s : s₀.Keeps s) :
    ∃ t₁, (execSwatchDisarm m s) = .next t₁ ∧ s₀.Keeps t₁ := by
  unfold execSwatchDisarm
  repeat' (first | exact ⟨_, rfl, by with_reducible assumption⟩ | split | (refine ⟨_, rfl, ?_⟩) | with_reducible assumption | exact id | extract_lets | with_reducible apply keeps_State_septa | split | intro _ _ _ | intro _ | (dsimp only) | with_reducible apply keeps_mk)

theorem keeps_execSwatchStop {s₀ : State} (m : Msg) (s : State) (k_s : s₀.Keeps s) :
    ∃ t₁, (execSwatchStop m s) = .next t₁ ∧ s₀.Keeps t₁ := by
  unfold execSwatchStop
  repeat' (first | exact ⟨_, rfl, by with_reducible assumption⟩ | split | (refine ⟨_, rfl, ?_⟩) | with_reducible assumption | extract_lets | with_reducible apply keeps_State_septa | with_reducible apply keeps_State_staged | split | intro _ _ _ | intro _ | (dsimp only))

theorem keeps_State_applyStop {s₀ : State} (s : State) (p : Fin 16) (k_s : s₀.Keeps s) {r₀} (e : (State.applyStop s p) = some r₀) :
    s₀.Keeps r₀ := by
  unfold State.applyStop at e
  repeat' (first | with_reducible assumption | split at e | (simp only [reduceCtorEq] at e; done) | (simp only [Option.some.injEq] at e; subst e) | with_reducible assumption | extract_lets | with_reducible apply keeps_State_endRecording | split | (dsimp only))

theorem keeps_State_mismatch {s₀ : State} (s : State) (p : Fin 16) (index : Nat) (body : List Byte) (k_s : s₀.Keeps s) :
    s₀.Keeps (State.mismatch s p index body) := by
  unfold State.mismatch
  repeat' (first | with_reducible assumption | exact id | extract_lets | with_reducible apply keeps_State_draw | with_reducible (refine keeps_State_draw_eq _ _ ?_ (by with_reducible assumption)) | with_reducible apply keeps_State_bump | with_reducible apply keeps_State_report | split | (dsimp only) | (dsimp +zetaDelta only) | with_reducible apply keeps_mk)

theorem keeps_State_compareResults {s₀ : State} (s : State) (p : Fin 16) (fuel : Nat) (k_s : s₀.Keeps s) :
    s₀.Keeps (State.compareResults s p fuel) := by
  induction fuel generalizing s with
  | zero => exact k_s
  | succ k ih =>
    unfold State.compareResults
    repeat' (first | with_reducible assumption | split | with_reducible apply ih | extract_lets | with_reducible apply keeps_State_mismatch | with_reducible apply keeps_State_setPart | (dsimp +zetaDelta only))

theorem keeps_State_result {s₀ : State} (s : State) (p : Fin 16) (pick : Word) (body : List Byte) (k_s : s₀.Keeps s) :
    s₀.Keeps (State.result s p pick body) := by
  unfold State.result
  split
  · exact k_s
  · split
    · exact k_s
    · split
      · exact keeps_State_compareResults _ _ _ (keeps_State_setPart _ _ _ k_s)
      · exact keeps_State_recordSwatch _ _ _ _ _ _ k_s

end Sys2Proof.Machine
end

