-- ==== Sys2Proof/Laws/KeepsMoves.lean ====
section
/-! SUPPORT. Sys2Proof/Laws/KeepsMoves.lean: what the operations of Machine/Moves.lean keep. -/

namespace Sys2Proof.Machine

open Sys2Proof

theorem keeps_State_faultBy {s₀ : State} (s : State) (a : At) (unit code detail : Nat) (k_s : s₀.Keeps s) :
    s₀.Keeps (State.faultBy s a unit code detail) := by
  unfold State.faultBy
  repeat' (first | with_reducible assumption | extract_lets | with_reducible apply keeps_State_faultCtx | split | (dsimp only))

theorem keeps_State_readFault {s₀ : State} (s : State) (a : At) (st : Store) (e : Nat × Nat) (k_s : s₀.Keeps s) :
    s₀.Keeps (State.readFault s a st e) := by
  unfold State.readFault
  repeat' (first | with_reducible assumption | extract_lets | with_reducible apply keeps_State_bump | with_reducible apply keeps_State_faultBy | split | (dsimp only) | (dsimp +zetaDelta only))

theorem keeps_State_carryBad {s₀ : State} (s : State) (st : Store) (addr : Nat) (runs : List (Nat × Nat)) (k_s : s₀.Keeps s) :
    s₀.Keeps (State.carryBad s st addr runs) := by
  unfold State.carryBad
  repeat' (first | with_reducible assumption | extract_lets | with_reducible apply keeps_State_setBlockBad | with_reducible apply keeps_foldl | intro _ _ _ | intro _ | (dsimp only))

theorem keeps_Here_move {s₀ : State} (h : Here) (w : SWord) (k_h : s₀.Keeps h.s) :
    s₀.Keeps (Here.move h w) := by
  unfold Here.move
  extract_lets kind n i rows dst src dn sn srcTrap addr room sn' m
  clear_value kind n i rows dst src dn sn srcTrap
  split
  · exact keeps_Here_trap _ _ k_h
  · split
    · exact keeps_Here_trap _ _ k_h
    · split
      · exact keeps_Here_trap _ _ k_h
      · repeat' (first | with_reducible apply keeps_Here_trap | with_reducible apply keeps_Here_hold | with_reducible apply keeps_Here_go | exact k_h | extract_lets | split)

theorem keeps_execMoveCopy {s₀ : State} (a : At) (w : SWord) (s : State) (k_s : s₀.Keeps s) (hok : moveOk 0 w = true) :
    ∃ t₁, (execMoveCopy a w s) = .next t₁ ∧ s₀.Keeps t₁ := by
  unfold execMoveCopy
  apply keeps_State_issueS s a w _ _ _ _ k_s hok
  intro h k_h
  repeat' (first | with_reducible assumption | extract_lets | with_reducible apply keeps_State_issueS | with_reducible apply keeps_Here_move | intro _ _ _ | intro _ | (dsimp only))

theorem keeps_execMoveCompress {s₀ : State} (a : At) (w : SWord) (s : State) (k_s : s₀.Keeps s) (hok : moveOk 1 w = true) :
    ∃ t₁, (execMoveCompress a w s) = .next t₁ ∧ s₀.Keeps t₁ := by
  unfold execMoveCompress
  apply keeps_State_issueS s a w _ _ _ _ k_s hok
  intro h k_h
  repeat' (first | with_reducible assumption | extract_lets | with_reducible apply keeps_State_issueS | with_reducible apply keeps_Here_move | intro _ _ _ | intro _ | (dsimp only))

theorem keeps_execMoveExpand {s₀ : State} (a : At) (w : SWord) (s : State) (k_s : s₀.Keeps s) (hok : moveOk 2 w = true) :
    ∃ t₁, (execMoveExpand a w s) = .next t₁ ∧ s₀.Keeps t₁ := by
  unfold execMoveExpand
  apply keeps_State_issueS s a w _ _ _ _ k_s hok
  intro h k_h
  repeat' (first | with_reducible assumption | extract_lets | with_reducible apply keeps_State_issueS | with_reducible apply keeps_Here_move | intro _ _ _ | intro _ | (dsimp only))

theorem keeps_execMoveStrided {s₀ : State} (a : At) (w : SWord) (s : State) (k_s : s₀.Keeps s) (hok : moveOk 3 w = true) :
    ∃ t₁, (execMoveStrided a w s) = .next t₁ ∧ s₀.Keeps t₁ := by
  unfold execMoveStrided
  apply keeps_State_issueS s a w _ _ _ _ k_s hok
  intro h k_h
  repeat' (first | with_reducible assumption | extract_lets | with_reducible apply keeps_State_issueS | with_reducible apply keeps_Here_move | intro _ _ _ | intro _ | (dsimp only))

theorem keeps_execMoveZero {s₀ : State} (a : At) (w : SWord) (s : State) (k_s : s₀.Keeps s) (hok : moveOk 4 w = true) :
    ∃ t₁, (execMoveZero a w s) = .next t₁ ∧ s₀.Keeps t₁ := by
  unfold execMoveZero
  apply keeps_State_issueS s a w _ _ _ _ k_s hok
  intro h k_h
  repeat' (first | with_reducible assumption | extract_lets | with_reducible apply keeps_State_issueS | with_reducible apply keeps_Here_move | intro _ _ _ | intro _ | (dsimp only))

theorem keeps_State_copyRun {s₀ : State} (s : State) (a : At) (dst src : Store) (da sa n : Nat) (k_s : s₀.Keeps s) :
    s₀.Keeps (State.copyRun s a dst src da sa n) := by
  unfold State.copyRun
  repeat' (first | with_reducible assumption | extract_lets | with_reducible apply keeps_State_store_ | with_reducible apply keeps_State_load_ | with_reducible apply keeps_State_carryBad | (dsimp only) | (dsimp +zetaDelta only))

theorem keeps_State_landCopy {s₀ : State} (s : State) (a : At) (m : Move) (k_s : s₀.Keeps s) :
    s₀.Keeps (State.landCopy s a m) := by
  unfold State.landCopy
  repeat' (first | with_reducible assumption | extract_lets | with_reducible apply keeps_State_readFault | with_reducible apply keeps_State_copyRun | split | (dsimp only))

theorem keeps_State_landStrided {s₀ : State} (s : State) (a : At) (m : Move) (k_s : s₀.Keeps s) :
    s₀.Keeps (State.landStrided s a m) := by
  unfold State.landStrided
  repeat' (first | with_reducible assumption | extract_lets | with_reducible apply keeps_State_store_ | with_reducible apply keeps_State_load_ | with_reducible apply keeps_State_readFault | with_reducible apply keeps_State_carryBad | with_reducible apply keeps_foldl | split | intro _ _ _ | intro _ | (dsimp only) | (dsimp +zetaDelta only))

theorem keeps_State_bcFault {s₀ : State} (s : State) (a : At) (code : Nat) (k_s : s₀.Keeps s) :
    s₀.Keeps (State.bcFault s a code) := by
  unfold State.bcFault
  repeat' (first | with_reducible assumption | extract_lets | with_reducible apply keeps_State_bump | with_reducible apply keeps_State_faultBy | (dsimp only) | (dsimp +zetaDelta only))

theorem keeps_State_setBcSlots {s₀ : State} (s : State) (m : Fin 8) (d : Tab TableSlot) (k_s : s₀.Keeps s) :
    s₀.Keeps (State.setBcSlots s m d) := by
  unfold State.setBcSlots
  repeat' (first | with_reducible assumption | exact id | extract_lets | (dsimp only) | with_reducible apply keeps_mk)

theorem keeps_State_landCompress {s₀ : State} (s : State) (a : At) (m : Move) (k_s : s₀.Keeps s) :
    s₀.Keeps (State.landCompress s a m) := by
  unfold State.landCompress
  repeat' (first | with_reducible assumption | extract_lets | with_reducible apply keeps_State_bump | with_reducible apply keeps_State_store_ | with_reducible apply keeps_State_load_ | with_reducible apply keeps_State_readFault | with_reducible apply keeps_State_bcFault | with_reducible apply keeps_State_setBcSlots | split | intro _ _ _ | intro _ | (dsimp only) | (dsimp +zetaDelta only))

theorem keeps_State_putBlocks {s₀ : State} (s : State) (st : Store) (addr : Nat) (bs : List (List Byte)) (k_s : s₀.Keeps s) :
    s₀.Keeps (State.putBlocks s st addr bs) := by
  induction bs generalizing s addr with
  | nil => exact k_s
  | cons b rest ih =>
    unfold State.putBlocks
    apply ih
    exact keeps_State_store_ _ _ _ _ k_s

theorem keeps_State_landExpand {s₀ : State} (s : State) (a : At) (m : Move) (k_s : s₀.Keeps s) :
    s₀.Keeps (State.landExpand s a m) := by
  unfold State.landExpand
  repeat' (first | with_reducible assumption | extract_lets | with_reducible apply keeps_State_bump | with_reducible apply keeps_State_load_ | with_reducible apply keeps_State_readFault | with_reducible apply keeps_State_bcFault | with_reducible apply keeps_State_setBcSlots | with_reducible apply keeps_State_putBlocks | split | intro _ _ _ | intro _ | (dsimp only) | (dsimp +zetaDelta only))

theorem keeps_execMoveComplete {s₀ : State} (a : At) (s : State) (k_s : s₀.Keeps s) :
    ∃ t₁, (execMoveComplete a s) = .next t₁ ∧ s₀.Keeps t₁ := by
  unfold execMoveComplete
  repeat' (first | exact ⟨_, rfl, by with_reducible assumption⟩ | split | (refine ⟨_, rfl, ?_⟩) | with_reducible assumption | exact id | extract_lets | with_reducible apply keeps_State_modSeq | with_reducible apply keeps_State_store_ | with_reducible apply keeps_State_landCopy | with_reducible apply keeps_State_landStrided | with_reducible apply keeps_State_landCompress | with_reducible apply keeps_State_landExpand | split | intro _ _ _ | intro _ | (dsimp only) | (dsimp +zetaDelta only) | with_reducible apply keeps_mk)

theorem keeps_execTsend {s₀ : State} (a : At) (w : SWord) (s : State) (k_s : s₀.Keeps s) (hok : tsendOk w = true) :
    ∃ t₁, (execTsend a w s) = .next t₁ ∧ s₀.Keeps t₁ := by
  unfold execTsend
  apply keeps_State_issueS s a w _ _ _ _ k_s hok
  intro h k_h
  repeat' (first | with_reducible assumption | exact id | exact Loom.to_setSeq _ _ _ | exact Loom.to_setBank _ _ _ | exact fun l => to_of (fun h => h) | exact to_of (fun h => h) | extract_lets | with_reducible apply keeps_State_modLoom | with_reducible apply keeps_State_trap | with_reducible apply keeps_Here_go | with_reducible apply keeps_Here_trap | with_reducible apply keeps_State_issueS | with_reducible apply keeps_Here_reading | split | intro _ _ _ | intro _ | (dsimp only) | (dsimp +zetaDelta only) | with_reducible apply keeps_mk)

theorem keeps_State_receive {s₀ : State} (s : State) (a : At) (key addr buf n : Nat) (q : Seq) (k_s : s₀.Keeps s) :
    s₀.Keeps (State.receive s a key addr buf n q) := by
  unfold State.receive
  repeat' (first | with_reducible assumption | exact id | exact Loom.to_setSeq _ _ _ | exact Loom.to_setBank _ _ _ | exact fun l => to_of (fun h => h) | exact to_of (fun h => h) | extract_lets | with_reducible apply keeps_State_modLoom | with_reducible apply keeps_State_putAt | with_reducible apply keeps_State_setSeq | with_reducible apply keeps_State_trap | with_reducible apply keeps_Here_trap | with_reducible apply keeps_State_carryBad | split | intro _ _ _ | intro _ | (dsimp only) | (dsimp +zetaDelta only) | with_reducible apply keeps_mk)

theorem keeps_execTrecv {s₀ : State} (a : At) (w : SWord) (s : State) (k_s : s₀.Keeps s) (hok : tsendOk w = true) :
    ∃ t₁, (execTrecv a w s) = .next t₁ ∧ s₀.Keeps t₁ := by
  unfold execTrecv
  apply keeps_State_issueS s a w _ _ _ _ k_s hok
  intro h k_h
  repeat' (first | with_reducible assumption | exact id | extract_lets | with_reducible apply keeps_State_trap | with_reducible apply keeps_Here_setQ | with_reducible apply keeps_Here_trap | with_reducible apply keeps_State_issueS | with_reducible apply keeps_Here_writing | with_reducible apply keeps_State_receive | split | intro _ _ _ | intro _ | (dsimp only) | (dsimp +zetaDelta only) | with_reducible apply keeps_mk)

theorem keeps_execTrecvLanded {s₀ : State} (a : At) (s : State) (k_s : s₀.Keeps s) :
    ∃ t₁, (execTrecvLanded a s) = .next t₁ ∧ s₀.Keeps t₁ := by
  unfold execTrecvLanded
  repeat' (first | exact ⟨_, rfl, by with_reducible assumption⟩ | split | (refine ⟨_, rfl, ?_⟩) | with_reducible assumption | exact id | extract_lets | with_reducible apply keeps_State_trap | with_reducible apply keeps_Here_trap | with_reducible apply keeps_State_receive | split | (dsimp only) | (dsimp +zetaDelta only) | with_reducible apply keeps_mk)

end Sys2Proof.Machine
end

