-- ==== Sys2Proof/Laws/KeepsKv.lean ====
section
/-! SUPPORT. Sys2Proof/Laws/KeepsKv.lean: what the operations of Machine/Kv.lean keep. -/

namespace Sys2Proof.Machine

open Sys2Proof

theorem keeps_State_pageCount {s₀ : State} (s : State) (p : Fin 16) (k : PartCfg) (f : Fld) (n : Nat) (k_s : s₀.Keeps s) :
    s₀.Keeps (State.pageCount s p k f n) := by
  unfold State.pageCount
  repeat' (first | with_reducible assumption | extract_lets | with_reducible apply keeps_State_bump | (dsimp only))

theorem keeps_Here_starved {s₀ : State} (h : Here) (id : Nat) (e : SeqEntry) (k_h : s₀.Keeps h.s) :
    s₀.Keeps (Here.starved h id e) := by
  unfold Here.starved
  repeat' (first | with_reducible assumption | exact id | extract_lets | with_reducible apply keeps_State_setPart | with_reducible apply keeps_Here_go | with_reducible apply keeps_State_pageCount | (dsimp only) | (dsimp +zetaDelta only) | with_reducible apply keeps_mk)

theorem keeps_Here_scatter {s₀ : State} (h : Here) (w : SWord) (id : Nat) (e : SeqEntry) (n : Nat) (src : Sources) (k_h : s₀.Keeps h.s) :
    s₀.Keeps (Here.scatter h w id e n src) := by
  unfold Here.scatter
  repeat' (first | with_reducible assumption | exact id | extract_lets | with_reducible apply keeps_State_setPart | with_reducible apply keeps_State_trap | with_reducible apply keeps_Here_setQ | with_reducible apply keeps_Here_go | with_reducible apply keeps_Here_trap | with_reducible apply keeps_State_pageCount | with_reducible apply keeps_Here_starved | with_reducible apply keeps_foldl | split | intro _ _ _ | intro _ | (dsimp only) | (dsimp +zetaDelta only) | with_reducible apply keeps_mk)

theorem keeps_Here_doScatter {s₀ : State} (h : Here) (w : SWord) (k_h : s₀.Keeps h.s) :
    s₀.Keeps (Here.doScatter h w) := by
  unfold Here.doScatter
  repeat' (first | with_reducible assumption | extract_lets | with_reducible apply keeps_State_count | with_reducible apply keeps_State_trap | with_reducible apply keeps_Here_hold | with_reducible apply keeps_Here_trap | with_reducible apply keeps_Here_scatter | split | (dsimp only) | (dsimp +zetaDelta only))

theorem keeps_Here_doPgfill {s₀ : State} (h : Here) (w : SWord) (k_h : s₀.Keeps h.s) :
    s₀.Keeps (Here.doPgfill h w) := by
  unfold Here.doPgfill
  repeat' (first | with_reducible assumption | exact id | extract_lets | with_reducible apply keeps_State_setPart | with_reducible apply keeps_State_count | with_reducible apply keeps_State_trap | with_reducible apply keeps_Here_setQ | with_reducible apply keeps_Here_go | with_reducible apply keeps_Here_hold | with_reducible apply keeps_Here_trap | with_reducible apply keeps_State_pageCount | with_reducible apply keeps_Here_starved | with_reducible apply keeps_Here_scatter | split | intro _ _ _ | intro _ | (dsimp only) | (dsimp +zetaDelta only) | with_reducible apply keeps_mk)

theorem keeps_execScatter {s₀ : State} (a : At) (w : SWord) (s : State) (k_s : s₀.Keeps s) (hok : scatterOk w = true) :
    ∃ t₁, (execScatter a w s) = .next t₁ ∧ s₀.Keeps t₁ := by
  unfold execScatter
  apply keeps_State_issueS s a w _ _ _ _ k_s hok
  intro h k_h
  repeat' (first | with_reducible assumption | extract_lets | with_reducible apply keeps_State_issueS | with_reducible apply keeps_Here_doScatter | intro _ _ _ | intro _ | (dsimp only))

theorem keeps_execPgfill {s₀ : State} (a : At) (w : SWord) (s : State) (k_s : s₀.Keeps s) (hok : scatterOk w = true) :
    ∃ t₁, (execPgfill a w s) = .next t₁ ∧ s₀.Keeps t₁ := by
  unfold execPgfill
  apply keeps_State_issueS s a w _ _ _ _ k_s hok
  intro h k_h
  repeat' (first | with_reducible assumption | extract_lets | with_reducible apply keeps_State_issueS | with_reducible apply keeps_Here_doPgfill | intro _ _ _ | intro _ | (dsimp only))

theorem keeps_execScatterResume {s₀ : State} (a : At) (s : State) (k_s : s₀.Keeps s) :
    ∃ t₁, (execScatterResume a s) = .next t₁ ∧ s₀.Keeps t₁ := by
  unfold execScatterResume
  repeat' (first | exact ⟨_, rfl, by with_reducible assumption⟩ | split | (refine ⟨_, rfl, ?_⟩) | with_reducible assumption | exact id | extract_lets | with_reducible apply keeps_State_setSeq | with_reducible apply keeps_Here_scatter | with_reducible apply keeps_Here_doScatter | with_reducible apply keeps_Here_doPgfill | split | (dsimp only) | (dsimp +zetaDelta only) | with_reducible apply keeps_mk)

end Sys2Proof.Machine
end

