-- ==== Sys2Proof/Laws/KeepsScalar.lean ====
section
/-! SUPPORT. Sys2Proof/Laws/KeepsScalar.lean: what the operations of Machine/Scalar.lean keep. -/

namespace Sys2Proof.Machine

open Sys2Proof

theorem keeps_execNop {s₀ : State} (a : At) (w : SWord) (s : State) (k_s : s₀.Keeps s) (hok : nopOk w = true) :
    ∃ t₁, (execNop a w s) = .next t₁ ∧ s₀.Keeps t₁ := by
  unfold execNop
  apply keeps_State_issueS s a w _ _ _ _ k_s hok
  intro h k_h
  repeat' (first | with_reducible assumption | extract_lets | with_reducible apply keeps_Here_go | with_reducible apply keeps_State_issueS | intro _ _ _ | intro _ | (dsimp only))

theorem keeps_execJmp {s₀ : State} (a : At) (w : JWord) (s : State) (k_s : s₀.Keeps s) (hok : jmpOk w = true) :
    ∃ t₁, (execJmp a w s) = .next t₁ ∧ s₀.Keeps t₁ := by
  unfold execJmp
  apply keeps_State_issueJ s a w _ _ _ _ k_s hok
  intro h k_h
  repeat' (first | with_reducible assumption | extract_lets | with_reducible apply keeps_Here_setQ | with_reducible apply keeps_State_issueJ | intro _ _ _ | intro _ | (dsimp only))

theorem keeps_execBst {s₀ : State} (a : At) (w : JWord) (s : State) (k_s : s₀.Keeps s) (hok : bstOk w = true) :
    ∃ t₁, (execBst a w s) = .next t₁ ∧ s₀.Keeps t₁ := by
  unfold execBst
  apply keeps_State_issueJ s a w _ _ _ _ k_s hok
  intro h k_h
  repeat' (first | with_reducible assumption | extract_lets | with_reducible apply keeps_Here_setQ | with_reducible apply keeps_State_issueJ | split | intro _ _ _ | intro _ | (dsimp only) | (dsimp +zetaDelta only))

theorem keeps_execLoop {s₀ : State} (a : At) (w : JWord) (s : State) (k_s : s₀.Keeps s) (hok : loopOk w = true) :
    ∃ t₁, (execLoop a w s) = .next t₁ ∧ s₀.Keeps t₁ := by
  unfold execLoop
  apply keeps_State_issueJ s a w _ _ _ _ k_s hok
  intro h k_h
  repeat' (first | with_reducible assumption | exact id | extract_lets | with_reducible apply keeps_State_count | with_reducible apply keeps_State_trap | with_reducible apply keeps_Here_setQ | with_reducible apply keeps_Here_go | with_reducible apply keeps_Here_trap | with_reducible apply keeps_State_issueJ | split | intro _ _ _ | intro _ | (dsimp only) | (dsimp +zetaDelta only) | with_reducible apply keeps_mk)

theorem keeps_execEndloop {s₀ : State} (a : At) (w : JWord) (s : State) (k_s : s₀.Keeps s) (hok : endloopOk w = true) :
    ∃ t₁, (execEndloop a w s) = .next t₁ ∧ s₀.Keeps t₁ := by
  unfold execEndloop
  apply keeps_State_issueJ s a w _ _ _ _ k_s hok
  intro h k_h
  repeat' (first | with_reducible assumption | exact id | extract_lets | with_reducible apply keeps_State_count | with_reducible apply keeps_Here_setQ | with_reducible apply keeps_Here_go | with_reducible apply keeps_State_issueJ | split | intro _ _ _ | intro _ | (dsimp only) | (dsimp +zetaDelta only) | with_reducible apply keeps_mk)

theorem keeps_execEndT {s₀ : State} (a : At) (w : SWord) (s : State) (k_s : s₀.Keeps s) (hok : nopOk w = true) :
    ∃ t₁, (execEndT a w s) = .next t₁ ∧ s₀.Keeps t₁ := by
  unfold execEndT
  apply keeps_State_issueS s a w _ _ _ _ k_s hok
  intro h k_h
  repeat' (first | with_reducible assumption | exact id | extract_lets | with_reducible apply keeps_Here_go | with_reducible apply keeps_State_issueS | intro _ _ _ | intro _ | (dsimp only) | with_reducible apply keeps_mk)

theorem keeps_execMovi {s₀ : State} (a : At) (w : SWord) (s : State) (k_s : s₀.Keeps s) (hok : moviOk w = true) :
    ∃ t₁, (execMovi a w s) = .next t₁ ∧ s₀.Keeps t₁ := by
  unfold execMovi
  apply keeps_State_issueS s a w _ _ _ _ k_s hok
  intro h k_h
  repeat' (first | with_reducible assumption | extract_lets | with_reducible apply keeps_Here_go | with_reducible apply keeps_State_issueS | split | intro _ _ _ | intro _ | (dsimp only))

theorem keeps_execAlu {s₀ : State} (a : At) (w : SWord) (s : State) (k_s : s₀.Keeps s) (hok : aluOk w = true) :
    ∃ t₁, (execAlu a w s) = .next t₁ ∧ s₀.Keeps t₁ := by
  unfold execAlu
  apply keeps_State_issueS s a w _ _ _ _ k_s hok
  intro h k_h
  repeat' (first | with_reducible assumption | extract_lets | with_reducible apply keeps_State_trap | with_reducible apply keeps_Here_go | with_reducible apply keeps_Here_trap | with_reducible apply keeps_State_issueS | split | intro _ _ _ | intro _ | (dsimp only))

theorem keeps_execCmp {s₀ : State} (a : At) (w : SWord) (s : State) (k_s : s₀.Keeps s) (hok : cmpOk w = true) :
    ∃ t₁, (execCmp a w s) = .next t₁ ∧ s₀.Keeps t₁ := by
  unfold execCmp
  apply keeps_State_issueS s a w _ _ _ _ k_s hok
  intro h k_h
  repeat' (first | with_reducible assumption | extract_lets | with_reducible apply keeps_Here_go | with_reducible apply keeps_State_issueS | intro _ _ _ | intro _ | (dsimp only))

theorem keeps_execPlogic {s₀ : State} (a : At) (w : SWord) (s : State) (k_s : s₀.Keeps s) (hok : plogicOk w = true) :
    ∃ t₁, (execPlogic a w s) = .next t₁ ∧ s₀.Keeps t₁ := by
  unfold execPlogic
  apply keeps_State_issueS s a w _ _ _ _ k_s hok
  intro h k_h
  repeat' (first | with_reducible assumption | extract_lets | with_reducible apply keeps_Here_go | with_reducible apply keeps_State_issueS | intro _ _ _ | intro _ | (dsimp only))

theorem keeps_execAbind {s₀ : State} (a : At) (w : SWord) (s : State) (k_s : s₀.Keeps s) (hok : abindOk w = true) :
    ∃ t₁, (execAbind a w s) = .next t₁ ∧ s₀.Keeps t₁ := by
  unfold execAbind
  apply keeps_State_issueS s a w _ _ _ _ k_s hok
  intro h k_h
  repeat' (first | with_reducible assumption | extract_lets | with_reducible apply keeps_Here_go | with_reducible apply keeps_State_issueS | intro _ _ _ | intro _ | (dsimp only))

theorem keeps_execAadd {s₀ : State} (a : At) (w : SWord) (s : State) (k_s : s₀.Keeps s) (hok : aaddOk w = true) :
    ∃ t₁, (execAadd a w s) = .next t₁ ∧ s₀.Keeps t₁ := by
  unfold execAadd
  apply keeps_State_issueS s a w _ _ _ _ k_s hok
  intro h k_h
  repeat' (first | with_reducible assumption | extract_lets | with_reducible apply keeps_State_trap | with_reducible apply keeps_Here_go | with_reducible apply keeps_Here_trap | with_reducible apply keeps_State_issueS | split | intro _ _ _ | intro _ | (dsimp only) | (dsimp +zetaDelta only))

theorem keeps_execLdb {s₀ : State} (a : At) (w : SWord) (s : State) (k_s : s₀.Keeps s) (hok : ldbOk w = true) :
    ∃ t₁, (execLdb a w s) = .next t₁ ∧ s₀.Keeps t₁ := by
  unfold execLdb
  apply keeps_State_issueS s a w _ _ _ _ k_s hok
  intro h k_h
  repeat' (first | with_reducible assumption | extract_lets | with_reducible apply keeps_State_trap | with_reducible apply keeps_Here_go | with_reducible apply keeps_Here_trap | with_reducible apply keeps_State_issueS | with_reducible apply keeps_Here_reading | split | intro _ _ _ | intro _ | (dsimp only))

theorem keeps_execStb {s₀ : State} (a : At) (w : SWord) (s : State) (k_s : s₀.Keeps s) (hok : ldbOk w = true) :
    ∃ t₁, (execStb a w s) = .next t₁ ∧ s₀.Keeps t₁ := by
  unfold execStb
  apply keeps_State_issueS s a w _ _ _ _ k_s hok
  intro h k_h
  repeat' (first | with_reducible assumption | exact id | extract_lets | with_reducible apply keeps_State_putAt | with_reducible apply keeps_State_trap | with_reducible apply keeps_Here_go | with_reducible apply keeps_Here_trap | with_reducible apply keeps_State_issueS | with_reducible apply keeps_Here_writing | split | intro _ _ _ | intro _ | (dsimp only) | with_reducible apply keeps_mk)

end Sys2Proof.Machine
end

