-- ==== Sys2Proof/Laws/KeepsVector.lean ====
section
/-! SUPPORT. Sys2Proof/Laws/KeepsVector.lean: what the operations of Machine/Vector.lean keep. -/

namespace Sys2Proof.Machine

open Sys2Proof

theorem keeps_Here_vector {s₀ : State} (h : Here) (x : Nat) (lanes : List (BitVec 32 × Flg)) (slot : Nat) (k_h : s₀.Keeps h.s) :
    s₀.Keeps (Here.vector h x lanes slot) := by
  unfold Here.vector
  repeat' (first | with_reducible assumption | exact id | exact Loom.to_setSeq _ _ _ | exact Loom.to_setBank _ _ _ | exact fun l => to_of (fun h => h) | exact to_of (fun h => h) | exact fun l => Loom.to_setLanes _ _ _ | extract_lets | with_reducible apply keeps_State_modLoom | with_reducible apply keeps_Here_go | intro _ _ _ | intro _ | (dsimp only) | with_reducible apply keeps_mk)

theorem keeps_execVop {s₀ : State} (a : At) (w : SWord) (s : State) (k_s : s₀.Keeps s) (hok : vopOk w = true) :
    ∃ t₁, (execVop a w s) = .next t₁ ∧ s₀.Keeps t₁ := by
  unfold execVop
  apply keeps_State_issueS s a w _ _ _ _ k_s hok
  intro h k_h
  repeat' (first | with_reducible assumption | extract_lets | with_reducible apply keeps_State_issueS | with_reducible apply keeps_Here_vector | intro _ _ _ | intro _ | (dsimp only))

theorem keeps_execVld {s₀ : State} (a : At) (w : SWord) (s : State) (k_s : s₀.Keeps s) (hok : vldOk w = true) :
    ∃ t₁, (execVld a w s) = .next t₁ ∧ s₀.Keeps t₁ := by
  unfold execVld
  apply keeps_State_issueS s a w _ _ _ _ k_s hok
  intro h k_h
  repeat' (first | with_reducible assumption | extract_lets | with_reducible apply keeps_State_trap | with_reducible apply keeps_Here_trap | with_reducible apply keeps_State_issueS | with_reducible apply keeps_Here_reading | with_reducible apply keeps_Here_vector | split | intro _ _ _ | intro _ | (dsimp only) | (dsimp +zetaDelta only))

theorem keeps_execVst {s₀ : State} (a : At) (w : SWord) (s : State) (k_s : s₀.Keeps s) (hok : vstOk w = true) :
    ∃ t₁, (execVst a w s) = .next t₁ ∧ s₀.Keeps t₁ := by
  unfold execVst
  apply keeps_State_issueS s a w _ _ _ _ k_s hok
  intro h k_h
  repeat' (first | with_reducible assumption | exact id | extract_lets | with_reducible apply keeps_State_putAt | with_reducible apply keeps_State_trap | with_reducible apply keeps_Here_go | with_reducible apply keeps_Here_trap | with_reducible apply keeps_State_issueS | with_reducible apply keeps_Here_writing | split | intro _ _ _ | intro _ | (dsimp only) | (dsimp +zetaDelta only) | with_reducible apply keeps_mk)

theorem keeps_execVred {s₀ : State} (a : At) (w : SWord) (s : State) (k_s : s₀.Keeps s) (hok : vredOk w = true) :
    ∃ t₁, (execVred a w s) = .next t₁ ∧ s₀.Keeps t₁ := by
  unfold execVred
  apply keeps_State_issueS s a w _ _ _ _ k_s hok
  intro h k_h
  repeat' (first | with_reducible assumption | exact id | exact Loom.to_setSeq _ _ _ | exact Loom.to_setBank _ _ _ | exact fun l => to_of (fun h => h) | exact to_of (fun h => h) | extract_lets | with_reducible apply keeps_State_modLoom | with_reducible apply keeps_State_issueS | with_reducible apply keeps_Here_vector | split | intro _ _ _ | intro _ | (dsimp only) | (dsimp +zetaDelta only) | with_reducible apply keeps_mk)

theorem keeps_execVrng {s₀ : State} (a : At) (w : SWord) (s : State) (k_s : s₀.Keeps s) (hok : vrngOk w = true) :
    ∃ t₁, (execVrng a w s) = .next t₁ ∧ s₀.Keeps t₁ := by
  unfold execVrng
  apply keeps_State_issueS s a w _ _ _ _ k_s hok
  intro h k_h
  repeat' (first | with_reducible assumption | extract_lets | with_reducible apply keeps_State_issueS | with_reducible apply keeps_Here_vector | intro _ _ _ | intro _ | (dsimp only) | (dsimp +zetaDelta only))

end Sys2Proof.Machine
end

