-- ==== Sys2Proof/Laws/KeepsAttn.lean ====
section
/-! SUPPORT. Sys2Proof/Laws/KeepsAttn.lean: what the operations of Machine/Attn.lean keep. -/

namespace Sys2Proof.Machine

open Sys2Proof

theorem keeps_Here_attend {s₀ : State} (h : Here) (w : TWord) (e : SeqEntry) (t : Tile) (x : Part) (n : Snapshot) (k_h : s₀.Keeps h.s) :
    s₀.Keeps (Here.attend h w e t x n) := by
  unfold Here.attend
  repeat' (first | with_reducible assumption | exact id | exact Loom.to_setSeq _ _ _ | exact Loom.to_setBank _ _ _ | exact fun l => to_of (fun h => h) | exact to_of (fun h => h) | extract_lets | with_reducible apply keeps_State_modLoom | with_reducible apply keeps_State_setPart | with_reducible apply keeps_State_putAt | with_reducible apply keeps_State_count | with_reducible apply keeps_State_setSeq | with_reducible apply keeps_State_trap | with_reducible apply keeps_Here_hold | with_reducible apply keeps_Here_trap | with_reducible apply keeps_foldl | split | intro _ _ _ | intro _ | (dsimp only) | (dsimp +zetaDelta only) | with_reducible apply keeps_mk)

theorem keeps_Here_doAttn {s₀ : State} (h : Here) (w : TWord) (t : Tile) (k_h : s₀.Keeps h.s) :
    s₀.Keeps (Here.doAttn h w t) := by
  unfold Here.doAttn
  repeat' (first | with_reducible assumption | extract_lets | with_reducible apply keeps_State_trap | with_reducible apply keeps_Here_go | with_reducible apply keeps_Here_hold | with_reducible apply keeps_Here_trap | with_reducible apply keeps_Here_attend | split | intro _ _ _ | intro _ | (dsimp only) | (dsimp +zetaDelta only))

theorem keeps_execAttn {s₀ : State} (a : At) (w : TWord) (s : State) (k_s : s₀.Keeps s) (hok : attnOk w = true) :
    ∃ t₁, (execAttn a w s) = .next t₁ ∧ s₀.Keeps t₁ := by
  unfold execAttn
  apply keeps_State_issueT s a w _ _ _ _ k_s hok
  intro h k_h
  repeat' (first | with_reducible assumption | extract_lets | with_reducible apply keeps_Here_go | with_reducible apply keeps_State_issueT | with_reducible apply keeps_Here_doAttn | split | intro _ _ _ | intro _ | (dsimp only))

end Sys2Proof.Machine
end

