-- ==== Sys2Proof/Laws/KeepsEthernet.lean ====
section
/-! SUPPORT. Sys2Proof/Laws/KeepsEthernet.lean: what the operations of Machine/Ethernet.lean keep. -/

namespace Sys2Proof.Machine

open Sys2Proof

theorem keeps_State_frame {s₀ : State} (s : State) (f : NetFrame) (k : State → State) (k_s : s₀.Keeps s) (k_k : ∀ x0, s₀.Keeps x0 → s₀.Keeps (k x0)) :
    ∃ t₁, (State.frame s f k) = .next t₁ ∧ s₀.Keeps t₁ := by
  unfold State.frame
  repeat' (first | exact ⟨_, rfl, by with_reducible assumption⟩ | split | (refine ⟨_, rfl, ?_⟩) | with_reducible assumption | extract_lets | with_reducible apply keeps_State_bump | with_reducible apply keeps_State_sawFrame | with_reducible apply k_k | split | (dsimp only))

theorem keeps_State_answerFrame {s₀ : State} (s : State) (f : NetFrame) (kind : PktKind) (payload : List Byte) (k_s : s₀.Keeps s) :
    s₀.Keeps (State.answerFrame s f kind payload) := by
  unfold State.answerFrame
  repeat' (first | with_reducible assumption | exact id | extract_lets | with_reducible apply keeps_State_emit | split | (dsimp only) | with_reducible apply keeps_mk)

theorem keeps_execArpRequest {s₀ : State} (f : NetFrame) (s : State) (k_s : s₀.Keeps s) :
    ∃ t₁, (execArpRequest f s) = .next t₁ ∧ s₀.Keeps t₁ := by
  unfold execArpRequest
  repeat' (first | exact ⟨_, rfl, by with_reducible assumption⟩ | split | (refine ⟨_, rfl, ?_⟩) | with_reducible assumption | extract_lets | with_reducible apply keeps_State_frame | with_reducible apply keeps_State_answerFrame | split | intro _ _ _ | intro _ | (dsimp only))

theorem keeps_execNeighborSolicitation {s₀ : State} (f : NetFrame) (s : State) (k_s : s₀.Keeps s) :
    ∃ t₁, (execNeighborSolicitation f s) = .next t₁ ∧ s₀.Keeps t₁ := by
  unfold execNeighborSolicitation
  repeat' (first | exact ⟨_, rfl, by with_reducible assumption⟩ | split | (refine ⟨_, rfl, ?_⟩) | with_reducible assumption | extract_lets | with_reducible apply keeps_State_frame | with_reducible apply keeps_State_answerFrame | split | intro _ _ _ | intro _ | (dsimp only))

theorem keeps_execIcmpEchoRequest {s₀ : State} (f : NetFrame) (s : State) (k_s : s₀.Keeps s) :
    ∃ t₁, (execIcmpEchoRequest f s) = .next t₁ ∧ s₀.Keeps t₁ := by
  unfold execIcmpEchoRequest
  repeat' (first | exact ⟨_, rfl, by with_reducible assumption⟩ | split | (refine ⟨_, rfl, ?_⟩) | with_reducible assumption | extract_lets | with_reducible apply keeps_State_frame | with_reducible apply keeps_State_answerFrame | intro _ _ _ | intro _ | (dsimp only))

theorem keeps_execAddressResolutionReply {s₀ : State} (f : NetFrame) (s : State) (k_s : s₀.Keeps s) :
    ∃ t₁, (execAddressResolutionReply f s) = .next t₁ ∧ s₀.Keeps t₁ := by
  unfold execAddressResolutionReply
  repeat' (first | exact ⟨_, rfl, by with_reducible assumption⟩ | split | (refine ⟨_, rfl, ?_⟩) | with_reducible assumption | extract_lets | with_reducible apply keeps_State_frame | intro _ _ _ | intro _ | (dsimp only))

theorem keeps_execDiscardedPacket {s₀ : State} (port : Fin 8) (why : DiscardKind) (s : State) (k_s : s₀.Keeps s) :
    ∃ t₁, (execDiscardedPacket port why s) = .next t₁ ∧ s₀.Keeps t₁ := by
  unfold execDiscardedPacket
  repeat' (first | exact ⟨_, rfl, by with_reducible assumption⟩ | split | (refine ⟨_, rfl, ?_⟩) | with_reducible assumption | exact id | extract_lets | with_reducible apply keeps_State_setPort | with_reducible apply keeps_State_bump | split | (dsimp only) | with_reducible apply keeps_mk)

theorem keeps_execPfcFrame {s₀ : State} (port : Fin 8) (enabled : BitVec 8) (quanta : Vector (BitVec 16) 8) (s : State) (k_s : s₀.Keeps s) :
    ∃ t₁, (execPfcFrame port enabled quanta s) = .next t₁ ∧ s₀.Keeps t₁ := by
  unfold execPfcFrame
  repeat' (first | exact ⟨_, rfl, by with_reducible assumption⟩ | split | (refine ⟨_, rfl, ?_⟩) | with_reducible assumption | exact id | extract_lets | with_reducible apply keeps_State_setPort | with_reducible apply keeps_State_bump | split | (dsimp only) | (dsimp +zetaDelta only) | with_reducible apply keeps_mk)

theorem keeps_State_startMka {s₀ : State} (s : State) (port : Fin 8) (k_s : s₀.Keeps s) :
    s₀.Keeps (State.startMka s port) := by
  unfold State.startMka
  repeat' (first | with_reducible assumption | exact id | extract_lets | with_reducible apply keeps_State_setPort | split | (dsimp only) | (dsimp +zetaDelta only) | with_reducible apply keeps_mk)

theorem keeps_execMkaFrame {s₀ : State} (port : Fin 8) (frame : List Byte) (s : State) (k_s : s₀.Keeps s) :
    ∃ t₁, (execMkaFrame port frame s) = .next t₁ ∧ s₀.Keeps t₁ := by
  unfold execMkaFrame
  repeat' (first | exact ⟨_, rfl, by with_reducible assumption⟩ | split | (refine ⟨_, rfl, ?_⟩) | with_reducible assumption | exact id | extract_lets | with_reducible apply keeps_State_setPort | with_reducible apply keeps_State_emit | with_reducible apply keeps_State_frame | split | (dsimp only) | (dsimp +zetaDelta only) | with_reducible apply keeps_mk)

theorem keeps_execMacsecSaLost {s₀ : State} (port : Fin 8) (s : State) (k_s : s₀.Keeps s) :
    ∃ t₁, (execMacsecSaLost port s) = .next t₁ ∧ s₀.Keeps t₁ := by
  unfold execMacsecSaLost
  repeat' (first | exact ⟨_, rfl, by with_reducible assumption⟩ | split | (refine ⟨_, rfl, ?_⟩) | with_reducible assumption | exact id | extract_lets | with_reducible apply keeps_State_setPort | with_reducible apply keeps_State_report | split | (dsimp only) | (dsimp +zetaDelta only) | with_reducible apply keeps_mk)

theorem keeps_execPortLinkLost {s₀ : State} (port : Fin 8) (s : State) (k_s : s₀.Keeps s) :
    ∃ t₁, (execPortLinkLost port s) = .next t₁ ∧ s₀.Keeps t₁ := by
  unfold execPortLinkLost
  repeat' (first | exact ⟨_, rfl, by with_reducible assumption⟩ | split | (refine ⟨_, rfl, ?_⟩) | with_reducible assumption | exact id | extract_lets | with_reducible apply keeps_State_setPort | with_reducible apply keeps_State_report | split | (dsimp only) | (dsimp +zetaDelta only) | with_reducible apply keeps_mk)

theorem keeps_execPortLinkUp {s₀ : State} (port : Fin 8) (s : State) (k_s : s₀.Keeps s) :
    ∃ t₁, (execPortLinkUp port s) = .next t₁ ∧ s₀.Keeps t₁ := by
  unfold execPortLinkUp
  repeat' (first | exact ⟨_, rfl, by with_reducible assumption⟩ | split | (refine ⟨_, rfl, ?_⟩) | with_reducible assumption | exact id | extract_lets | with_reducible apply keeps_State_setPort | with_reducible apply keeps_State_startMka | split | (dsimp only) | with_reducible apply keeps_mk)

end Sys2Proof.Machine
end

