-- ==== Sys2Proof/Laws/KeepsSync.lean ====
section
/-! SUPPORT. Sys2Proof/Laws/KeepsSync.lean: what the operations of Machine/Sync.lean keep. -/

namespace Sys2Proof.Machine

open Sys2Proof

theorem keeps_State_took {s₀ : State} (s : State) (a : At) (p : Fin 16) (x : Part) (owner : Fin 8) (i : Nat) (q : Seq) (reg : Nat) (e : QEntry) (k_s : s₀.Keeps s) :
    s₀.Keeps (State.took s a p x owner i q reg e) := by
  unfold State.took
  repeat' (first | with_reducible assumption | extract_lets | with_reducible apply keeps_State_setPart | with_reducible apply keeps_State_setSeq | (dsimp only))

theorem keeps_Here_sync {s₀ : State} (h : Here) (f : State) (k_h : s₀.Keeps h.s) (k_f : s₀.Keeps f) :
    s₀.Keeps (Here.sync h f) := by
  unfold Here.sync
  repeat' (first | with_reducible assumption | extract_lets | with_reducible apply keeps_Here_hold | split | (dsimp only))

theorem keeps_execSig {s₀ : State} (a : At) (w : SWord) (s : State) (k_s : s₀.Keeps s) (hok : sigOk w = true) :
    ∃ t₁, (execSig a w s) = .next t₁ ∧ s₀.Keeps t₁ := by
  unfold execSig
  apply keeps_State_issueS s a w _ _ _ _ k_s hok
  intro h k_h
  repeat' (first | with_reducible assumption | exact id | extract_lets | with_reducible apply keeps_State_setPart | with_reducible apply keeps_State_trap | with_reducible apply keeps_Here_go | with_reducible apply keeps_Here_trap | with_reducible apply keeps_State_issueS | with_reducible apply keeps_Here_sync | split | intro _ _ _ | intro _ | (dsimp only) | (dsimp +zetaDelta only) | with_reducible apply keeps_mk)

theorem keeps_execSwait {s₀ : State} (a : At) (w : SWord) (s : State) (k_s : s₀.Keeps s) (hok : sigOk w = true) :
    ∃ t₁, (execSwait a w s) = .next t₁ ∧ s₀.Keeps t₁ := by
  unfold execSwait
  apply keeps_State_issueS s a w _ _ _ _ k_s hok
  intro h k_h
  repeat' (first | with_reducible assumption | exact id | extract_lets | with_reducible apply keeps_State_setPart | with_reducible apply keeps_Here_setQ | with_reducible apply keeps_Here_go | with_reducible apply keeps_State_issueS | with_reducible apply keeps_Here_sync | split | intro _ _ _ | intro _ | (dsimp only) | (dsimp +zetaDelta only) | with_reducible apply keeps_mk)

theorem keeps_execSwaitResume {s₀ : State} (a : At) (s : State) (k_s : s₀.Keeps s) :
    ∃ t₁, (execSwaitResume a s) = .next t₁ ∧ s₀.Keeps t₁ := by
  unfold execSwaitResume
  repeat' (first | exact ⟨_, rfl, by with_reducible assumption⟩ | split | (refine ⟨_, rfl, ?_⟩) | with_reducible assumption | extract_lets | with_reducible apply keeps_State_setPart | with_reducible apply keeps_State_setSeq | split | (dsimp only))

theorem keeps_execPut {s₀ : State} (a : At) (w : SWord) (s : State) (k_s : s₀.Keeps s) (hok : putOk w = true) :
    ∃ t₁, (execPut a w s) = .next t₁ ∧ s₀.Keeps t₁ := by
  unfold execPut
  apply keeps_State_issueS s a w _ _ _ _ k_s hok
  intro h k_h
  repeat' (first | with_reducible assumption | exact id | extract_lets | with_reducible apply keeps_State_setPart | with_reducible apply keeps_Here_go | with_reducible apply keeps_State_issueS | with_reducible apply keeps_Here_sync | split | intro _ _ _ | intro _ | (dsimp only) | (dsimp +zetaDelta only) | with_reducible apply keeps_mk)

theorem keeps_execTake {s₀ : State} (a : At) (w : SWord) (s : State) (k_s : s₀.Keeps s) (hok : takeOk w = true) :
    ∃ t₁, (execTake a w s) = .next t₁ ∧ s₀.Keeps t₁ := by
  unfold execTake
  apply keeps_State_issueS s a w _ _ _ _ k_s hok
  intro h k_h
  repeat' (first | with_reducible assumption | exact id | extract_lets | with_reducible apply keeps_State_trap | with_reducible apply keeps_Here_setQ | with_reducible apply keeps_Here_go | with_reducible apply keeps_Here_trap | with_reducible apply keeps_State_issueS | with_reducible apply keeps_State_took | with_reducible apply keeps_Here_sync | split | intro _ _ _ | intro _ | (dsimp only) | (dsimp +zetaDelta only) | with_reducible apply keeps_mk)

theorem keeps_execTakeResume {s₀ : State} (a : At) (s : State) (k_s : s₀.Keeps s) :
    ∃ t₁, (execTakeResume a s) = .next t₁ ∧ s₀.Keeps t₁ := by
  unfold execTakeResume
  repeat' (first | exact ⟨_, rfl, by with_reducible assumption⟩ | split | (refine ⟨_, rfl, ?_⟩) | with_reducible assumption | exact id | extract_lets | with_reducible apply keeps_State_took | split | (dsimp only) | with_reducible apply keeps_mk)

theorem keeps_execTakeTimeout {s₀ : State} (a : At) (s : State) (k_s : s₀.Keeps s) :
    ∃ t₁, (execTakeTimeout a s) = .next t₁ ∧ s₀.Keeps t₁ := by
  unfold execTakeTimeout
  repeat' (first | exact ⟨_, rfl, by with_reducible assumption⟩ | split | (refine ⟨_, rfl, ?_⟩) | with_reducible assumption | extract_lets | with_reducible apply keeps_State_setSeq | split | (dsimp only))

theorem keeps_execWaitsp {s₀ : State} (a : At) (w : SWord) (s : State) (k_s : s₀.Keeps s) (hok : waitspOk w = true) :
    ∃ t₁, (execWaitsp a w s) = .next t₁ ∧ s₀.Keeps t₁ := by
  unfold execWaitsp
  apply keeps_State_issueS s a w _ _ _ _ k_s hok
  intro h k_h
  repeat' (first | with_reducible assumption | exact id | extract_lets | with_reducible apply keeps_Here_setQ | with_reducible apply keeps_Here_go | with_reducible apply keeps_State_issueS | with_reducible apply keeps_Here_sync | split | intro _ _ _ | intro _ | (dsimp only) | with_reducible apply keeps_mk)

theorem keeps_execWaitspResume {s₀ : State} (a : At) (s : State) (k_s : s₀.Keeps s) :
    ∃ t₁, (execWaitspResume a s) = .next t₁ ∧ s₀.Keeps t₁ := by
  unfold execWaitspResume
  repeat' (first | exact ⟨_, rfl, by with_reducible assumption⟩ | split | (refine ⟨_, rfl, ?_⟩) | with_reducible assumption | extract_lets | with_reducible apply keeps_State_setSeq | split | (dsimp only))

theorem keeps_execPwait {s₀ : State} (a : At) (w : SWord) (s : State) (k_s : s₀.Keeps s) (hok : pwaitOk w = true) :
    ∃ t₁, (execPwait a w s) = .next t₁ ∧ s₀.Keeps t₁ := by
  unfold execPwait
  apply keeps_State_issueS s a w _ _ _ _ k_s hok
  intro h k_h
  repeat' (first | with_reducible assumption | exact id | extract_lets | with_reducible apply keeps_State_trap | with_reducible apply keeps_Here_setQ | with_reducible apply keeps_Here_go | with_reducible apply keeps_Here_trap | with_reducible apply keeps_State_issueS | with_reducible apply keeps_Here_sync | split | intro _ _ _ | intro _ | (dsimp only) | (dsimp +zetaDelta only) | with_reducible apply keeps_mk)

theorem keeps_execDone {s₀ : State} (a : At) (w : SWord) (s : State) (k_s : s₀.Keeps s) (hok : doneOk w = true) :
    ∃ t₁, (execDone a w s) = .next t₁ ∧ s₀.Keeps t₁ := by
  unfold execDone
  apply keeps_State_issueS s a w _ _ _ _ k_s hok
  intro h k_h
  repeat' (first | with_reducible assumption | exact id | extract_lets | with_reducible apply keeps_State_setPart | with_reducible apply keeps_State_trap | with_reducible apply keeps_Here_go | with_reducible apply keeps_Here_trap | with_reducible apply keeps_State_issueS | with_reducible apply keeps_Here_sync | split | intro _ _ _ | intro _ | (dsimp only) | (dsimp +zetaDelta only) | with_reducible apply keeps_mk)

end Sys2Proof.Machine
end

