-- ==== Sys2Proof/Laws/KeepsStreams.lean ====
section
/-! SUPPORT. Sys2Proof/Laws/KeepsStreams.lean: what the operations of Machine/Streams.lean keep. -/

namespace Sys2Proof.Machine

open Sys2Proof

theorem keeps_State_countThrash {s₀ : State} (s : State) (p : Fin 16) (x : Part) (id : Nat) (e : Stream) (k_s : s₀.Keeps s) :
    s₀.Keeps (State.countThrash s p x id e) := by
  unfold State.countThrash
  repeat' (first | with_reducible assumption | exact id | extract_lets | with_reducible apply keeps_State_setPart | with_reducible apply keeps_State_bump | split | intro _ _ _ | intro _ | (dsimp only) | (dsimp +zetaDelta only) | with_reducible apply keeps_mk)

theorem keeps_execSin {s₀ : State} (a : At) (w : SWord) (s : State) (k_s : s₀.Keeps s) (hok : doneOk w = true) :
    ∃ t₁, (execSin a w s) = .next t₁ ∧ s₀.Keeps t₁ := by
  unfold execSin
  apply keeps_State_issueS s a w _ _ _ _ k_s hok
  intro h k_h
  repeat' (first | with_reducible assumption | exact id | extract_lets | with_reducible apply keeps_State_modPart | with_reducible apply keeps_State_trap | with_reducible apply keeps_Here_go | with_reducible apply keeps_Here_hold | with_reducible apply keeps_Here_trap | with_reducible apply keeps_State_issueS | with_reducible apply keeps_State_countThrash | split | intro _ _ _ | intro _ | (dsimp only) | (dsimp +zetaDelta only) | with_reducible apply keeps_mk)

theorem keeps_execSout {s₀ : State} (a : At) (w : SWord) (s : State) (k_s : s₀.Keeps s) (hok : soutOk w = true) :
    ∃ t₁, (execSout a w s) = .next t₁ ∧ s₀.Keeps t₁ := by
  unfold execSout
  apply keeps_State_issueS s a w _ _ _ _ k_s hok
  intro h k_h
  repeat' (first | with_reducible assumption | exact id | extract_lets | with_reducible apply keeps_State_modPart | with_reducible apply keeps_State_trap | with_reducible apply keeps_Here_go | with_reducible apply keeps_Here_hold | with_reducible apply keeps_Here_trap | with_reducible apply keeps_State_issueS | split | intro _ _ _ | intro _ | (dsimp only) | (dsimp +zetaDelta only) | with_reducible apply keeps_mk)

theorem keeps_execSinLanded {s₀ : State} (a : At) (s : State) (k_s : s₀.Keeps s) :
    ∃ t₁, (execSinLanded a s) = .next t₁ ∧ s₀.Keeps t₁ := by
  unfold execSinLanded
  repeat' (first | exact ⟨_, rfl, by with_reducible assumption⟩ | split | (refine ⟨_, rfl, ?_⟩) | with_reducible assumption | exact id | extract_lets | with_reducible apply keeps_State_setPart | with_reducible apply keeps_State_putAt | with_reducible apply keeps_State_bump | with_reducible apply keeps_State_load_ | with_reducible apply keeps_State_faultBy | with_reducible apply keeps_State_readFault | split | intro _ _ _ | intro _ | (dsimp only) | (dsimp +zetaDelta only) | with_reducible apply keeps_mk)

theorem keeps_execSoutLanded {s₀ : State} (a : At) (s : State) (k_s : s₀.Keeps s) :
    ∃ t₁, (execSoutLanded a s) = .next t₁ ∧ s₀.Keeps t₁ := by
  unfold execSoutLanded
  repeat' (first | exact ⟨_, rfl, by with_reducible assumption⟩ | split | (refine ⟨_, rfl, ?_⟩) | with_reducible assumption | exact id | extract_lets | with_reducible apply keeps_State_setPart | with_reducible apply keeps_State_readFault | with_reducible apply keeps_State_copyRun | split | (dsimp only) | (dsimp +zetaDelta only) | with_reducible apply keeps_mk)

theorem keeps_homeStep {s₀ : State} (p : Fin 16) (x : Part) (a : At) (w : SWord) (q : Seq) (s : State) (k_s : s₀.Keeps s) :
    s₀.Keeps (homeStep p x a w q s).1 := by
  unfold homeStep
  repeat' (first | with_reducible assumption | exact id | extract_lets | with_reducible apply keeps_State_setPart | with_reducible apply keeps_State_trap | with_reducible apply keeps_Here_trap | split | (dsimp only) | (dsimp +zetaDelta only) | with_reducible apply keeps_mk)

theorem keeps_homeStep_eq {s₀ : State} (p : Fin 16) (x : Part) (a : At) (w : SWord) (q : Seq) (s : State) (k_s : s₀.Keeps s) {r₁ r₂} (e : (homeStep p x a w q s) = (r₁, r₂)) :
    s₀.Keeps r₁ := by
  have h₁ := keeps_homeStep p x a w q s k_s
  rw [e] at h₁
  exact h₁

theorem keeps_homeFork {s₀ : State} (p : Fin 16) (x : Part) (a : At) (w : SWord) (q : Seq) (s : State) (k_s : s₀.Keeps s) :
    s₀.Keeps (homeFork p x a w q s).1 := by
  unfold homeFork
  repeat' (first | exact k_s | (extract_lets; clear_value *) | split | exact keeps_State_bump _ _ _ _ (keeps_State_bump _ _ _ _ (keeps_State_setPart _ _ _ k_s)))

theorem keeps_homeFork_eq {s₀ : State} (p : Fin 16) (x : Part) (a : At) (w : SWord) (q : Seq) (s : State) (k_s : s₀.Keeps s) {r₁ r₂} (e : (homeFork p x a w q s) = (r₁, r₂)) :
    s₀.Keeps r₁ := by
  have h₁ := keeps_homeFork p x a w q s k_s
  rw [e] at h₁
  exact h₁

theorem keeps_homePrune {s₀ : State} (p : Fin 16) (x : Part) (a : At) (w : SWord) (q : Seq) (s : State) (k_s : s₀.Keeps s) :
    s₀.Keeps (homePrune p x a w q s).1 := by
  unfold homePrune
  repeat' (first | with_reducible assumption | extract_lets | with_reducible apply keeps_State_setPart | with_reducible apply keeps_State_bump | with_reducible apply keeps_State_trap | with_reducible apply keeps_Here_trap | with_reducible apply keeps_foldl | split | intro _ _ _ | intro _ | (dsimp only) | (dsimp +zetaDelta only))

theorem keeps_homePrune_eq {s₀ : State} (p : Fin 16) (x : Part) (a : At) (w : SWord) (q : Seq) (s : State) (k_s : s₀.Keeps s) {r₁ r₂} (e : (homePrune p x a w q s) = (r₁, r₂)) :
    s₀.Keeps r₁ := by
  have h₁ := keeps_homePrune p x a w q s k_s
  rw [e] at h₁
  exact h₁

theorem keeps_homeJoin {s₀ : State} (p : Fin 16) (x : Part) (a : At) (w : SWord) (q : Seq) (s : State) (k_s : s₀.Keeps s) :
    s₀.Keeps (homeJoin p x a w q s).1 := by
  unfold homeJoin
  repeat' (first | with_reducible assumption | exact id | extract_lets | with_reducible apply keeps_State_setPart | with_reducible apply keeps_State_bump | with_reducible apply keeps_State_trap | with_reducible apply keeps_Here_trap | with_reducible apply keeps_State_copyRun | with_reducible apply keeps_foldl | split | intro _ _ _ | intro _ | (dsimp only) | (dsimp +zetaDelta only) | with_reducible apply keeps_mk)

theorem keeps_homeJoin_eq {s₀ : State} (p : Fin 16) (x : Part) (a : At) (w : SWord) (q : Seq) (s : State) (k_s : s₀.Keeps s) {r₁ r₂} (e : (homeJoin p x a w q s) = (r₁, r₂)) :
    s₀.Keeps r₁ := by
  have h₁ := keeps_homeJoin p x a w q s k_s
  rw [e] at h₁
  exact h₁

theorem keeps_homeDo {s₀ : State} (op : Nat) (p : Fin 16) (x : Part) (a : At) (w : SWord) (q : Seq) (s : State) (k_s : s₀.Keeps s) :
    s₀.Keeps (homeDo op p x a w q s).1 := by
  unfold homeDo
  split
  · exact keeps_homeStep _ _ _ _ _ _ k_s
  · split
    · exact keeps_homeFork _ _ _ _ _ _ k_s
    · split
      · exact keeps_homePrune _ _ _ _ _ _ k_s
      · exact keeps_homeJoin _ _ _ _ _ _ k_s

theorem keeps_homeDo_eq {s₀ : State} (op : Nat) (p : Fin 16) (x : Part) (a : At) (w : SWord) (q : Seq) (s : State) (k_s : s₀.Keeps s) {r₁ r₂} (e : (homeDo op p x a w q s) = (r₁, r₂)) :
    s₀.Keeps r₁ := by
  have h₁ := keeps_homeDo op p x a w q s k_s
  rw [e] at h₁
  exact h₁

theorem keeps_Reply_land {s₀ : State} (r : State × Reply) (a : At) (w : SWord) (q : Seq) (k_r : s₀.Keeps r.1) :
    s₀.Keeps (Reply.land r a w q) := by
  unfold Reply.land
  split
  · exact keeps_State_trap _ _ _ (keeps_State_setSeq _ _ _ k_r)
  · exact keeps_State_setSeq _ _ _ k_r
  · exact keeps_State_setSeq _ _ _ k_r

theorem keeps_Here_home {s₀ : State} (h : Here) (w : SWord) (op : Nat) (k_h : s₀.Keeps h.s) :
    s₀.Keeps (Here.home h w op) := by
  unfold Here.home
  repeat' (first | with_reducible assumption | exact id | extract_lets | with_reducible apply keeps_State_setSeq | with_reducible apply keeps_State_modPart | with_reducible apply keeps_homeDo | with_reducible (refine keeps_homeDo_eq _ _ _ _ _ _ _ ?_ (by with_reducible assumption)) | with_reducible apply keeps_Reply_land | split | intro _ _ _ | intro _ | (dsimp only) | (dsimp +zetaDelta only) | with_reducible apply keeps_mk)

theorem keeps_execSstep {s₀ : State} (a : At) (w : SWord) (s : State) (k_s : s₀.Keeps s) (hok : sstepOk w = true) :
    ∃ t₁, (execSstep a w s) = .next t₁ ∧ s₀.Keeps t₁ := by
  unfold execSstep
  apply keeps_State_issueS s a w _ _ _ _ k_s hok
  intro h k_h
  repeat' (first | with_reducible assumption | extract_lets | with_reducible apply keeps_State_issueS | with_reducible apply keeps_Here_home | intro _ _ _ | intro _ | (dsimp only))

theorem keeps_execFork {s₀ : State} (a : At) (w : SWord) (s : State) (k_s : s₀.Keeps s) (hok : forkOk w = true) :
    ∃ t₁, (execFork a w s) = .next t₁ ∧ s₀.Keeps t₁ := by
  unfold execFork
  apply keeps_State_issueS s a w _ _ _ _ k_s hok
  intro h k_h
  repeat' (first | with_reducible assumption | extract_lets | with_reducible apply keeps_State_issueS | with_reducible apply keeps_Here_home | intro _ _ _ | intro _ | (dsimp only))

theorem keeps_execPrune {s₀ : State} (a : At) (w : SWord) (s : State) (k_s : s₀.Keeps s) (hok : pruneOk w = true) :
    ∃ t₁, (execPrune a w s) = .next t₁ ∧ s₀.Keeps t₁ := by
  unfold execPrune
  apply keeps_State_issueS s a w _ _ _ _ k_s hok
  intro h k_h
  repeat' (first | with_reducible assumption | extract_lets | with_reducible apply keeps_State_issueS | with_reducible apply keeps_Here_home | intro _ _ _ | intro _ | (dsimp only))

theorem keeps_execJoin {s₀ : State} (a : At) (w : SWord) (s : State) (k_s : s₀.Keeps s) (hok : doneOk w = true) :
    ∃ t₁, (execJoin a w s) = .next t₁ ∧ s₀.Keeps t₁ := by
  unfold execJoin
  apply keeps_State_issueS s a w _ _ _ _ k_s hok
  intro h k_h
  repeat' (first | with_reducible assumption | extract_lets | with_reducible apply keeps_State_issueS | with_reducible apply keeps_Here_home | intro _ _ _ | intro _ | (dsimp only))

theorem keeps_execStreamHomeUpdate {s₀ : State} (p : Fin 16) (s : State) (k_s : s₀.Keeps s) :
    ∃ t₁, (execStreamHomeUpdate p s) = .next t₁ ∧ s₀.Keeps t₁ := by
  unfold execStreamHomeUpdate
  repeat' (first | exact ⟨_, rfl, by with_reducible assumption⟩ | split | (refine ⟨_, rfl, ?_⟩) | with_reducible assumption | exact id | extract_lets | with_reducible apply keeps_State_setPart | with_reducible apply keeps_homeDo | with_reducible (refine keeps_homeDo_eq _ _ _ _ _ _ _ ?_ (by with_reducible assumption)) | with_reducible apply keeps_Reply_land | with_reducible apply keeps_Here_home | split | (dsimp only) | (dsimp +zetaDelta only) | with_reducible apply keeps_mk)

theorem keeps_execForkResume {s₀ : State} (a : At) (s : State) (k_s : s₀.Keeps s) :
    ∃ t₁, (execForkResume a s) = .next t₁ ∧ s₀.Keeps t₁ := by
  unfold execForkResume
  repeat' (first | exact ⟨_, rfl, by with_reducible assumption⟩ | split | (refine ⟨_, rfl, ?_⟩) | with_reducible assumption | exact id | extract_lets | with_reducible apply keeps_homeDo | with_reducible (refine keeps_homeDo_eq _ _ _ _ _ _ _ ?_ (by with_reducible assumption)) | with_reducible apply keeps_Reply_land | split | (dsimp only) | (dsimp +zetaDelta only) | with_reducible apply keeps_mk)

end Sys2Proof.Machine
end

