-- ==== Sys2Proof/Laws/KeepsRequests.lean ====
section
/-! SUPPORT. Sys2Proof/Laws/KeepsRequests.lean: what the operations of Machine/Requests.lean keep. -/

namespace Sys2Proof.Machine

open Sys2Proof

theorem keeps_State_markHeld {s₀ : State} (s : State) (p : Fin 16) (k_s : s₀.Keeps s) :
    s₀.Keeps (State.markHeld s p) := by
  unfold State.markHeld
  repeat' (first | with_reducible assumption | exact id | extract_lets | with_reducible apply keeps_State_modPart | with_reducible apply keeps_foldl | split | intro _ _ _ | intro _ | (dsimp only) | with_reducible apply keeps_mk)

theorem keeps_State_stageFor {s₀ : State} (s : State) (r : Staged) (refused : Option Nat) (k_s : s₀.Keeps s) :
    s₀.Keeps (State.stageFor s r refused).1 := by
  unfold State.stageFor
  repeat' (first | with_reducible assumption | exact id | extract_lets | with_reducible apply keeps_State_staged | with_reducible apply keeps_State_markHeld | split | (dsimp only) | (dsimp +zetaDelta only) | with_reducible apply keeps_mk)

theorem keeps_State_stageFor_eq {s₀ : State} (s : State) (r : Staged) (refused : Option Nat) (k_s : s₀.Keeps s) {r₁ r₂} (e : (State.stageFor s r refused) = (r₁, r₂)) :
    s₀.Keeps r₁ := by
  have h₁ := keeps_State_stageFor s r refused k_s
  rw [e] at h₁
  exact h₁

theorem keeps_execRunSubmit {s₀ : State} (m : Msg) (s : State) (k_s : s₀.Keeps s) :
    ∃ t₁, (execRunSubmit m s) = .next t₁ ∧ s₀.Keeps t₁ := by
  unfold execRunSubmit
  repeat' (first | exact ⟨_, rfl, by with_reducible assumption⟩ | split | (refine ⟨_, rfl, ?_⟩) | with_reducible assumption | exact id | extract_lets | with_reducible apply keeps_State_setPart | with_reducible apply keeps_State_septa | with_reducible apply keeps_State_recordEntry | split | intro _ _ _ | intro _ | (dsimp only) | (dsimp +zetaDelta only) | with_reducible apply keeps_mk)

theorem keeps_execStreamOpen {s₀ : State} (m : Msg) (s : State) (k_s : s₀.Keeps s) :
    ∃ t₁, (execStreamOpen m s) = .next t₁ ∧ s₀.Keeps t₁ := by
  unfold execStreamOpen
  repeat' (first | exact ⟨_, rfl, by with_reducible assumption⟩ | split | (refine ⟨_, rfl, ?_⟩) | with_reducible assumption | extract_lets | with_reducible apply keeps_State_septa | with_reducible apply keeps_State_stageFor | with_reducible (refine keeps_State_stageFor_eq _ _ _ ?_ (by with_reducible assumption)) | intro _ _ _ | intro _ | (dsimp only))

theorem keeps_execStreamReset {s₀ : State} (m : Msg) (s : State) (k_s : s₀.Keeps s) :
    ∃ t₁, (execStreamReset m s) = .next t₁ ∧ s₀.Keeps t₁ := by
  unfold execStreamReset
  repeat' (first | exact ⟨_, rfl, by with_reducible assumption⟩ | split | (refine ⟨_, rfl, ?_⟩) | with_reducible assumption | extract_lets | with_reducible apply keeps_State_septa | with_reducible apply keeps_State_stageFor | with_reducible (refine keeps_State_stageFor_eq _ _ _ ?_ (by with_reducible assumption)) | intro _ _ _ | intro _ | (dsimp only))

theorem keeps_execStreamClose {s₀ : State} (m : Msg) (s : State) (k_s : s₀.Keeps s) :
    ∃ t₁, (execStreamClose m s) = .next t₁ ∧ s₀.Keeps t₁ := by
  unfold execStreamClose
  repeat' (first | exact ⟨_, rfl, by with_reducible assumption⟩ | split | (refine ⟨_, rfl, ?_⟩) | with_reducible assumption | extract_lets | with_reducible apply keeps_State_septa | with_reducible apply keeps_State_stageFor | with_reducible (refine keeps_State_stageFor_eq _ _ _ ?_ (by with_reducible assumption)) | intro _ _ _ | intro _ | (dsimp only))

theorem keeps_execStreamStatus {s₀ : State} (m : Msg) (s : State) (k_s : s₀.Keeps s) :
    ∃ t₁, (execStreamStatus m s) = .next t₁ ∧ s₀.Keeps t₁ := by
  unfold execStreamStatus
  repeat' (first | exact ⟨_, rfl, by with_reducible assumption⟩ | split | (refine ⟨_, rfl, ?_⟩) | with_reducible assumption | extract_lets | with_reducible apply keeps_State_septa | split | intro _ _ _ | intro _ | (dsimp only))

theorem keeps_execSeqOpen {s₀ : State} (m : Msg) (s : State) (k_s : s₀.Keeps s) :
    ∃ t₁, (execSeqOpen m s) = .next t₁ ∧ s₀.Keeps t₁ := by
  unfold execSeqOpen
  repeat' (first | exact ⟨_, rfl, by with_reducible assumption⟩ | split | (refine ⟨_, rfl, ?_⟩) | with_reducible assumption | extract_lets | with_reducible apply keeps_State_septa | with_reducible apply keeps_State_stageFor | with_reducible (refine keeps_State_stageFor_eq _ _ _ ?_ (by with_reducible assumption)) | intro _ _ _ | intro _ | (dsimp only))

theorem keeps_execSeqPolicy {s₀ : State} (m : Msg) (s : State) (k_s : s₀.Keeps s) :
    ∃ t₁, (execSeqPolicy m s) = .next t₁ ∧ s₀.Keeps t₁ := by
  unfold execSeqPolicy
  repeat' (first | exact ⟨_, rfl, by with_reducible assumption⟩ | split | (refine ⟨_, rfl, ?_⟩) | with_reducible assumption | extract_lets | with_reducible apply keeps_State_septa | with_reducible apply keeps_State_stageFor | with_reducible (refine keeps_State_stageFor_eq _ _ _ ?_ (by with_reducible assumption)) | intro _ _ _ | intro _ | (dsimp only))

theorem keeps_execSeqClose {s₀ : State} (m : Msg) (s : State) (k_s : s₀.Keeps s) :
    ∃ t₁, (execSeqClose m s) = .next t₁ ∧ s₀.Keeps t₁ := by
  unfold execSeqClose
  repeat' (first | exact ⟨_, rfl, by with_reducible assumption⟩ | split | (refine ⟨_, rfl, ?_⟩) | with_reducible assumption | extract_lets | with_reducible apply keeps_State_septa | with_reducible apply keeps_State_stageFor | with_reducible (refine keeps_State_stageFor_eq _ _ _ ?_ (by with_reducible assumption)) | intro _ _ _ | intro _ | (dsimp only))

theorem keeps_execReportSet {s₀ : State} (m : Msg) (s : State) (k_s : s₀.Keeps s) :
    ∃ t₁, (execReportSet m s) = .next t₁ ∧ s₀.Keeps t₁ := by
  unfold execReportSet
  repeat' (first | exact ⟨_, rfl, by with_reducible assumption⟩ | split | (refine ⟨_, rfl, ?_⟩) | with_reducible assumption | extract_lets | with_reducible apply keeps_State_septa | with_reducible apply keeps_State_stageFor | with_reducible (refine keeps_State_stageFor_eq _ _ _ ?_ (by with_reducible assumption)) | intro _ _ _ | intro _ | (dsimp only))

end Sys2Proof.Machine
end

