-- ==== Sys2Proof/Laws/KeepsPartition.lean ====
section
/-! SUPPORT. Sys2Proof/Laws/KeepsPartition.lean: what the operations of Machine/Partition.lean keep. -/

namespace Sys2Proof.Machine

open Sys2Proof

theorem keeps_State_loadTreads {s₀ : State} (s : State) (k : PartCfg) (k_s : s₀.Keeps s) :
    s₀.Keeps (State.loadTreads s k) := by
  unfold State.loadTreads
  repeat' (first | with_reducible assumption | exact id | exact Loom.to_setSeq _ _ _ | exact Loom.to_setBank _ _ _ | exact fun l => to_of (fun h => h) | exact to_of (fun h => h) | exact fun l => to_of (fun h => ⟨wf_loadCode _ _, h.2⟩) | extract_lets | with_reducible apply keeps_State_modLoom | with_reducible apply keeps_foldl | intro _ _ _ | intro _ | (dsimp only) | (dsimp +zetaDelta only) | with_reducible apply keeps_mk)

theorem keeps_State_takeLooms {s₀ : State} (s : State) (p : Fin 16) (k : PartCfg) (k_s : s₀.Keeps s) :
    s₀.Keeps (State.takeLooms s p k) := by
  unfold State.takeLooms
  repeat' (first | with_reducible assumption | exact id | exact Loom.to_setSeq _ _ _ | exact Loom.to_setBank _ _ _ | exact fun l => to_of (fun h => h) | exact to_of (fun h => h) | exact fun l => to_of (fun h => ⟨h.1, rising_seqs _ _, rfl, rfl⟩) | extract_lets | with_reducible apply keeps_State_modLoom | with_reducible apply keeps_foldl | intro _ _ _ | intro _ | (dsimp only) | (dsimp +zetaDelta only) | with_reducible apply keeps_mk)

theorem keeps_State_freeLooms {s₀ : State} (s : State) (looms : List Nat) (k_s : s₀.Keeps s) :
    s₀.Keeps (State.freeLooms s looms) := by
  unfold State.freeLooms
  repeat' (first | with_reducible assumption | exact Loom.to_setSeq _ _ _ | exact Loom.to_setBank _ _ _ | exact fun l => to_of (fun h => h) | exact to_of (fun h => h) | exact Loom.to_free | extract_lets | with_reducible apply keeps_State_modLoom | with_reducible apply keeps_foldl | intro _ _ _ | intro _ | (dsimp only))

theorem keeps_State_zeroiseStores {s₀ : State} (s : State) (p : Fin 16) (k : PartCfg) (k_s : s₀.Keeps s) :
    s₀.Keeps (State.zeroiseStores s p k) := by
  unfold State.zeroiseStores
  repeat' (first | with_reducible assumption | exact id | exact fun h => Memory.Ok.keep h _ _ | exact Loom.to_setSeq _ _ _ | exact Loom.to_setBank _ _ _ | exact fun l => to_of (fun h => h) | exact to_of (fun h => h) | exact fun l => to_of (fun h => ⟨rfl, h.2⟩) | extract_lets | with_reducible apply keeps_State_modLoom | with_reducible apply keeps_State_keep | with_reducible apply keeps_foldl | intro _ _ _ | intro _ | (dsimp only) | (dsimp +zetaDelta only) | with_reducible apply keeps_mk)

theorem keeps_State_endSession {s₀ : State} (s : State) (p : Fin 16) (k_s : s₀.Keeps s) :
    s₀.Keeps (State.endSession s p) := by
  unfold State.endSession
  repeat' (first | with_reducible assumption | exact id | extract_lets | with_reducible apply keeps_State_keep | intro _ _ _ | intro _ | (dsimp only) | with_reducible apply keeps_mk)

theorem keeps_State_freeSlots {s₀ : State} (s : State) (p : Fin 16) (k_s : s₀.Keeps s) :
    s₀.Keeps (State.freeSlots s p) :=
  keeps_order k_s (fun o => { o with slots := Tab.rising_filter o.slots _ })

theorem keeps_State_takeSlots {s₀ : State} (s : State) (p : Fin 16) (k : PartCfg) (k_s : s₀.Keeps s) :
    s₀.Keeps (State.takeSlots s p k) := by
  unfold State.takeSlots
  repeat' (first | with_reducible assumption | exact id | extract_lets | with_reducible apply keeps_State_setSlot | with_reducible apply keeps_foldl | intro _ _ _ | intro _ | (dsimp only) | with_reducible apply keeps_mk)

theorem keeps_State_storeAccounts {s₀ : State} (s : State) (p : Fin 16) (x : Part) (k_s : s₀.Keeps s) :
    s₀.Keeps (State.storeAccounts s p x) := by
  unfold State.storeAccounts
  repeat' (first | with_reducible assumption | extract_lets | with_reducible apply keeps_State_commitAccounts | intro _ _ _ | intro _ | (dsimp only))

theorem keeps_State_drbg {s₀ : State} (s : State) (w : Nat) (k_s : s₀.Keeps s) :
    s₀.Keeps (State.drbg s w).2 := by
  unfold State.drbg
  repeat' (first | with_reducible assumption | exact id | extract_lets | with_reducible apply keeps_State_draw | with_reducible (refine keeps_State_draw_eq _ _ ?_ (by with_reducible assumption)) | split | (dsimp only) | (dsimp +zetaDelta only) | with_reducible apply keeps_mk)

theorem keeps_State_drbg_eq {s₀ : State} (s : State) (w : Nat) (k_s : s₀.Keeps s) {r₁ r₂} (e : (State.drbg s w) = (r₁, r₂)) :
    s₀.Keeps r₂ := by
  have h₁ := keeps_State_drbg s w k_s
  rw [e] at h₁
  exact h₁

theorem keeps_State_recordRetained {s₀ : State} (s : State) (p : Fin 16) (x : Part) (vs : List CarveCfg) (k_s : s₀.Keeps s) :
    s₀.Keeps (State.recordRetained s p x vs) := by
  unfold State.recordRetained
  repeat' (first | with_reducible assumption | extract_lets | with_reducible apply keeps_State_recordCloth | with_reducible apply keeps_foldl | intro _ _ _ | intro _ | (dsimp only))

theorem keeps_State_beginSwatch {s₀ : State} (s : State) (p : Fin 16) (n : Word) (retained : List CarveCfg) (k_s : s₀.Keeps s) :
    s₀.Keeps (State.beginSwatch s p n retained) := by
  unfold State.beginSwatch
  repeat' (first | with_reducible assumption | exact id | extract_lets | with_reducible apply keeps_State_setPart | with_reducible apply keeps_State_setFld | with_reducible apply keeps_State_report | with_reducible apply keeps_State_appendRecord | with_reducible apply keeps_State_recordRetained | split | (dsimp only) | (dsimp +zetaDelta only) | with_reducible apply keeps_mk)

theorem keeps_State_startPart {s₀ : State} (s : State) (p : Fin 16) (n : Word) (retained : List CarveCfg) (k_s : s₀.Keeps s) :
    s₀.Keeps (State.startPart s p n retained) := by
  unfold State.startPart
  repeat' (first | with_reducible assumption | exact id | extract_lets | with_reducible apply keeps_State_setPart | with_reducible apply keeps_State_takeLooms | with_reducible apply keeps_State_beginSwatch | with_reducible apply keeps_foldl | split | intro _ _ _ | intro _ | (dsimp only) | (dsimp +zetaDelta only) | with_reducible apply keeps_mk)

theorem keeps_State_createPart {s₀ : State} (s : State) (p : Fin 16) (k : PartCfg) (k_s : s₀.Keeps s) :
    s₀.Keeps (State.createPart s p k) := by
  unfold State.createPart
  repeat' (first | with_reducible assumption | exact id | extract_lets | with_reducible apply keeps_State_setPart | with_reducible apply keeps_State_emptyWindows | with_reducible apply keeps_State_loadTreads | with_reducible apply keeps_State_takeLooms | with_reducible apply keeps_State_freeLooms | with_reducible apply keeps_State_takeSlots | with_reducible apply keeps_State_drbg | with_reducible (refine keeps_State_drbg_eq _ _ ?_ (by with_reducible assumption)) | split | (dsimp only) | (dsimp +zetaDelta only) | with_reducible apply keeps_mk)

theorem keeps_State_replacePart {s₀ : State} (s : State) (p : Fin 16) (k : PartCfg) (n : Word) (k_s : s₀.Keeps s) :
    s₀.Keeps (State.replacePart s p k n) := by
  unfold State.replacePart
  repeat' (first | with_reducible assumption | exact id | extract_lets | with_reducible apply keeps_State_setPart | with_reducible apply keeps_State_keep | with_reducible apply keeps_State_freeLooms | with_reducible apply keeps_State_freeSlots | with_reducible apply keeps_State_takeSlots | with_reducible apply keeps_State_drbg | with_reducible (refine keeps_State_drbg_eq _ _ ?_ (by with_reducible assumption)) | with_reducible apply keeps_State_startPart | split | intro _ _ _ | intro _ | (dsimp only) | (dsimp +zetaDelta only) | with_reducible apply keeps_mk)

theorem keeps_State_removePart {s₀ : State} (s : State) (p : Fin 16) (k_s : s₀.Keeps s) :
    s₀.Keeps (State.removePart s p) := by
  unfold State.removePart
  repeat' (first | with_reducible assumption | exact id | exact fun h => Tab.rising_del h _ | extract_lets | with_reducible apply keeps_State_setFld | with_reducible apply keeps_State_freeLooms | with_reducible apply keeps_State_zeroiseStores | with_reducible apply keeps_State_endSession | with_reducible apply keeps_State_freeSlots | with_reducible apply keeps_State_storeAccounts | split | (dsimp only) | (dsimp +zetaDelta only) | with_reducible apply keeps_mk)

end Sys2Proof.Machine
end

