-- ==== Sys2Proof/Laws/KeepsSecurity.lean ====
section
/-! SUPPORT. Sys2Proof/Laws/KeepsSecurity.lean: what the operations of Machine/Security.lean keep. -/

namespace Sys2Proof.Machine

open Sys2Proof

theorem keeps_State_secReport {s₀ : State} (s : State) (code : Nat) (k_s : s₀.Keeps s) :
    s₀.Keeps (State.secReport s code) := by
  unfold State.secReport
  repeat' (first | with_reducible assumption | extract_lets | with_reducible apply keeps_State_report | (dsimp only))

theorem keeps_State_newAttestation {s₀ : State} (s : State) (k_s : s₀.Keeps s) :
    s₀.Keeps (State.newAttestation s) := by
  unfold State.newAttestation
  repeat' (first | with_reducible assumption | exact id | extract_lets | with_reducible apply keeps_State_drbg | with_reducible (refine keeps_State_drbg_eq _ _ ?_ (by with_reducible assumption)) | split | (dsimp only) | (dsimp +zetaDelta only) | with_reducible apply keeps_mk)

theorem keeps_execSecIdentity {s₀ : State} (m : Msg) (s : State) (k_s : s₀.Keeps s) :
    ∃ t₁, (execSecIdentity m s) = .next t₁ ∧ s₀.Keeps t₁ := by
  unfold execSecIdentity
  repeat' (first | exact ⟨_, rfl, by with_reducible assumption⟩ | split | (refine ⟨_, rfl, ?_⟩) | with_reducible assumption | extract_lets | with_reducible apply keeps_State_septa | split | intro _ _ _ | intro _ | (dsimp only))

theorem keeps_State_quote {s₀ : State} (s : State) (r : Staged) (k ak : Nat) (k_s : s₀.Keeps s) :
    s₀.Keeps (State.quote s r k ak).1 := by
  unfold State.quote
  repeat' (first | with_reducible assumption | exact id | extract_lets | with_reducible apply keeps_State_bump | with_reducible apply keeps_State_drbg | with_reducible (refine keeps_State_drbg_eq _ _ ?_ (by with_reducible assumption)) | split | (dsimp only) | (dsimp +zetaDelta only) | with_reducible apply keeps_mk)

theorem keeps_State_quote_eq {s₀ : State} (s : State) (r : Staged) (k ak : Nat) (k_s : s₀.Keeps s) {r₁ r₂} (e : (State.quote s r k ak) = (r₁, r₂)) :
    s₀.Keeps r₁ := by
  have h₁ := keeps_State_quote s r k ak k_s
  rw [e] at h₁
  exact h₁

theorem keeps_State_needsDrbg {s₀ : State} (s : State) (f : State → State × Answer) (k_s : s₀.Keeps s) (k_f : ∀ x0, s₀.Keeps x0 → s₀.Keeps (f x0).1) :
    s₀.Keeps (State.needsDrbg s f).1 := by
  unfold State.needsDrbg
  repeat' (first | with_reducible assumption | extract_lets | with_reducible apply k_f | split | (dsimp only))

theorem keeps_State_needsDrbg_eq {s₀ : State} (s : State) (f : State → State × Answer) (k_s : s₀.Keeps s) (k_f : ∀ x0, s₀.Keeps x0 → s₀.Keeps (f x0).1) {r₁ r₂} (e : (State.needsDrbg s f) = (r₁, r₂)) :
    s₀.Keeps r₁ := by
  have h₁ := keeps_State_needsDrbg s f k_s k_f
  rw [e] at h₁
  exact h₁

theorem keeps_doQuote {s₀ : State} (r : Staged) (s : State) (k_s : s₀.Keeps s) :
    s₀.Keeps (doQuote r s).1 := by
  unfold doQuote
  repeat' (first | with_reducible assumption | extract_lets | with_reducible apply keeps_State_quote | with_reducible (refine keeps_State_quote_eq _ _ _ _ ?_ (by with_reducible assumption)) | with_reducible apply keeps_State_needsDrbg | with_reducible (refine keeps_State_needsDrbg_eq _ _ ?_ (by with_reducible assumption)) | split | intro _ _ _ | intro _ | (dsimp only))

theorem keeps_doQuote_eq {s₀ : State} (r : Staged) (s : State) (k_s : s₀.Keeps s) {r₁ r₂} (e : (doQuote r s) = (r₁, r₂)) :
    s₀.Keeps r₁ := by
  have h₁ := keeps_doQuote r s k_s
  rw [e] at h₁
  exact h₁

theorem keeps_execSecQuote {s₀ : State} (m : Msg) (s : State) (k_s : s₀.Keeps s) :
    ∃ t₁, (execSecQuote m s) = .next t₁ ∧ s₀.Keeps t₁ := by
  unfold execSecQuote
  repeat' (first | exact ⟨_, rfl, by with_reducible assumption⟩ | split | (refine ⟨_, rfl, ?_⟩) | with_reducible assumption | extract_lets | with_reducible apply keeps_State_septa | with_reducible apply keeps_doQuote | with_reducible (refine keeps_doQuote_eq _ _ ?_ (by with_reducible assumption)) | (dsimp only))

theorem keeps_State_dropPending {s₀ : State} (s : State) (k : Nat) (k_s : s₀.Keeps s) :
    s₀.Keeps (State.dropPending s k) := by
  unfold State.dropPending
  repeat' (first | with_reducible assumption | exact id | extract_lets | (dsimp only) | with_reducible apply keeps_mk)

theorem keeps_execSecSessionOpen {s₀ : State} (m : Msg) (s : State) (k_s : s₀.Keeps s) :
    ∃ t₁, (execSecSessionOpen m s) = .next t₁ ∧ s₀.Keeps t₁ := by
  unfold execSecSessionOpen
  repeat' (first | exact ⟨_, rfl, by with_reducible assumption⟩ | split | (refine ⟨_, rfl, ?_⟩) | with_reducible assumption | exact id | extract_lets | with_reducible apply keeps_State_septa | with_reducible apply keeps_State_secReport | with_reducible apply keeps_State_quote | with_reducible (refine keeps_State_quote_eq _ _ _ _ ?_ (by with_reducible assumption)) | with_reducible apply keeps_State_dropPending | split | intro _ _ _ | intro _ | (dsimp only) | (dsimp +zetaDelta only) | with_reducible apply keeps_mk)

theorem keeps_State_stageSec {s₀ : State} (s : State) (r : Staged) (refused : Option Nat) (k_s : s₀.Keeps s) :
    s₀.Keeps (State.stageSec s r refused).1 := by
  unfold State.stageSec
  repeat' (first | with_reducible assumption | extract_lets | with_reducible apply keeps_State_staged | split | (dsimp only))

theorem keeps_State_stageSec_eq {s₀ : State} (s : State) (r : Staged) (refused : Option Nat) (k_s : s₀.Keeps s) {r₁ r₂} (e : (State.stageSec s r refused) = (r₁, r₂)) :
    s₀.Keeps r₁ := by
  have h₁ := keeps_State_stageSec s r refused k_s
  rw [e] at h₁
  exact h₁

theorem keeps_execSecKeyLoad {s₀ : State} (m : Msg) (s : State) (k_s : s₀.Keeps s) :
    ∃ t₁, (execSecKeyLoad m s) = .next t₁ ∧ s₀.Keeps t₁ := by
  unfold execSecKeyLoad
  repeat' (first | exact ⟨_, rfl, by with_reducible assumption⟩ | split | (refine ⟨_, rfl, ?_⟩) | with_reducible assumption | extract_lets | with_reducible apply keeps_State_septa | with_reducible apply keeps_State_stageSec | with_reducible (refine keeps_State_stageSec_eq _ _ _ ?_ (by with_reducible assumption)) | intro _ _ _ | intro _ | (dsimp only))

theorem keeps_State_loadRegion {s₀ : State} (s : State) (p : Fin 16) (key : BitVec 256) (k_s : s₀.Keeps s) :
    s₀.Keeps (State.loadRegion s p key) := by
  unfold State.loadRegion
  repeat' (first | with_reducible assumption | exact id | extract_lets | with_reducible apply keeps_State_modPart | split | intro _ _ _ | intro _ | (dsimp only) | (dsimp +zetaDelta only) | with_reducible apply keeps_mk)

theorem keeps_State_loadKey {s₀ : State} (s : State) (k : Nat) (e : List Byte) (k_s : s₀.Keeps s) {r₀} (e : (State.loadKey s k e) = some r₀) :
    s₀.Keeps r₀ := by
  unfold State.loadKey at e
  cases hk : keyPart k with
  | none =>
    simp only [hk] at e
    generalize hc : s.commit _ = c at e
    obtain ⟨u, ok⟩ := c
    cases ok with
    | false => simp only [reduceCtorEq] at e
    | true =>
      simp only [Option.some.injEq] at e
      subst e
      exact keeps_foldl _ _ (keeps_State_commit_eq _ _ k_s hc)
        (fun w i k => by split; exact keeps_State_startMka _ _ k; exact k)
  | some p =>
    simp only [hk] at e
    split at e
    · split at e
      · simp only [reduceCtorEq] at e
      · simp only [Option.some.injEq] at e; subst e; exact keeps_State_loadRegion _ _ _ k_s
    · split at e
      · simp only [Option.some.injEq] at e; subst e; exact keeps_mk k_s _ _ _ _ _ _ _ _ _ _ _
      · split at e
        · simp only [Option.some.injEq] at e; subst e; exact keeps_mk k_s _ _ _ _ _ _ _ _ _ _ _
        · simp only [reduceCtorEq] at e

theorem keeps_State_loadKeys {s₀ : State} (s : State) (k : Nat) (bs : List Byte) (i n : Nat) (k_s : s₀.Keeps s) {r₀} (e : (State.loadKeys s k bs i n) = .ok r₀) :
    s₀.Keeps r₀ := by
  induction n generalizing s i with
  | zero => unfold State.loadKeys at e; cases e; exact k_s
  | succ m ih =>
    unfold State.loadKeys at e
    split at e
    · cases e
    · next h => exact ih _ _ (keeps_State_loadKey _ _ _ k_s h) e

theorem keeps_execSecSessionClose {s₀ : State} (m : Msg) (s : State) (k_s : s₀.Keeps s) :
    ∃ t₁, (execSecSessionClose m s) = .next t₁ ∧ s₀.Keeps t₁ := by
  unfold execSecSessionClose
  repeat' (first | exact ⟨_, rfl, by with_reducible assumption⟩ | split | (refine ⟨_, rfl, ?_⟩) | with_reducible assumption | extract_lets | with_reducible apply keeps_State_septa | with_reducible apply keeps_State_stageSec | with_reducible (refine keeps_State_stageSec_eq _ _ _ ?_ (by with_reducible assumption)) | split | intro _ _ _ | intro _ | (dsimp only))

theorem keeps_State_erase {s₀ : State} (s : State) (p : Fin 16) (k_s : s₀.Keeps s) :
    s₀.Keeps (State.erase s p) := by
  unfold State.erase
  repeat' (first | with_reducible assumption | exact id | extract_lets | with_reducible apply keeps_State_setPart | split | intro _ _ _ | intro _ | (dsimp only) | (dsimp +zetaDelta only) | with_reducible apply keeps_mk)

theorem keeps_State_closeSession {s₀ : State} (s : State) (k : Nat) (k_s : s₀.Keeps s) :
    s₀.Keeps (State.closeSession s k) := by
  unfold State.closeSession
  repeat' (first | with_reducible assumption | exact id | extract_lets | with_reducible apply keeps_State_endSession | split | (dsimp only) | (dsimp +zetaDelta only) | with_reducible apply keeps_mk)

theorem keeps_State_applyClose {s₀ : State} (s : State) (k flags : Nat) (k_s : s₀.Keeps s) {r₀} (e : (State.applyClose s k flags) = .ok r₀) :
    s₀.Keeps r₀ := by
  unfold State.applyClose at e
  repeat' (first | with_reducible assumption | split at e | (simp only [reduceCtorEq] at e; done) | (simp only [Except.ok.injEq] at e; subst e) | with_reducible assumption | exact id | extract_lets | with_reducible apply keeps_State_erase | with_reducible apply keeps_State_closeSession | split | (dsimp only) | (dsimp +zetaDelta only) | with_reducible apply keeps_mk)

theorem keeps_doZeroise {s₀ : State} (ua_ : Staged) (s : State) (k_s : s₀.Keeps s) :
    s₀.Keeps (doZeroise ua_ s).1 := by
  unfold doZeroise
  split
  · exact k_s
  · split
    · exact k_s
    · extract_lets objects
      have k_c : s₀.Keeps (if objects.isEmpty = true then (s, true) else s.commit (objects.map .delete)).1 := by
        split
        · exact k_s
        · exact keeps_State_commit _ _ k_s
      generalize (if objects.isEmpty = true then (s, true) else s.commit (objects.map .delete)) = c at k_c ⊢
      obtain ⟨u, ok⟩ := c
      cases ok with
      | false => exact k_c
      | true =>
        simp only [Bool.not_true, Bool.false_eq_true, if_false]
        exact keeps_foldl _ _ (keeps_State_secReport _ _ (keeps_State_newAttestation _ (keeps_State_closeSession _ _ k_c)))
            (fun w a k => keeps_State_startMka _ _ k)

theorem keeps_doZeroise_eq {s₀ : State} (ua_ : Staged) (s : State) (k_s : s₀.Keeps s) {r₁ r₂} (e : (doZeroise ua_ s) = (r₁, r₂)) :
    s₀.Keeps r₁ := by
  have h₁ := keeps_doZeroise ua_ s k_s
  rw [e] at h₁
  exact h₁

theorem keeps_execModuleZeroise {s₀ : State} (m : Msg) (s : State) (k_s : s₀.Keeps s) :
    ∃ t₁, (execModuleZeroise m s) = .next t₁ ∧ s₀.Keeps t₁ := by
  unfold execModuleZeroise
  repeat' (first | exact ⟨_, rfl, by with_reducible assumption⟩ | split | (refine ⟨_, rfl, ?_⟩) | with_reducible assumption | extract_lets | with_reducible apply keeps_State_septa | with_reducible apply keeps_doZeroise | with_reducible (refine keeps_doZeroise_eq _ _ ?_ (by with_reducible assumption)) | (dsimp only))

theorem keeps_execSignerEnrol {s₀ : State} (m : Msg) (s : State) (k_s : s₀.Keeps s) :
    ∃ t₁, (execSignerEnrol m s) = .next t₁ ∧ s₀.Keeps t₁ := by
  unfold execSignerEnrol
  repeat' (first | exact ⟨_, rfl, by with_reducible assumption⟩ | split | (refine ⟨_, rfl, ?_⟩) | with_reducible assumption | extract_lets | with_reducible apply keeps_State_septa | with_reducible apply keeps_State_commit | with_reducible (refine keeps_State_commit_eq _ _ ?_ (by with_reducible assumption)) | split | intro _ _ _ | intro _ | (dsimp only) | (dsimp +zetaDelta only))

theorem keeps_execSignerRemove {s₀ : State} (m : Msg) (s : State) (k_s : s₀.Keeps s) :
    ∃ t₁, (execSignerRemove m s) = .next t₁ ∧ s₀.Keeps t₁ := by
  unfold execSignerRemove
  repeat' (first | exact ⟨_, rfl, by with_reducible assumption⟩ | split | (refine ⟨_, rfl, ?_⟩) | with_reducible assumption | extract_lets | with_reducible apply keeps_State_septa | with_reducible apply keeps_State_commit | with_reducible (refine keeps_State_commit_eq _ _ ?_ (by with_reducible assumption)) | split | intro _ _ _ | intro _ | (dsimp only) | (dsimp +zetaDelta only))

theorem keeps_execPartitionDestroy {s₀ : State} (m : Msg) (s : State) (k_s : s₀.Keeps s) :
    ∃ t₁, (execPartitionDestroy m s) = .next t₁ ∧ s₀.Keeps t₁ := by
  unfold execPartitionDestroy
  repeat' (first | exact ⟨_, rfl, by with_reducible assumption⟩ | split | (refine ⟨_, rfl, ?_⟩) | with_reducible assumption | extract_lets | with_reducible apply keeps_State_septa | with_reducible apply keeps_State_staged | split | intro _ _ _ | intro _ | (dsimp only))

theorem keeps_doChallenge {s₀ : State} (ua_ : Staged) (s : State) (k_s : s₀.Keeps s) :
    s₀.Keeps (doChallenge ua_ s).1 := by
  unfold doChallenge
  repeat' (first | with_reducible assumption | exact id | extract_lets | with_reducible apply keeps_State_drbg | with_reducible (refine keeps_State_drbg_eq _ _ ?_ (by with_reducible assumption)) | with_reducible apply keeps_State_needsDrbg | with_reducible (refine keeps_State_needsDrbg_eq _ _ ?_ (by with_reducible assumption)) | split | intro _ _ _ | intro _ | (dsimp only) | (dsimp +zetaDelta only) | with_reducible apply keeps_mk)

theorem keeps_doChallenge_eq {s₀ : State} (ua_ : Staged) (s : State) (k_s : s₀.Keeps s) {r₁ r₂} (e : (doChallenge ua_ s) = (r₁, r₂)) :
    s₀.Keeps r₁ := by
  have h₁ := keeps_doChallenge ua_ s k_s
  rw [e] at h₁
  exact h₁

theorem keeps_execDebugChallenge {s₀ : State} (m : Msg) (s : State) (k_s : s₀.Keeps s) :
    ∃ t₁, (execDebugChallenge m s) = .next t₁ ∧ s₀.Keeps t₁ := by
  unfold execDebugChallenge
  repeat' (first | exact ⟨_, rfl, by with_reducible assumption⟩ | split | (refine ⟨_, rfl, ?_⟩) | with_reducible assumption | extract_lets | with_reducible apply keeps_State_septa | with_reducible apply keeps_doChallenge | with_reducible (refine keeps_doChallenge_eq _ _ ?_ (by with_reducible assumption)) | (dsimp only))

theorem keeps_doUnlock {s₀ : State} (r : Staged) (s : State) (k_s : s₀.Keeps s) :
    s₀.Keeps (doUnlock r s).1 := by
  unfold doUnlock
  repeat' (first | with_reducible assumption | exact id | extract_lets | with_reducible apply keeps_State_secReport | with_reducible apply keeps_State_newAttestation | split | (dsimp only) | (dsimp +zetaDelta only) | with_reducible apply keeps_mk)

theorem keeps_doUnlock_eq {s₀ : State} (r : Staged) (s : State) (k_s : s₀.Keeps s) {r₁ r₂} (e : (doUnlock r s) = (r₁, r₂)) :
    s₀.Keeps r₁ := by
  have h₁ := keeps_doUnlock r s k_s
  rw [e] at h₁
  exact h₁

theorem keeps_execDebugUnlock {s₀ : State} (m : Msg) (s : State) (k_s : s₀.Keeps s) :
    ∃ t₁, (execDebugUnlock m s) = .next t₁ ∧ s₀.Keeps t₁ := by
  unfold execDebugUnlock
  repeat' (first | exact ⟨_, rfl, by with_reducible assumption⟩ | split | (refine ⟨_, rfl, ?_⟩) | with_reducible assumption | extract_lets | with_reducible apply keeps_State_septa | with_reducible apply keeps_doUnlock | with_reducible (refine keeps_doUnlock_eq _ _ ?_ (by with_reducible assumption)) | (dsimp only))

theorem keeps_execEntropyHealthFailure {s₀ : State} (s : State) (k_s : s₀.Keeps s) :
    ∃ t₁, (execEntropyHealthFailure s) = .next t₁ ∧ s₀.Keeps t₁ := by
  unfold execEntropyHealthFailure
  repeat' (first | exact ⟨_, rfl, by with_reducible assumption⟩ | split | (refine ⟨_, rfl, ?_⟩) | with_reducible assumption | exact id | extract_lets | with_reducible apply keeps_State_reply | with_reducible apply keeps_State_secReport | with_reducible apply keeps_foldl | split | intro _ _ _ | intro _ | (dsimp only) | (dsimp +zetaDelta only) | with_reducible apply keeps_mk)

theorem keeps_State_resumeDrbg {s₀ : State} (s : State) (r : Staged) (k_s : s₀.Keeps s) :
    s₀.Keeps (State.resumeDrbg s r) := by
  unfold State.resumeDrbg
  repeat' (first | with_reducible assumption | extract_lets | with_reducible apply keeps_State_answer | with_reducible apply keeps_doQuote | with_reducible (refine keeps_doQuote_eq _ _ ?_ (by with_reducible assumption)) | with_reducible apply keeps_doZeroise | with_reducible (refine keeps_doZeroise_eq _ _ ?_ (by with_reducible assumption)) | with_reducible apply keeps_doChallenge | with_reducible (refine keeps_doChallenge_eq _ _ ?_ (by with_reducible assumption)) | with_reducible apply keeps_doUnlock | with_reducible (refine keeps_doUnlock_eq _ _ ?_ (by with_reducible assumption)) | split | (dsimp only))

theorem keeps_execEntropyRestartComplete {s₀ : State} (s : State) (k_s : s₀.Keeps s) :
    ∃ t₁, (execEntropyRestartComplete s) = .next t₁ ∧ s₀.Keeps t₁ := by
  unfold execEntropyRestartComplete
  repeat' (first | exact ⟨_, rfl, by with_reducible assumption⟩ | split | (refine ⟨_, rfl, ?_⟩) | with_reducible assumption | exact id | extract_lets | with_reducible apply keeps_State_resumeDrbg | with_reducible apply keeps_foldl | split | intro _ _ _ | intro _ | (dsimp only) | (dsimp +zetaDelta only) | with_reducible apply keeps_mk)

end Sys2Proof.Machine
end

