-- ==== Sys2Proof/Laws/KeepsFill.lean ====
section
/-! SUPPORT. Sys2Proof/Laws/KeepsFill.lean: what the operations of Machine/Fill.lean keep. -/

namespace Sys2Proof.Machine

open Sys2Proof

theorem keeps_State_noteDx {s₀ : State} (s : State) (g : Fin 256) (c : Fin 8) (bank : Fin 2) (code record : Nat) (k_s : s₀.Keeps s) :
    s₀.Keeps (State.noteDx s g c bank code record) := by
  unfold State.noteDx
  repeat' (first | with_reducible assumption | exact id | exact Loom.to_setSeq _ _ _ | exact Loom.to_setBank _ _ _ | exact fun l => to_of (fun h => h) | exact to_of (fun h => h) | exact fun l => to_of (fun h => ok_Loom_setBank h _ _) | extract_lets | with_reducible apply keeps_State_modLoom | with_reducible apply keeps_State_setReg | with_reducible apply keeps_State_bump | split | intro _ _ _ | intro _ | (dsimp only) | (dsimp +zetaDelta only) | with_reducible apply keeps_mk)

theorem keeps_Here_dxTrap {s₀ : State} (h : Here) (bank : Fin 2) (code : Nat) (k_h : s₀.Keeps h.s) :
    s₀.Keeps (Here.dxTrap h bank code) := by
  unfold Here.dxTrap
  repeat' (first | with_reducible assumption | exact id | extract_lets | with_reducible apply keeps_State_trap | with_reducible apply keeps_Here_trap | with_reducible apply keeps_State_noteDx | (dsimp only) | with_reducible apply keeps_mk)

theorem keeps_Here_addFill {s₀ : State} (h : Here) (w : TWord) (bank : Fin 2) (d : Desc) (rows cols z base baseEnd delta deltaEnd : Nat) (k_h : s₀.Keeps h.s) :
    s₀.Keeps (Here.addFill h w bank d rows cols z base baseEnd delta deltaEnd) := by
  unfold Here.addFill
  repeat' (first | with_reducible assumption | exact id | exact Loom.to_setSeq _ _ _ | exact Loom.to_setBank _ _ _ | exact fun l => to_of (fun h => h) | exact to_of (fun h => h) | extract_lets | with_reducible apply keeps_State_modLoom | with_reducible apply keeps_Here_go | split | intro _ _ _ | intro _ | (dsimp only) | (dsimp +zetaDelta only) | with_reducible apply keeps_mk)

theorem keeps_Here_fillTrap {s₀ : State} (h : Here) (bank : Fin 2) (t : Trap) (k_h : s₀.Keeps h.s) :
    s₀.Keeps (Here.fillTrap h bank t) := by
  unfold Here.fillTrap
  repeat' (first | with_reducible assumption | extract_lets | with_reducible apply keeps_State_trap | with_reducible apply keeps_Here_trap | with_reducible apply keeps_Here_dxTrap | split | (dsimp only))

theorem keeps_execFill {s₀ : State} (a : At) (w : TWord) (s : State) (k_s : s₀.Keeps s) (hok : fillOk w = true) :
    ∃ t₁, (execFill a w s) = .next t₁ ∧ s₀.Keeps t₁ := by
  unfold execFill
  apply keeps_State_issueT s a w _ _ _ _ k_s hok
  intro h k_h
  repeat' (first | with_reducible assumption | exact id | extract_lets | with_reducible apply keeps_State_trap | with_reducible apply keeps_Here_hold | with_reducible apply keeps_Here_trap | with_reducible apply keeps_State_issueT | with_reducible apply keeps_Here_dxTrap | with_reducible apply keeps_Here_addFill | with_reducible apply keeps_Here_fillTrap | split | intro _ _ _ | intro _ | (dsimp only) | (dsimp +zetaDelta only) | with_reducible apply keeps_mk)

theorem keeps_State_fillFault {s₀ : State} (s : State) (g : Fin 256) (i : Nat) (code record : Nat) (k_s : s₀.Keeps s) :
    s₀.Keeps (State.fillFault s g i code record) := by
  unfold State.fillFault
  repeat' (first | with_reducible assumption | exact id | exact Loom.to_setSeq _ _ _ | exact Loom.to_setBank _ _ _ | exact fun l => to_of (fun h => h) | exact to_of (fun h => h) | exact fun l => Loom.to_stopFill _ _ | extract_lets | with_reducible apply keeps_State_modLoom | with_reducible apply keeps_State_faultAt | with_reducible apply keeps_State_noteDx | split | intro _ _ _ | intro _ | (dsimp only) | with_reducible apply keeps_mk)

theorem keeps_execFillAdmit {s₀ : State} (g : Fin 256) (s : State) (k_s : s₀.Keeps s) :
    ∃ t₁, (execFillAdmit g s) = .next t₁ ∧ s₀.Keeps t₁ := by
  unfold execFillAdmit
  repeat' (first | exact ⟨_, rfl, by with_reducible assumption⟩ | split | (refine ⟨_, rfl, ?_⟩) | with_reducible assumption | exact id | exact Loom.to_setSeq _ _ _ | exact Loom.to_setBank _ _ _ | exact fun l => to_of (fun h => h) | exact to_of (fun h => h) | extract_lets | with_reducible apply keeps_State_setLoom | with_reducible apply keeps_State_bump | with_reducible apply keeps_State_fillFault | split | intro _ _ _ | intro _ | (dsimp only) | (dsimp +zetaDelta only) | with_reducible apply keeps_mk)

theorem keeps_State_endWait {s₀ : State} (s : State) (g : Fin 256) (bank : Fin 2) (k_s : s₀.Keeps s) :
    s₀.Keeps (State.endWait s g bank) := by
  unfold State.endWait
  repeat' (first | with_reducible assumption | exact id | extract_lets | with_reducible apply keeps_State_bump | with_reducible apply keeps_State_modSeq | split | intro _ _ _ | intro _ | (dsimp only) | with_reducible apply keeps_mk)

theorem keeps_execBankReady {s₀ : State} (g : Fin 256) (bank : Fin 2) (s : State) (k_s : s₀.Keeps s) :
    ∃ t₁, (execBankReady g bank s) = .next t₁ ∧ s₀.Keeps t₁ := by
  unfold execBankReady
  repeat' (first | exact ⟨_, rfl, by with_reducible assumption⟩ | split | (refine ⟨_, rfl, ?_⟩) | with_reducible assumption | exact id | exact Loom.to_setSeq _ _ _ | exact Loom.to_setBank _ _ _ | exact fun l => to_of (fun h => h) | exact to_of (fun h => h) | exact fun l => to_of (fun h => ok_Loom_setBank h _ _) | extract_lets | with_reducible apply keeps_State_modLoom | with_reducible apply keeps_State_endWait | split | intro _ _ _ | intro _ | (dsimp only) | (dsimp +zetaDelta only) | with_reducible apply keeps_mk)

theorem keeps_execFillDamage {s₀ : State} (g : Fin 256) (bank : Fin 2) (s : State) (k_s : s₀.Keeps s) :
    ∃ t₁, (execFillDamage g bank s) = .next t₁ ∧ s₀.Keeps t₁ := by
  unfold execFillDamage
  repeat' (first | exact ⟨_, rfl, by with_reducible assumption⟩ | split | (refine ⟨_, rfl, ?_⟩) | with_reducible assumption | exact id | exact Loom.to_setSeq _ _ _ | exact Loom.to_setBank _ _ _ | exact fun l => to_of (fun h => h) | exact to_of (fun h => h) | exact fun l => Loom.to_stopFill _ _ | extract_lets | with_reducible apply keeps_State_modLoom | with_reducible apply keeps_State_faultAt | with_reducible apply keeps_State_fillFault | split | intro _ _ _ | intro _ | (dsimp only) | (dsimp +zetaDelta only) | with_reducible apply keeps_mk)

end Sys2Proof.Machine
end

