-- ==== Sys2Proof/Laws/KeepsChecks.lean ====
section
/-! SUPPORT. Sys2Proof/Laws/KeepsChecks.lean: what the operations of Machine/Checks.lean keep. -/

namespace Sys2Proof.Machine

open Sys2Proof

theorem keeps_execResidueMismatch {s₀ : State} (g : Fin 256) (harness : Fin 4) (heddle : Fin 64) (fell : Fin 2) (stateCopy : Bool) (s : State) (k_s : s₀.Keeps s) :
    ∃ t₁, (execResidueMismatch g harness heddle fell stateCopy s) = .next t₁ ∧ s₀.Keeps t₁ := by
  unfold execResidueMismatch
  repeat' (first | exact ⟨_, rfl, by with_reducible assumption⟩ | split | (refine ⟨_, rfl, ?_⟩) | with_reducible assumption | extract_lets | with_reducible apply keeps_State_setFld | with_reducible apply keeps_State_bump | with_reducible apply keeps_State_loomCheckFails | split | (dsimp only) | (dsimp +zetaDelta only))

theorem keeps_execLockstepMismatch {s₀ : State} (g : Fin 256) (s : State) (k_s : s₀.Keeps s) :
    ∃ t₁, (execLockstepMismatch g s) = .next t₁ ∧ s₀.Keeps t₁ := by
  unfold execLockstepMismatch
  repeat' (first | exact ⟨_, rfl, by with_reducible assumption⟩ | split | (refine ⟨_, rfl, ?_⟩) | with_reducible assumption | exact id | exact Loom.to_setSeq _ _ _ | exact Loom.to_setBank _ _ _ | exact fun l => to_of (fun h => h) | exact to_of (fun h => h) | extract_lets | with_reducible apply keeps_State_modLoom | with_reducible apply keeps_State_setFld | with_reducible apply keeps_State_loomCheckFails | intro _ _ _ | intro _ | (dsimp only) | (dsimp +zetaDelta only) | with_reducible apply keeps_mk)

theorem keeps_execDrainRounderMismatch {s₀ : State} (g : Fin 256) (s : State) (k_s : s₀.Keeps s) :
    ∃ t₁, (execDrainRounderMismatch g s) = .next t₁ ∧ s₀.Keeps t₁ := by
  unfold execDrainRounderMismatch
  repeat' (first | exact ⟨_, rfl, by with_reducible assumption⟩ | split | (refine ⟨_, rfl, ?_⟩) | with_reducible assumption | extract_lets | with_reducible apply keeps_State_setFld | with_reducible apply keeps_State_loomCheckFails | (dsimp only) | (dsimp +zetaDelta only))

theorem keeps_State_noteSwitch {s₀ : State} (s : State) (p : Fin 16) (d : Nat) (k_s : s₀.Keeps s) :
    s₀.Keeps (State.noteSwitch s p d) := by
  unfold State.noteSwitch
  repeat' (first | with_reducible assumption | exact id | extract_lets | with_reducible apply keeps_State_setPart | with_reducible apply keeps_State_setFld | with_reducible apply keeps_State_bump | with_reducible apply keeps_State_reportFirst | with_reducible apply keeps_State_modPart | split | intro _ _ _ | intro _ | (dsimp only) | (dsimp +zetaDelta only) | with_reducible apply keeps_mk)

theorem keeps_execContextSwitch {s₀ : State} (g : Fin 256) (s : State) (k_s : s₀.Keeps s) :
    ∃ t₁, (execContextSwitch g s) = .next t₁ ∧ s₀.Keeps t₁ := by
  unfold execContextSwitch
  repeat' (first | exact ⟨_, rfl, by with_reducible assumption⟩ | split | (refine ⟨_, rfl, ?_⟩) | with_reducible assumption | exact id | exact Loom.to_setSeq _ _ _ | exact Loom.to_setBank _ _ _ | exact fun l => to_of (fun h => h) | exact to_of (fun h => h) | exact to_of (fun h => ok_Loom_stopFills h _) | extract_lets | with_reducible apply keeps_State_setLoom | with_reducible apply keeps_State_bump | with_reducible apply keeps_State_noteSwitch | split | (dsimp only) | (dsimp +zetaDelta only) | with_reducible apply keeps_mk)

theorem keeps_State_testResult {s₀ : State} (s : State) (g : Fin 256) (result : Nat) (pick : Word) (k_s : s₀.Keeps s) :
    s₀.Keeps (State.testResult s g result pick) := by
  unfold State.testResult
  repeat' (first | with_reducible assumption | extract_lets | with_reducible apply keeps_State_setFld | with_reducible apply keeps_State_result | (dsimp only))

theorem keeps_execLoomSelfTest {s₀ : State} (g : Fin 256) (s : State) (k_s : s₀.Keeps s) :
    ∃ t₁, (execLoomSelfTest g s) = .next t₁ ∧ s₀.Keeps t₁ := by
  unfold execLoomSelfTest
  repeat' (first | exact ⟨_, rfl, by with_reducible assumption⟩ | split | (refine ⟨_, rfl, ?_⟩) | with_reducible assumption | exact id | exact Loom.to_setSeq _ _ _ | exact Loom.to_setBank _ _ _ | exact fun l => to_of (fun h => h) | exact to_of (fun h => h) | exact fun l => to_of (fun h => ⟨h.1, h.2.1, rfl, rfl⟩) | exact to_of (fun h => ⟨h.1, h.2.1, rfl, rfl⟩) | extract_lets | with_reducible apply keeps_State_setLoom | split | (dsimp only) | (dsimp +zetaDelta only) | with_reducible apply keeps_mk)

theorem keeps_execLoomSelfTestEnd {s₀ : State} (g : Fin 256) (pass : Bool) (block : BitVec 8) (s : State) (k_s : s₀.Keeps s) :
    ∃ t₁, (execLoomSelfTestEnd g pass block s) = .next t₁ ∧ s₀.Keeps t₁ := by
  unfold execLoomSelfTestEnd
  repeat' (first | exact ⟨_, rfl, by with_reducible assumption⟩ | split | (refine ⟨_, rfl, ?_⟩) | with_reducible assumption | exact id | exact Loom.to_setSeq _ _ _ | exact Loom.to_setBank _ _ _ | exact fun l => to_of (fun h => h) | exact to_of (fun h => h) | extract_lets | with_reducible apply keeps_State_modLoom | with_reducible apply keeps_State_bump | with_reducible apply keeps_State_report | with_reducible apply keeps_State_testResult | split | intro _ _ _ | intro _ | (dsimp only) | (dsimp +zetaDelta only) | with_reducible apply keeps_mk)

theorem keeps_execSelfTestAbandon {s₀ : State} (g : Fin 256) (s : State) (k_s : s₀.Keeps s) :
    ∃ t₁, (execSelfTestAbandon g s) = .next t₁ ∧ s₀.Keeps t₁ := by
  unfold execSelfTestAbandon
  repeat' (first | exact ⟨_, rfl, by with_reducible assumption⟩ | split | (refine ⟨_, rfl, ?_⟩) | with_reducible assumption | exact id | exact Loom.to_setSeq _ _ _ | exact Loom.to_setBank _ _ _ | exact fun l => to_of (fun h => h) | exact to_of (fun h => h) | extract_lets | with_reducible apply keeps_State_modLoom | with_reducible apply keeps_State_bump | with_reducible apply keeps_State_report | with_reducible apply keeps_State_testResult | split | intro _ _ _ | intro _ | (dsimp only) | (dsimp +zetaDelta only) | with_reducible apply keeps_mk)

end Sys2Proof.Machine
end

