-- ==== Sys2Proof/Laws/KeepsSafe.lean ====
section
/-! SUPPORT. Sys2Proof/Laws/KeepsSafe.lean: what the operations of Machine/Safe.lean keep. -/

namespace Sys2Proof.Machine

open Sys2Proof

theorem keeps_execClockOutOfTolerance {s₀ : State} (d : DieDomain) (s : State) (k_s : s₀.Keeps s) :
    ∃ t₁, (execClockOutOfTolerance d s) = .next t₁ ∧ s₀.Keeps t₁ := by
  unfold execClockOutOfTolerance
  repeat' (first | exact ⟨_, rfl, by with_reducible assumption⟩ | split | (refine ⟨_, rfl, ?_⟩) | with_reducible assumption | extract_lets | with_reducible apply keeps_State_report | (dsimp only))

theorem keeps_execSupplyOutOfTolerance {s₀ : State} (d : Domain) (rail : BitVec 8) (reading : BitVec 32) (s : State) (k_s : s₀.Keeps s) (hok : ∀ k, d ≠ .stack k) :
    ∃ t₁, (execSupplyOutOfTolerance d rail reading s) = .next t₁ ∧ s₀.Keeps t₁ := by
  unfold execSupplyOutOfTolerance
  cases d with
  | stack k => exact absurd rfl (hok k)
  | loom g => exact ⟨_, rfl, keeps_State_report _ _ _ _ k_s⟩
  | mill m => exact ⟨_, rfl, keeps_State_report _ _ _ _ k_s⟩
  | beam => exact ⟨_, rfl, keeps_State_report _ _ _ _ k_s⟩

theorem keeps_execJunctionOverTemperature {s₀ : State} (d : Domain) (s : State) (k_s : s₀.Keeps s) :
    ∃ t₁, (execJunctionOverTemperature d s) = .next t₁ ∧ s₀.Keeps t₁ := by
  unfold execJunctionOverTemperature
  repeat' (first | exact ⟨_, rfl, by with_reducible assumption⟩ | split | (refine ⟨_, rfl, ?_⟩) | with_reducible assumption | extract_lets | with_reducible apply keeps_State_report | (dsimp only))

theorem keeps_execJunctionWarning {s₀ : State} (d : Domain) (s : State) (k_s : s₀.Keeps s) :
    ∃ t₁, (execJunctionWarning d s) = .next t₁ ∧ s₀.Keeps t₁ := by
  unfold execJunctionWarning
  repeat' (first | exact ⟨_, rfl, by with_reducible assumption⟩ | split | (refine ⟨_, rfl, ?_⟩) | with_reducible assumption | extract_lets | with_reducible apply keeps_State_report | (dsimp only))

theorem keeps_execDuplicatedEngineMismatch {s₀ : State} (e : DupEngine) (s : State) (k_s : s₀.Keeps s) :
    ∃ t₁, (execDuplicatedEngineMismatch e s) = .next t₁ ∧ s₀.Keeps t₁ := by
  unfold execDuplicatedEngineMismatch
  repeat' (first | exact ⟨_, rfl, by with_reducible assumption⟩ | split | (refine ⟨_, rfl, ?_⟩) | with_reducible assumption | extract_lets | with_reducible apply keeps_State_report | (dsimp only))

theorem keeps_execSafetyControllerMismatch {s₀ : State} (s : State) (k_s : s₀.Keeps s) :
    ∃ t₁, (execSafetyControllerMismatch s) = .next t₁ ∧ s₀.Keeps t₁ := by
  unfold execSafetyControllerMismatch
  repeat' (first | exact ⟨_, rfl, by with_reducible assumption⟩ | split | (refine ⟨_, rfl, ?_⟩) | with_reducible assumption | extract_lets | with_reducible apply keeps_State_report | (dsimp only))

theorem keeps_execPageStateUe {s₀ : State} (p : Fin 16) (s : State) (k_s : s₀.Keeps s) :
    ∃ t₁, (execPageStateUe p s) = .next t₁ ∧ s₀.Keeps t₁ := by
  unfold execPageStateUe
  repeat' (first | exact ⟨_, rfl, by with_reducible assumption⟩ | split | (refine ⟨_, rfl, ?_⟩) | with_reducible assumption | extract_lets | with_reducible apply keeps_State_report | with_reducible apply keeps_Here_home | split | (dsimp only))

theorem keeps_execQueueStoreUe {s₀ : State} (owners : List (Fin 16)) (s : State) (k_s : s₀.Keeps s) :
    ∃ t₁, (execQueueStoreUe owners s) = .next t₁ ∧ s₀.Keeps t₁ := by
  unfold execQueueStoreUe
  repeat' (first | exact ⟨_, rfl, by with_reducible assumption⟩ | split | (refine ⟨_, rfl, ?_⟩) | with_reducible assumption | extract_lets | with_reducible apply keeps_State_report | with_reducible apply keeps_foldl | split | intro _ _ _ | intro _ | (dsimp only))

theorem keeps_State_stopLooms {s₀ : State} (s : State) (x : Part) (k_s : s₀.Keeps s) :
    s₀.Keeps (State.stopLooms s x) := by
  unfold State.stopLooms
  repeat' (first | with_reducible assumption | exact id | exact Loom.to_setSeq _ _ _ | exact Loom.to_setBank _ _ _ | exact fun l => to_of (fun h => h) | exact to_of (fun h => h) | extract_lets | with_reducible apply keeps_State_modLoom | with_reducible apply keeps_State_poison | with_reducible apply keeps_foldl | intro _ _ _ | intro _ | (dsimp only) | (dsimp +zetaDelta only) | with_reducible apply keeps_mk)

theorem keeps_State_pauseSlots {s₀ : State} (s : State) (p : Fin 16) (k_s : s₀.Keeps s) :
    s₀.Keeps (State.pauseSlots s p) := by
  unfold State.pauseSlots
  repeat' (first | with_reducible assumption | exact id | extract_lets | with_reducible apply keeps_State_setSlot | with_reducible apply keeps_State_bump | with_reducible apply keeps_foldl | split | intro _ _ _ | intro _ | (dsimp only) | (dsimp +zetaDelta only) | with_reducible apply keeps_mk)

theorem keeps_State_enterSafe {s₀ : State} (s : State) (p : Fin 16) (code : BitVec 16) (w : Word × Nat) (k_s : s₀.Keeps s) :
    s₀.Keeps (State.enterSafe s p code w) := by
  unfold State.enterSafe
  repeat' (first | with_reducible assumption | exact id | extract_lets | with_reducible apply keeps_State_setReg | with_reducible apply keeps_State_bump | with_reducible apply keeps_State_report | with_reducible apply keeps_State_modPart | with_reducible apply keeps_State_endRecording | with_reducible apply keeps_State_stopLooms | with_reducible apply keeps_State_pauseSlots | split | intro _ _ _ | intro _ | (dsimp only) | (dsimp +zetaDelta only) | with_reducible apply keeps_mk)

theorem keeps_State_enterModuleSafe {s₀ : State} (s : State) (k_s : s₀.Keeps s) :
    s₀.Keeps (State.enterModuleSafe s) := by
  unfold State.enterModuleSafe
  repeat' (first | with_reducible assumption | exact id | extract_lets | with_reducible apply keeps_State_setFld | split | (dsimp only) | (dsimp +zetaDelta only) | with_reducible apply keeps_mk)

theorem keeps_State_handleRecord {s₀ : State} (s : State) (r : Record) (k_s : s₀.Keeps s) :
    s₀.Keeps (State.handleRecord s r) := by
  unfold State.handleRecord
  repeat' (first | with_reducible assumption | extract_lets | with_reducible apply keeps_State_enterSafe | with_reducible apply keeps_State_enterModuleSafe | with_reducible apply keeps_foldl | split | intro _ _ _ | intro _ | (dsimp only) | (dsimp +zetaDelta only))

theorem keeps_execFaultRecordArrival {s₀ : State} (s : State) (k_s : s₀.Keeps s) :
    ∃ t₁, (execFaultRecordArrival s) = .next t₁ ∧ s₀.Keeps t₁ := by
  unfold execFaultRecordArrival
  repeat' (first | exact ⟨_, rfl, by with_reducible assumption⟩ | split | (refine ⟨_, rfl, ?_⟩) | with_reducible assumption | exact id | extract_lets | with_reducible apply keeps_State_handleRecord | split | (dsimp only) | (dsimp +zetaDelta only) | with_reducible apply keeps_mk)

theorem keeps_execFaultRecordHandled {s₀ : State} (s : State) (k_s : s₀.Keeps s) :
    ∃ t₁, (execFaultRecordHandled s) = .next t₁ ∧ s₀.Keeps t₁ := by
  unfold execFaultRecordHandled
  repeat' (first | exact ⟨_, rfl, by with_reducible assumption⟩ | split | (refine ⟨_, rfl, ?_⟩) | with_reducible assumption | exact id | extract_lets | with_reducible apply keeps_State_handleRecord | split | (dsimp only) | with_reducible apply keeps_mk)

end Sys2Proof.Machine
end

