-- ==== Sys2Proof/Laws/KeepsBoot.lean ====
section
/-! SUPPORT. Sys2Proof/Laws/KeepsBoot.lean: what the operations of Machine/Boot.lean keep. -/

namespace Sys2Proof.Machine

open Sys2Proof

theorem order_resetAll (s : State) (p : Power) (store : StoreUnit) (o : s.Ordered) :
    State.Ordered { State.reset with
      pending := s.pending, freeCount := s.freeCount, beat := s.beat, boundaryBeat := s.beat, fuses := s.fuses, power := p,
      store := store, mem := { Memory.reset with far := (List.finRange 4).foldl (fun t i =>
        t.put i.val { FarPort.reset with present := (s.farPort i).present } FarPort.reset) [] } } := by
  refine { State.Ordered.reset with mem := ⟨?_, State.Ordered.reset.mem.2⟩ }
  have h : ∀ (l : List (Fin 4)) (t : Tab FarPort), Tab.rising none t = true → Tab.rising none (l.foldl (fun t i =>
      t.put i.val { FarPort.reset with present := (s.farPort i).present } FarPort.reset) t) = true := by
    intro l
    induction l with
    | nil => exact fun t h => h
    | cons i rest ih => exact fun t h => ih _ (Tab.rising_put h _ _ _)
  exact h _ _ rfl

theorem keeps_State_resetAll {s₀ : State} (s : State) (cause : Nat) (k_s : s₀.Keeps s) :
    s₀.Keeps (State.resetAll s cause) := by
  unfold State.resetAll
  apply keeps_State_setFld
  exact keeps_trans k_s { pending := rfl, beat := rfl, serial := rfl, stepping := rfl, burnt := fun b => ⟨Nat.le_refl _, b⟩,
                          drawn := Nat.le_refl _, order := order_resetAll s _ _, past := fun _ => Nat.le_refl _ }

theorem keeps_execPowerUp {s₀ : State} (s : State) (k_s : s₀.Keeps s) :
    ∃ t₁, (execPowerUp s) = .next t₁ ∧ s₀.Keeps t₁ := by
  unfold execPowerUp
  repeat' (first | exact ⟨_, rfl, by with_reducible assumption⟩ | split | (refine ⟨_, rfl, ?_⟩) | with_reducible assumption | exact id | extract_lets | with_reducible apply keeps_State_resetAll | split | (dsimp only) | (dsimp +zetaDelta only) | with_reducible apply keeps_mk)

theorem keeps_execPowerGoodDeassert {s₀ : State} (s : State) (k_s : s₀.Keeps s) :
    ∃ t₁, (execPowerGoodDeassert s) = .next t₁ ∧ s₀.Keeps t₁ := by
  unfold execPowerGoodDeassert
  repeat' (first | exact ⟨_, rfl, by with_reducible assumption⟩ | split | (refine ⟨_, rfl, ?_⟩) | with_reducible assumption | exact id | extract_lets | with_reducible apply keeps_State_resetAll | split | (dsimp only) | (dsimp +zetaDelta only) | with_reducible apply keeps_mk)

theorem keeps_execResetInputAssert {s₀ : State} (s : State) (k_s : s₀.Keeps s) :
    ∃ t₁, (execResetInputAssert s) = .next t₁ ∧ s₀.Keeps t₁ := by
  unfold execResetInputAssert
  repeat' (first | exact ⟨_, rfl, by with_reducible assumption⟩ | split | (refine ⟨_, rfl, ?_⟩) | with_reducible assumption | exact id | extract_lets | with_reducible apply keeps_State_resetAll | split | (dsimp only) | (dsimp +zetaDelta only) | with_reducible apply keeps_mk)

theorem keeps_execResetInputRelease {s₀ : State} (s : State) (k_s : s₀.Keeps s) :
    ∃ t₁, (execResetInputRelease s) = .next t₁ ∧ s₀.Keeps t₁ := by
  unfold execResetInputRelease
  repeat' (first | exact ⟨_, rfl, by with_reducible assumption⟩ | split | (refine ⟨_, rfl, ?_⟩) | with_reducible assumption | exact id | extract_lets | (dsimp only) | with_reducible apply keeps_mk)

theorem keeps_execModuleResetExecute {s₀ : State} (s : State) (k_s : s₀.Keeps s) :
    ∃ t₁, (execModuleResetExecute s) = .next t₁ ∧ s₀.Keeps t₁ := by
  unfold execModuleResetExecute
  repeat' (first | exact ⟨_, rfl, by with_reducible assumption⟩ | split | (refine ⟨_, rfl, ?_⟩) | with_reducible assumption | extract_lets | with_reducible apply keeps_State_resetAll | split | (dsimp only))

theorem keeps_State_bootImage {s₀ : State} (s : State) (k_s : s₀.Keeps s) :
    s₀.Keeps (State.bootImage s).1 := by
  unfold State.bootImage
  repeat' (first | with_reducible assumption | extract_lets | with_reducible apply keeps_State_commit_ | with_reducible apply keeps_State_startImage | with_reducible (refine keeps_State_startImage_eq _ ?_ (by with_reducible assumption)) | (dsimp only))

theorem keeps_State_bootImage_eq {s₀ : State} (s : State) (k_s : s₀.Keeps s) {r₁ r₂} (e : (State.bootImage s) = (r₁, r₂)) :
    s₀.Keeps r₁ := by
  have h₁ := keeps_State_bootImage s k_s
  rw [e] at h₁
  exact h₁

theorem keeps_State_bootIdentity {s₀ : State} (s : State) (first : Bool) (k_s : s₀.Keeps s) :
    s₀.Keeps (State.bootIdentity s first) := by
  unfold State.bootIdentity
  repeat' (first | with_reducible assumption | exact id | extract_lets | with_reducible apply keeps_State_commit_ | with_reducible apply keeps_State_drbg | with_reducible (refine keeps_State_drbg_eq _ _ ?_ (by with_reducible assumption)) | with_reducible apply keeps_State_secReport | with_reducible apply keeps_State_newAttestation | split | (dsimp only) | (dsimp +zetaDelta only) | with_reducible apply keeps_mk)

theorem keeps_State_loadNetwork {s₀ : State} (s : State) (k_s : s₀.Keeps s) :
    s₀.Keeps (State.loadNetwork s) := by
  unfold State.loadNetwork
  repeat' (first | with_reducible assumption | extract_lets | with_reducible apply keeps_State_setReg | split | (dsimp only))

theorem keeps_State_bootPorts {s₀ : State} (s : State) (ports : BitVec 8) (k_s : s₀.Keeps s) :
    s₀.Keeps (State.bootPorts s ports) := by
  unfold State.bootPorts
  repeat' (first | with_reducible assumption | exact id | extract_lets | with_reducible apply keeps_State_setPort | with_reducible apply keeps_State_setFld | with_reducible apply keeps_State_startMka | with_reducible apply keeps_State_loadNetwork | with_reducible apply keeps_foldl | split | intro _ _ _ | intro _ | (dsimp only) | (dsimp +zetaDelta only) | with_reducible apply keeps_mk)

theorem keeps_State_failMill {s₀ : State} (s : State) (m : Fin 8) (rail : Bool) (k_s : s₀.Keeps s) :
    s₀.Keeps (State.failMill s m rail) := by
  unfold State.failMill
  repeat' (first | with_reducible assumption | exact id | exact Loom.to_setSeq _ _ _ | exact Loom.to_setBank _ _ _ | exact fun l => to_of (fun h => h) | exact to_of (fun h => h) | extract_lets | with_reducible apply keeps_State_modLoom | with_reducible apply keeps_State_setStack | with_reducible apply keeps_State_draw | with_reducible (refine keeps_State_draw_eq _ _ ?_ (by with_reducible assumption)) | with_reducible apply keeps_State_setFld | with_reducible apply keeps_State_report | with_reducible apply keeps_foldl | split | intro _ _ _ | intro _ | (dsimp only) | (dsimp +zetaDelta only) | with_reducible apply keeps_mk)

theorem keeps_State_bootLoom {s₀ : State} (s : State) (g : Fin 256) (pass : Bool) (k_s : s₀.Keeps s) :
    s₀.Keeps (State.bootLoom s g pass) := by
  unfold State.bootLoom
  repeat' (first | with_reducible assumption | exact id | exact Loom.to_setSeq _ _ _ | exact Loom.to_setBank _ _ _ | exact fun l => to_of (fun h => h) | exact to_of (fun h => h) | extract_lets | with_reducible apply keeps_State_modLoom | with_reducible apply keeps_State_draw | with_reducible (refine keeps_State_draw_eq _ _ ?_ (by with_reducible assumption)) | with_reducible apply keeps_State_bump | with_reducible apply keeps_State_report | with_reducible apply keeps_State_testResult | split | intro _ _ _ | intro _ | (dsimp only) | (dsimp +zetaDelta only) | with_reducible apply keeps_mk)

theorem keeps_State_bootMills {s₀ : State} (s : State) (b : BootReport) (k_s : s₀.Keeps s) :
    s₀.Keeps (State.bootMills s b) := by
  unfold State.bootMills
  repeat' (first | with_reducible assumption | extract_lets | with_reducible apply keeps_State_failMill | with_reducible apply keeps_State_bootLoom | with_reducible apply keeps_foldl | split | intro _ _ _ | intro _ | (dsimp only) | (dsimp +zetaDelta only))

theorem keeps_State_bootTrain {s₀ : State} (s : State) (b : BootReport) (k_s : s₀.Keeps s) :
    s₀.Keeps (State.bootTrain s b) := by
  unfold State.bootTrain
  repeat' (first | with_reducible assumption | exact id | extract_lets | with_reducible apply keeps_State_setLink | with_reducible apply keeps_State_setStack | with_reducible apply keeps_State_setFld | with_reducible apply keeps_State_report | with_reducible apply keeps_State_calibrate | with_reducible apply keeps_State_linkReport | with_reducible apply keeps_foldl | split | intro _ _ _ | intro _ | (dsimp only) | (dsimp +zetaDelta only) | with_reducible apply keeps_mk)

theorem keeps_execBoot {s₀ : State} (b : BootReport) (s : State) (k_s : s₀.Keeps s) :
    ∃ t₁, (execBoot b s) = .next t₁ ∧ s₀.Keeps t₁ := by
  unfold execBoot
  split
  · exact ⟨_, rfl, k_s⟩
  · extract_lets u v w x first
    have k_w : s₀.Keeps w := keeps_State_setFld _ _ _ _ (keeps_boundary k_s _ _ _)
    have k_x : s₀.Keeps x := keeps_State_scanStore _ _ k_w
    clear_value first x w
    split
    · exact ⟨_, rfl, keeps_State_setFld _ _ _ _ (keeps_State_report _ _ _ _ k_w)⟩
    · split
      · next e => exact ⟨_, rfl, keeps_State_setFld _ _ _ _ (keeps_State_bootImage_eq _ k_x e)⟩
      · next e =>
        refine ⟨_, rfl, keeps_State_setFld _ _ _ _ (keeps_State_bootTrain _ _ ?_)⟩
        exact keeps_State_bootMills _ _ (keeps_State_bootPorts _ _ (keeps_State_bootIdentity _ _ (keeps_State_bootImage_eq _ k_x e)))

theorem keeps_execBoardServiceRead {s₀ : State} (address : BitVec 7) (register : BitVec 9) (count : BitVec 9) (s : State) (k_s : s₀.Keeps s) :
    ∃ t₁, (execBoardServiceRead address register count s) = .next t₁ ∧ s₀.Keeps t₁ := by
  unfold execBoardServiceRead
  repeat' (first | exact ⟨_, rfl, by with_reducible assumption⟩ | split | (refine ⟨_, rfl, ?_⟩) | with_reducible assumption | exact id | extract_lets | with_reducible apply keeps_State_count | with_reducible apply keeps_State_drawBytes | with_reducible (refine keeps_State_drawBytes_eq _ _ ?_ (by with_reducible assumption)) | split | (dsimp only) | (dsimp +zetaDelta only) | with_reducible apply keeps_mk)

theorem keeps_execEepromWrite {s₀ : State} (ua_ : BitVec 7) (ub_ : BitVec 9) (uc_ : List Byte) (s : State) (k_s : s₀.Keeps s) :
    ∃ t₁, (execEepromWrite ua_ ub_ uc_ s) = .next t₁ ∧ s₀.Keeps t₁ := by
  unfold execEepromWrite
  repeat' (first | exact ⟨_, rfl, by with_reducible assumption⟩ | split | (refine ⟨_, rfl, ?_⟩) | with_reducible assumption | exact id | extract_lets | (dsimp only) | with_reducible apply keeps_mk)

end Sys2Proof.Machine
end

