-- ==== Sys2Proof/Laws/KeepsDrafts.lean ====
section
/-! SUPPORT. Sys2Proof/Laws/KeepsDrafts.lean: what the operations of Machine/Drafts.lean keep. -/

namespace Sys2Proof.Machine

open Sys2Proof

theorem keeps_State_setTransfer {s₀ : State} (s : State) (t : Option Transfer) (k_s : s₀.Keeps s) :
    s₀.Keeps (State.setTransfer s t) := by
  unfold State.setTransfer
  repeat' (first | with_reducible assumption | exact id | extract_lets | (dsimp only) | with_reducible apply keeps_mk)

theorem keeps_execDraftBegin {s₀ : State} (m : Msg) (s : State) (k_s : s₀.Keeps s) :
    ∃ t₁, (execDraftBegin m s) = .next t₁ ∧ s₀.Keeps t₁ := by
  unfold execDraftBegin
  repeat' (first | exact ⟨_, rfl, by with_reducible assumption⟩ | split | (refine ⟨_, rfl, ?_⟩) | with_reducible assumption | extract_lets | with_reducible apply keeps_State_septa | with_reducible apply keeps_State_setTransfer | split | intro _ _ _ | intro _ | (dsimp only))

theorem keeps_execDraftData {s₀ : State} (m : Msg) (s : State) (k_s : s₀.Keeps s) :
    ∃ t₁, (execDraftData m s) = .next t₁ ∧ s₀.Keeps t₁ := by
  unfold execDraftData
  repeat' (first | exact ⟨_, rfl, by with_reducible assumption⟩ | split | (refine ⟨_, rfl, ?_⟩) | with_reducible assumption | extract_lets | with_reducible apply keeps_State_septa | with_reducible apply keeps_State_setTransfer | split | intro _ _ _ | intro _ | (dsimp only))

theorem keeps_State_handOver {s₀ : State} (s : State) (r : Staged) (bs : List Byte) (k_s : s₀.Keeps s) :
    s₀.Keeps (State.handOver s r bs) := by
  unfold State.handOver
  repeat' (first | with_reducible assumption | exact id | extract_lets | with_reducible apply keeps_State_request | (dsimp only) | with_reducible apply keeps_mk)

theorem keeps_execDraftEnd {s₀ : State} (m : Msg) (s : State) (k_s : s₀.Keeps s) :
    ∃ t₁, (execDraftEnd m s) = .next t₁ ∧ s₀.Keeps t₁ := by
  unfold execDraftEnd
  repeat' (first | exact ⟨_, rfl, by with_reducible assumption⟩ | split | (refine ⟨_, rfl, ?_⟩) | with_reducible assumption | extract_lets | with_reducible apply keeps_State_reply | with_reducible apply keeps_State_septa | with_reducible apply keeps_State_setTransfer | with_reducible apply keeps_State_handOver | split | intro _ _ _ | intro _ | (dsimp only))

theorem keeps_execDraftAbort {s₀ : State} (m : Msg) (s : State) (k_s : s₀.Keeps s) :
    ∃ t₁, (execDraftAbort m s) = .next t₁ ∧ s₀.Keeps t₁ := by
  unfold execDraftAbort
  repeat' (first | exact ⟨_, rfl, by with_reducible assumption⟩ | split | (refine ⟨_, rfl, ?_⟩) | with_reducible assumption | extract_lets | with_reducible apply keeps_State_septa | with_reducible apply keeps_State_setTransfer | split | intro _ _ _ | intro _ | (dsimp only))

theorem keeps_State_refuseDraft {s₀ : State} (s : State) (step : Nat) (b : Flaw) (k_s : s₀.Keeps s) :
    s₀.Keeps (State.refuseDraft s step b) := by
  unfold State.refuseDraft
  repeat' (first | with_reducible assumption | extract_lets | with_reducible apply keeps_State_setFld | with_reducible apply keeps_State_report | split | (dsimp only) | (dsimp +zetaDelta only))

theorem keeps_State_endLoading {s₀ : State} (s : State) (l : Loading) (status field : Nat) (k_s : s₀.Keeps s) :
    s₀.Keeps (State.endLoading s l status field) := by
  unfold State.endLoading
  repeat' (first | with_reducible assumption | exact id | extract_lets | with_reducible apply keeps_State_request | split | (dsimp only) | (dsimp +zetaDelta only) | with_reducible apply keeps_mk)

theorem keeps_execDraftSave {s₀ : State} (m : Msg) (s : State) (k_s : s₀.Keeps s) :
    ∃ t₁, (execDraftSave m s) = .next t₁ ∧ s₀.Keeps t₁ := by
  unfold execDraftSave
  repeat' (first | exact ⟨_, rfl, by with_reducible assumption⟩ | split | (refine ⟨_, rfl, ?_⟩) | with_reducible assumption | extract_lets | with_reducible apply keeps_State_septa | with_reducible apply keeps_State_commit | with_reducible (refine keeps_State_commit_eq _ _ ?_ (by with_reducible assumption)) | with_reducible apply keeps_State_setTransfer | with_reducible apply keeps_State_refuseDraft | split | intro _ _ _ | intro _ | (dsimp only) | (dsimp +zetaDelta only))

theorem keeps_execDraftStandbyLoad {s₀ : State} (m : Msg) (s : State) (k_s : s₀.Keeps s) :
    ∃ t₁, (execDraftStandbyLoad m s) = .next t₁ ∧ s₀.Keeps t₁ := by
  unfold execDraftStandbyLoad
  repeat' (first | exact ⟨_, rfl, by with_reducible assumption⟩ | split | (refine ⟨_, rfl, ?_⟩) | with_reducible assumption | extract_lets | with_reducible apply keeps_State_reply | with_reducible apply keeps_State_septa | with_reducible apply keeps_State_handOver | split | intro _ _ _ | intro _ | (dsimp only) | (dsimp +zetaDelta only))

theorem keeps_execDraftErase {s₀ : State} (m : Msg) (s : State) (k_s : s₀.Keeps s) :
    ∃ t₁, (execDraftErase m s) = .next t₁ ∧ s₀.Keeps t₁ := by
  unfold execDraftErase
  repeat' (first | exact ⟨_, rfl, by with_reducible assumption⟩ | split | (refine ⟨_, rfl, ?_⟩) | with_reducible assumption | extract_lets | with_reducible apply keeps_State_septa | with_reducible apply keeps_State_commit | with_reducible (refine keeps_State_commit_eq _ _ ?_ (by with_reducible assumption)) | split | intro _ _ _ | intro _ | (dsimp only) | (dsimp +zetaDelta only))

theorem keeps_State_acceptFull {s₀ : State} (s : State) (bs : List Byte) (cfgs : List (Nat × PartCfg)) (k_s : s₀.Keeps s) :
    s₀.Keeps (State.acceptFull s bs cfgs) := by
  unfold State.acceptFull
  repeat' (first | with_reducible assumption | exact id | extract_lets | with_reducible apply keeps_State_setFld | with_reducible apply keeps_State_createPart | with_reducible apply keeps_foldl | split | intro _ _ _ | intro _ | (dsimp only) | (dsimp +zetaDelta only) | with_reducible apply keeps_mk)

theorem keeps_State_acceptPanel {s₀ : State} (s : State) (bs : List Byte) (cfgs : List (Nat × PartCfg)) (k_s : s₀.Keeps s) :
    s₀.Keeps (State.acceptPanel s bs cfgs) := by
  unfold State.acceptPanel
  repeat' (first | with_reducible assumption | exact id | extract_lets | with_reducible apply keeps_foldl | intro _ _ _ | intro _ | (dsimp only) | (dsimp +zetaDelta only) | with_reducible apply keeps_mk)

theorem keeps_State_missDeadline {s₀ : State} (s : State) (l : Loading) (k_s : s₀.Keeps s) :
    s₀.Keeps (State.missDeadline s l) := by
  unfold State.missDeadline
  repeat' (first | with_reducible assumption | extract_lets | with_reducible apply keeps_State_draw | with_reducible (refine keeps_State_draw_eq _ _ ?_ (by with_reducible assumption)) | with_reducible apply keeps_State_refuseDraft | with_reducible apply keeps_State_endLoading | split | (dsimp only) | (dsimp +zetaDelta only))

theorem keeps_execDraftLoaderVerdict {s₀ : State} (s : State) (k_s : s₀.Keeps s) :
    ∃ t₁, (execDraftLoaderVerdict s) = .next t₁ ∧ s₀.Keeps t₁ := by
  unfold execDraftLoaderVerdict
  repeat' (first | exact ⟨_, rfl, by with_reducible assumption⟩ | split | (refine ⟨_, rfl, ?_⟩) | with_reducible assumption | extract_lets | with_reducible apply keeps_State_refuseDraft | with_reducible apply keeps_State_endLoading | with_reducible apply keeps_State_acceptFull | with_reducible apply keeps_State_acceptPanel | with_reducible apply keeps_State_missDeadline | split | (dsimp only))

theorem keeps_execPanelCheckDeadline {s₀ : State} (p : Fin 16) (s : State) (k_s : s₀.Keeps s) :
    ∃ t₁, (execPanelCheckDeadline p s) = .next t₁ ∧ s₀.Keeps t₁ := by
  unfold execPanelCheckDeadline
  repeat' (first | exact ⟨_, rfl, by with_reducible assumption⟩ | split | (refine ⟨_, rfl, ?_⟩) | with_reducible assumption | extract_lets | with_reducible apply keeps_State_missDeadline | split | (dsimp only))

theorem keeps_State_cancelPanel {s₀ : State} (s : State) (p : Fin 16) (k_s : s₀.Keeps s) :
    s₀.Keeps (State.cancelPanel s p) := by
  unfold State.cancelPanel
  repeat' (first | with_reducible assumption | exact id | extract_lets | with_reducible apply keeps_State_setFld | with_reducible apply keeps_State_report | intro _ _ _ | intro _ | (dsimp only) | (dsimp +zetaDelta only) | with_reducible apply keeps_mk)

theorem keeps_execPanelRecheck {s₀ : State} (p : Fin 16) (s : State) (k_s : s₀.Keeps s) :
    ∃ t₁, (execPanelRecheck p s) = .next t₁ ∧ s₀.Keeps t₁ := by
  unfold execPanelRecheck
  repeat' (first | exact ⟨_, rfl, by with_reducible assumption⟩ | split | (refine ⟨_, rfl, ?_⟩) | with_reducible assumption | extract_lets | with_reducible apply keeps_State_cancelPanel | split | (dsimp only))

theorem keeps_State_clearForPanel {s₀ : State} (s : State) (p : Fin 16) (k : Panel) (k_s : s₀.Keeps s) :
    s₀.Keeps (State.clearForPanel s p k) := by
  unfold State.clearForPanel
  repeat' (first | with_reducible assumption | exact id | extract_lets | with_reducible apply keeps_State_setPart | with_reducible apply keeps_State_modPart | with_reducible apply keeps_State_zeroiseStores | with_reducible apply keeps_State_endSession | with_reducible apply keeps_State_freeSlots | with_reducible apply keeps_State_storeAccounts | split | intro _ _ _ | intro _ | (dsimp only) | (dsimp +zetaDelta only) | with_reducible apply keeps_mk)

theorem keeps_execPanelReplace {s₀ : State} (p : Fin 16) (s : State) (k_s : s₀.Keeps s) :
    ∃ t₁, (execPanelReplace p s) = .next t₁ ∧ s₀.Keeps t₁ := by
  unfold execPanelReplace
  repeat' (first | exact ⟨_, rfl, by with_reducible assumption⟩ | split | (refine ⟨_, rfl, ?_⟩) | with_reducible assumption | exact id | extract_lets | with_reducible apply keeps_State_loadTreads | with_reducible apply keeps_State_clearForPanel | split | intro _ _ _ | intro _ | (dsimp only) | (dsimp +zetaDelta only) | with_reducible apply keeps_mk)

theorem keeps_execPartitionStart {s₀ : State} (p : Fin 16) (s : State) (k_s : s₀.Keeps s) :
    ∃ t₁, (execPartitionStart p s) = .next t₁ ∧ s₀.Keeps t₁ := by
  unfold execPartitionStart
  repeat' (first | exact ⟨_, rfl, by with_reducible assumption⟩ | split | (refine ⟨_, rfl, ?_⟩) | with_reducible assumption | exact id | extract_lets | with_reducible apply keeps_State_startPart | with_reducible apply keeps_State_replacePart | split | intro _ _ _ | intro _ | (dsimp only) | (dsimp +zetaDelta only) | with_reducible apply keeps_mk)

end Sys2Proof.Machine
end

