-- ==== Sys2Proof/Laws/KeepsReports.lean ====
section
/-! SUPPORT. Sys2Proof/Laws/KeepsReports.lean: what the operations of Machine/Reports.lean keep. -/

namespace Sys2Proof.Machine

open Sys2Proof

theorem keeps_State_sendCopy {s₀ : State} (s : State) (part : Option Part) (d : Dest) (bank : Nat) (bs : List Byte) (k_s : s₀.Keeps s) :
    s₀.Keeps (State.sendCopy s part d bank bs) := by
  unfold State.sendCopy
  repeat' (first | with_reducible assumption | exact id | extract_lets | with_reducible apply keeps_State_transmit | with_reducible apply keeps_State_septa | split | (dsimp only) | (dsimp +zetaDelta only) | with_reducible apply keeps_mk)

theorem keeps_State_deviceSend {s₀ : State} (s : State) (part : Option (Fin 16 × Part)) (d : Dest) (type : Nat) (pick : Word) (last : Bool) (payload : List Byte) (k_s : s₀.Keeps s) :
    s₀.Keeps (State.deviceSend s part d type pick last payload) := by
  unfold State.deviceSend
  repeat' (first | with_reducible assumption | exact id | extract_lets | with_reducible apply keeps_State_sendCopy | split | intro _ _ _ | intro _ | (dsimp only) | (dsimp +zetaDelta only) | with_reducible apply keeps_mk)

theorem keeps_State_reportTo {s₀ : State} (s : State) (p : Fin 16) (x : Part) (i : Nat) (d : Dest) (n : Word) (k_s : s₀.Keeps s) :
    s₀.Keeps (State.reportTo s p x i d n) := by
  unfold State.reportTo
  repeat' (first | with_reducible assumption | exact id | extract_lets | with_reducible apply keeps_State_modPart | with_reducible apply keeps_State_deviceSend | with_reducible apply keeps_foldl | intro _ _ _ | intro _ | (dsimp only) | (dsimp +zetaDelta only) | with_reducible apply keeps_mk)

theorem keeps_State_reportPart {s₀ : State} (s : State) (p : Fin 16) (n : Word) (all : Bool) (k_s : s₀.Keeps s) :
    s₀.Keeps (State.reportPart s p n all) := by
  unfold State.reportPart
  repeat' (first | with_reducible assumption | exact id | extract_lets | with_reducible apply keeps_State_modPart | with_reducible apply keeps_State_reportTo | with_reducible apply keeps_foldl | split | intro _ _ _ | intro _ | (dsimp only) | (dsimp +zetaDelta only) | with_reducible apply keeps_mk)

theorem keeps_State_pickReports {s₀ : State} (s : State) (n : Word) (k_s : s₀.Keeps s) :
    s₀.Keeps (State.pickReports s n) := by
  unfold State.pickReports
  repeat' (first | with_reducible assumption | extract_lets | with_reducible apply keeps_State_reportPart | with_reducible apply keeps_foldl | split | intro _ _ _ | intro _ | (dsimp only))

theorem keeps_State_notify {s₀ : State} (s : State) (part : Option (Fin 16 × Part)) (d : Dest) (l : List Record) (k_s : s₀.Keeps s) :
    s₀.Keeps (State.notify s part d l) := by
  unfold State.notify
  repeat' (first | with_reducible assumption | extract_lets | with_reducible apply keeps_State_bump | with_reducible apply keeps_State_deviceSend | with_reducible apply keeps_foldl | split | intro _ _ _ | intro _ | (dsimp only) | (dsimp +zetaDelta only))

theorem keeps_execFaultNotice {s₀ : State} (s : State) (k_s : s₀.Keeps s) :
    ∃ t₁, (execFaultNotice s) = .next t₁ ∧ s₀.Keeps t₁ := by
  unfold execFaultNotice
  repeat' (first | exact ⟨_, rfl, by with_reducible assumption⟩ | split | (refine ⟨_, rfl, ?_⟩) | with_reducible assumption | exact id | extract_lets | with_reducible apply keeps_State_notify | with_reducible apply keeps_foldl | split | intro _ _ _ | intro _ | (dsimp only) | (dsimp +zetaDelta only) | with_reducible apply keeps_mk)

theorem keeps_execNoticeSet {s₀ : State} (m : Msg) (s : State) (k_s : s₀.Keeps s) :
    ∃ t₁, (execNoticeSet m s) = .next t₁ ∧ s₀.Keeps t₁ := by
  unfold execNoticeSet
  repeat' (first | exact ⟨_, rfl, by with_reducible assumption⟩ | split | (refine ⟨_, rfl, ?_⟩) | with_reducible assumption | exact id | extract_lets | with_reducible apply keeps_State_septa | split | intro _ _ _ | intro _ | (dsimp only) | (dsimp +zetaDelta only) | with_reducible apply keeps_mk)

end Sys2Proof.Machine
end

