-- ==== Sys2Proof/Laws/KeepsPick.lean ====
section
/-! SUPPORT. Sys2Proof/Laws/KeepsPick.lean: what the operations of Machine/Pick.lean keep. -/

namespace Sys2Proof.Machine

open Sys2Proof

theorem keeps_State_setSource {s₀ : State} (s : State) (n : Nat) (k_s : s₀.Keeps s) :
    s₀.Keeps (State.setSource s n) := by
  unfold State.setSource
  repeat' (first | with_reducible assumption | extract_lets | with_reducible apply keeps_State_setFld | (dsimp only))

theorem keeps_State_pickReport {s₀ : State} (s : State) (code detail : Nat) (k_s : s₀.Keeps s) :
    s₀.Keeps (State.pickReport s code detail) := by
  unfold State.pickReport
  repeat' (first | with_reducible assumption | extract_lets | with_reducible apply keeps_State_report | (dsimp only))

theorem keeps_State_form {s₀ : State} (s : State) (n : Word) (byPulse : Bool) (k_s : s₀.Keeps s) :
    s₀.Keeps (State.form s n byPulse) := by
  unfold State.form
  extract_lets u v a b
  have k_b : s₀.Keeps b := keeps_State_setReg _ _ _ (keeps_boundary k_s _ _ _)

  split
  · exact keeps_State_setSource _ _ k_b
  · exact k_b

theorem keeps_State_enterHoldover {s₀ : State} (s : State) (cause : Nat) (k_s : s₀.Keeps s) :
    s₀.Keeps (State.enterHoldover s cause) := by
  unfold State.enterHoldover
  repeat' (first | with_reducible assumption | exact id | exact fun h => Tab.rising_map _ _ _ h | extract_lets | with_reducible apply keeps_State_setFld | with_reducible apply keeps_State_setSource | with_reducible apply keeps_State_pickReport | intro _ _ _ | intro _ | (dsimp only) | (dsimp +zetaDelta only) | with_reducible apply keeps_mk)

theorem keeps_State_countHoldover {s₀ : State} (s : State) (k_s : s₀.Keeps s) :
    s₀.Keeps (State.countHoldover s) := by
  unfold State.countHoldover
  repeat' (first | with_reducible assumption | extract_lets | with_reducible apply keeps_State_setFld | (dsimp only))

theorem keeps_State_endHoldover {s₀ : State} (s : State) (k_s : s₀.Keeps s) :
    s₀.Keeps (State.endHoldover s) := by
  unfold State.endHoldover
  repeat' (first | with_reducible assumption | extract_lets | with_reducible apply keeps_State_setFld | with_reducible apply keeps_State_setSource | with_reducible apply keeps_State_pickReport | (dsimp only))

theorem keeps_State_expireHoldover {s₀ : State} (s : State) (k_s : s₀.Keeps s) :
    s₀.Keeps (State.expireHoldover s) := by
  unfold State.expireHoldover
  repeat' (first | with_reducible assumption | extract_lets | with_reducible apply keeps_State_setSource | with_reducible apply keeps_State_pickReport | split | (dsimp only))

theorem keeps_execHoldoverExpired {s₀ : State} (s : State) (k_s : s₀.Keeps s) :
    ∃ t₁, (execHoldoverExpired s) = .next t₁ ∧ s₀.Keeps t₁ := by
  unfold execHoldoverExpired
  repeat' (first | exact ⟨_, rfl, by with_reducible assumption⟩ | split | (refine ⟨_, rfl, ?_⟩) | with_reducible assumption | extract_lets | with_reducible apply keeps_State_expireHoldover | (dsimp only))

theorem keeps_State_spurious {s₀ : State} (s : State) (record : Bool) (k_s : s₀.Keeps s) :
    s₀.Keeps (State.spurious s record) := by
  unfold State.spurious
  repeat' (first | with_reducible assumption | extract_lets | with_reducible apply keeps_State_bump | with_reducible apply keeps_State_pickReport | split | (dsimp only) | (dsimp +zetaDelta only))

theorem keeps_State_formByPulse {s₀ : State} (s : State) (n : Word) (t : Nat) (k_s : s₀.Keeps s) :
    s₀.Keeps (State.formByPulse s n t) := by
  unfold State.formByPulse
  repeat' (first | with_reducible assumption | exact id | extract_lets | with_reducible apply keeps_State_form | with_reducible apply keeps_State_endHoldover | split | (dsimp only) | (dsimp +zetaDelta only) | with_reducible apply keeps_mk)

theorem keeps_execPickPulse {s₀ : State} (t : Nat) (s : State) (k_s : s₀.Keeps s) :
    ∃ t₁, (execPickPulse t s) = .next t₁ ∧ s₀.Keeps t₁ := by
  unfold execPickPulse
  repeat' (first | exact ⟨_, rfl, by with_reducible assumption⟩ | split | (refine ⟨_, rfl, ?_⟩) | with_reducible assumption | exact id | extract_lets | with_reducible apply keeps_State_spurious | with_reducible apply keeps_State_formByPulse | split | (dsimp only) | (dsimp +zetaDelta only) | with_reducible apply keeps_mk)

theorem keeps_execPulseMissed {s₀ : State} (t : Nat) (s : State) (k_s : s₀.Keeps s) :
    ∃ t₁, (execPulseMissed t s) = .next t₁ ∧ s₀.Keeps t₁ := by
  unfold execPulseMissed
  repeat' (first | exact ⟨_, rfl, by with_reducible assumption⟩ | split | (refine ⟨_, rfl, ?_⟩) | with_reducible assumption | extract_lets | with_reducible apply keeps_State_bump | with_reducible apply keeps_State_pickReport | with_reducible apply keeps_State_form | with_reducible apply keeps_State_enterHoldover | with_reducible apply keeps_State_countHoldover | split | (dsimp only) | (dsimp +zetaDelta only))

theorem keeps_execRefLost {s₀ : State} (s : State) (k_s : s₀.Keeps s) :
    ∃ t₁, (execRefLost s) = .next t₁ ∧ s₀.Keeps t₁ := by
  unfold execRefLost
  repeat' (first | exact ⟨_, rfl, by with_reducible assumption⟩ | split | (refine ⟨_, rfl, ?_⟩) | with_reducible assumption | exact id | extract_lets | with_reducible apply keeps_State_setFld | with_reducible apply keeps_State_pickReport | split | (dsimp only) | (dsimp +zetaDelta only) | with_reducible apply keeps_mk)

theorem keeps_execRefRestored {s₀ : State} (s : State) (k_s : s₀.Keeps s) :
    ∃ t₁, (execRefRestored s) = .next t₁ ∧ s₀.Keeps t₁ := by
  unfold execRefRestored
  repeat' (first | exact ⟨_, rfl, by with_reducible assumption⟩ | split | (refine ⟨_, rfl, ?_⟩) | with_reducible assumption | exact id | extract_lets | with_reducible apply keeps_State_setFld | split | (dsimp only) | with_reducible apply keeps_mk)

theorem keeps_State_judgeOffset {s₀ : State} (s : State) (o : Int) (ptpTime : Nat) (k_s : s₀.Keeps s) :
    s₀.Keeps (State.judgeOffset s o ptpTime) := by
  unfold State.judgeOffset
  repeat' (first | with_reducible assumption | exact id | extract_lets | with_reducible apply keeps_State_setFld | with_reducible apply keeps_State_enterHoldover | with_reducible apply keeps_State_endHoldover | split | (dsimp only) | (dsimp +zetaDelta only) | with_reducible apply keeps_mk)

theorem keeps_State_syncTimes {s₀ : State} (s : State) (t1 t2 : Nat) (k_s : s₀.Keeps s) :
    s₀.Keeps (State.syncTimes s t1 t2) := by
  unfold State.syncTimes
  repeat' (first | with_reducible assumption | exact id | extract_lets | with_reducible apply keeps_State_judgeOffset | split | (dsimp only) | (dsimp +zetaDelta only) | with_reducible apply keeps_mk)

theorem keeps_execPtpSync {s₀ : State} (m : PtpMsg) (s : State) (k_s : s₀.Keeps s) :
    ∃ t₁, (execPtpSync m s) = .next t₁ ∧ s₀.Keeps t₁ := by
  unfold execPtpSync
  repeat' (first | exact ⟨_, rfl, by with_reducible assumption⟩ | split | (refine ⟨_, rfl, ?_⟩) | with_reducible assumption | exact id | extract_lets | with_reducible apply keeps_State_syncTimes | split | (dsimp only) | with_reducible apply keeps_mk)

theorem keeps_execPtpFollowUp {s₀ : State} (m : PtpMsg) (s : State) (k_s : s₀.Keeps s) :
    ∃ t₁, (execPtpFollowUp m s) = .next t₁ ∧ s₀.Keeps t₁ := by
  unfold execPtpFollowUp
  repeat' (first | exact ⟨_, rfl, by with_reducible assumption⟩ | split | (refine ⟨_, rfl, ?_⟩) | with_reducible assumption | exact id | extract_lets | with_reducible apply keeps_State_syncTimes | split | (dsimp only) | with_reducible apply keeps_mk)

theorem keeps_execPtpDelayResp {s₀ : State} (m : PtpMsg) (s : State) (k_s : s₀.Keeps s) :
    ∃ t₁, (execPtpDelayResp m s) = .next t₁ ∧ s₀.Keeps t₁ := by
  unfold execPtpDelayResp
  repeat' (first | exact ⟨_, rfl, by with_reducible assumption⟩ | split | (refine ⟨_, rfl, ?_⟩) | with_reducible assumption | exact id | extract_lets | split | (dsimp only) | with_reducible apply keeps_mk)

theorem keeps_State_choose {s₀ : State} (s : State) (clocks : List Clock) (k_s : s₀.Keeps s) :
    s₀.Keeps (State.choose s clocks) := by
  unfold State.choose
  repeat' (first | with_reducible assumption | exact id | extract_lets | split | (dsimp only) | (dsimp +zetaDelta only) | with_reducible apply keeps_mk)

theorem keeps_execPtpAnnounce {s₀ : State} (m : PtpMsg) (s : State) (k_s : s₀.Keeps s) :
    ∃ t₁, (execPtpAnnounce m s) = .next t₁ ∧ s₀.Keeps t₁ := by
  unfold execPtpAnnounce
  repeat' (first | exact ⟨_, rfl, by with_reducible assumption⟩ | split | (refine ⟨_, rfl, ?_⟩) | with_reducible assumption | exact id | extract_lets | with_reducible apply keeps_State_choose | split | intro _ _ _ | intro _ | (dsimp only) | (dsimp +zetaDelta only) | with_reducible apply keeps_mk)

theorem keeps_execDelayReq {s₀ : State} (port : Fin 8) (t : Nat) (s : State) (k_s : s₀.Keeps s) :
    ∃ t₁, (execDelayReq port t s) = .next t₁ ∧ s₀.Keeps t₁ := by
  unfold execDelayReq
  repeat' (first | exact ⟨_, rfl, by with_reducible assumption⟩ | split | (refine ⟨_, rfl, ?_⟩) | with_reducible assumption | exact id | extract_lets | with_reducible apply keeps_State_emit | split | (dsimp only) | (dsimp +zetaDelta only) | with_reducible apply keeps_mk)

theorem keeps_execPtpAnnounceTimeout {s₀ : State} (s : State) (k_s : s₀.Keeps s) :
    ∃ t₁, (execPtpAnnounceTimeout s) = .next t₁ ∧ s₀.Keeps t₁ := by
  unfold execPtpAnnounceTimeout
  repeat' (first | exact ⟨_, rfl, by with_reducible assumption⟩ | split | (refine ⟨_, rfl, ?_⟩) | with_reducible assumption | extract_lets | with_reducible apply keeps_State_enterHoldover | with_reducible apply keeps_State_choose | split | intro _ _ _ | intro _ | (dsimp only) | (dsimp +zetaDelta only))

theorem keeps_State_formPtp {s₀ : State} (s : State) (k_s : s₀.Keeps s) :
    s₀.Keeps (State.formPtp s) := by
  unfold State.formPtp
  repeat' (first | with_reducible assumption | extract_lets | with_reducible apply keeps_State_form | with_reducible apply keeps_State_countHoldover | split | (dsimp only) | (dsimp +zetaDelta only))

theorem keeps_State_writeSource {s₀ : State} (s : State) (v : Word) (k_s : s₀.Keeps s) :
    s₀.Keeps (State.writeSource s v) := by
  unfold State.writeSource
  repeat' (first | with_reducible assumption | exact id | extract_lets | with_reducible apply keeps_State_setReg | with_reducible apply keeps_State_setFld | with_reducible apply keeps_State_setSource | split | (dsimp only) | (dsimp +zetaDelta only) | with_reducible apply keeps_mk)

theorem keeps_execModeAnnounce {s₀ : State} (m : Msg) (s : State) (k_s : s₀.Keeps s) :
    ∃ t₁, (execModeAnnounce m s) = .next t₁ ∧ s₀.Keeps t₁ := by
  unfold execModeAnnounce
  repeat' (first | exact ⟨_, rfl, by with_reducible assumption⟩ | split | (refine ⟨_, rfl, ?_⟩) | with_reducible assumption | exact id | extract_lets | with_reducible apply keeps_State_setReg | with_reducible apply keeps_State_setFld | with_reducible apply keeps_State_count | with_reducible apply keeps_State_septa | with_reducible apply keeps_State_pickReport | split | intro _ _ _ | intro _ | (dsimp only) | (dsimp +zetaDelta only) | with_reducible apply keeps_mk)

theorem keeps_execModeChangeAck {s₀ : State} (unit : BitVec 16) (s : State) (k_s : s₀.Keeps s) :
    ∃ t₁, (execModeChangeAck unit s) = .next t₁ ∧ s₀.Keeps t₁ := by
  unfold execModeChangeAck
  repeat' (first | exact ⟨_, rfl, by with_reducible assumption⟩ | split | (refine ⟨_, rfl, ?_⟩) | with_reducible assumption | exact id | extract_lets | split | (dsimp only) | with_reducible apply keeps_mk)

theorem keeps_State_reportSilent {s₀ : State} (s : State) (total : Nat) (l : List Nat) (fuel : Nat) (k_s : s₀.Keeps s) :
    s₀.Keeps (State.reportSilent s total l fuel) := by
  induction fuel generalizing s l with
  | zero => exact k_s
  | succ k ih =>
    unfold State.reportSilent
    split
    · exact k_s
    · apply ih
      exact keeps_State_pickReport _ _ _ k_s

theorem keeps_State_applyMode {s₀ : State} (s : State) (c : Change) (k_s : s₀.Keeps s) :
    s₀.Keeps (State.applyMode s c) := by
  unfold State.applyMode
  repeat' (first | with_reducible assumption | exact id | extract_lets | split | (dsimp only) | (dsimp +zetaDelta only) | with_reducible apply keeps_mk)

theorem keeps_State_modeDone {s₀ : State} (s : State) (k_s : s₀.Keeps s) :
    s₀.Keeps (State.modeDone s) := by
  unfold State.modeDone
  repeat' (first | with_reducible assumption | exact id | extract_lets | with_reducible apply keeps_State_setFld | split | (dsimp only) | (dsimp +zetaDelta only) | with_reducible apply keeps_mk)

theorem keeps_State_decideMode {s₀ : State} (s : State) (k_s : s₀.Keeps s) :
    s₀.Keeps (State.decideMode s) := by
  unfold State.decideMode
  repeat' (first | with_reducible assumption | exact id | extract_lets | with_reducible apply keeps_State_setFld | with_reducible apply keeps_State_reportSilent | with_reducible apply keeps_State_applyMode | with_reducible apply keeps_State_modeDone | split | intro _ _ _ | ((with_reducible apply keeps_mk); first | with_reducible assumption | exact id | extract_lets | with_reducible apply keeps_State_setFld | with_reducible apply keeps_State_reportSilent | with_reducible apply keeps_State_applyMode | with_reducible apply keeps_State_modeDone | split | intro _ _ _) | intro _ | (dsimp only) | (dsimp +zetaDelta only) | with_reducible apply keeps_mk)

theorem keeps_execModeChangeDecide {s₀ : State} (s : State) (k_s : s₀.Keeps s) :
    ∃ t₁, (execModeChangeDecide s) = .next t₁ ∧ s₀.Keeps t₁ := by
  unfold execModeChangeDecide
  repeat' (first | exact ⟨_, rfl, by with_reducible assumption⟩ | split | (refine ⟨_, rfl, ?_⟩) | with_reducible assumption | extract_lets | with_reducible apply keeps_State_decideMode | (dsimp only))

theorem keeps_State_releaseNewer {s₀ : State} (s : State) (i : Fin 96) (k_s : s₀.Keeps s) :
    s₀.Keeps (State.releaseNewer s i) := by
  unfold State.releaseNewer
  repeat' (first | with_reducible assumption | exact id | extract_lets | with_reducible apply keeps_State_setLink | with_reducible apply keeps_Here_go | with_reducible apply keeps_State_deliver | with_reducible apply keeps_foldl | split | intro _ _ _ | intro _ | (dsimp only) | (dsimp +zetaDelta only) | with_reducible apply keeps_mk)

theorem keeps_execModeChangeApply {s₀ : State} (unit : BitVec 16) (s : State) (k_s : s₀.Keeps s) :
    ∃ t₁, (execModeChangeApply unit s) = .next t₁ ∧ s₀.Keeps t₁ := by
  unfold execModeChangeApply
  repeat' (first | exact ⟨_, rfl, by with_reducible assumption⟩ | split | (refine ⟨_, rfl, ?_⟩) | with_reducible assumption | exact id | extract_lets | with_reducible apply keeps_State_modeDone | with_reducible apply keeps_State_releaseNewer | with_reducible apply keeps_foldl | split | intro _ _ _ | intro _ | (dsimp only) | (dsimp +zetaDelta only) | with_reducible apply keeps_mk)

end Sys2Proof.Machine
end

