-- ==== Sys2Proof/Laws/KeepsCreel.lean ====
section
/-! SUPPORT. Sys2Proof/Laws/KeepsCreel.lean: what the operations of Machine/Creel.lean keep. -/

namespace Sys2Proof.Machine

open Sys2Proof

theorem keeps_State_creelReport {s₀ : State} (s : State) (i : Fin 1024) (p : Fin 16) (code : Nat) (k_s : s₀.Keeps s) :
    s₀.Keeps (State.creelReport s i p code) := by
  unfold State.creelReport
  repeat' (first | with_reducible assumption | extract_lets | with_reducible apply keeps_State_report | (dsimp only))

theorem keeps_execCreelOpen {s₀ : State} (m : Msg) (s : State) (k_s : s₀.Keeps s) :
    ∃ t₁, (execCreelOpen m s) = .next t₁ ∧ s₀.Keeps t₁ := by
  unfold execCreelOpen
  repeat' (first | exact ⟨_, rfl, by with_reducible assumption⟩ | split | (refine ⟨_, rfl, ?_⟩) | with_reducible assumption | extract_lets | with_reducible apply keeps_State_septa | with_reducible apply keeps_State_stageFor | with_reducible (refine keeps_State_stageFor_eq _ _ _ ?_ (by with_reducible assumption)) | split | intro _ _ _ | intro _ | (dsimp only))

theorem keeps_execCreelClose {s₀ : State} (m : Msg) (s : State) (k_s : s₀.Keeps s) :
    ∃ t₁, (execCreelClose m s) = .next t₁ ∧ s₀.Keeps t₁ := by
  unfold execCreelClose
  repeat' (first | exact ⟨_, rfl, by with_reducible assumption⟩ | split | (refine ⟨_, rfl, ?_⟩) | with_reducible assumption | extract_lets | with_reducible apply keeps_State_septa | with_reducible apply keeps_State_stageFor | with_reducible (refine keeps_State_stageFor_eq _ _ _ ?_ (by with_reducible assumption)) | split | intro _ _ _ | intro _ | (dsimp only))

theorem keeps_execCreelStatus {s₀ : State} (m : Msg) (s : State) (k_s : s₀.Keeps s) :
    ∃ t₁, (execCreelStatus m s) = .next t₁ ∧ s₀.Keeps t₁ := by
  unfold execCreelStatus
  repeat' (first | exact ⟨_, rfl, by with_reducible assumption⟩ | split | (refine ⟨_, rfl, ?_⟩) | with_reducible assumption | extract_lets | with_reducible apply keeps_State_septa | split | intro _ _ _ | intro _ | (dsimp only) | (dsimp +zetaDelta only))

theorem keeps_State_applyCreelOpen {s₀ : State} (s : State) (p : Fin 16) (x : Part) (r : Staged) (k_s : s₀.Keeps s) {r₀} (e : (State.applyCreelOpen s p x r) = .ok r₀) :
    s₀.Keeps r₀ := by
  unfold State.applyCreelOpen at e
  split at e
  · simp only [reduceCtorEq] at e
  · extract_lets i old g0 g size k u at e
    split at e
    · simp only [reduceCtorEq] at e
    · have k_u : s₀.Keeps u := keeps_State_store_ _ _ _ _ (keeps_State_setSlot _ _ _ k_s)
      simp only [Except.ok.injEq] at e
      rw [← e]
      split
      · exact k_u
      · exact keeps_State_store_ _ _ _ _ k_u

theorem keeps_State_applyCreelClose {s₀ : State} (s : State) (ua_ : Fin 16) (x : Part) (r : Staged) (k_s : s₀.Keeps s) {r₀} (e : (State.applyCreelClose s ua_ x r) = .ok r₀) :
    s₀.Keeps r₀ := by
  unfold State.applyCreelClose at e
  split at e
  · simp only [reduceCtorEq] at e
  · extract_lets i k at e
    split at e
    · simp only [reduceCtorEq] at e
    · split at e
      · simp only [Except.ok.injEq] at e
        rw [← e]
        exact keeps_State_setSlot _ _ _ k_s
      · simp only [Except.ok.injEq] at e
        rw [← e]
        exact keeps_State_setSlot _ _ _ k_s

theorem keeps_State_closeDone {s₀ : State} (s : State) (x : Part) (k_s : s₀.Keeps s) :
    s₀.Keeps (State.closeDone s x) := by
  unfold State.closeDone
  repeat' (first | with_reducible assumption | extract_lets | with_reducible apply keeps_State_setSlot | with_reducible apply keeps_foldl | split | intro _ _ _ | intro _ | (dsimp only) | (dsimp +zetaDelta only))

theorem keeps_State_keepPackets {s₀ : State} (s : State) (i : Fin 1024) (c : CreelCfg) (k : Slot) (k_s : s₀.Keeps s) :
    s₀.Keeps (State.keepPackets s i c k) := by
  unfold State.keepPackets
  repeat' (first | with_reducible assumption | extract_lets | with_reducible apply keeps_State_setSlot | with_reducible apply keeps_State_bump | with_reducible apply keeps_foldl | split | intro _ _ _ | intro _ | (dsimp only) | (dsimp +zetaDelta only))

theorem keeps_State_newFrame {s₀ : State} (s : State) (i : Fin 1024) (c : CreelCfg) (k : Slot) (q : Piece) (stamp : Nat) (now : Word) (k_s : s₀.Keeps s) :
    s₀.Keeps (State.newFrame s i c k q stamp now) := by
  unfold State.newFrame
  repeat' (first | with_reducible assumption | exact id | extract_lets | with_reducible apply keeps_State_keepPackets | (dsimp only) | (dsimp +zetaDelta only) | with_reducible apply keeps_mk)

theorem keeps_State_latch {s₀ : State} (s : State) (i : Fin 1024) (c : CreelCfg) (q : Piece) (stamp : Nat) (k_s : s₀.Keeps s) :
    s₀.Keeps (State.latch s i c q stamp) := by
  unfold State.latch
  repeat' (first | with_reducible assumption | exact id | extract_lets | with_reducible apply keeps_State_bump | with_reducible apply keeps_State_keepPackets | with_reducible apply keeps_State_newFrame | split | intro _ _ _ | intro _ | (dsimp only) | (dsimp +zetaDelta only) | with_reducible apply keeps_mk)

theorem keeps_State_rtpPayload {s₀ : State} (s : State) (i : Fin 1024) (c : CreelCfg) (k : RtpPkt) (k_s : s₀.Keeps s) :
    s₀.Keeps (State.rtpPayload s i c k).1 := by
  unfold State.rtpPayload
  repeat' (first | with_reducible assumption | exact id | extract_lets | with_reducible apply keeps_State_setSlot | with_reducible apply keeps_State_bump | split | (dsimp only) | (dsimp +zetaDelta only) | with_reducible apply keeps_mk)

theorem keeps_State_rtpPayload_eq {s₀ : State} (s : State) (i : Fin 1024) (c : CreelCfg) (k : RtpPkt) (k_s : s₀.Keeps s) {r₁ r₂} (e : (State.rtpPayload s i c k) = (r₁, r₂)) :
    s₀.Keeps r₁ := by
  have h₁ := keeps_State_rtpPayload s i c k k_s
  rw [e] at h₁
  exact h₁

theorem keeps_execRtpPacket {s₀ : State} (k : RtpPkt) (s : State) (k_s : s₀.Keeps s) :
    ∃ t₁, (execRtpPacket k s) = .next t₁ ∧ s₀.Keeps t₁ := by
  unfold execRtpPacket
  repeat' (first | exact ⟨_, rfl, by with_reducible assumption⟩ | split | (refine ⟨_, rfl, ?_⟩) | with_reducible assumption | exact id | extract_lets | with_reducible apply keeps_State_bump | with_reducible apply keeps_State_latch | with_reducible apply keeps_State_rtpPayload | with_reducible (refine keeps_State_rtpPayload_eq _ _ _ _ ?_ (by with_reducible assumption)) | split | (dsimp only) | (dsimp +zetaDelta only) | with_reducible apply keeps_mk)

theorem keeps_execRtcpPacket {s₀ : State} (ua_ : Fin 8) (s : State) (k_s : s₀.Keeps s) :
    ∃ t₁, (execRtcpPacket ua_ s) = .next t₁ ∧ s₀.Keeps t₁ := by
  unfold execRtcpPacket
  repeat' (first | exact ⟨_, rfl, by with_reducible assumption⟩ | split | (refine ⟨_, rfl, ?_⟩) | with_reducible assumption | extract_lets | (dsimp only))

theorem keeps_execCreelFrameDeadline {s₀ : State} (slot : Fin 1024) (s : State) (k_s : s₀.Keeps s) :
    ∃ t₁, (execCreelFrameDeadline slot s) = .next t₁ ∧ s₀.Keeps t₁ := by
  unfold execCreelFrameDeadline
  repeat' (first | exact ⟨_, rfl, by with_reducible assumption⟩ | split | (refine ⟨_, rfl, ?_⟩) | with_reducible assumption | exact id | extract_lets | with_reducible apply keeps_State_setSlot | with_reducible apply keeps_State_bump | with_reducible apply keeps_foldl | split | intro _ _ _ | intro _ | (dsimp only) | (dsimp +zetaDelta only) | with_reducible apply keeps_mk)

theorem keeps_State_postEntry {s₀ : State} (s : State) (p : Fin 16) (c : CreelCfg) (flags code frame addr : Nat) (pick : Word) (k_s : s₀.Keeps s) :
    s₀.Keeps (State.postEntry s p c flags code frame addr pick) := by
  unfold State.postEntry
  repeat' (first | with_reducible assumption | exact id | extract_lets | with_reducible apply keeps_State_modPart | with_reducible apply keeps_State_frame | intro _ _ _ | intro _ | (dsimp only) | (dsimp +zetaDelta only) | with_reducible apply keeps_mk)

theorem keeps_State_postAbsent {s₀ : State} (s : State) (i : Fin 1024) (p : Fin 16) (c : CreelCfg) (code : Nat) (pick : Word) (k_s : s₀.Keeps s) :
    s₀.Keeps (State.postAbsent s i p c code pick) := by
  unfold State.postAbsent
  repeat' (first | with_reducible assumption | exact id | extract_lets | with_reducible apply keeps_State_setSlot | with_reducible apply keeps_State_frame | with_reducible apply keeps_State_postEntry | (dsimp only) | (dsimp +zetaDelta only) | with_reducible apply keeps_mk)

theorem keeps_State_creelFault {s₀ : State} (s : State) (i : Fin 1024) (p : Fin 16) (x : Part) (c : CreelCfg) (code : Nat) (k_s : s₀.Keeps s) :
    s₀.Keeps (State.creelFault s i p x c code) := by
  unfold State.creelFault
  repeat' (first | with_reducible assumption | exact id | extract_lets | with_reducible apply keeps_State_setSlot | with_reducible apply keeps_State_bump | with_reducible apply keeps_State_creelReport | with_reducible apply keeps_State_postAbsent | with_reducible apply keeps_foldl | split | intro _ _ _ | intro _ | (dsimp only) | (dsimp +zetaDelta only) | with_reducible apply keeps_mk)

theorem keeps_State_pauseSlot {s₀ : State} (s : State) (i : Fin 1024) (k_s : s₀.Keeps s) :
    s₀.Keeps (State.pauseSlot s i) := by
  unfold State.pauseSlot
  repeat' (first | with_reducible assumption | exact id | extract_lets | with_reducible apply keeps_State_setSlot | with_reducible apply keeps_State_bump | split | (dsimp only) | (dsimp +zetaDelta only) | with_reducible apply keeps_mk)

theorem keeps_State_pauseFull {s₀ : State} (s : State) (i : Fin 1024) (p : Fin 16) (c : CreelCfg) (k_s : s₀.Keeps s) :
    s₀.Keeps (State.pauseFull s i p c) := by
  unfold State.pauseFull
  repeat' (first | with_reducible assumption | extract_lets | with_reducible apply keeps_State_pauseSlot | with_reducible apply keeps_foldl | split | intro _ _ _ | intro _ | (dsimp only) | (dsimp +zetaDelta only))

theorem keeps_State_postPicture {s₀ : State} (s : State) (i : Fin 1024) (p : Fin 16) (c : CreelCfg) (f : FrameIn) (pic : Config.Picture) (pick : Word) (k_s : s₀.Keeps s) :
    s₀.Keeps (State.postPicture s i p c f pic pick) := by
  unfold State.postPicture
  repeat' (first | with_reducible assumption | exact id | extract_lets | with_reducible apply keeps_State_setSlot | with_reducible apply keeps_State_bump | with_reducible apply keeps_State_report | with_reducible apply keeps_State_store_ | with_reducible apply keeps_State_drawBytes | with_reducible (refine keeps_State_drawBytes_eq _ _ ?_ (by with_reducible assumption)) | with_reducible apply keeps_State_frame | with_reducible apply keeps_State_postEntry | split | (dsimp only) | (dsimp +zetaDelta only) | with_reducible apply keeps_mk)

theorem keeps_State_recordCreel {s₀ : State} (s : State) (p : Fin 16) (slot frame : Nat) (f : FrameIn) (post : Word) (k_s : s₀.Keeps s) :
    s₀.Keeps (State.recordCreel s p slot frame f post) := by
  unfold State.recordCreel
  repeat' (first | with_reducible assumption | extract_lets | with_reducible apply keeps_State_recordSwatch | with_reducible apply keeps_State_frame | with_reducible apply keeps_foldl | split | intro _ _ _ | intro _ | (dsimp only) | (dsimp +zetaDelta only))

theorem keeps_State_beginFrame {s₀ : State} (s : State) (i : Fin 1024) (p : Fin 16) (x : Part) (c : CreelCfg) (f : FrameIn) (k_s : s₀.Keeps s) :
    s₀.Keeps (State.beginFrame s i p x c f) := by
  unfold State.beginFrame
  repeat' (first | with_reducible assumption | exact id | extract_lets | with_reducible apply keeps_State_setSlot | with_reducible apply keeps_State_creelFault | split | intro _ _ _ | intro _ | (dsimp only) | (dsimp +zetaDelta only) | with_reducible apply keeps_mk)

theorem keeps_State_ringFails {s₀ : State} (s : State) (p : Fin 16) (c : CreelCfg) (addr n : Nat) (k_s : s₀.Keeps s) :
    s₀.Keeps (State.ringFails s p c addr n) := by
  unfold State.ringFails
  repeat' (first | with_reducible assumption | extract_lets | with_reducible apply keeps_State_bump | with_reducible apply keeps_State_faultCtx | split | (dsimp only) | (dsimp +zetaDelta only))

theorem keeps_State_startRing {s₀ : State} (s : State) (i : Fin 1024) (p : Fin 16) (x : Part) (c : CreelCfg) (fuel : Nat) (k_s : s₀.Keeps s) :
    s₀.Keeps (State.startRing s i p x c fuel) := by
  induction fuel generalizing s with
  | zero => exact k_s
  | succ n ih =>
    unfold State.startRing
    extract_lets k seen
    split
    · exact keeps_State_setSlot _ _ _ k_s
    · exact keeps_State_creelFault _ _ _ _ _ _ k_s
    · exact keeps_State_creelFault _ _ _ _ _ _ (keeps_State_ringFails _ _ _ _ _ k_s)
    · apply ih
      exact keeps_State_setSlot _ _ _ k_s
    · extract_lets bad f u
      have k_u : s₀.Keeps u := keeps_State_load_ _ _ _ _ _ (keeps_State_setSlot _ _ _ k_s)
      apply keeps_State_beginFrame
      split
      · exact keeps_State_ringFails _ _ _ _ _ k_u
      · exact k_u

theorem keeps_execCreelDecodeStart {s₀ : State} (slot : Fin 1024) (s : State) (k_s : s₀.Keeps s) :
    ∃ t₁, (execCreelDecodeStart slot s) = .next t₁ ∧ s₀.Keeps t₁ := by
  unfold execCreelDecodeStart
  repeat' (first | exact ⟨_, rfl, by with_reducible assumption⟩ | split | (refine ⟨_, rfl, ?_⟩) | with_reducible assumption | exact id | extract_lets | with_reducible apply keeps_State_setSlot | with_reducible apply keeps_State_faultCtx | with_reducible apply keeps_State_erase | with_reducible apply keeps_State_beginFrame | with_reducible apply keeps_State_startRing | split | (dsimp only) | (dsimp +zetaDelta only) | with_reducible apply keeps_mk)

theorem keeps_State_endFrame {s₀ : State} (s : State) (i : Fin 1024) (p : Fin 16) (ua_ : CreelCfg) (f : FrameIn) (pics : List Config.Picture) (frame : Nat) (pick : Word) (k_s : s₀.Keeps s) :
    s₀.Keeps (State.endFrame s i p ua_ f pics frame pick) := by
  unfold State.endFrame
  repeat' (first | with_reducible assumption | exact id | extract_lets | with_reducible apply keeps_State_setSlot | with_reducible apply keeps_State_store_ | with_reducible apply keeps_State_frame | with_reducible apply keeps_State_recordCreel | with_reducible apply keeps_foldl | split | intro _ _ _ | intro _ | (dsimp only) | (dsimp +zetaDelta only) | with_reducible apply keeps_mk)

theorem keeps_State_decodeNext {s₀ : State} (s : State) (slot : Fin 1024) (p : Fin 16) (x : Part) (c : CreelCfg) (k_s : s₀.Keeps s) :
    s₀.Keeps (State.decodeNext s slot p x c) := by
  unfold State.decodeNext
  repeat' (first | with_reducible assumption | exact id | extract_lets | with_reducible apply keeps_State_setSlot | with_reducible apply keeps_State_frame | with_reducible apply keeps_State_creelReport | with_reducible apply keeps_State_postAbsent | with_reducible apply keeps_State_creelFault | with_reducible apply keeps_State_pauseSlot | with_reducible apply keeps_State_pauseFull | with_reducible apply keeps_State_postPicture | with_reducible apply keeps_State_endFrame | split | (dsimp only) | (dsimp +zetaDelta only) | with_reducible apply keeps_mk)

theorem keeps_execCreelDecodeComplete {s₀ : State} (slot : Fin 1024) (s : State) (k_s : s₀.Keeps s) :
    ∃ t₁, (execCreelDecodeComplete slot s) = .next t₁ ∧ s₀.Keeps t₁ := by
  unfold execCreelDecodeComplete
  repeat' (first | exact ⟨_, rfl, by with_reducible assumption⟩ | split | (refine ⟨_, rfl, ?_⟩) | with_reducible assumption | extract_lets | with_reducible apply keeps_State_decodeNext | split | (dsimp only))

theorem keeps_execCreelResume {s₀ : State} (slot : Fin 1024) (s : State) (k_s : s₀.Keeps s) :
    ∃ t₁, (execCreelResume slot s) = .next t₁ ∧ s₀.Keeps t₁ := by
  unfold execCreelResume
  repeat' (first | exact ⟨_, rfl, by with_reducible assumption⟩ | split | (refine ⟨_, rfl, ?_⟩) | with_reducible assumption | exact id | extract_lets | with_reducible apply keeps_State_setSlot | with_reducible apply keeps_State_postAbsent | with_reducible apply keeps_State_creelFault | split | (dsimp only) | (dsimp +zetaDelta only) | with_reducible apply keeps_mk)

end Sys2Proof.Machine
end

