-- ==== Sys2Proof/Laws/KeepsBoundary.lean ====
section
/-! SUPPORT. Sys2Proof/Laws/KeepsBoundary.lean: what the operations of Machine/Boundary.lean keep. -/

namespace Sys2Proof.Machine

open Sys2Proof

theorem keeps_State_applyControl {s₀ : State} (s : State) (p : Fin 16) (x : Part) (r : Staged) (k_s : s₀.Keeps s) :
    s₀.Keeps (State.applyControl s p x r).1 := by
  have take : ∀ (o : Except Nat State), (∀ u, o = .ok u → s₀.Keeps u) →
      s₀.Keeps (match o with | .ok t => (t, 0, 0) | .error f => (s, 2, f) : State × Nat × Nat).1 := by
    intro o ho
    cases o with
    | error f => exact k_s
    | ok u => exact ho u rfl
  unfold State.applyControl
  dsimp only
  split
  · exact take _ (fun u e => keeps_State_applyCreelOpen _ _ _ _ k_s e)
  · split
    · exact take _ (fun u e => keeps_State_applyCreelClose _ _ _ _ k_s e)
    · split
      · exact k_s
      · split
        · exact take _ (fun u e => keeps_State_loadKeys _ _ _ _ _ k_s e)
        · split
          · exact take _ (fun u e => keeps_State_applyClose _ _ _ k_s e)
          · split
            · exact keeps_State_setPart _ _ _ k_s
            · exact k_s

theorem keeps_State_applyControl_eq {s₀ : State} (s : State) (p : Fin 16) (x : Part) (r : Staged) (k_s : s₀.Keeps s) {r₁ r₂} (e : (State.applyControl s p x r) = (r₁, r₂)) :
    s₀.Keeps r₁ := by
  have h₁ := keeps_State_applyControl s p x r k_s
  rw [e] at h₁
  exact h₁

theorem keeps_State_noteRequest {s₀ : State} (s : State) (p : Fin 16) (r : Staged) (n : Word) (status field : Nat) (k_s : s₀.Keeps s) :
    s₀.Keeps (State.noteRequest s p r n status field) := by
  unfold State.noteRequest
  repeat' (first | with_reducible assumption | extract_lets | with_reducible apply keeps_State_modPart | with_reducible apply keeps_State_request | with_reducible apply keeps_State_recordSwatch | intro _ _ _ | intro _ | (dsimp only))

theorem keeps_State_runControl {s₀ : State} (s : State) (p : Fin 16) (x : Part) (r : Staged) (n : Word) (k_s : s₀.Keeps s) :
    s₀.Keeps (State.runControl s p x r n) := by
  unfold State.runControl
  have k := keeps_State_applyControl s p x r k_s
  generalize s.applyControl p x r = c at k ⊢
  obtain ⟨t, status, field⟩ := c
  exact keeps_State_noteRequest _ _ _ _ _ _ (keeps_State_countStatus _ _ k)

theorem keeps_State_applyDestroy {s₀ : State} (s : State) (p : Fin 16) (k_s : s₀.Keeps s) :
    s₀.Keeps (State.applyDestroy s p) := by
  unfold State.applyDestroy
  repeat' (first | with_reducible assumption | exact id | extract_lets | with_reducible apply keeps_State_modPart | with_reducible apply keeps_State_cancelPanel | split | intro _ _ _ | intro _ | (dsimp only) | (dsimp +zetaDelta only) | with_reducible apply keeps_mk)

theorem keeps_State_applyMgmt {s₀ : State} (s : State) (r : Staged) (k_s : s₀.Keeps s) :
    s₀.Keeps (State.applyMgmt s r).1 := by
  unfold State.applyMgmt
  dsimp only
  split
  · exact keeps_State_applyFence _ _ _ k_s
  · split
    · exact keeps_State_applyFence _ _ _ k_s
    · split
      · split
        · exact k_s
        · split
          · split
            · next h => exact keeps_State_loadKeys _ _ _ _ _ k_s h
            · exact k_s
          · split
            · next h => exact keeps_State_applyClose _ _ _ k_s h
            · exact k_s
      · split
        · exact k_s
        · split
          · exact keeps_State_applyDestroy _ _ k_s
          · split
            · next h => exact keeps_State_applyStop _ _ k_s h
            · exact k_s

theorem keeps_State_applyMgmt_eq {s₀ : State} (s : State) (r : Staged) (k_s : s₀.Keeps s) {r₁ r₂} (e : (State.applyMgmt s r) = (r₁, r₂)) :
    s₀.Keeps r₁ := by
  have h₁ := keeps_State_applyMgmt s r k_s
  rw [e] at h₁
  exact h₁

theorem keeps_State_applyStaged {s₀ : State} (s : State) (r : Staged) (n : Word) (k_s : s₀.Keeps s) :
    s₀.Keeps (State.applyStaged s r n) := by
  unfold State.applyStaged
  repeat' (first | with_reducible assumption | exact id | extract_lets | with_reducible apply keeps_State_staged | with_reducible apply keeps_State_runControl | with_reducible apply keeps_State_applyMgmt | with_reducible (refine keeps_State_applyMgmt_eq _ _ ?_ (by with_reducible assumption)) | split | (dsimp only) | (dsimp +zetaDelta only) | with_reducible apply keeps_mk)

theorem keeps_State_applyRequests {s₀ : State} (s : State) (n : Word) (k_s : s₀.Keeps s) :
    s₀.Keeps (State.applyRequests s n) := by
  unfold State.applyRequests
  repeat' (first | with_reducible assumption | exact id | extract_lets | with_reducible apply keeps_State_staged | with_reducible apply keeps_State_markHeld | with_reducible apply keeps_State_applyStaged | with_reducible apply keeps_foldl | intro _ _ _ | intro _ | (dsimp only) | (dsimp +zetaDelta only) | with_reducible apply keeps_mk)

theorem keeps_State_sendOutcomes {s₀ : State} (s : State) (n : Word) (k_s : s₀.Keeps s) :
    s₀.Keeps (State.sendOutcomes s n) := by
  unfold State.sendOutcomes
  repeat' (first | with_reducible assumption | exact id | extract_lets | with_reducible apply keeps_State_outcome | with_reducible apply keeps_foldl | intro _ _ _ | intro _ | (dsimp only) | (dsimp +zetaDelta only) | with_reducible apply keeps_mk)

theorem keeps_State_keepResults {s₀ : State} (s : State) (p : Fin 16) (n : Word) (k_s : s₀.Keeps s) :
    s₀.Keeps (State.keepResults s p n) := by
  unfold State.keepResults
  repeat' (first | with_reducible assumption | exact id | extract_lets | with_reducible apply keeps_State_setPart | with_reducible apply keeps_State_result | with_reducible apply keeps_foldl | split | intro _ _ _ | intro _ | (dsimp only) | with_reducible apply keeps_mk)

theorem keeps_State_closePart {s₀ : State} (s : State) (p : Fin 16) (n : Word) (k_s : s₀.Keeps s) :
    s₀.Keeps (State.closePart s p n) := by
  unfold State.closePart
  repeat' (first | with_reducible assumption | extract_lets | with_reducible apply keeps_State_modPart | with_reducible apply keeps_State_endRecording | with_reducible apply keeps_State_closeDone | with_reducible apply keeps_State_keepResults | split | intro _ _ _ | intro _ | (dsimp only) | (dsimp +zetaDelta only))

theorem keeps_State_selectEntry {s₀ : State} (s : State) (p : Fin 16) (n : Word) (k_s : s₀.Keeps s) :
    s₀.Keeps (State.selectEntry s p n) := by
  unfold State.selectEntry
  repeat' (first | with_reducible assumption | exact id | extract_lets | with_reducible apply keeps_State_setPart | with_reducible apply keeps_State_setFld | split | intro _ _ _ | intro _ | (dsimp only) | (dsimp +zetaDelta only) | with_reducible apply keeps_mk)

theorem keeps_execCadenceCheck {s₀ : State} (p : Fin 16) (id : BitVec 16) (s : State) (k_s : s₀.Keeps s) :
    ∃ t₁, (execCadenceCheck p id s) = .next t₁ ∧ s₀.Keeps t₁ := by
  unfold execCadenceCheck
  repeat' (first | exact ⟨_, rfl, by with_reducible assumption⟩ | split | (refine ⟨_, rfl, ?_⟩) | with_reducible assumption | exact id | extract_lets | with_reducible apply keeps_State_setPart | with_reducible apply keeps_State_bump | with_reducible apply keeps_Here_home | split | (dsimp only) | (dsimp +zetaDelta only) | with_reducible apply keeps_mk)

theorem keeps_State_stepFive {s₀ : State} (s : State) (p : Fin 16) (n : Word) (k_s : s₀.Keeps s) :
    s₀.Keeps (State.stepFive s p n) := by
  unfold State.stepFive
  repeat' (first | with_reducible assumption | exact id | exact Loom.to_setSeq _ _ _ | exact Loom.to_setBank _ _ _ | exact fun l => to_of (fun h => h) | exact to_of (fun h => h) | exact fun l => Loom.to_releasePicks _ _ _ | extract_lets | with_reducible apply keeps_State_modLoom | with_reducible apply keeps_State_setPart | with_reducible apply keeps_State_prefetch | with_reducible apply keeps_State_selectEntry | with_reducible apply keeps_foldl | split | intro _ _ _ | intro _ | (dsimp only) | (dsimp +zetaDelta only) | with_reducible apply keeps_mk)

theorem keeps_State_stopForPanel {s₀ : State} (s : State) (p : Fin 16) (n : Word) (k_s : s₀.Keeps s) :
    s₀.Keeps (State.stopForPanel s p n) := by
  unfold State.stopForPanel
  repeat' (first | with_reducible assumption | exact id | extract_lets | with_reducible apply keeps_State_modPart | with_reducible apply keeps_State_endRecording | split | intro _ _ _ | intro _ | (dsimp only) | with_reducible apply keeps_mk)

theorem keeps_State_boundary {s₀ : State} (s : State) (n : Word) (k_s : s₀.Keeps s) :
    s₀.Keeps (State.boundary s n) := by
  unfold State.boundary
  repeat' (first | with_reducible assumption | exact id | exact fun h => Tab.rising_map _ _ _ h | extract_lets | with_reducible apply keeps_State_retryWriteBacks | with_reducible apply keeps_State_sampleTelemetry | with_reducible apply keeps_State_removePart | with_reducible apply keeps_State_reportPart | with_reducible apply keeps_State_pickReports | with_reducible apply keeps_State_expireHoldover | with_reducible apply keeps_State_decideMode | with_reducible apply keeps_State_applyRequests | with_reducible apply keeps_State_sendOutcomes | with_reducible apply keeps_State_closePart | with_reducible apply keeps_State_stepFive | with_reducible apply keeps_State_stopForPanel | with_reducible apply keeps_foldl | split | intro _ _ _ | intro _ | (dsimp only) | (dsimp +zetaDelta only) | with_reducible apply keeps_mk)

theorem keeps_execPickBoundary {s₀ : State} (s : State) (k_s : s₀.Keeps s) :
    ∃ t₁, (execPickBoundary s) = .next t₁ ∧ s₀.Keeps t₁ := by
  unfold execPickBoundary
  repeat' (first | exact ⟨_, rfl, by with_reducible assumption⟩ | split | (refine ⟨_, rfl, ?_⟩) | with_reducible assumption | extract_lets | with_reducible apply keeps_State_formPtp | with_reducible apply keeps_State_boundary | split | (dsimp only) | (dsimp +zetaDelta only))

end Sys2Proof.Machine
end

