-- ==== Sys2Proof/Laws/KeepsViews.lean ====
section
/-! SUPPORT. Sys2Proof/Laws/KeepsViews.lean: what the operations of Machine/Views.lean keep. -/

namespace Sys2Proof.Machine

open Sys2Proof

theorem keeps_State_viewDx {s₀ : State} (s : State) (g : Fin 256) (v : Word) (k_s : s₀.Keeps s) :
    s₀.Keeps (State.viewDx s g v).2 := by
  unfold State.viewDx
  repeat' (first | with_reducible assumption | extract_lets | with_reducible apply keeps_State_draw | with_reducible (refine keeps_State_draw_eq _ _ ?_ (by with_reducible assumption)) | split | intro _ _ _ | intro _ | (dsimp only) | (dsimp +zetaDelta only))

theorem keeps_State_viewDx_eq {s₀ : State} (s : State) (g : Fin 256) (v : Word) (k_s : s₀.Keeps s) {r₁ r₂} (e : (State.viewDx s g v) = (r₁, r₂)) :
    s₀.Keeps r₂ := by
  have h₁ := keeps_State_viewDx s g v k_s
  rw [e] at h₁
  exact h₁

theorem keeps_State_viewBc {s₀ : State} (s : State) (m : Fin 8) (v : Word) (k_s : s₀.Keeps s) :
    s₀.Keeps (State.viewBc s m v).2 := by
  unfold State.viewBc
  repeat' (first | with_reducible assumption | extract_lets | with_reducible apply keeps_State_draw | with_reducible (refine keeps_State_draw_eq _ _ ?_ (by with_reducible assumption)) | split | (dsimp only) | (dsimp +zetaDelta only))

theorem keeps_State_viewBc_eq {s₀ : State} (s : State) (m : Fin 8) (v : Word) (k_s : s₀.Keeps s) {r₁ r₂} (e : (State.viewBc s m v) = (r₁, r₂)) :
    s₀.Keeps r₂ := by
  have h₁ := keeps_State_viewBc s m v k_s
  rw [e] at h₁
  exact h₁

theorem keeps_State_viewStack {s₀ : State} (s : State) (k : Fin 32) (v : Word) (k_s : s₀.Keeps s) :
    s₀.Keeps (State.viewStack s k v).2 := by
  unfold State.viewStack
  repeat' (first | with_reducible assumption | extract_lets | with_reducible apply keeps_State_draw | with_reducible (refine keeps_State_draw_eq _ _ ?_ (by with_reducible assumption)) | split | (dsimp only) | (dsimp +zetaDelta only))

theorem keeps_State_viewStack_eq {s₀ : State} (s : State) (k : Fin 32) (v : Word) (k_s : s₀.Keeps s) {r₁ r₂} (e : (State.viewStack s k v) = (r₁, r₂)) :
    s₀.Keeps r₂ := by
  have h₁ := keeps_State_viewStack s k v k_s
  rw [e] at h₁
  exact h₁

theorem keeps_State_readReg {s₀ : State} (s : State) (r : Reg) (k_s : s₀.Keeps s) :
    s₀.Keeps (State.readReg s r).2 := by
  have h : (s.readReg r).2 = s ∨ (∃ g v, (s.readReg r).2 = (s.viewDx g v).2) ∨ (∃ m v, (s.readReg r).2 = (s.viewBc m v).2)
      ∨ (∃ k v, (s.readReg r).2 = (s.viewStack k v).2) := by
    cases r
    all_goals first
      | exact .inl rfl
      | exact .inr (.inl ⟨_, _, rfl⟩)
      | exact .inr (.inr (.inl ⟨_, _, rfl⟩))
      | exact .inr (.inr (.inr ⟨_, _, rfl⟩))
  rcases h with h | ⟨g, v, h⟩ | ⟨m, v, h⟩ | ⟨k, v, h⟩
  · rw [h]; exact k_s
  · rw [h]; exact keeps_State_viewDx _ _ _ k_s
  · rw [h]; exact keeps_State_viewBc _ _ _ k_s
  · rw [h]; exact keeps_State_viewStack _ _ _ k_s

theorem keeps_State_readReg_eq {s₀ : State} (s : State) (r : Reg) (k_s : s₀.Keeps s) {r₁ r₂} (e : (State.readReg s r) = (r₁, r₂)) :
    s₀.Keeps r₂ := by
  have h₁ := keeps_State_readReg s r k_s
  rw [e] at h₁
  exact h₁

theorem keeps_State_clearRead {s₀ : State} (s : State) (r : Reg) (k_s : s₀.Keeps s) :
    s₀.Keeps (State.clearRead s r) := by
  unfold State.clearRead
  repeat' (first | with_reducible assumption | extract_lets | with_reducible apply keeps_State_setFld | with_reducible apply keeps_foldl | intro _ _ _ | intro _ | (dsimp only))

end Sys2Proof.Machine
end

