-- ==== Sys2Proof/Laws/KeepsRegMsgs.lean ====
section
/-! SUPPORT. Sys2Proof/Laws/KeepsRegMsgs.lean: what the operations of Machine/RegMsgs.lean keep. -/

namespace Sys2Proof.Machine

open Sys2Proof

theorem keeps_State_readRegs {s₀ : State} (s : State) (clear : Bool) (l : List Reg) (k_s : s₀.Keeps s) :
    s₀.Keeps (State.readRegs s clear l).2 := by
  have h : ∀ (l : List Reg) (a : List Byte × State), s₀.Keeps a.2 →
      s₀.Keeps (l.foldl (fun (a : List Byte × State) r =>
        let (v, s) := a.2.readReg r
        (a.1 ++ beBytes 8 v.toNat, if clear then s.clearRead r else s)) a).2 := by
    intro l
    induction l with
    | nil => exact fun a k => k
    | cons r rest ih =>
      intro a k
      apply ih
      have k₁ := keeps_State_readReg a.2 r k
      dsimp only
      split
      · exact keeps_State_clearRead _ _ k₁
      · exact k₁
  exact h l _ k_s

theorem keeps_State_readRegs_eq {s₀ : State} (s : State) (clear : Bool) (l : List Reg) (k_s : s₀.Keeps s) {r₁ r₂} (e : (State.readRegs s clear l) = (r₁, r₂)) :
    s₀.Keeps r₂ := by
  have h₁ := keeps_State_readRegs s clear l k_s
  rw [e] at h₁
  exact h₁

theorem keeps_execRegRead {s₀ : State} (m : Msg) (s : State) (k_s : s₀.Keeps s) :
    ∃ t₁, (execRegRead m s) = .next t₁ ∧ s₀.Keeps t₁ := by
  unfold execRegRead
  repeat' (first | exact ⟨_, rfl, by with_reducible assumption⟩ | split | (refine ⟨_, rfl, ?_⟩) | with_reducible assumption | extract_lets | with_reducible apply keeps_State_septa | with_reducible apply keeps_State_readRegs | with_reducible (refine keeps_State_readRegs_eq _ _ _ ?_ (by with_reducible assumption)) | split | intro _ _ _ | intro _ | (dsimp only) | (dsimp +zetaDelta only))

theorem keeps_State_plainWrite {s₀ : State} (s : State) (r : Reg) (v : Word) (k_s : s₀.Keeps s) :
    s₀.Keeps (State.plainWrite s r v) := by
  unfold State.plainWrite
  repeat' (first | with_reducible assumption | extract_lets | with_reducible apply keeps_State_setFld | with_reducible apply keeps_foldl | split | intro _ _ _ | intro _ | (dsimp only))

theorem keeps_State_writeReg {s₀ : State} (s : State) (r : Reg) (v : Word) (k_s : s₀.Keeps s) :
    s₀.Keeps (State.writeReg s r v) := by
  unfold State.writeReg
  repeat' (first | with_reducible assumption | exact id | extract_lets | with_reducible apply keeps_State_writeEvac | with_reducible apply keeps_State_writeFarCmd | with_reducible apply keeps_State_writeSource | with_reducible apply keeps_State_plainWrite | split | (dsimp only) | with_reducible apply keeps_mk)

theorem keeps_handleRegWrite {s₀ : State} (r : Staged) (s : State) (k_s : s₀.Keeps s) :
    s₀.Keeps (handleRegWrite r s).1 := by
  unfold handleRegWrite
  repeat' (first | with_reducible assumption | extract_lets | with_reducible apply keeps_State_writeReg | with_reducible apply keeps_foldl | split | intro _ _ _ | intro _ | (dsimp only) | (dsimp +zetaDelta only))

theorem keeps_handleRegWrite_eq {s₀ : State} (r : Staged) (s : State) (k_s : s₀.Keeps s) {r₁ r₂} (e : (handleRegWrite r s) = (r₁, r₂)) :
    s₀.Keeps r₁ := by
  have h₁ := keeps_handleRegWrite r s k_s
  rw [e] at h₁
  exact h₁

theorem keeps_execRegWrite {s₀ : State} (m : Msg) (s : State) (k_s : s₀.Keeps s) :
    ∃ t₁, (execRegWrite m s) = .next t₁ ∧ s₀.Keeps t₁ := by
  unfold execRegWrite
  repeat' (first | exact ⟨_, rfl, by with_reducible assumption⟩ | split | (refine ⟨_, rfl, ?_⟩) | with_reducible assumption | extract_lets | with_reducible apply keeps_State_septa | with_reducible apply keeps_handleRegWrite | with_reducible (refine keeps_handleRegWrite_eq _ _ ?_ (by with_reducible assumption)) | (dsimp only))

theorem keeps_oneWrite {s₀ : State} (q : WriteReq) (r : Reg) (mine : Bool) (name : String) (s : State) (k_s : s₀.Keeps s) (hok : mine = true) :
    ∃ t₁, (oneWrite q r mine name s) = .next t₁ ∧ s₀.Keeps t₁ := by
  unfold oneWrite
  rw [if_pos hok]
  exact keeps_execRegWrite _ _ k_s

theorem keeps_execPickSourceArmPtp {s₀ : State} (q : WriteReq) (s : State) (k_s : s₀.Keeps s) (hok : (Fl.pickSource_SEL.get q.value == 1) = true) :
    ∃ t₁, (execPickSourceArmPtp q s) = .next t₁ ∧ s₀.Keeps t₁ :=
  keeps_oneWrite _ _ _ _ _ k_s hok

theorem keeps_execPickSourceArmPulse {s₀ : State} (q : WriteReq) (s : State) (k_s : s₀.Keeps s) (hok : (Fl.pickSource_SEL.get q.value == 2) = true) :
    ∃ t₁, (execPickSourceArmPulse q s) = .next t₁ ∧ s₀.Keeps t₁ :=
  keeps_oneWrite _ _ _ _ _ k_s hok

theorem keeps_execPickSourceDisarm {s₀ : State} (q : WriteReq) (s : State) (k_s : s₀.Keeps s) (hok : (Fl.pickSource_SEL.get q.value == 0) = true) :
    ∃ t₁, (execPickSourceDisarm q s) = .next t₁ ∧ s₀.Keeps t₁ :=
  keeps_oneWrite _ _ _ _ _ k_s hok

theorem keeps_execModuleResetRequest {s₀ : State} (q : WriteReq) (s : State) (k_s : s₀.Keeps s) (hok : (Fl.moduleReset_REQUEST.get q.value == 1) = true) :
    ∃ t₁, (execModuleResetRequest q s) = .next t₁ ∧ s₀.Keeps t₁ :=
  keeps_oneWrite _ _ _ _ _ k_s hok

theorem keeps_execMemEvacEvacuate {s₀ : State} (mill : Fin 8) (q : WriteReq) (s : State) (k_s : s₀.Keeps s) (hok : (Fl.memEvac_OP.get q.value == 1) = true) :
    ∃ t₁, (execMemEvacEvacuate mill q s) = .next t₁ ∧ s₀.Keeps t₁ :=
  keeps_oneWrite _ _ _ _ _ k_s hok

theorem keeps_execMemEvacRecalibrate {s₀ : State} (mill : Fin 8) (q : WriteReq) (s : State) (k_s : s₀.Keeps s) (hok : (Fl.memEvac_OP.get q.value == 2) = true) :
    ∃ t₁, (execMemEvacRecalibrate mill q s) = .next t₁ ∧ s₀.Keeps t₁ :=
  keeps_oneWrite _ _ _ _ _ k_s hok

theorem keeps_execMemEvacReturn {s₀ : State} (mill : Fin 8) (q : WriteReq) (s : State) (k_s : s₀.Keeps s) (hok : (Fl.memEvac_OP.get q.value == 3) = true) :
    ∃ t₁, (execMemEvacReturn mill q s) = .next t₁ ∧ s₀.Keeps t₁ :=
  keeps_oneWrite _ _ _ _ _ k_s hok

theorem keeps_execFarCmdMovePagesOff {s₀ : State} (q : WriteReq) (s : State) (k_s : s₀.Keeps s) (hok : (Fl.farCmd_OP.get q.value == 1) = true) :
    ∃ t₁, (execFarCmdMovePagesOff q s) = .next t₁ ∧ s₀.Keeps t₁ :=
  keeps_oneWrite _ _ _ _ _ k_s hok

theorem keeps_execFarCmdBringUp {s₀ : State} (q : WriteReq) (s : State) (k_s : s₀.Keeps s) (hok : (Fl.farCmd_OP.get q.value == 2) = true) :
    ∃ t₁, (execFarCmdBringUp q s) = .next t₁ ∧ s₀.Keeps t₁ :=
  keeps_oneWrite _ _ _ _ _ k_s hok

theorem keeps_execFarCmdFlush {s₀ : State} (q : WriteReq) (s : State) (k_s : s₀.Keeps s) (hok : (Fl.farCmd_OP.get q.value == 3) = true) :
    ∃ t₁, (execFarCmdFlush q s) = .next t₁ ∧ s₀.Keeps t₁ :=
  keeps_oneWrite _ _ _ _ _ k_s hok

end Sys2Proof.Machine
end

