-- ==== Sys2Proof/Laws/KeepsReplay.lean ====
section
/-! SUPPORT. Sys2Proof/Laws/KeepsReplay.lean: what the operations of Machine/Replay.lean keep. -/

namespace Sys2Proof.Machine

open Sys2Proof

theorem keeps_State_modSwatch {s₀ : State} (s : State) (p : Fin 16) (f : Swatch → Swatch) (k_s : s₀.Keeps s) :
    s₀.Keeps (State.modSwatch s p f) := by
  unfold State.modSwatch
  repeat' (first | with_reducible assumption | exact id | extract_lets | with_reducible apply keeps_State_modPart | intro _ _ _ | intro _ | (dsimp only) | with_reducible apply keeps_mk)

theorem keeps_State_pastRecords {s₀ : State} (s : State) (p : Fin 16) (bytes n : Nat) (k_s : s₀.Keeps s) :
    s₀.Keeps (State.pastRecords s p bytes n) := by
  unfold State.pastRecords
  repeat' (first | with_reducible assumption | exact id | extract_lets | with_reducible apply keeps_State_modSwatch | intro _ _ _ | intro _ | (dsimp only) | with_reducible apply keeps_mk)

theorem keeps_State_endReplay {s₀ : State} (s : State) (p : Fin 16) (k_s : s₀.Keeps s) :
    s₀.Keeps (State.endReplay s p) := by
  unfold State.endReplay
  repeat' (first | with_reducible assumption | exact id | extract_lets | with_reducible apply keeps_State_modSwatch | intro _ _ _ | intro _ | (dsimp only) | with_reducible apply keeps_mk)

theorem keeps_State_decodeAll {s₀ : State} (s : State) (i : Fin 1024) (p : Fin 16) (c : CreelCfg) (fuel : Nat) (k_s : s₀.Keeps s) :
    s₀.Keeps (State.decodeAll s i p c fuel) := by
  induction fuel generalizing s with
  | zero => exact k_s
  | succ n ih =>
    unfold State.decodeAll
    extract_lets k
    split
    · extract_lets t
      have k_t : s₀.Keeps t := keeps_State_decodeNext _ _ _ _ _ k_s
      split
      · exact k_t
      · exact ih _ k_t
    · exact k_s

theorem keeps_State_decodeWaiting {s₀ : State} (s : State) (p : Fin 16) (x : Part) (k_s : s₀.Keeps s) :
    s₀.Keeps (State.decodeWaiting s p x) := by
  unfold State.decodeWaiting
  repeat' (first | with_reducible assumption | extract_lets | with_reducible apply keeps_State_decodeAll | with_reducible apply keeps_foldl | intro _ _ _ | intro _ | (dsimp only))

theorem keeps_State_deliverOne {s₀ : State} (s : State) (p : Fin 16) (x : Part) (w : Swatch) (r : SwRec) (k_s : s₀.Keeps s)
    {u : State} {b n : Nat} (e : s.deliverOne p x w r = .done u b n) : s₀.Keeps u := by
  unfold State.deliverOne at e
  split at e
  · unfold State.deliverCloth at e
    extract_lets addr m at e
    split at e
    · simp only [reduceCtorEq] at e
    · simp only [Delivered.done.injEq] at e
      rw [← e.1]
      exact keeps_State_store_ _ _ _ _ k_s
  · split at e
    · unfold State.deliverEntry at e
      extract_lets q c ctx word y at e
      split at e
      · simp only [reduceCtorEq] at e
      · split at e
        · simp only [reduceCtorEq] at e
        · simp only [Delivered.done.injEq] at e
          rw [← e.1]
          exact keeps_State_setPart _ _ _ k_s
    · split at e
      · unfold State.deliverCreel at e
        rcases hr : s.frameRecords p w w.pos 4096 with _ | _ | ⟨l, bytes, m⟩
        · simp only [hr, reduceCtorEq] at e
        · simp only [hr, reduceCtorEq] at e
        · simp only [hr] at e
          rcases l with _ | ⟨r', rest⟩
          · simp only [reduceCtorEq] at e
          · dsimp only at e
            cases hc : List.find? (fun c => c.slot == leNat (slice r'.body 0 2)) x.cfg.creel with
            | none => simp only [hc, reduceCtorEq] at e
            | some c =>
              simp only [hc] at e
              split at e
              · simp only [reduceCtorEq] at e
              · simp only [Delivered.done.injEq] at e
                rw [← e.1]
                exact keeps_State_beginFrame _ _ _ _ _ _ (keeps_State_draw _ _ k_s)
      · split at e
        · simp only [Delivered.done.injEq] at e
          rw [← e.1]
          exact keeps_State_compareResults _ _ _ (keeps_State_modSwatch _ _ _ k_s)
        · simp only [reduceCtorEq] at e

theorem keeps_State_deliverRecords {s₀ : State} (s : State) (p : Fin 16) (fuel : Nat) (k_s : s₀.Keeps s) :
    s₀.Keeps (State.deliverRecords s p fuel) := by
  induction fuel generalizing s with
  | zero => exact k_s
  | succ k ih =>
    unfold State.deliverRecords
    split
    · exact k_s
    · next x hx =>
      extract_lets u
      have k_u : s₀.Keeps u := keeps_State_decodeWaiting _ _ _ k_s
      clear_value u
      repeat' (first | with_reducible assumption | split | with_reducible apply keeps_State_endReplay)
      apply ih
      apply keeps_State_pastRecords
      exact keeps_State_deliverOne _ _ _ _ _ k_u (by assumption)

theorem keeps_State_beginReplay {s₀ : State} (s : State) (p : Fin 16) (k_s : s₀.Keeps s) :
    s₀.Keeps (State.beginReplay s p) := by
  unfold State.beginReplay
  repeat' (first | with_reducible assumption | exact id | extract_lets | with_reducible apply keeps_State_setPart | with_reducible apply keeps_State_report | with_reducible apply keeps_State_selectEntry | with_reducible apply keeps_State_endReplay | with_reducible apply keeps_State_deliverRecords | split | intro _ _ _ | intro _ | (dsimp only) | (dsimp +zetaDelta only) | with_reducible apply keeps_mk)

theorem keeps_State_replayRequests {s₀ : State} (s : State) (p : Fin 16) (n : Word) (fuel : Nat) (k_s : s₀.Keeps s) :
    s₀.Keeps (State.replayRequests s p n fuel) := by
  induction fuel generalizing s with
  | zero => exact k_s
  | succ k ih =>
    unfold State.replayRequests
    split
    · exact k_s
    · split
      · split
        · apply ih
          apply keeps_State_pastRecords
          exact keeps_State_runControl _ _ _ _ _ k_s
        · exact k_s
      · exact k_s

theorem keeps_execReplayVirtualBoundary {s₀ : State} (p : Fin 16) (s : State) (k_s : s₀.Keeps s) :
    ∃ t₁, (execReplayVirtualBoundary p s) = .next t₁ ∧ s₀.Keeps t₁ := by
  unfold execReplayVirtualBoundary
  repeat' (first | exact ⟨_, rfl, by with_reducible assumption⟩ | split | (refine ⟨_, rfl, ?_⟩) | with_reducible assumption | exact id | extract_lets | with_reducible apply keeps_State_reportPart | with_reducible apply keeps_State_closePart | with_reducible apply keeps_State_stepFive | with_reducible apply keeps_State_modSwatch | with_reducible apply keeps_State_deliverRecords | with_reducible apply keeps_State_beginReplay | with_reducible apply keeps_State_replayRequests | split | intro _ _ _ | intro _ | (dsimp only) | (dsimp +zetaDelta only) | with_reducible apply keeps_mk)

end Sys2Proof.Machine
end

