-- ==== Sys2Proof/Laws/KeepsRoce.lean ====
section
/-! SUPPORT. Sys2Proof/Laws/KeepsRoce.lean: what the operations of Machine/Roce.lean keep. -/

namespace Sys2Proof.Machine

open Sys2Proof

theorem keeps_State_setQp {s₀ : State} (s : State) (p : Fin 16) (i : Nat) (q : Qp) (k_s : s₀.Keeps s) :
    s₀.Keeps (State.setQp s p i q) := by
  unfold State.setQp
  repeat' (first | with_reducible assumption | extract_lets | with_reducible apply keeps_State_modPart | intro _ _ _ | intro _ | (dsimp only))

theorem keeps_execQpConnect {s₀ : State} (m : Msg) (s : State) (k_s : s₀.Keeps s) :
    ∃ t₁, (execQpConnect m s) = .next t₁ ∧ s₀.Keeps t₁ := by
  unfold execQpConnect
  apply keeps_State_septa _ _ _ _ k_s
  intro r u k_u
  dsimp only
  split
  · exact k_u
  · exact k_u
  · split
    · exact k_u
    · split
      · exact k_u
      · split
        · exact k_u
        · exact keeps_State_setQp _ _ _ _ (keeps_State_draw _ _ (keeps_State_draw _ _ (keeps_State_draw _ _ k_u)))

theorem keeps_execQpClose {s₀ : State} (m : Msg) (s : State) (k_s : s₀.Keeps s) :
    ∃ t₁, (execQpClose m s) = .next t₁ ∧ s₀.Keeps t₁ := by
  unfold execQpClose
  repeat' (first | exact ⟨_, rfl, by with_reducible assumption⟩ | split | (refine ⟨_, rfl, ?_⟩) | with_reducible assumption | exact id | extract_lets | with_reducible apply keeps_State_setPart | with_reducible apply keeps_State_septa | split | intro _ _ _ | intro _ | (dsimp only) | with_reducible apply keeps_mk)

theorem keeps_State_roceSend {s₀ : State} (s : State) (x : Part) (i : Nat) (q : Qp) (kind : PktKind) (mac : Option (BitVec 48)) (bs : List Byte) (k_s : s₀.Keeps s) :
    s₀.Keeps (State.roceSend s x i q kind mac bs) := by
  unfold State.roceSend
  repeat' (first | with_reducible assumption | exact id | extract_lets | with_reducible apply keeps_State_emit | with_reducible apply keeps_State_transmit | split | (dsimp only) | (dsimp +zetaDelta only) | with_reducible apply keeps_mk)

theorem keeps_State_ack {s₀ : State} (s : State) (x : Part) (i : Nat) (q : Qp) (mac : BitVec 48) (psn : BitVec 24) (k_s : s₀.Keeps s) :
    s₀.Keeps (State.ack s x i q mac psn) := by
  unfold State.ack
  repeat' (first | with_reducible assumption | extract_lets | with_reducible apply keeps_State_roceSend | (dsimp only))

theorem keeps_State_nak {s₀ : State} (s : State) (x : Part) (i : Nat) (q : Qp) (mac : BitVec 48) (psn : BitVec 24) (syndrome : Nat) (k_s : s₀.Keeps s) :
    s₀.Keeps (State.nak s x i q mac psn syndrome) := by
  unfold State.nak
  repeat' (first | with_reducible assumption | extract_lets | with_reducible apply keeps_State_roceSend | (dsimp only))

theorem keeps_State_notePoint {s₀ : State} (s : State) (p : Fin 16) (x : Part) (i : Nat) (q : Qp) (ce : Bool) (k_s : s₀.Keeps s) :
    s₀.Keeps (State.notePoint s p x i q ce) := by
  unfold State.notePoint
  repeat' (first | with_reducible assumption | exact id | extract_lets | with_reducible apply keeps_State_bump | with_reducible apply keeps_State_setQp | with_reducible apply keeps_State_roceSend | split | (dsimp only) | (dsimp +zetaDelta only) | with_reducible apply keeps_mk)

theorem keeps_State_openChunk {s₀ : State} (s : State) (p : Fin 16) (c : Fin 8) (addr : Nat) (chunk : List Byte)
    (k_s : s₀.Keeps s) {bs : List Byte} {u : State} (e : s.openChunk p c addr chunk = some (bs, u)) : s₀.Keeps u := by
  unfold State.openChunk at e
  split at e
  · simp only [reduceCtorEq] at e
  · extract_lets nonce n at e
    split at e
    · simp only [reduceCtorEq] at e
    · split at e
      · simp only [reduceCtorEq] at e
      · simp only [Option.some.injEq, Prod.mk.injEq] at e
        obtain ⟨-, rfl⟩ := e
        exact keeps_mk k_s _ _ _ _ _ _ _ _ _ _ _

theorem keeps_State_landChunks {s₀ : State} (s : State) (p : Fin 16) (c : Fin 8) (addr : Nat) (bs : List Byte) (n : Nat) (k_s : s₀.Keeps s) :
    s₀.Keeps (State.landChunks s p c addr bs n).1 := by
  induction n generalizing s addr bs with
  | zero => exact k_s
  | succ k ih =>
    unfold State.landChunks
    split
    · exact k_s
    · next h =>
      apply ih
      exact keeps_State_writeOutside _ _ _ _ (keeps_State_openChunk _ _ _ _ _ k_s h)

theorem keeps_State_landChunks_eq {s₀ : State} (s : State) (p : Fin 16) (c : Fin 8) (addr : Nat) (bs : List Byte) (n : Nat) (k_s : s₀.Keeps s) {r₁ r₂} (e : (State.landChunks s p c addr bs n) = (r₁, r₂)) :
    s₀.Keeps r₁ := by
  have h₁ := keeps_State_landChunks s p c addr bs n k_s
  rw [e] at h₁
  exact h₁

theorem keeps_State_sealChunks {s₀ : State} (s : State) (p : Fin 16) (c : Fin 8) (addr : Nat) (bs : List Byte) (n : Nat) (k_s : s₀.Keeps s) :
    s₀.Keeps (State.sealChunks s p c addr bs n).2 := by
  induction n generalizing s addr bs with
  | zero => exact k_s
  | succ k ih =>
    unfold State.sealChunks
    split
    · exact k_s
    · apply ih
      exact keeps_mk k_s _ _ _ _ _ _ _ _ _ _ _

theorem keeps_State_sealChunks_eq {s₀ : State} (s : State) (p : Fin 16) (c : Fin 8) (addr : Nat) (bs : List Byte) (n : Nat) (k_s : s₀.Keeps s) {r₁ r₂} (e : (State.sealChunks s p c addr bs n) = (r₁, r₂)) :
    s₀.Keeps r₂ := by
  have h₁ := keeps_State_sealChunks s p c addr bs n k_s
  rw [e] at h₁
  exact h₁

theorem keeps_State_chunkFailed {s₀ : State} (s : State) (p : Fin 16) (q : Qp) (i : Nat) (k_s : s₀.Keeps s) :
    s₀.Keeps (State.chunkFailed s p q i) := by
  unfold State.chunkFailed
  repeat' (first | with_reducible assumption | extract_lets | with_reducible apply keeps_State_bump | with_reducible apply keeps_State_report | (dsimp only))

theorem keeps_State_refuseAccess {s₀ : State} (s : State) (p : Fin 16) (x : Part) (i : Nat) (q : Qp) (mac : BitVec 48) (psn : BitVec 24) (code : Option Nat) (k_s : s₀.Keeps s) :
    s₀.Keeps (State.refuseAccess s p x i q mac psn code) := by
  unfold State.refuseAccess
  repeat' (first | with_reducible assumption | exact id | extract_lets | with_reducible apply keeps_State_bump | with_reducible apply keeps_State_report | with_reducible apply keeps_State_nak | split | (dsimp only) | (dsimp +zetaDelta only) | with_reducible apply keeps_mk)

theorem keeps_State_atTarget {s₀ : State} (s : State) (k : RdmaReq) (dup f : State → Fin 16 → Part → Nat → Qp → State) (k_s : s₀.Keeps s) (k_dup : ∀ x0 x1 x2 x3 x4, s₀.Keeps x0 → s₀.Keeps (dup x0 x1 x2 x3 x4)) (k_f : ∀ x0 x1 x2 x3 x4, s₀.Keeps x0 → s₀.Keeps (f x0 x1 x2 x3 x4)) :
    ∃ t₁, (State.atTarget s k dup f) = .next t₁ ∧ s₀.Keeps t₁ := by
  unfold State.atTarget
  repeat' (first | exact ⟨_, rfl, by with_reducible assumption⟩ | split | (refine ⟨_, rfl, ?_⟩) | with_reducible assumption | exact id | extract_lets | with_reducible apply keeps_State_bump | with_reducible apply keeps_State_sawFrame | with_reducible apply keeps_State_nak | with_reducible apply keeps_State_notePoint | with_reducible apply k_dup | with_reducible apply k_f | split | intro _ _ _ | intro _ | (dsimp only) | (dsimp +zetaDelta only) | with_reducible apply keeps_mk)

theorem keeps_execRdmaWrite {s₀ : State} (k : RdmaReq) (s : State) (k_s : s₀.Keeps s) :
    ∃ t₁, (execRdmaWrite k s) = .next t₁ ∧ s₀.Keeps t₁ := by
  unfold execRdmaWrite
  repeat' (first | exact ⟨_, rfl, by with_reducible assumption⟩ | split | (refine ⟨_, rfl, ?_⟩) | with_reducible assumption | exact id | extract_lets | with_reducible apply keeps_State_store_ | with_reducible apply keeps_State_writeOutside | with_reducible apply keeps_State_setQp | with_reducible apply keeps_State_ack | with_reducible apply keeps_State_nak | with_reducible apply keeps_State_landChunks | with_reducible (refine keeps_State_landChunks_eq _ _ _ _ _ _ ?_ (by with_reducible assumption)) | with_reducible apply keeps_State_chunkFailed | with_reducible apply keeps_State_refuseAccess | with_reducible apply keeps_State_atTarget | split | intro _ _ _ | intro _ | (dsimp only) | (dsimp +zetaDelta only) | with_reducible apply keeps_mk)

theorem keeps_State_sourceFails {s₀ : State} (s : State) (p : Fin 16) (c : Fin 8) (addr n : Nat) (k_s : s₀.Keeps s) {r₀} (e : (State.sourceFails s p c addr n) = some r₀) :
    s₀.Keeps r₀ := by
  unfold State.sourceFails at e
  repeat' (first | with_reducible assumption | split at e | (simp only [reduceCtorEq] at e; done) | (simp only [Option.some.injEq] at e; subst e) | with_reducible assumption | extract_lets | with_reducible apply keeps_State_bump | with_reducible apply keeps_State_report | split | intro _ _ _ | intro _ | (dsimp only))

theorem keeps_State_respond {s₀ : State} (s : State) (x : Part) (i : Nat) (q : Qp) (mac : BitVec 48) (psn : BitVec 24) (ps : List (List Byte)) (k_s : s₀.Keeps s) :
    s₀.Keeps (State.respond s x i q mac psn ps) := by
  unfold State.respond
  repeat' (first | with_reducible assumption | extract_lets | with_reducible apply keeps_State_roceSend | with_reducible apply keeps_foldl | split | intro _ _ _ | intro _ | (dsimp only) | (dsimp +zetaDelta only))

theorem keeps_State_serveRead {s₀ : State} (s : State) (p : Fin 16) (x : Part) (i : Nat) (q : Qp) (k : RdmaReq) (k_s : s₀.Keeps s) :
    s₀.Keeps (State.serveRead s p x i q k) := by
  unfold State.serveRead
  repeat' (first | with_reducible assumption | extract_lets | with_reducible apply keeps_State_load_ | with_reducible apply keeps_State_sealChunks | with_reducible (refine keeps_State_sealChunks_eq _ _ _ _ _ _ ?_ (by with_reducible assumption)) | with_reducible apply keeps_State_respond | split | (dsimp only) | (dsimp +zetaDelta only))

theorem keeps_State_readRequest {s₀ : State} (s : State) (p : Fin 16) (x : Part) (i : Nat) (q : Qp) (k : RdmaReq) (next : BitVec 24) (k_s : s₀.Keeps s) :
    s₀.Keeps (State.readRequest s p x i q k next) := by
  unfold State.readRequest
  repeat' (first | with_reducible assumption | exact id | extract_lets | with_reducible apply keeps_State_faultCtx | with_reducible apply keeps_State_setQp | with_reducible apply keeps_State_nak | with_reducible apply keeps_State_chunkFailed | with_reducible apply keeps_State_refuseAccess | with_reducible (refine keeps_State_sourceFails _ _ _ _ _ ?_ (by with_reducible assumption)) | with_reducible apply keeps_State_serveRead | split | (dsimp only) | (dsimp +zetaDelta only) | with_reducible apply keeps_mk)

theorem keeps_execRdmaRead {s₀ : State} (k : RdmaReq) (s : State) (k_s : s₀.Keeps s) :
    ∃ t₁, (execRdmaRead k s) = .next t₁ ∧ s₀.Keeps t₁ := by
  unfold execRdmaRead
  repeat' (first | exact ⟨_, rfl, by with_reducible assumption⟩ | split | (refine ⟨_, rfl, ?_⟩) | with_reducible assumption | extract_lets | with_reducible apply keeps_State_atTarget | with_reducible apply keeps_State_readRequest | split | intro _ _ _ | intro _ | (dsimp only) | (dsimp +zetaDelta only))

theorem keeps_State_pushFails {s₀ : State} (s : State) (p : Fin 16) (i : Nat) (q : Qp) (code : Nat) (k_s : s₀.Keeps s) :
    s₀.Keeps (State.pushFails s p i q code) := by
  unfold State.pushFails
  repeat' (first | with_reducible assumption | exact id | extract_lets | with_reducible apply keeps_State_faultCtx | with_reducible apply keeps_State_setQp | (dsimp only) | with_reducible apply keeps_mk)

theorem keeps_State_consume {s₀ : State} (s : State) (p : Fin 16) (q : Qp) (k_s : s₀.Keeps s) :
    s₀.Keeps (State.consume s p q) := by
  unfold State.consume
  repeat' (first | with_reducible assumption | extract_lets | with_reducible apply keeps_State_store_ | (dsimp only))

theorem keeps_State_servePush {s₀ : State} (s : State) (p : Fin 16) (x : Part) (i : Nat) (q : Qp) (d : Push) (k_s : s₀.Keeps s) :
    s₀.Keeps (State.servePush s p x i q d) := by
  unfold State.servePush
  repeat' (first | with_reducible assumption | exact id | extract_lets | with_reducible apply keeps_State_request | with_reducible apply keeps_State_load_ | with_reducible apply keeps_State_result | with_reducible apply keeps_State_setQp | with_reducible apply keeps_State_roceSend | with_reducible apply keeps_State_sealChunks | with_reducible (refine keeps_State_sealChunks_eq _ _ _ _ _ _ ?_ (by with_reducible assumption)) | with_reducible apply keeps_State_consume | with_reducible apply keeps_foldl | split | intro _ _ _ | intro _ | (dsimp only) | (dsimp +zetaDelta only) | with_reducible apply keeps_mk)

theorem keeps_State_pushNext {s₀ : State} (s : State) (p : Fin 16) (x : Part) (i : Nat) (q : Qp) (k_s : s₀.Keeps s) :
    s₀.Keeps (State.pushNext s p x i q) := by
  unfold State.pushNext
  repeat' (first | with_reducible assumption | extract_lets | with_reducible (refine keeps_State_sourceFails _ _ _ _ _ ?_ (by with_reducible assumption)) | with_reducible apply keeps_State_pushFails | with_reducible apply keeps_State_servePush | split | (dsimp only) | (dsimp +zetaDelta only))

theorem keeps_State_pushAll {s₀ : State} (s : State) (p : Fin 16) (i : Nat) (produced fuel : Nat) (k_s : s₀.Keeps s) :
    s₀.Keeps (State.pushAll s p i produced fuel) := by
  induction fuel generalizing s with
  | zero => exact k_s
  | succ k ih =>
    unfold State.pushAll
    split
    · exact k_s
    · split
      · exact k_s
      · apply ih
        exact keeps_State_pushNext _ _ _ _ _ k_s

theorem keeps_execPushRingPoll {s₀ : State} (p : Fin 16) (qp : BitVec 16) (s : State) (k_s : s₀.Keeps s) :
    ∃ t₁, (execPushRingPoll p qp s) = .next t₁ ∧ s₀.Keeps t₁ := by
  unfold execPushRingPoll
  repeat' (first | exact ⟨_, rfl, by with_reducible assumption⟩ | split | (refine ⟨_, rfl, ?_⟩) | with_reducible assumption | extract_lets | with_reducible apply keeps_State_pushAll | split | intro _ _ _ | intro _ | (dsimp only) | (dsimp +zetaDelta only))

theorem keeps_State_onQp {s₀ : State} (s : State) (p : Fin 16) (qp : BitVec 16) (f : Part → Qp → State) (k_s : s₀.Keeps s) (k_f : ∀ x0 x1, s₀.Keeps (f x0 x1)) :
    ∃ t₁, (State.onQp s p qp f) = .next t₁ ∧ s₀.Keeps t₁ := by
  unfold State.onQp
  repeat' (first | exact ⟨_, rfl, by with_reducible assumption⟩ | split | (refine ⟨_, rfl, ?_⟩) | with_reducible assumption | extract_lets | with_reducible apply k_f | split | intro _ _ _ | intro _ | (dsimp only))

theorem keeps_execRoceAck {s₀ : State} (p : Fin 16) (qp : BitVec 16) (psn : BitVec 24) (s : State) (k_s : s₀.Keeps s) :
    ∃ t₁, (execRoceAck p qp psn s) = .next t₁ ∧ s₀.Keeps t₁ := by
  unfold execRoceAck
  repeat' (first | exact ⟨_, rfl, by with_reducible assumption⟩ | split | (refine ⟨_, rfl, ?_⟩) | with_reducible assumption | exact id | extract_lets | with_reducible apply keeps_State_setQp | with_reducible apply keeps_State_consume | with_reducible apply keeps_State_onQp | split | intro _ _ _ | intro _ | (dsimp only) | (dsimp +zetaDelta only) | with_reducible apply keeps_mk)

theorem keeps_execRdmaReadResponse {s₀ : State} (p : Fin 16) (qp : BitVec 16) (psn : BitVec 24) (data : List Byte) (s : State) (k_s : s₀.Keeps s) :
    ∃ t₁, (execRdmaReadResponse p qp psn data s) = .next t₁ ∧ s₀.Keeps t₁ := by
  unfold execRdmaReadResponse
  repeat' (first | exact ⟨_, rfl, by with_reducible assumption⟩ | split | (refine ⟨_, rfl, ?_⟩) | with_reducible assumption | exact id | extract_lets | with_reducible apply keeps_State_writeOutside | with_reducible apply keeps_State_erase | with_reducible apply keeps_State_setQp | with_reducible apply keeps_State_landChunks | with_reducible (refine keeps_State_landChunks_eq _ _ _ _ _ _ ?_ (by with_reducible assumption)) | with_reducible apply keeps_State_chunkFailed | with_reducible apply keeps_State_consume | with_reducible apply keeps_State_onQp | split | intro _ _ _ | intro _ | (dsimp only) | (dsimp +zetaDelta only) | with_reducible apply keeps_mk)

theorem keeps_execTransportTimeout {s₀ : State} (p : Fin 16) (qp : BitVec 16) (s : State) (k_s : s₀.Keeps s) :
    ∃ t₁, (execTransportTimeout p qp s) = .next t₁ ∧ s₀.Keeps t₁ := by
  unfold execTransportTimeout
  repeat' (first | exact ⟨_, rfl, by with_reducible assumption⟩ | split | (refine ⟨_, rfl, ?_⟩) | with_reducible assumption | exact id | extract_lets | with_reducible apply keeps_State_bump | with_reducible apply keeps_State_setQp | with_reducible apply keeps_State_roceSend | with_reducible apply keeps_State_onQp | with_reducible apply keeps_foldl | split | intro _ _ _ | intro _ | (dsimp only) | (dsimp +zetaDelta only) | with_reducible apply keeps_mk)

theorem keeps_execRetriesExhausted {s₀ : State} (p : Fin 16) (qp : BitVec 16) (s : State) (k_s : s₀.Keeps s) :
    ∃ t₁, (execRetriesExhausted p qp s) = .next t₁ ∧ s₀.Keeps t₁ := by
  unfold execRetriesExhausted
  repeat' (first | exact ⟨_, rfl, by with_reducible assumption⟩ | split | (refine ⟨_, rfl, ?_⟩) | with_reducible assumption | exact id | extract_lets | with_reducible apply keeps_State_report | with_reducible apply keeps_State_setQp | with_reducible apply keeps_State_onQp | split | intro _ _ _ | intro _ | (dsimp only) | with_reducible apply keeps_mk)

theorem keeps_execCnpReceived {s₀ : State} (p : Fin 16) (qp : BitVec 16) (s : State) (k_s : s₀.Keeps s) :
    ∃ t₁, (execCnpReceived p qp s) = .next t₁ ∧ s₀.Keeps t₁ := by
  unfold execCnpReceived
  repeat' (first | exact ⟨_, rfl, by with_reducible assumption⟩ | split | (refine ⟨_, rfl, ?_⟩) | with_reducible assumption | exact id | extract_lets | with_reducible apply keeps_State_setQp | with_reducible apply keeps_State_onQp | intro _ _ _ | intro _ | (dsimp only) | with_reducible apply keeps_mk)

theorem keeps_execRateIncrease {s₀ : State} (p : Fin 16) (qp : BitVec 16) (s : State) (k_s : s₀.Keeps s) :
    ∃ t₁, (execRateIncrease p qp s) = .next t₁ ∧ s₀.Keeps t₁ := by
  unfold execRateIncrease
  repeat' (first | exact ⟨_, rfl, by with_reducible assumption⟩ | split | (refine ⟨_, rfl, ?_⟩) | with_reducible assumption | exact id | extract_lets | with_reducible apply keeps_State_setQp | with_reducible apply keeps_State_onQp | split | intro _ _ _ | intro _ | (dsimp only) | (dsimp +zetaDelta only) | with_reducible apply keeps_mk)

end Sys2Proof.Machine
end

