-- ==== Sys2Proof/Laws/PerInstr.lean ====
section
/-! SUPPORT. Sys2Proof/Laws/PerInstr.lean: per-command statements: no row of the table is shut out by well-formedness. -/

namespace Sys2Proof.Laws.Row

open Sys2Proof

/-- The row of a command has a well-formed command. -/
def Statement (i : Instr) : Prop := ∃ j : Instr, j.ctorIdx = i.ctorIdx ∧ j.wf = true

/-- Words of zeros. -/
def sword : SWord := { pred := 0, pneg := false, opt := 0, x := 0, y := 0, z := 0, fn := 0, aux := 0, imm := 0 }
def jword : JWord := { pred := 0, pneg := false, opt := 0, x := 0, y := 0, target := 0, imm := 0 }
def tword : TWord :=
  { pred := 0, pneg := false, opt := 0, x := 0, y := 0, z := 0, d1 := 0, aux := 0, d2 := 0, d3 := 0, tag := 0, sel := 0 }

theorem nop (a : At) (w : SWord) : Statement (.nop a w) := ⟨.nop a sword, rfl, rfl⟩
theorem jmp (a : At) (w : JWord) : Statement (.jmp a w) := ⟨.jmp a jword, rfl, rfl⟩
theorem bst (a : At) (w : JWord) : Statement (.bst a w) := ⟨.bst a jword, rfl, rfl⟩
theorem loop (a : At) (w : JWord) : Statement (.loop a w) := ⟨.loop a jword, rfl, rfl⟩
theorem endloop (a : At) (w : JWord) : Statement (.endloop a w) := ⟨.endloop a jword, rfl, rfl⟩
theorem endT (a : At) (w : SWord) : Statement (.endT a w) := ⟨.endT a sword, rfl, rfl⟩
theorem movi (a : At) (w : SWord) : Statement (.movi a w) := ⟨.movi a sword, rfl, rfl⟩
theorem alu (a : At) (w : SWord) : Statement (.alu a w) := ⟨.alu a sword, rfl, rfl⟩
theorem cmp (a : At) (w : SWord) : Statement (.cmp a w) := ⟨.cmp a { sword with x := 1 }, rfl, rfl⟩
theorem plogic (a : At) (w : SWord) : Statement (.plogic a w) := ⟨.plogic a { sword with x := 1 }, rfl, rfl⟩
theorem abind (a : At) (w : SWord) : Statement (.abind a w) := ⟨.abind a sword, rfl, rfl⟩
theorem aadd (a : At) (w : SWord) : Statement (.aadd a w) := ⟨.aadd a sword, rfl, rfl⟩
theorem ldb (a : At) (w : SWord) : Statement (.ldb a w) := ⟨.ldb a sword, rfl, rfl⟩
theorem stb (a : At) (w : SWord) : Statement (.stb a w) := ⟨.stb a sword, rfl, rfl⟩
theorem tbegin (a : At) (w : TWord) : Statement (.tbegin a w) := ⟨.tbegin a tword, rfl, rfl⟩
theorem mac (a : At) (w : TWord) : Statement (.mac a w) := ⟨.mac a { tword with d1 := 1 }, rfl, rfl⟩
theorem drain (a : At) (w : TWord) : Statement (.drain a w) := ⟨.drain a { tword with d1 := 1 }, rfl, rfl⟩
theorem tend (a : At) (w : TWord) : Statement (.tend a w) := ⟨.tend a tword, rfl, rfl⟩
theorem tileCompletion (g : Fin 256) : Statement (.tileCompletion g) := ⟨.tileCompletion g, rfl, rfl⟩
theorem fill (a : At) (w : TWord) : Statement (.fill a w) := ⟨.fill a { tword with d1 := 1 }, rfl, rfl⟩
theorem fillAdmit (g : Fin 256) : Statement (.fillAdmit g) := ⟨.fillAdmit g, rfl, rfl⟩
theorem bankReady (g : Fin 256) (bank : Fin 2) : Statement (.bankReady g bank) := ⟨.bankReady g bank, rfl, rfl⟩
theorem attn (a : At) (w : TWord) : Statement (.attn a w) := ⟨.attn a { tword with d1 := 1, d2 := 1 }, rfl, rfl⟩
theorem moveCopy (a : At) (w : SWord) : Statement (.moveCopy a w) := ⟨.moveCopy a sword, rfl, rfl⟩
theorem moveCompress (a : At) (w : SWord) : Statement (.moveCompress a w) := ⟨.moveCompress a { sword with fn := 1 }, rfl, rfl⟩
theorem moveExpand (a : At) (w : SWord) : Statement (.moveExpand a w) := ⟨.moveExpand a { sword with fn := 2 }, rfl, rfl⟩
theorem moveStrided (a : At) (w : SWord) : Statement (.moveStrided a w) := ⟨.moveStrided a { sword with fn := 3, imm := 1 }, rfl, rfl⟩
theorem moveZero (a : At) (w : SWord) : Statement (.moveZero a w) := ⟨.moveZero a { sword with fn := 4 }, rfl, rfl⟩
theorem moveComplete (a : At) : Statement (.moveComplete a) := ⟨.moveComplete a, rfl, rfl⟩
theorem tsend (a : At) (w : SWord) : Statement (.tsend a w) := ⟨.tsend a sword, rfl, rfl⟩
theorem trecv (a : At) (w : SWord) : Statement (.trecv a w) := ⟨.trecv a sword, rfl, rfl⟩
theorem trecvLanded (a : At) : Statement (.trecvLanded a) := ⟨.trecvLanded a, rfl, rfl⟩
theorem vop (a : At) (w : SWord) : Statement (.vop a w) := ⟨.vop a sword, rfl, rfl⟩
theorem vld (a : At) (w : SWord) : Statement (.vld a w) := ⟨.vld a sword, rfl, rfl⟩
theorem vst (a : At) (w : SWord) : Statement (.vst a w) := ⟨.vst a sword, rfl, rfl⟩
theorem vred (a : At) (w : SWord) : Statement (.vred a w) := ⟨.vred a sword, rfl, rfl⟩
theorem vrng (a : At) (w : SWord) : Statement (.vrng a w) := ⟨.vrng a sword, rfl, rfl⟩
theorem sig (a : At) (w : SWord) : Statement (.sig a w) := ⟨.sig a { sword with imm := 1 }, rfl, rfl⟩
theorem swait (a : At) (w : SWord) : Statement (.swait a w) := ⟨.swait a { sword with imm := 1 }, rfl, rfl⟩
theorem swaitResume (a : At) : Statement (.swaitResume a) := ⟨.swaitResume a, rfl, rfl⟩
theorem put (a : At) (w : SWord) : Statement (.put a w) := ⟨.put a sword, rfl, rfl⟩
theorem take (a : At) (w : SWord) : Statement (.take a w) := ⟨.take a sword, rfl, rfl⟩
theorem takeResume (a : At) : Statement (.takeResume a) := ⟨.takeResume a, rfl, rfl⟩
theorem takeTimeout (a : At) : Statement (.takeTimeout a) := ⟨.takeTimeout a, rfl, rfl⟩
theorem waitsp (a : At) (w : SWord) : Statement (.waitsp a w) := ⟨.waitsp a sword, rfl, rfl⟩
theorem waitspResume (a : At) : Statement (.waitspResume a) := ⟨.waitspResume a, rfl, rfl⟩
theorem pwait (a : At) (w : SWord) : Statement (.pwait a w) := ⟨.pwait a sword, rfl, rfl⟩
theorem done (a : At) (w : SWord) : Statement (.done a w) := ⟨.done a sword, rfl, rfl⟩
theorem sin (a : At) (w : SWord) : Statement (.sin a w) := ⟨.sin a sword, rfl, rfl⟩
theorem sinLanded (a : At) : Statement (.sinLanded a) := ⟨.sinLanded a, rfl, rfl⟩
theorem sout (a : At) (w : SWord) : Statement (.sout a w) := ⟨.sout a sword, rfl, rfl⟩
theorem soutLanded (a : At) : Statement (.soutLanded a) := ⟨.soutLanded a, rfl, rfl⟩
theorem sstep (a : At) (w : SWord) : Statement (.sstep a w) := ⟨.sstep a { sword with y := 1 }, rfl, rfl⟩
theorem streamHomeUpdate (p : Fin 16) : Statement (.streamHomeUpdate p) := ⟨.streamHomeUpdate p, rfl, rfl⟩
theorem fork (a : At) (w : SWord) : Statement (.fork a w) := ⟨.fork a sword, rfl, rfl⟩
theorem forkResume (a : At) : Statement (.forkResume a) := ⟨.forkResume a, rfl, rfl⟩
theorem prune (a : At) (w : SWord) : Statement (.prune a w) := ⟨.prune a sword, rfl, rfl⟩
theorem join (a : At) (w : SWord) : Statement (.join a w) := ⟨.join a sword, rfl, rfl⟩
theorem scatter (a : At) (w : SWord) : Statement (.scatter a w) := ⟨.scatter a sword, rfl, rfl⟩
theorem scatterResume (a : At) : Statement (.scatterResume a) := ⟨.scatterResume a, rfl, rfl⟩
theorem pgfill (a : At) (w : SWord) : Statement (.pgfill a w) := ⟨.pgfill a sword, rfl, rfl⟩
theorem tileWatchdogExpiry (g : Fin 256) : Statement (.tileWatchdogExpiry g) := ⟨.tileWatchdogExpiry g, rfl, rfl⟩
theorem contextSwitch (g : Fin 256) : Statement (.contextSwitch g) := ⟨.contextSwitch g, rfl, rfl⟩
theorem loomSelfTest (g : Fin 256) : Statement (.loomSelfTest g) := ⟨.loomSelfTest g, rfl, rfl⟩
theorem loomSelfTestEnd (g : Fin 256) (pass : Bool) (block : BitVec 8) : Statement (.loomSelfTestEnd g pass block) := ⟨.loomSelfTestEnd g pass block, rfl, rfl⟩
theorem selfTestAbandon (g : Fin 256) : Statement (.selfTestAbandon g) := ⟨.selfTestAbandon g, rfl, rfl⟩
theorem pickBoundary  : Statement .pickBoundary := ⟨.pickBoundary, rfl, rfl⟩
theorem cadenceCheck (p : Fin 16) (id : BitVec 16) : Statement (.cadenceCheck p id) := ⟨.cadenceCheck p id, rfl, rfl⟩
theorem pickPulse (t : Nat) : Statement (.pickPulse t) := ⟨.pickPulse t, rfl, rfl⟩
theorem pulseMissed (t : Nat) : Statement (.pulseMissed t) := ⟨.pulseMissed t, rfl, rfl⟩
theorem holdoverExpired  : Statement .holdoverExpired := ⟨.holdoverExpired, rfl, rfl⟩
theorem ptpSync (m : PtpMsg) : Statement (.ptpSync m) := ⟨.ptpSync m, rfl, rfl⟩
theorem ptpFollowUp (m : PtpMsg) : Statement (.ptpFollowUp m) := ⟨.ptpFollowUp m, rfl, rfl⟩
theorem ptpDelayResp (m : PtpMsg) : Statement (.ptpDelayResp m) := ⟨.ptpDelayResp m, rfl, rfl⟩
theorem ptpAnnounce (m : PtpMsg) : Statement (.ptpAnnounce m) := ⟨.ptpAnnounce m, rfl, rfl⟩
theorem delayReq (port : Fin 8) (t : Nat) : Statement (.delayReq port t) := ⟨.delayReq port t, rfl, rfl⟩
theorem ptpAnnounceTimeout  : Statement .ptpAnnounceTimeout := ⟨.ptpAnnounceTimeout, rfl, rfl⟩
theorem refLost  : Statement .refLost := ⟨.refLost, rfl, rfl⟩
theorem refRestored  : Statement .refRestored := ⟨.refRestored, rfl, rfl⟩
theorem modeAnnounce (m : Msg) : Statement (.modeAnnounce m) := ⟨.modeAnnounce m, rfl, rfl⟩
theorem modeChangeAck (unit : BitVec 16) : Statement (.modeChangeAck unit) := ⟨.modeChangeAck unit, rfl, rfl⟩
theorem modeChangeDecide  : Statement .modeChangeDecide := ⟨.modeChangeDecide, rfl, rfl⟩
theorem modeChangeApply (unit : BitVec 16) : Statement (.modeChangeApply unit) := ⟨.modeChangeApply unit, rfl, rfl⟩
theorem pickSourceArmPtp (q : WriteReq) : Statement (.pickSourceArmPtp q) := ⟨.pickSourceArmPtp { q with value := 1 }, rfl, rfl⟩
theorem pickSourceArmPulse (q : WriteReq) : Statement (.pickSourceArmPulse q) := ⟨.pickSourceArmPulse { q with value := 2 }, rfl, rfl⟩
theorem pickSourceDisarm (q : WriteReq) : Statement (.pickSourceDisarm q) := ⟨.pickSourceDisarm { q with value := 0 }, rfl, rfl⟩
theorem moduleResetRequest (q : WriteReq) : Statement (.moduleResetRequest q) := ⟨.moduleResetRequest { q with value := 1 }, rfl, rfl⟩
theorem moduleResetExecute  : Statement .moduleResetExecute := ⟨.moduleResetExecute, rfl, rfl⟩
theorem memEvacEvacuate (mill : Fin 8) (q : WriteReq) : Statement (.memEvacEvacuate mill q) := ⟨.memEvacEvacuate mill { q with value := 4 }, rfl, (show (bits 4 2 2 == 1) = true by decide)⟩
theorem memEvacRecalibrate (mill : Fin 8) (q : WriteReq) : Statement (.memEvacRecalibrate mill q) := ⟨.memEvacRecalibrate mill { q with value := 8 }, rfl, (show (bits 8 2 2 == 2) = true by decide)⟩
theorem memEvacReturn (mill : Fin 8) (q : WriteReq) : Statement (.memEvacReturn mill q) := ⟨.memEvacReturn mill { q with value := 12 }, rfl, (show (bits 12 2 2 == 3) = true by decide)⟩
theorem evacuationGranuleMove (mill : Fin 8) (crcOk : Bool) : Statement (.evacuationGranuleMove mill crcOk) := ⟨.evacuationGranuleMove mill crcOk, rfl, rfl⟩
theorem stackRecalibrationComplete (stack : Fin 32) (ok : Bool) : Statement (.stackRecalibrationComplete stack ok) := ⟨.stackRecalibrationComplete stack ok, rfl, rfl⟩
theorem farCmdMovePagesOff (q : WriteReq) : Statement (.farCmdMovePagesOff q) := ⟨.farCmdMovePagesOff { q with value := 4 }, rfl, (show (bits 4 2 2 == 1) = true by decide)⟩
theorem farPageMove (port : Fin 4) : Statement (.farPageMove port) := ⟨.farPageMove port, rfl, rfl⟩
theorem farCmdBringUp (q : WriteReq) : Statement (.farCmdBringUp q) := ⟨.farCmdBringUp { q with value := 8 }, rfl, (show (bits 8 2 2 == 2) = true by decide)⟩
theorem perstRelease (port : Fin 4) : Statement (.perstRelease port) := ⟨.perstRelease port, rfl, rfl⟩
theorem farPortTrained (port : Fin 4) (ok : Bool) (gib : BitVec 13) : Statement (.farPortTrained port ok gib) := ⟨.farPortTrained port ok gib, rfl, rfl⟩
theorem farCmdFlush (q : WriteReq) : Statement (.farCmdFlush q) := ⟨.farCmdFlush { q with value := 12 }, rfl, (show (bits 12 2 2 == 3) = true by decide)⟩
theorem farDevicePresenceChange (port : Fin 4) (present : Bool) : Statement (.farDevicePresenceChange port present) := ⟨.farDevicePresenceChange port present, rfl, rfl⟩
theorem stagingComplete (p : Fin 16) (page : BitVec 27) : Statement (.stagingComplete p page) := ⟨.stagingComplete p page, rfl, rfl⟩
theorem writeBackComplete (p : Fin 16) (page : BitVec 27) : Statement (.writeBackComplete p page) := ⟨.writeBackComplete p page, rfl, rfl⟩
theorem writeBackFailure (p : Fin 16) (page : BitVec 27) : Statement (.writeBackFailure p page) := ⟨.writeBackFailure p page, rfl, rfl⟩
theorem stackFailure (stack : Fin 32) : Statement (.stackFailure stack) := ⟨.stackFailure stack, rfl, rfl⟩
theorem farDeviceLost (port : Fin 4) : Statement (.farDeviceLost port) := ⟨.farDeviceLost port, rfl, rfl⟩
theorem regRead (m : Msg) : Statement (.regRead m) := ⟨.regRead m, rfl, rfl⟩
theorem regWrite (m : Msg) : Statement (.regWrite m) := ⟨.regWrite m, rfl, rfl⟩
theorem echo (m : Msg) : Statement (.echo m) := ⟨.echo m, rfl, rfl⟩
theorem runSubmit (m : Msg) : Statement (.runSubmit m) := ⟨.runSubmit m, rfl, rfl⟩
theorem streamOpen (m : Msg) : Statement (.streamOpen m) := ⟨.streamOpen m, rfl, rfl⟩
theorem streamReset (m : Msg) : Statement (.streamReset m) := ⟨.streamReset m, rfl, rfl⟩
theorem streamClose (m : Msg) : Statement (.streamClose m) := ⟨.streamClose m, rfl, rfl⟩
theorem streamStatus (m : Msg) : Statement (.streamStatus m) := ⟨.streamStatus m, rfl, rfl⟩
theorem seqOpen (m : Msg) : Statement (.seqOpen m) := ⟨.seqOpen m, rfl, rfl⟩
theorem seqPolicy (m : Msg) : Statement (.seqPolicy m) := ⟨.seqPolicy m, rfl, rfl⟩
theorem seqClose (m : Msg) : Statement (.seqClose m) := ⟨.seqClose m, rfl, rfl⟩
theorem creelOpen (m : Msg) : Statement (.creelOpen m) := ⟨.creelOpen m, rfl, rfl⟩
theorem creelClose (m : Msg) : Statement (.creelClose m) := ⟨.creelClose m, rfl, rfl⟩
theorem creelStatus (m : Msg) : Statement (.creelStatus m) := ⟨.creelStatus m, rfl, rfl⟩
theorem qpConnect (m : Msg) : Statement (.qpConnect m) := ⟨.qpConnect m, rfl, rfl⟩
theorem qpClose (m : Msg) : Statement (.qpClose m) := ⟨.qpClose m, rfl, rfl⟩
theorem reportSet (m : Msg) : Statement (.reportSet m) := ⟨.reportSet m, rfl, rfl⟩
theorem draftBegin (m : Msg) : Statement (.draftBegin m) := ⟨.draftBegin m, rfl, rfl⟩
theorem draftData (m : Msg) : Statement (.draftData m) := ⟨.draftData m, rfl, rfl⟩
theorem draftEnd (m : Msg) : Statement (.draftEnd m) := ⟨.draftEnd m, rfl, rfl⟩
theorem draftAbort (m : Msg) : Statement (.draftAbort m) := ⟨.draftAbort m, rfl, rfl⟩
theorem draftLoaderVerdict  : Statement .draftLoaderVerdict := ⟨.draftLoaderVerdict, rfl, rfl⟩
theorem partitionStart (p : Fin 16) : Statement (.partitionStart p) := ⟨.partitionStart p, rfl, rfl⟩
theorem panelCheckDeadline (p : Fin 16) : Statement (.panelCheckDeadline p) := ⟨.panelCheckDeadline p, rfl, rfl⟩
theorem panelRecheck (p : Fin 16) : Statement (.panelRecheck p) := ⟨.panelRecheck p, rfl, rfl⟩
theorem panelReplace (p : Fin 16) : Statement (.panelReplace p) := ⟨.panelReplace p, rfl, rfl⟩
theorem noticeSet (m : Msg) : Statement (.noticeSet m) := ⟨.noticeSet m, rfl, rfl⟩
theorem faultNotice  : Statement .faultNotice := ⟨.faultNotice, rfl, rfl⟩
theorem fwBegin (m : Msg) : Statement (.fwBegin m) := ⟨.fwBegin m, rfl, rfl⟩
theorem fwData (m : Msg) : Statement (.fwData m) := ⟨.fwData m, rfl, rfl⟩
theorem fwEnd (m : Msg) : Statement (.fwEnd m) := ⟨.fwEnd m, rfl, rfl⟩
theorem fwRestart (m : Msg) : Statement (.fwRestart m) := ⟨.fwRestart m, rfl, rfl⟩
theorem fwConfirm (m : Msg) : Statement (.fwConfirm m) := ⟨.fwConfirm m, rfl, rfl⟩
theorem draftSave (m : Msg) : Statement (.draftSave m) := ⟨.draftSave m, rfl, rfl⟩
theorem draftStandbyLoad (m : Msg) : Statement (.draftStandbyLoad m) := ⟨.draftStandbyLoad m, rfl, rfl⟩
theorem draftErase (m : Msg) : Statement (.draftErase m) := ⟨.draftErase m, rfl, rfl⟩
theorem netSave (m : Msg) : Statement (.netSave m) := ⟨.netSave m, rfl, rfl⟩
theorem fence (m : Msg) : Statement (.fence m) := ⟨.fence m, rfl, rfl⟩
theorem unfence (m : Msg) : Statement (.unfence m) := ⟨.unfence m, rfl, rfl⟩
theorem linkRetrain (m : Msg) : Statement (.linkRetrain m) := ⟨.linkRetrain m, rfl, rfl⟩
theorem storeCompactNow (m : Msg) : Statement (.storeCompactNow m) := ⟨.storeCompactNow m, rfl, rfl⟩
theorem telemetryRead (m : Msg) : Statement (.telemetryRead m) := ⟨.telemetryRead m, rfl, rfl⟩
theorem acctRead (m : Msg) : Statement (.acctRead m) := ⟨.acctRead m, rfl, rfl⟩
theorem compactionPass  : Statement .compactionPass := ⟨.compactionPass, rfl, rfl⟩
theorem compactionWindowEnd  : Statement .compactionWindowEnd := ⟨.compactionWindowEnd, rfl, rfl⟩
theorem secIdentity (m : Msg) : Statement (.secIdentity m) := ⟨.secIdentity m, rfl, rfl⟩
theorem secQuote (m : Msg) : Statement (.secQuote m) := ⟨.secQuote m, rfl, rfl⟩
theorem secSessionOpen (m : Msg) : Statement (.secSessionOpen m) := ⟨.secSessionOpen m, rfl, rfl⟩
theorem secKeyLoad (m : Msg) : Statement (.secKeyLoad m) := ⟨.secKeyLoad m, rfl, rfl⟩
theorem secSessionClose (m : Msg) : Statement (.secSessionClose m) := ⟨.secSessionClose m, rfl, rfl⟩
theorem partitionDestroy (m : Msg) : Statement (.partitionDestroy m) := ⟨.partitionDestroy m, rfl, rfl⟩
theorem moduleZeroise (m : Msg) : Statement (.moduleZeroise m) := ⟨.moduleZeroise m, rfl, rfl⟩
theorem signerEnrol (m : Msg) : Statement (.signerEnrol m) := ⟨.signerEnrol m, rfl, rfl⟩
theorem signerRemove (m : Msg) : Statement (.signerRemove m) := ⟨.signerRemove m, rfl, rfl⟩
theorem debugChallenge (m : Msg) : Statement (.debugChallenge m) := ⟨.debugChallenge m, rfl, rfl⟩
theorem debugUnlock (m : Msg) : Statement (.debugUnlock m) := ⟨.debugUnlock m, rfl, rfl⟩
theorem swatchArm (m : Msg) : Statement (.swatchArm m) := ⟨.swatchArm m, rfl, rfl⟩
theorem swatchStop (m : Msg) : Statement (.swatchStop m) := ⟨.swatchStop m, rfl, rfl⟩
theorem swatchDisarm (m : Msg) : Statement (.swatchDisarm m) := ⟨.swatchDisarm m, rfl, rfl⟩
theorem replayVirtualBoundary (p : Fin 16) : Statement (.replayVirtualBoundary p) := ⟨.replayVirtualBoundary p, rfl, rfl⟩
theorem rtpPacket (k : RtpPkt) : Statement (.rtpPacket k) := ⟨.rtpPacket k, rfl, rfl⟩
theorem rtcpPacket (port : Fin 8) : Statement (.rtcpPacket port) := ⟨.rtcpPacket port, rfl, rfl⟩
theorem creelFrameDeadline (slot : Fin 1024) : Statement (.creelFrameDeadline slot) := ⟨.creelFrameDeadline slot, rfl, rfl⟩
theorem creelDecodeStart (slot : Fin 1024) : Statement (.creelDecodeStart slot) := ⟨.creelDecodeStart slot, rfl, rfl⟩
theorem creelDecodeComplete (slot : Fin 1024) : Statement (.creelDecodeComplete slot) := ⟨.creelDecodeComplete slot, rfl, rfl⟩
theorem creelResume (slot : Fin 1024) : Statement (.creelResume slot) := ⟨.creelResume slot, rfl, rfl⟩
theorem rdmaWrite (k : RdmaReq) : Statement (.rdmaWrite k) := ⟨.rdmaWrite k, rfl, rfl⟩
theorem rdmaRead (k : RdmaReq) : Statement (.rdmaRead k) := ⟨.rdmaRead k, rfl, rfl⟩
theorem pushRingPoll (p : Fin 16) (qp : BitVec 16) : Statement (.pushRingPoll p qp) := ⟨.pushRingPoll p qp, rfl, rfl⟩
theorem roceAck (p : Fin 16) (qp : BitVec 16) (psn : BitVec 24) : Statement (.roceAck p qp psn) := ⟨.roceAck p qp psn, rfl, rfl⟩
theorem rdmaReadResponse (p : Fin 16) (qp : BitVec 16) (psn : BitVec 24) (data : List Byte) : Statement (.rdmaReadResponse p qp psn data) := ⟨.rdmaReadResponse p qp psn data, rfl, rfl⟩
theorem transportTimeout (p : Fin 16) (qp : BitVec 16) : Statement (.transportTimeout p qp) := ⟨.transportTimeout p qp, rfl, rfl⟩
theorem retriesExhausted (p : Fin 16) (qp : BitVec 16) : Statement (.retriesExhausted p qp) := ⟨.retriesExhausted p qp, rfl, rfl⟩
theorem cnpReceived (p : Fin 16) (qp : BitVec 16) : Statement (.cnpReceived p qp) := ⟨.cnpReceived p qp, rfl, rfl⟩
theorem rateIncrease (p : Fin 16) (qp : BitVec 16) : Statement (.rateIncrease p qp) := ⟨.rateIncrease p qp, rfl, rfl⟩
theorem arpRequest (f : NetFrame) : Statement (.arpRequest f) := ⟨.arpRequest f, rfl, rfl⟩
theorem neighborSolicitation (f : NetFrame) : Statement (.neighborSolicitation f) := ⟨.neighborSolicitation f, rfl, rfl⟩
theorem icmpEchoRequest (f : NetFrame) : Statement (.icmpEchoRequest f) := ⟨.icmpEchoRequest f, rfl, rfl⟩
theorem discardedPacket (port : Fin 8) (why : DiscardKind) : Statement (.discardedPacket port why) := ⟨.discardedPacket port why, rfl, rfl⟩
theorem mkaFrame (port : Fin 8) (frame : List Byte) : Statement (.mkaFrame port frame) := ⟨.mkaFrame port frame, rfl, rfl⟩
theorem macsecSaLost (port : Fin 8) : Statement (.macsecSaLost port) := ⟨.macsecSaLost port, rfl, rfl⟩
theorem portLinkLost (port : Fin 8) : Statement (.portLinkLost port) := ⟨.portLinkLost port, rfl, rfl⟩
theorem portLinkUp (port : Fin 8) : Statement (.portLinkUp port) := ⟨.portLinkUp port, rfl, rfl⟩
theorem flitReceived (f : Flit) : Statement (.flitReceived f) := ⟨.flitReceived f, rfl, rfl⟩
theorem laneFailure (link : Fin 96) (lane : Fin 64) : Statement (.laneFailure link lane) := ⟨.laneFailure link lane, rfl, rfl⟩
theorem retryLimitReached (link : Fin 96) : Statement (.retryLimitReached link) := ⟨.retryLimitReached link, rfl, rfl⟩
theorem linkRetrainingComplete (link : Fin 96) (out : RetrainOutcome) : Statement (.linkRetrainingComplete link out) := ⟨.linkRetrainingComplete link (.lanes [0]), rfl, rfl⟩
theorem sidebandHeartbeatLoss (mill : Fin 8) : Statement (.sidebandHeartbeatLoss mill) := ⟨.sidebandHeartbeatLoss mill, rfl, rfl⟩
theorem residueMismatch (g : Fin 256) (harness : Fin 4) (heddle : Fin 64) (fell : Fin 2) (stateCopy : Bool) : Statement (.residueMismatch g harness heddle fell stateCopy) := ⟨.residueMismatch g harness heddle fell stateCopy, rfl, rfl⟩
theorem lockstepMismatch (g : Fin 256) : Statement (.lockstepMismatch g) := ⟨.lockstepMismatch g, rfl, rfl⟩
theorem drainRounderMismatch (g : Fin 256) : Statement (.drainRounderMismatch g) := ⟨.drainRounderMismatch g, rfl, rfl⟩
theorem secdedCorrected (at_ : EccPlace) : Statement (.secdedCorrected at_) := ⟨.secdedCorrected (.loomStore 0 0), rfl, rfl⟩
theorem secdedUncorrectable (at_ : EccPlace) : Statement (.secdedUncorrectable at_) := ⟨.secdedUncorrectable (.loomStore 0 0), rfl, rfl⟩
theorem pageStateUe (p : Fin 16) : Statement (.pageStateUe p) := ⟨.pageStateUe p, rfl, rfl⟩
theorem queueStoreUe (owners : List (Fin 16)) : Statement (.queueStoreUe owners) := ⟨.queueStoreUe owners, rfl, rfl⟩
theorem duplicatedEngineMismatch (e : DupEngine) : Statement (.duplicatedEngineMismatch e) := ⟨.duplicatedEngineMismatch e, rfl, rfl⟩
theorem clockOutOfTolerance (d : DieDomain) : Statement (.clockOutOfTolerance d) := ⟨.clockOutOfTolerance d, rfl, rfl⟩
theorem supplyOutOfTolerance (d : Domain) (rail : BitVec 8) (reading : BitVec 32) : Statement (.supplyOutOfTolerance d rail reading) := ⟨.supplyOutOfTolerance .beam rail reading, rfl, rfl⟩
theorem junctionOverTemperature (d : Domain) : Statement (.junctionOverTemperature d) := ⟨.junctionOverTemperature d, rfl, rfl⟩
theorem junctionWarning (d : Domain) : Statement (.junctionWarning d) := ⟨.junctionWarning d, rfl, rfl⟩
theorem safetyControllerMismatch  : Statement .safetyControllerMismatch := ⟨.safetyControllerMismatch, rfl, rfl⟩
theorem entropyHealthFailure  : Statement .entropyHealthFailure := ⟨.entropyHealthFailure, rfl, rfl⟩
theorem entropyRestartComplete  : Statement .entropyRestartComplete := ⟨.entropyRestartComplete, rfl, rfl⟩
theorem faultRecordArrival  : Statement .faultRecordArrival := ⟨.faultRecordArrival, rfl, rfl⟩
theorem faultRecordHandled  : Statement .faultRecordHandled := ⟨.faultRecordHandled, rfl, rfl⟩
theorem powerUp  : Statement .powerUp := ⟨.powerUp, rfl, rfl⟩
theorem powerGoodDeassert  : Statement .powerGoodDeassert := ⟨.powerGoodDeassert, rfl, rfl⟩
theorem resetInputAssert  : Statement .resetInputAssert := ⟨.resetInputAssert, rfl, rfl⟩
theorem resetInputRelease  : Statement .resetInputRelease := ⟨.resetInputRelease, rfl, rfl⟩
theorem boot (b : BootReport) : Statement (.boot b) := ⟨.boot b, rfl, rfl⟩
theorem mgmtWatchdogExpiry  : Statement .mgmtWatchdogExpiry := ⟨.mgmtWatchdogExpiry, rfl, rfl⟩
theorem boardServiceRead (address : BitVec 7) (register : BitVec 9) (count : BitVec 9) : Statement (.boardServiceRead address register count) := ⟨.boardServiceRead address register count, rfl, rfl⟩
theorem eepromWrite (address : BitVec 7) (register : BitVec 9) (data : List Byte) : Statement (.eepromWrite address register data) := ⟨.eepromWrite address register data, rfl, rfl⟩
theorem fillDamage (g : Fin 256) (bank : Fin 2) : Statement (.fillDamage g bank) := ⟨.fillDamage g bank, rfl, rfl⟩
theorem addressResolutionReply (f : NetFrame) : Statement (.addressResolutionReply f) := ⟨.addressResolutionReply f, rfl, rfl⟩
theorem pfcFrame (port : Fin 8) (enabled : BitVec 8) (quanta : Vector (BitVec 16) 8) : Statement (.pfcFrame port enabled quanta) := ⟨.pfcFrame port enabled quanta, rfl, rfl⟩

end Sys2Proof.Laws.Row
end

