-- ==== Sys2Proof/Tests/Slice0.lean ====
section
/-! SUPPORT. Sys2Proof/Tests/Slice0.lean: small tests of the model, and for every obligation that has hypotheses states and operands
that meet them. Expected values are computed by hand from the rules cited. -/

namespace Sys2Proof.Tests

set_option Elab.async false

open Sys2Proof Sys2Proof.Machine Sys2Proof.Claims

/-! ### A small machine: partition 0 holds loom 0, where its context 0 runs one word -/

def at0 : At := { loom := 0, ctx := 0 }
def sw : SWord := { pred := 0, pneg := false, opt := 0, x := 0, y := 0, z := 0, fn := 0, aux := 0, imm := 0 }
def jw : JWord := { pred := 0, pneg := false, opt := 0, x := 0, y := 0, target := 0, imm := 0 }
def tw : TWord := { pred := 0, pneg := false, opt := 0, x := 0, y := 0, z := 0, d1 := 0, aux := 0, d2 := 0, d3 := 0, tag := 0, sel := 0 }

/-- Buffer 0 is 32 KiB of the loom store behind the code, buffer 1 the mill-store carve, buffers 2 and 3 the two cloth carves. -/
def tread0 : TreadCfg :=
  { ctx := 0, loom := 0, entry := 0, words := 64, code := [],
    buffers := [{ carve := 0, off := 4096, len := 32768, align := 12 }, { carve := 1, off := 0, len := 8192, align := 12 },
      { carve := 2, off := 0, len := 65536, align := 12 }, { carve := 3, off := 0, len := 65536, align := 12 }] }

def carve0 : CarveCfg :=
  { ctx := 0, base := 0x100000, len := 0x40000, far := false, placement := 0, prot := false, compressible := true, retain := false }

def cfg0 : PartCfg :=
  { looms := [0], critical := false, maskMode := false, seed := 7, nctx := 1,
    ctxs := [{ weight := 1, sems := 64, queues := [{ dest := 0, depth := 2 }, { dest := 0x100, depth := 2 }], loomUnits := 16, millUnits := 2 }],
    threads := [{ ctx := 0, src := 0, dst := 0, width := 64, latency := 1 }], tieups := [{ loom := 0, modes := 7 }],
    carves := [carve0, { carve0 with base := 0x200000, far := true, compressible := false }], credits := [],
    pools := { streams := 4, slots := 0, seqs := 2, pages := 64, staging := 16384, frame := 65536 }, creel := [], endpoints := [],
    plan := { len := 2, stride := 1, entries := [0, 0x10] }, ceilings := [], treads := [tread0], orders := [], measure := 0,
    generation := 1 }

def part0 : Part := { Part.fresh cfg0 0 Cloth.empty [] (Dest.blank false) with start := some 0, entry := .ctx 0, code := 0 }

/-- Loom 0 with the word `code` at the PC of context 0. -/
def loom0 (q : Seq) (code : Nat) : Loom :=
  { Loom.reset with part := some 0, entry := .ctx 0, seqs := [(0, q)], store := putBytes [] (16 * q.pc.toNat) (leBytes 16 code) }

def bench (q : Seq) (code : Nat) : State := { State.reset with parts := [(0, part0)], looms := [(0, loom0 q code)] }

/-- A sequencer that runs, with some B registers. -/
def regs (b : Tab Word) : Seq := { Seq.zero with run := .running, b := b }

/-- A route, a management header, and a register write. -/
def route0 : Route :=
  { port := 0, vlan := 5, srcMac := 0x020000000001, src := { v4 := true, value := 0x0A000001 }, srcPort := 40000, dst := { v4 := true, value := 0x0A000002 } }
def hdr0 : Hdr :=
  { magic := 0x5E7A, version := 1, plane := 3, partition := 0xFF, context := 0xFF, flags := 4, sequence := 7, pick := 0, length := 0, reserved := 0 }
def wr (v : BitVec 64) : WriteReq := { route := route0, hdr := { hdr0 with length := 24 }, value := v }

/-- A word issues on the small machine, standing at the PC of a sequencer q. -/
def issuesOn (q : Seq) (c : Instr) : Bool :=
  match wordOf c with
  | none => false
  | some (a, code, pred, pneg) => c.wf && ((bench q code).here a code).isSome && ((bench q code).seq a).getP pred != pneg

theorem issuesOn_spec {q : Seq} {c : Instr} (h : issuesOn q c = true) :
    ∃ a code pred pneg, wordOf c = some (a, code, pred, pneg) ∧ c.wf = true ∧ Issues (bench q code) a code pred pneg := by
  unfold issuesOn at h
  split at h
  · exact absurd h (by simp)
  · next a code pred pneg e =>
    simp only [Bool.and_eq_true, bne_iff_ne, ne_eq] at h
    exact ⟨a, code, pred, pneg, e, h.1.1, h.1.2, h.2⟩

/-! ### Words that are no words (R119, R120): one for each check of WellFormed -/

theorem test_ill_formed_scalar : ([
    .nop at0 { sw with opt := 1 }, .nop at0 { sw with x := 1 }, .nop at0 { sw with y := 1 }, .nop at0 { sw with z := 1 },
    .nop at0 { sw with fn := 1 }, .nop at0 { sw with aux := 1 }, .nop at0 { sw with imm := 1 }, .endT at0 { sw with imm := 1 },
    .movi at0 { sw with opt := 2 }, .movi at0 { sw with x := 16 }, .movi at0 { sw with fn := 1 },
    .alu at0 { sw with fn := 0xB }, .alu at0 { sw with imm := 1 }, .alu at0 { sw with opt := 1, z := 1 }, .alu at0 { sw with y := 16 },
    .cmp at0 { sw with x := 0 }, .cmp at0 { sw with x := 8 }, .cmp at0 { sw with x := 1, fn := 6 },
    .plogic at0 { sw with x := 0 }, .plogic at0 { sw with x := 1, fn := 4 }, .plogic at0 { sw with x := 1, y := 8 },
    .abind at0 { sw with imm := 65536 }, .aadd at0 { sw with z := 16 }, .ldb at0 { sw with z := 1 }, .stb at0 { sw with fn := 1 }]
    : List Instr).all (fun i => !i.wf) = true := by decide

theorem test_ill_formed_control : ([
    .jmp at0 { jw with imm := 1 }, .jmp at0 { jw with x := 1 }, .bst at0 { jw with imm := 9 }, .bst at0 { jw with opt := 2 },
    .loop at0 { jw with pred := 1 }, .loop at0 { jw with pneg := true }, .loop at0 { jw with x := 16 }, .endloop at0 { jw with pred := 1 },
    .endloop at0 { jw with y := 1 }] : List Instr).all (fun i => !i.wf) = true := by decide

theorem test_ill_formed_tile : ([
    .tbegin at0 { tw with sel := 3 }, .tbegin at0 { tw with sel := 4 }, .tbegin at0 { tw with sel := 8 }, .tbegin at0 { tw with sel := 32 },
    .tbegin at0 { tw with d2 := 1 }, .tbegin at0 { tw with tag := 1 }, .tbegin at0 { tw with pred := 1 }, .tbegin at0 { tw with d3 := 1 },
    .mac at0 { tw with d1 := 0 }, .mac at0 { tw with d1 := 1, sel := 2 }, .mac at0 { tw with d1 := 1, aux := 1 },
    .drain at0 { tw with d1 := 0 }, .drain at0 { tw with d1 := 1, sel := 6 }, .drain at0 { tw with d1 := 1, sel := 4, d2 := 1 },
    .drain at0 { tw with d1 := 1, y := 1 }, .drain at0 { tw with d1 := 1, tag := 1 }, .tend at0 { tw with x := 1 }, .tend at0 { tw with sel := 2 },
    .tend at0 { tw with pneg := true }, .fill at0 { tw with d1 := 0 }, .fill at0 { tw with d1 := 1, sel := 3 },
    .fill at0 { tw with d1 := 1, y := 1 }, .attn at0 { tw with d1 := 1 }, .attn at0 { tw with d2 := 1 },
    .attn at0 { tw with d1 := 1, d2 := 1, sel := 1 }] : List Instr).all (fun i => !i.wf) = true := by decide

theorem test_ill_formed_data : ([
    .moveCopy at0 { sw with fn := 1 }, .moveCopy at0 { sw with imm := 1 }, .moveCompress at0 { sw with fn := 0 },
    .moveExpand at0 { sw with fn := 0 }, .moveStrided at0 { sw with fn := 3, imm := 0 }, .moveStrided at0 { sw with fn := 3, imm := 65535 },
    .moveZero at0 { sw with fn := 4, y := 1 }, .tsend at0 { sw with y := 1 }, .trecv at0 { sw with imm := 1 }, .vop at0 { sw with fn := 0x1A },
    .vop at0 { sw with fn := 6, z := 1 }, .vop at0 { sw with imm := 1 }, .vop at0 { sw with imm := 0x20 }, .vop at0 { sw with imm := 65536 },
    .vop at0 { sw with fn := 0x40, imm := 0x400 }, .vld at0 { sw with fn := 4 }, .vld at0 { sw with z := 1 }, .vst at0 { sw with fn := 64 },
    .vst at0 { sw with fn := 4 }, .vred at0 { sw with fn := 6 }, .vred at0 { sw with z := 1 }, .vrng at0 { sw with imm := 0x1000000000000 }]
    : List Instr).all (fun i => !i.wf) = true := by decide

theorem test_ill_formed_sync : ([
    .sig at0 sw, .sig at0 { sw with imm := 256 }, .swait at0 { sw with fn := 64, imm := 1 }, .put at0 { sw with x := 13 },
    .put at0 { sw with fn := 32 }, .take at0 { sw with fn := 256 }, .take at0 { sw with y := 1 }, .waitsp at0 { sw with fn := 32 },
    .pwait at0 { sw with y := 16 }, .done at0 { sw with fn := 1 }, .sin at0 { sw with x := 16 }, .join at0 { sw with z := 1 },
    .sout at0 { sw with opt := 2 }, .sstep at0 { sw with y := 0 }, .sstep at0 { sw with y := 8 }, .fork at0 { sw with imm := 1 },
    .prune at0 { sw with y := 1 }, .scatter at0 { sw with fn := 1 }, .pgfill at0 { sw with opt := 1 }]
    : List Instr).all (fun i => !i.wf) = true := by decide

/-- A register-write row with another row's value, and events of parts that do not exist. -/
theorem test_ill_formed_events : ([
    .pickSourceArmPtp (wr 2), .pickSourceArmPulse (wr 1), .pickSourceDisarm (wr 1), .moduleResetRequest (wr 2), .memEvacEvacuate 0 (wr 8),
    .memEvacRecalibrate 0 (wr 4), .memEvacReturn 0 (wr 0), .farCmdBringUp (wr 4), .farCmdMovePagesOff (wr 8), .farCmdFlush (wr 4),
    .secdedCorrected (.loomStore 0 0x600000), .secdedUncorrectable (.millStore 0 0x6000000), .supplyOutOfTolerance (.stack 0) 0 0,
    .linkRetrainingComplete 0 (.lanes [])] : List Instr).all (fun i => !i.wf) = true := by decide

/-! ### Witnesses: the machine, registers, storages -/

theorem witness_step : ∃ (c : Instr) (rest : List Instr) (s : State), s.withPending (c :: rest) = s ∧ c.wf = true :=
  ⟨.nop at0 sw, [], { State.reset with pending := [.nop at0 sw] }, rfl, rfl⟩
theorem witness_completes : (Instr.nop at0 sw).wf = true ∧ (Instr.nop at0 { sw with imm := 1 }).wf = false
    ∧ State.reset.pending = [] := by decide
theorem witness_queue : Safety.QueueOk { State.reset with pending := [.nop at0 sw, .pickBoundary] } := by
  intro c h; simp only [List.mem_cons, List.not_mem_nil, or_false] at h; rcases h with rfl | rfl <;> rfl
theorem witness_commands_keep : (∃ t, exec (.powerUp) State.reset = .next t) ∧ State.reset.fuses.count ≤ 127 := ⟨⟨_, rfl⟩, by decide⟩
theorem witness_inv : ∃ s : State, Inv s ∧ s.pending = [.nop at0 sw] ∧ ∃ t, step s = .next t :=
  ⟨{ State.reset with pending := [.nop at0 sw], beat := 9, boundaryBeat := 4 },
    ⟨fun c h => by simp only [List.mem_cons, List.not_mem_nil, or_false] at h; subst h; rfl,
     { State.Ordered.reset with }, by decide, by decide⟩, rfl, _, rfl⟩
theorem witness_exists : Exists (bench (regs []) 0) (.cloth 0) ∧ Exists State.reset (.loom 255) ∧ Exists State.reset (.mill 7 15 7) :=
  ⟨rfl, trivial, trivial⟩

/-! ### Witnesses: treadling words (06) -/

/-- A word that may not issue: its context has ended. -/
def ended0 (code : Nat) : State := bench { Seq.zero with run := .ended } code

theorem witness_skipped : Stands (bench (regs []) ({ sw with pneg := true }.code 0)) at0 ({ sw with pneg := true }.code 0)
    ∧ (Seq.getP (regs []) 0 = true) := ⟨by unfold Stands; decide, by decide⟩
theorem witness_elsewhere : (Instr.nop at0 sw).wf = true ∧ ¬ Stands (ended0 0) at0 (sw.code 0) := ⟨by decide, by unfold Stands; decide⟩

/-- Every control word at every outcome that it has: COND equal, other and OK under BST's three forms, counts 0, 1 and the greatest, a loop's last
round and the one before. -/
theorem witness_control :
    issuesOn (regs []) (.nop at0 sw) = true ∧ issuesOn (regs []) (.endT at0 sw) = true ∧ issuesOn (regs []) (.jmp at0 { jw with target := 9 }) = true
      ∧ issuesOn ((regs []).setCond .qfull 0) (.bst at0 { jw with imm := 2 }) = true ∧ ((regs []).setCond .qfull 0).cond = 2
      ∧ issuesOn ((regs []).setCond .timeout 0) (.bst at0 { jw with imm := 2, opt := 1 }) = true
      ∧ issuesOn (regs []) (.bst at0 { jw with imm := 2, opt := 1 }) = true ∧ (regs []).cond = 0
      ∧ issuesOn (regs []) (.loop at0 { jw with x := 1, y := 2, target := 5 }) = true
      ∧ issuesOn (regs [(1, 1)]) (.loop at0 { jw with x := 1, y := 2, target := 5 }) = true
      ∧ issuesOn (regs [(1, 0xFFFFFFFFFFFFFFFE)]) (.loop at0 { jw with x := 1, y := 2, target := 5 }) = true
      ∧ issuesOn (regs [(1, 0xFFFFFFFFFFFFFFFF)]) (.loop at0 { jw with x := 1, y := 2, target := 5 }) = true
      ∧ issuesOn { regs [(2, 1)] with loops := [{ count := 3, reg := 2, start := 0 }] } (.endloop at0 jw) = true
      ∧ issuesOn { regs [(2, 2)] with loops := [{ count := 3, reg := 2, start := 0 }] } (.endloop at0 jw) = true := by decide

/-- Every scalar word at every function code, a shift by 63 and by 64, offsets 0 and 2^48 − 1 of AADD and the first beyond, and a
division by zero. -/
theorem witness_scalar :
    (List.range 11).all (fun f => issuesOn (regs [(1, 6), (2, 3)]) (.alu at0 { sw with x := 3, y := 1, z := 2, fn := BitVec.ofNat 16 f })) = true
      ∧ issuesOn (regs [(1, 6), (2, 63)]) (.alu at0 { sw with x := 3, y := 1, z := 2, fn := 4 }) = true
      ∧ issuesOn (regs [(1, 6)]) (.alu at0 { sw with x := 3, y := 1, fn := 5, opt := 1, imm := 64 }) = true
      ∧ issuesOn (regs [(1, 6)]) (.alu at0 { sw with x := 3, y := 1, z := 2, fn := 3 }) = true
      ∧ (List.range 6).all (fun f => issuesOn (regs [(1, 6)]) (.cmp at0 { sw with x := 7, y := 1, z := 2, fn := BitVec.ofNat 16 f })) = true
      ∧ (List.range 4).all (fun f => issuesOn (regs []) (.plogic at0 { sw with x := 1, y := 0, z := 2, fn := BitVec.ofNat 16 f })) = true
      ∧ issuesOn (regs []) (.movi at0 { sw with x := 15, opt := 1, imm := 0x10002 }) = true
      ∧ issuesOn (regs []) (.abind at0 { sw with x := 3, imm := 65535 }) = true
      ∧ issuesOn { regs [(2, 1)] with a := [(1, 3)] } (.aadd at0 { sw with x := 4, y := 1, z := 2, imm := 0xFFFFFFFFFFFF }) = true
      ∧ ((0xFFFFFFFFFFFF : Nat) : Int) = (((3 : Word).toNat / 2 ^ 16 : Nat) : Int) + ((1 : Word) * 0xFFFFFFFFFFFF).toInt
      ∧ issuesOn { regs [(2, 1)] with a := [(1, 0x10003)] } (.aadd at0 { sw with x := 4, y := 1, z := 2, imm := 0xFFFFFFFFFFFFFFFF }) = true
      ∧ ((0 : Nat) : Int) = (((0x10003 : Word).toNat / 2 ^ 16 : Nat) : Int) + ((1 : Word) * 0xFFFFFFFFFFFFFFFF).toInt
      ∧ issuesOn { regs [(2, 1)] with a := [(1, 3)] } (.aadd at0 { sw with x := 4, y := 1, z := 2, imm := 0xFFFFFFFFFFFFFFFF }) = true
      ∧ (((3 : Word).toNat / 2 ^ 16 : Nat) : Int) + ((1 : Word) * 0xFFFFFFFFFFFFFFFF).toInt < 0 := by decide +kernel

/-- What a format S word finds at issue on the small machine. -/
def hereS (q : Seq) (w : SWord) (op : Nat) (f : Here → Bool) : Bool := ((bench q (w.code op)).here at0 (w.code op)).any f
def hereT (q : Seq) (w : TWord) (op : Nat) (f : Here → Bool) : Bool := ((bench q (w.code op)).here at0 (w.code op)).any f

/-- An access that the guards let through, at an address. -/
def okAt (e : Except Trap Nat) (n : Nat) : Bool := match e with | .ok a => a == n | .error _ => false
theorem okAt_spec {e : Except Trap Nat} {n : Nat} (h : okAt e n = true) : e = .ok n := by
  cases e with
  | ok a => simp only [okAt, beq_iff_eq] at h; rw [h]
  | error t => simp [okAt] at h

/-- LDB and STB at the first and the last eight bytes of buffer 0, and at an address that is not a multiple of 8. -/
theorem witness_loads_and_stores :
    hereS (regs []) { sw with x := 2, y := 0 } 0x16 (fun h => h.aligned { sw with x := 2, y := 0 } 8
        && okAt (h.k.access h.a (h.place 0) (h.offset { sw with x := 2, y := 0 }) 8) 4096 && !h.x.readHeld h.l h.a 4096 8) = true
      ∧ hereS (regs []) { sw with x := 2, y := 0, imm := 32760 } 0x17 (fun h => h.aligned { sw with x := 2, y := 0, imm := 32760 } 8
        && okAt (h.k.access h.a (h.place 0) (h.offset { sw with x := 2, y := 0, imm := 32760 }) 8) 36856
        && !h.x.writeHeld h.l h.a 36856 8) = true
      ∧ hereS (regs []) { sw with x := 2, y := 0, imm := 4 } 0x16 (fun h => !h.aligned { sw with x := 2, y := 0, imm := 4 } 8) = true
      ∧ hereS (regs []) { sw with x := 2, y := 0, imm := 4 } 0x17 (fun h => !h.aligned { sw with x := 2, y := 0, imm := 4 } 8) = true := by decide +kernel

/-! ### Tests: scalar and control words -/

/-- What a word leaves on the small machine satisfies f. -/
def after (q : Seq) (c : Instr) (f : State → Bool) : Bool :=
  match wordOf c with
  | none => false
  | some (_, code, _, _) => match exec c (bench q code) with | .next t => f t | .fault _ => false | .refused _ => false

/-- The value that a word leaves in a B register. -/
def leavesB (q : Seq) (c : Instr) (i : Nat) (v : Word) : Bool := after q c (fun t => (t.seq at0).getB i == v && (t.seq at0).pc == 1)

/-- The code that the word's context faults with. -/
def faultsWith (q : Seq) (c : Instr) (code : BitVec 16) : Bool := after q c (fun t => (t.seq at0).run == .faulted code)

/-- 2^64 − 1 + 2 wraps to 1; 3 − 5 wraps; 2^63 × 2 is 0 in its low half; 17 ÷ 5; 1 shifted by 63; 6 and 3; 6 xor 3; minima are unsigned. -/
theorem test_alu :
    leavesB (regs [(1, 0xFFFFFFFFFFFFFFFF), (2, 2)]) (.alu at0 { sw with x := 1, y := 1, z := 2 }) 1 1 = true
      ∧ leavesB (regs [(1, 3), (2, 5)]) (.alu at0 { sw with x := 3, y := 1, z := 2, fn := 1 }) 3 0xFFFFFFFFFFFFFFFE = true
      ∧ leavesB (regs [(1, 0x8000000000000000)]) (.alu at0 { sw with x := 3, y := 1, fn := 2, opt := 1, imm := 2 }) 3 0 = true
      ∧ leavesB (regs [(1, 17), (2, 5)]) (.alu at0 { sw with x := 3, y := 1, z := 2, fn := 3 }) 3 3 = true
      ∧ leavesB (regs [(1, 1)]) (.alu at0 { sw with x := 3, y := 1, fn := 4, opt := 1, imm := 63 }) 3 0x8000000000000000 = true
      ∧ leavesB (regs [(1, 0x8000000000000000)]) (.alu at0 { sw with x := 3, y := 1, fn := 5, opt := 1, imm := 63 }) 3 1 = true
      ∧ leavesB (regs [(1, 6), (2, 3)]) (.alu at0 { sw with x := 3, y := 1, z := 2, fn := 6 }) 3 2 = true
      ∧ leavesB (regs [(1, 6), (2, 3)]) (.alu at0 { sw with x := 3, y := 1, z := 2, fn := 7 }) 3 7 = true
      ∧ leavesB (regs [(1, 6), (2, 3)]) (.alu at0 { sw with x := 3, y := 1, z := 2, fn := 8 }) 3 5 = true
      ∧ leavesB (regs [(1, 0xFFFFFFFFFFFFFFFF), (2, 3)]) (.alu at0 { sw with x := 3, y := 1, z := 2, fn := 9 }) 3 3 = true
      ∧ leavesB (regs [(1, 0xFFFFFFFFFFFFFFFF), (2, 3)]) (.alu at0 { sw with x := 3, y := 1, z := 2, fn := 10 }) 3 0xFFFFFFFFFFFFFFFF = true := by
  decide +kernel
theorem test_alu_division_by_zero : faultsWith (regs [(1, 6)]) (.alu at0 { sw with x := 3, y := 1, z := 2, fn := 3 }) 0x0323 = true := by
  decide +kernel

/-- −1 lies below 1 signed and above it unsigned. -/
theorem test_cmp :
    after (regs [(1, 0xFFFFFFFFFFFFFFFF), (2, 1)]) (.cmp at0 { sw with x := 5, y := 1, z := 2, fn := 4 }) (fun t => (t.seq at0).getP 5) = true
      ∧ after (regs [(1, 0xFFFFFFFFFFFFFFFF), (2, 1)]) (.cmp at0 { sw with x := 5, y := 1, z := 2, fn := 2 }) (fun t => !(t.seq at0).getP 5) = true
      ∧ after (regs [(1, 4)]) (.cmp at0 { sw with x := 5, y := 1, fn := 3, opt := 1, imm := 4 }) (fun t => (t.seq at0).getP 5) = true := by
  decide +kernel
theorem test_plogic :
    after { regs [] with p := 4 } (.plogic at0 { sw with x := 1, y := 2, z := 3, fn := 3 }) (fun t => (t.seq at0).getP 1) = true
      ∧ after { regs [] with p := 4 } (.plogic at0 { sw with x := 2, y := 0, z := 2, fn := 2 }) (fun t => !(t.seq at0).getP 2) = true := by
  decide +kernel
theorem test_movi_abind : leavesB (regs []) (.movi at0 { sw with x := 4, imm := 99 }) 4 99 = true
    ∧ after (regs []) (.movi at0 { sw with x := 4, opt := 1, imm := 0x70003 }) (fun t => (t.seq at0).getA 4 == 0x70003) = true
    ∧ after { regs [] with a := [(4, 0x70003)] } (.abind at0 { sw with x := 4, imm := 2 }) (fun t => (t.seq at0).getA 4 == 2) = true := by
  decide +kernel
/-- Offset 7 of buffer 3 less 7 is offset 0; less 8 it faults and leaves the register. -/
theorem test_aadd :
    after { regs [(2, 7)] with a := [(1, 0x70003)] } (.aadd at0 { sw with x := 4, y := 1, z := 2, imm := 0xFFFFFFFFFFFFFFFF })
        (fun t => (t.seq at0).getA 4 == 3) = true
      ∧ after { regs [(2, 8)] with a := [(1, 0x70003)] } (.aadd at0 { sw with x := 1, y := 1, z := 2, imm := 0xFFFFFFFFFFFFFFFF })
        (fun t => (t.seq at0).getA 1 == 0x70003 && (t.seq at0).run == .faulted 0x0322) = true := by decide +kernel
/-- Little-endian: the byte at the lowest address is the lowest. -/
theorem test_stb_ldb :
    after (regs [(2, 0x0807060504030201)]) (.stb at0 { sw with x := 2, y := 0, imm := 8 })
        (fun t => t.byteAt (.loom 0) 4104 == 1 && t.byteAt (.loom 0) 4111 == 8 && t.byteAt (.loom 0) 4112 == 0) = true
      ∧ faultsWith (regs []) (.ldb at0 { sw with x := 2, y := 0, imm := 4 }) 0x0327 = true
      ∧ faultsWith { regs [] with a := [(0, 1)] } (.ldb at0 { sw with x := 2, y := 0 }) 0x0307 = true := by decide +kernel
theorem test_jmp_bst : after (regs []) (.jmp at0 { jw with target := 9 }) (fun t => (t.seq at0).pc == 9) = true
    ∧ after ((regs []).setCond .qfull 0) (.bst at0 { jw with imm := 2, target := 9 }) (fun t => (t.seq at0).pc == 9) = true
    ∧ after ((regs []).setCond .qfull 0) (.bst at0 { jw with imm := 1, target := 9 }) (fun t => (t.seq at0).pc == 1) = true := by decide +kernel
theorem test_loop_endloop :
    after (regs [(2, 5)]) (.loop at0 { jw with x := 1, y := 2, target := 5 }) (fun t => (t.seq at0).pc == 6 && (t.seq at0).getB 2 == 5) = true
      ∧ after (regs [(1, 3), (2, 5)]) (.loop at0 { jw with x := 1, y := 2, target := 5 })
          (fun t => (t.seq at0).pc == 1 && (t.seq at0).getB 2 == 0 && (t.seq at0).loops.length == 1) = true
      ∧ after { regs [(2, 2)] with loops := [{ count := 3, reg := 2, start := 0 }] } (.endloop at0 { jw with target := 0 })
          (fun t => (t.seq at0).pc == 1 && (t.seq at0).loops == []) = true
      ∧ after { regs [(2, 1)] with pc := 7, loops := [{ count := 3, reg := 2, start := 3 }] } (.endloop at0 { jw with target := 3 })
          (fun t => (t.seq at0).pc == 4 && (t.seq at0).getB 2 == 2) = true := by decide +kernel
theorem test_end_and_predicate : after (regs []) (.endT at0 sw) (fun t => (t.seq at0).run == .ended) = true
    ∧ after (regs []) (.endT at0 { sw with pred := 1 }) (fun t => (t.seq at0).run == .running && (t.seq at0).pc == 1) = true := by decide +kernel

/-! ### A tile: 2 channels of 3 INT8 elements against 1 weft row, drained as FP32 (words 32 to 34 are its descriptors) -/

def descWord (type addr rows cols stride : Nat) : Nat := 0xF0 + type * 2 ^ 16 + addr * 2 ^ 22 + rows * 2 ^ 26 + cols * 2 ^ 30 + stride * 2 ^ 64

/-- Word i of the code: what is given for it, or the descriptors. -/
def tileCode (words : List Nat) : List Byte :=
  ((List.range 35).map (fun i => leBytes 16 (if i = 32 then descWord 1 0 1 2 16 else if i = 33 then descWord 1 1 3 2 16
    else if i = 34 then descWord 10 2 3 1 64 else words.getD i 0))).foldr (fun a b => a ++ b) []

def wTbegin : TWord := { tw with d1 := 32, tag := 9 }
def wMac : TWord := { tw with x := 4, y := 5, z := 6, d1 := 33 }
def wDrain : TWord := { tw with x := 4, d1 := 34 }
def wTend : TWord := { tw with x := 3, sel := 1 }
def tileWords : List Nat := [wTbegin.code 0x20, wMac.code 0x21, wDrain.code 0x22, wTend.code 0x23]

def tileRegs (pc : Nat) : Seq :=
  { regs [(1, 2), (2, 3), (3, 1), (6, 3)] with pc := BitVec.ofNat 32 pc, a := [(1, 0x4000000), (2, 0x8000000), (3, 0xC000000)] }

/-- The bank holds 1 2 3 for channel 0 and 4 5 6 for channel 1; the weft row at offset 1,024 of buffer 0 holds 1 −1 2. -/
def bank9 : Bank :=
  { ready := true, tag := some { ctx := 0, tag := 9, tieup := .oneByFour, etype := 1, group := 0 },
    elems := [(0, 1), (1, 2), (2, 3), (2048, 4), (2049, 5), (2050, 6)], scales := [] }

def tileBench (q : Seq) : State :=
  let code := tileCode tileWords
  let t : TreadCfg := { tread0 with code := code }
  let k : PartCfg := { cfg0 with treads := [t], ceilings := [{ ctx := 0, desc := 32, m := 1, n := 2, k := 3, width := 0, height := 0 }] }
  { State.reset with
    parts := [(0, { part0 with cfg := k })],
    looms := [(0, { loom0 q 0 with store := putBytes (putBytes [] 0 code) 5120 [1, 255, 2], bank0 := bank9 })] }

def tile9 : Tile :=
  { tieup := .oneByFour, bank := 0, ceiling := 0, word := 0, start := 0, warp := 32,
    shapes := [(32, { rows := 2, cols := 3 }), (33, { rows := 1, cols := 3 }), (34, { rows := 1, cols := 2 })], sets := [], waiting := none,
    attn := false, snapshots := [], scores := [], closing := none }
def opened (pc : Nat) : Seq := { tileRegs pc with tile := some tile9 }

def fell (i : Int) : Fell := Fell.cleared.add (.ofInt i 0)

/-- Fells 0 of heddles 0 and 1 hold 5 and 11. -/
def drainBench : State := (tileBench (opened 2)).modLoom 0 (fun l => { l with fells := [(0, fell 5), (2, fell 11)], undrained := [(0, true)] })

def stepsTo (c : Instr) (s : State) (f : State → Bool) : Bool :=
  match exec c s with | .next t => f t | .fault _ => false | .refused _ => false

/-- TBEGIN opens the tile with the shapes of its descriptors; with tag 8 the bank is stale. -/
theorem test_tbegin :
    stepsTo (.tbegin at0 wTbegin) (tileBench (tileRegs 0)) (fun t => (t.seq at0).tile == some tile9 && (t.seq at0).cond == 0) = true
      ∧ after (regs []) (.tbegin at0 { wTbegin with tag := 8 }) (fun t => (t.seq at0).tile.isNone && (t.seq at0).cond == 1) = true := by
  decide +kernel

/-- 1·1 − 1·2 + 2·3 = 5 and 1·4 − 1·5 + 2·6 = 11. -/
theorem test_mac : stepsTo (.mac at0 wMac) (tileBench (opened 1)) (fun t =>
    decide ((((t.loom 0).fells.get 0 Fell.cleared).value, ((t.loom 0).fells.get 2 Fell.cleared).value) = ((fell 5).value, (fell 11).value))
      && (t.loom 0).fells.length == 2) = true := by decide +kernel

/-- 5 and 11 in FP32 are 0x40A00000 and 0x41300000. -/
theorem test_drain : stepsTo (.drain at0 wDrain) drainBench (fun t =>
    t.bytesAt (.loom 0) 6144 8 == leBytes 4 0x40A00000 ++ leBytes 4 0x41300000 && (t.loom 0).fells == [] && (t.seq at0).tile.isSome) = true := by
  decide +kernel

/-- TEND closes with WSTAT's address and faults over a fell that is not drained; the completion counts the tile and writes ST and the count. -/
theorem test_tend :
    stepsTo (.tend at0 wTend) (tileBench (opened 3)) (fun t => ((t.seq at0).tile.map (fun x => x.closing)) == some (some (some 7168))) = true
      ∧ stepsTo (.tend at0 wTend) ((tileBench (opened 3)).modLoom 0 (fun l => { l with undrained := [(0, true)] }))
          (fun t => (t.seq at0).run == .faulted 0x0326) = true := by decide +kernel
theorem test_tile_completion :
    stepsTo (.tileCompletion 0) (tileBench { opened 4 with tile := some { tile9 with closing := some (some 7168) } })
      (fun t => (t.seq at0).tile.isNone && t.bytesAt (.loom 0) 7168 16 == leBytes 8 0 ++ leBytes 8 1 && t.reg (.loomTiles 0) == 1) = true := by
  decide +kernel
/-- 449,999 beats after the start the watchdog is silent, 450,000 after it reports. -/
theorem test_watchdog :
    stepsTo (.tileWatchdogExpiry 0) { tileBench (opened 1) with beat := 449999 } (fun t => t.safety.flight == []) = true
      ∧ stepsTo (.tileWatchdogExpiry 0) { tileBench (opened 1) with beat := 450000 }
          (fun t => t.safety.flight.map Record.code == [0x0306] && (t.seq at0).tile.isNone) = true := by decide +kernel

/-! ### Witnesses: tiles -/

def finds (s : State) (code : Nat) (pred : Fin 8) (pneg : Bool) (f : Here → Bool) : Bool :=
  (s.here at0 code).any f && ((s.seq at0).getP pred != pneg)
theorem finds_spec {s : State} {code : Nat} {pred : Fin 8} {pneg : Bool} {f : Here → Bool} (h : finds s code pred pneg f = true) :
    ∃ k, At_ s at0 code pred pneg k ∧ f k = true := by
  simp only [finds, Bool.and_eq_true, Option.any_eq_true, bne_iff_ne, ne_eq] at h
  obtain ⟨⟨k, hk, hf⟩, hp⟩ := h
  exact ⟨k, ⟨hk, hp⟩, hf⟩

/-- What an Except answers satisfies f. -/
def good {α : Type} (e : Except Trap α) (f : α → Bool) : Bool := match e with | .ok a => f a | .error _ => false

/-- TBEGIN's shapes are numbers within the ceilings of its role, at the ceilings themselves here. -/
def shapesOk (h : Here) (w : TWord) : Bool :=
  (h.t.roles 0 (TieUp.ofCode (w.sel.toNat % 4))).all (fun r =>
    (h.shapeNow r.1).rows != BitVec.allOnes 64 && (h.shapeNow r.1).cols != BitVec.allOnes 64
      && (r.2.limits (h.shapeNow r.1) (h.k.ceiling 0 w.aux.toNat)).all (fun e => decide (e.1 ≤ e.2.2)))
def loadsOk (h : Here) (w : TWord) : Bool :=
  good (eachOk (fun f => h.preload (h.desc w.d2.toNat).addr f) ((if bit w.sel.toNat 3 then [0] else []) ++ (if bit w.sel.toNat 4 then [1] else [])))
      (fun images => good (eachOk (fun d => h.loadTable (TieUp.ofCode (w.sel.toNat % 4)) d) (h.t.records 0))
        (fun tables => (images.map (fun e => e.2) ++ tables.flatMap (fun e => e.2)).all (fun r => !h.x.readHeld h.l at0 r.1 r.2)))

/-- TBEGIN opens: with a warp, and without one. -/
theorem witness_tbegin :
    tbeginOk wTbegin = true ∧ finds (tileBench (tileRegs 0)) (wTbegin.code 0x20) 0 false (fun h => !h.landing
        && h.l.tagOf 0 == some { ctx := 0, tag := 9, tieup := .oneByFour, etype := 1, group := 0 }
        && (h.desc 32).type == 1 && (h.desc 32).group == 0 && shapesOk h wTbegin && loadsOk h wTbegin) = true
      ∧ tbeginOk tw = true ∧ finds (bench (regs []) (tw.code 0x20)) (tw.code 0x20) 0 false (fun h => !h.landing && shapesOk h tw && loadsOk h tw) = true
    := by decide +kernel

/-- A bank with another tag, and one that nothing has filled. -/
theorem witness_stale :
    finds (bench (regs []) (wTbegin.code 0x20)) (wTbegin.code 0x20) 0 false (fun h => !h.landing && (h.l.tagOf 0).isNone) = true
      ∧ finds ((bench (regs []) (wTbegin.code 0x20)).modLoom 0 (fun l => { l with bank0 := { bank9 with tag := bank9.tag.map (fun g => { g with tag := 8 }) } }))
          (wTbegin.code 0x20) 0 false (fun h => !h.landing && (h.l.tagOf 0).map (fun g => g.tag) == some 8) = true := by decide +kernel

/-- MAC over the whole capacity of an INT8 bank, and over three elements. -/
theorem witness_mac : macOk wMac = true
    ∧ finds (tileBench (opened 1)) (wMac.code 0x21) 0 false (fun h => (h.desc tile9.warp).type == 1 && decide (0 + 3 ≤ bankCapacity 1)
        && h.l.bankReady 0 && good (eachOk (fun d => h.weft tile9 d 0 0 3) (rangeFrom 33 1)) (fun wefts =>
          (wefts.flatMap (fun v => v.reads)).all (fun r => !h.x.readHeld h.l at0 r.1 r.2))) = true
    ∧ finds (tileBench ((opened 1).putB 6 2048)) (wMac.code 0x21) 0 false (fun h => decide (0 + 2048 ≤ bankCapacity 1)
        && good (eachOk (fun d => h.weft tile9 d 0 0 2048) (rangeFrom 33 1)) (fun wefts => wefts.all (fun v => v.masked))) = true := by decide +kernel
theorem witness_drain : drainOk wDrain = true ∧ wDrain.sel.getLsbD 2 = false
    ∧ finds drainBench (wDrain.code 0x22) 0 false (fun h => good (eachOk (fun k => h.drainStream wDrain tile9 k 0) (List.range 1)) (fun ds =>
        (ds.flatMap (fun d => d.writes)).all (fun e => !h.x.writeHeld h.l at0 e.1 e.2.length))) = true := by decide +kernel
theorem witness_tend : tendOk wTend = true ∧ tendOk tw = true ∧ wTend.sel.getLsbD 0 = true ∧ tw.sel.getLsbD 0 = false
    ∧ finds (tileBench (opened 3)) (wTend.code 0x23) 0 false (fun h => okAt (h.k.access at0 (h.place 3) 3072 16) 7168
        && !h.x.writeHeld h.l at0 7168 16 && ((h.place 3).map (fun p => p.off)) == some 3072) = true
    ∧ finds ((bench { opened 0 with pc := 0 } (tw.code 0x23))) (tw.code 0x23) 0 false (fun h => h.l.undrained == []) = true := by decide +kernel
theorem witness_completion : ((tileBench { opened 4 with tile := some { tile9 with closing := some none } }).loom 0).tileOf
      (fun q t => t.closing.isSome && !q.moves.any (fun m => m.inTile)) = some (0, { tile9 with closing := some none }) := by decide +kernel
theorem witness_watchdog :
    ((tileBench (opened 1)).loom 0).part = some 0
      ∧ ((tileBench (opened 1)).loom 0).tileOf (fun _ t => decide (t.start + 450000 ≤ 450000)) = some (0, tile9)
      ∧ ((tileBench (opened 1)).loom 0).tileOf (fun _ t => decide (t.start + 450000 ≤ 449999)) = none := by decide +kernel

/-! ### Fills, attention, moves, threads, vectors -/

/-- The tile machine standing at one word whose descriptors are words 32 to 34. -/
def at1 (q : Seq) (code : Nat) : State :=
  let bytes := tileCode [code]
  let t : TreadCfg := { tread0 with code := bytes }
  { State.reset with
    parts := [(0, { part0 with cfg := { cfg0 with treads := [t] } })],
    looms := [(0, { loom0 q 0 with store := putBytes [] 0 bytes })] }

def wFill : TWord := { tw with x := 1, z := 6, d1 := 32, tag := 9 }
/-- Two channels of three INT8 elements: Z is 6. -/
def fillRegs : Seq := { tileRegs 0 with b := [(1, 2), (2, 3), (3, 1), (6, 6)] }

def fill9 : Fill :=
  { ctx := 0, bank := 0, tag := 9, tieup := .oneByFour, etype := 1, group := 0, rows := 2, cols := 3, len := 6, stream := false,
    base := 5120, baseEnd := 5126, delta := 0, deltaEnd := 0, admitted := false, refused := false, heldSince := none, slots := [] }
def fillBench (f : Fill) : State :=
  (at1 fillRegs (wFill.code 0x24)).modLoom 0 (fun l => { l with fills := [f], store := putBytes l.store 5120 [1, 2, 3, 4, 5, 6] })

/-- A stream header of one record and no table, for 6 raw bytes. -/
def head6 : List Byte := [1, 0, 0, 0] ++ leBytes 4 1 ++ leBytes 8 6 ++ leBytes 4 192 ++ leBytes 4 256 ++ List.replicate 168 0
def streamBench : State := (at1 { fillRegs with a := (1, 0x4000000) :: [(2, 0x8000000)] } ({ wFill with opt := 1, y := 2 }.code 0x24)).modLoom 0
  (fun l => { l with store := putBytes l.store 6144 head6 })

theorem witness_fill :
    fillOk wFill = true ∧ finds (at1 fillRegs (wFill.code 0x24)) (wFill.code 0x24) 0 false (fun h =>
        decide (6 = 2 * (elemBytes (h.desc 32).type 3 + fillScales (h.desc 32).group 3)) && decide (2 ≤ TieUp.oneByFour.channels)
          && (h.desc 32).rows == 1 && (h.desc 32).cols == 2
          && decide (elemBytes 1 3 ≤ 2048) && (h.place 1).any (fun p => okAt (h.k.access at0 (some p) p.off 6) 5120) && !h.x.readHeld h.l at0 5120 6) = true
      ∧ fillOk { wFill with opt := 1, y := 2 } = true
      ∧ finds streamBench ({ wFill with opt := 1, y := 2 }.code 0x24) 0 false (fun h =>
          (h.place 2).any (fun p => okAt (h.k.access at0 (some p) p.off 192) 6144 && decide (6144 + 256 ≤ p.base + p.len)) && (h.place 1).isSome
            && (readStreamHead (streamBench.bytesAt (.loom 0) 6144 192)).any (fun hd => hd.rawTotal == 6 && hd.streamLength == 256)
            && !h.x.readHeld h.l at0 6144 256) = true := by decide +kernel

theorem witness_fill_admit : ((fillBench fill9).loom 0).toAdmit = some 0 ∧ ((fillBench fill9).loom 0).fills[0]? = some fill9
    ∧ (match loadTables ((fillBench fill9).loom 0).dx [] 0 [] with | .slots d u n => d == [] && u == [] && n == 0 | .refused _ _ => false) = true := by decide +kernel
theorem witness_bank_ready : ((fillBench { fill9 with admitted := true }).loom 0).serving 0 = some { fill9 with admitted := true }
    ∧ ((fillBench { fill9 with admitted := true }).loom 0).part = some 0 ∧ (fillBench { fill9 with admitted := true }).part? 0 ≠ none
    ∧ (fillBench fill9).fillBytes cfg0 0 fill9 = ([1, 2, 3, 4, 5, 6], none) := by decide +kernel
/-- The block that the fill reads has lost its side word. -/
def damaged6 : State := (fillBench { fill9 with admitted := true }).modLoom 0 (fun l => { l with bad := [(1, true)] })
theorem witness_fill_damage : (damaged6.loom 0).serving 0 = some { fill9 with admitted := true }
    ∧ damaged6.fillBytes cfg0 0 { fill9 with admitted := true } = ([], some (0x0208, 0)) := by decide +kernel

/-- The fill reaches the bank channel by channel. -/
theorem test_fill_lands :
    stepsTo (.fill at0 wFill) (at1 fillRegs (wFill.code 0x24)) (fun t => (t.loom 0).fills == [fill9]) = true
      ∧ stepsTo (.fillAdmit 0) (fillBench fill9) (fun t => (t.loom 0).fills.map (fun f => f.admitted) == [true]) = true
      ∧ stepsTo (.bankReady 0 0) (fillBench { fill9 with admitted := true }) (fun t =>
          decide ((t.loom 0).bank0 = bank9) && (t.loom 0).fills == []) = true := by decide +kernel
theorem test_fill_damage : stepsTo (.fillDamage 0 0) damaged6 (fun t => (t.seq at0).run == .faulted 0x0208 && (t.loom 0).bank0.tag == none
    && t.safety.flight.map Record.code == [0x0208]) = true := by decide +kernel
/-- Z is not what the layout takes. -/
theorem test_fill_layout : stepsTo (.fill at0 { wFill with z := 3 }) (at1 fillRegs ({ wFill with z := 3 }.code 0x24))
    (fun t => (t.seq at0).run == .faulted 0x020A) = true := by decide +kernel

/-! Attention: one BF16 query row of 64 over one page with one token, all zeros. -/

def wAttn : TWord := { tw with x := 9, d1 := 32, d2 := 34 }
def seq1 : SeqEntry :=
  { layers := 1, heads := 1, format := 12, tableFrame := 0, limit := 256, length := 1, modelTag := 0, budget := 0, live := true,
    tolerate := false, share := false, pin := false, starved := false, atLimit := false, bound := false, decay := 0, stream := 0, skips := 0,
    tableFrames := 1 }
def page1 : PageEntry := { page := 1, count := 1, state := 1, inTree := false, score := 0, damaged := false }
def attnTile : Tile :=
  { tile9 with warp := 0, attn := true, shapes := [(32, { rows := 1, cols := 64 }), (34, { rows := 1, cols := 66 })] }
def attnSeq0 : Seq :=
  { regs [(9, 0x10000001)] with tile := some attnTile, a := [(1, 0x4000000), (2, 0x8000000)] }
def attnBench (state : Nat) : State :=
  let bytes := ((List.range 35).map (fun i => leBytes 16 (if i = 0 then wAttn.code 0x25 else if i = 32 then descWord 9 1 3 2 128
    else if i = 34 then descWord 10 2 3 1 512 else 0))).foldr (fun a b => a ++ b) []
  let k : Pool := { Pool.fresh 0 with seqs := [(1, seq1)], tables := [(tableKey 1 0 0, { page1 with state := state })],
                                      frames := [(1, { refs := 1, state := 1, pinned := false, holds := 0, deferred := false })] }
  { State.reset with
    parts := [(0, { part0 with cfg := { cfg0 with treads := [{ tread0 with code := bytes }] }, pool := k })],
    looms := [(0, { loom0 attnSeq0 0 with store := putBytes [] 0 bytes })] }

def attnOkAt (h : Here) : Bool :=
  h.x.pool.seq? 1 == some seq1 && queryPairs (pageFmt 12) (h.desc 32).type (h.desc 32).group && (pageFmt 12).hd == 64
    && !h.l.filling 0 && !h.l.filling 1
theorem witness_attn : attnOk wAttn = true ∧ finds (attnBench 1) (wAttn.code 0x25) 0 false (fun h => attnOkAt h
      && (match h.attnSnapshot attnTile 0x10000001 0 0 with
        | none => false
        | some (t₁, x, n) => n.entries == [page1]
          && good (eachOk (fun i => h.queryRow t₁ 32 i) (List.range 1)) (fun qs => (qs.flatMap (fun q => q.2)).all (fun r => !h.x.readHeld h.l at0 r.1 r.2))
          && good (eachOk (fun (row : Nat) => h.produce (h.desc 34).addr (row * 512) 264) [0]) (fun as => as.all (fun b => !h.x.writeHeld h.l at0 b 264))
          && x.pool.bad == [])) = true := by decide +kernel
theorem witness_attn_absent : finds (attnBench 2) (wAttn.code 0x25) 0 false (fun h => attnOkAt h
      && (match h.attnSnapshot attnTile 0x10000001 0 0 with
        | none => false
        | some (_, _, n) => n.entries.findIdx? (fun y => y.state == 2) == some 0 && n.entries.all (fun y => !y.damaged))) = true := by decide +kernel
theorem test_attn_absent : stepsTo (.attn at0 wAttn) (attnBench 2) (fun t => (t.seq at0).cond == 4 && (t.seq at0).pc == 1) = true := by decide +kernel
/-- One token of weight 1: the maximum is 0, the mass 1.0, the output 0. -/
theorem test_attn : stepsTo (.attn at0 wAttn) (attnBench 1) (fun t => (t.seq at0).cond == 0 && (t.loom 0).bank0.tag == none
    && t.bytesAt (.loom 0) 6144 12 == leBytes 4 0 ++ leBytes 4 0x3F800000 ++ leBytes 4 0) = true := by decide +kernel

/-! Moves: A1 is offset 1,024 of buffer 0, A2 offset 0 of the mill store, A3 offset 0 of the near cloth carve, B6 the length. -/

def moveRegs (n : Word) : Seq := { regs [(6, n)] with a := [(1, 0x4000000), (2, 1), (3, 2)] }
def wMove (fn : BitVec 16) (x y : Fin 32) (imm : BitVec 64) : SWord := { sw with fn := fn, x := x, y := y, z := 6, imm := imm }
def movesAt (q : Seq) (w : SWord) (f : Here → Place → Bool) : Bool :=
  finds (bench q (w.code 0x30)) (w.code 0x30) 0 false (fun h => (h.place w.x.val).any (fun d => f h d))

/-- Each of the five forms, and a copy of the last byte of its carve. -/
theorem witness_moves :
    moveOk 0 (wMove 0 3 1 0) = true ∧ moveOk 1 (wMove 1 3 1 0) = true ∧ moveOk 2 (wMove 2 3 1 0) = true
      ∧ moveOk 3 (wMove 3 3 1 0x0000100000200002) = true ∧ moveOk 4 (wMove 4 3 0 0) = true
      ∧ [(0, 0), (1, 0), (3, 0x0000100000200002), (4, 0)].all (fun (e : BitVec 16 × BitVec 64) =>
          movesAt (moveRegs 64) (wMove e.1 3 (if e.1 = 4 then 0 else 1) e.2) (fun h d =>
            let kind := MoveKind.ofFn e.1.toNat
            (h.k.extentTrap at0 (some d) (dstSpan kind e.2.toNat 64)).isNone && !h.locked (some d) (dstSpan kind e.2.toNat 64)
              && !h.extentHeld (some d) (dstSpan kind e.2.toNat 64) true
              && (kind == .zero || (h.place 1).any (fun p => (h.k.extentTrap at0 (some p) (srcSpan kind e.2.toNat 64)).isNone
                && !h.locked (some p) (srcSpan kind e.2.toNat 64) && !h.extentHeld (some p) (srcSpan kind e.2.toNat 64) false)))) = true
      ∧ movesAt (moveRegs 64) (wMove 2 3 1 0) (fun h d => (h.k.extentTrap at0 (some d) 64).isNone
          && (h.place 1).any (fun p => (h.k.extentTrap at0 (some p) 192).isNone && !h.extentHeld (some p) (p.len - p.off) false)) = true
      ∧ movesAt { moveRegs 1 with a := [(1, 0x4000000), (3, 0x3FFFF0002)] } (wMove 0 3 1 0) (fun h d => d.addr == 0x13FFFF
          && (h.k.extentTrap at0 (some d) 1).isNone && (h.k.extentTrap at0 (some d) 2).isSome) = true := by decide +kernel

/-- A MOVE of kind k under way from offset 1,024 of the code's carve to the cloth carve. -/
def move1 (k : MoveKind) (n : Nat) : Move :=
  { kind := k, dst := { store := .cloth 0, addr := 0x100000, len := n }, src := { store := .loom 0, addr := 5120, len := 4096 }, rows := 2,
    srcStride := 2, dstStride := 4, len := n, inTile := false, word := 0 }
def landBench (m : Move) (bs : List Byte) : State :=
  (bench { regs [] with moves := [m] } 0).modLoom 0 (fun l => { l with store := putBytes l.store 5120 bs })
/-- A stream of 16 bytes, as the compressor writes it. -/
def stream16 : List Byte := (compress ((List.range 16).map (fun i => BitVec.ofNat 8 i))).1

theorem witness_landing :
    ((landBench (move1 .copy 3) [1, 2, 3]).seq at0).moves = [move1 .copy 3] ∧ Exists (landBench (move1 .copy 3) [1, 2, 3]) (.cloth 0)
      ∧ (landBench (move1 .copy 3) [1, 2, 3]).readFails (.loom 0) 5120 3 = none
      ∧ (move1 .strided 2).len ≤ (move1 .strided 2).dstStride
      ∧ (List.range 2).all (fun r => ((landBench (move1 .strided 2) [1, 2, 3]).readFails (.loom 0) (5120 + r * 2) 2).isNone) = true
      ∧ (blocksOf 5120 3).all (fun b => !(landBench (move1 .compress 3) [1, 2, 3]).tagBad (.loom 0) b) = true
      ∧ (landBench (move1 .compress 3) [1, 2, 3]).anyBad (.loom 0) 5120 3 = false :=
  ⟨rfl, rfl, by decide +kernel, by decide, by decide +kernel, by decide +kernel, by decide +kernel⟩
theorem witness_expanding : (let bytes := fun (o n : Nat) => (landBench (move1 .expand 16) stream16).bytesAt (.loom 0) (5120 + o) n
    (readStreamHead (bytes 0 192)).any (fun hd => decide (hd.streamLength ≤ 4096) && hd.rawTotal == 16
      && (blocksOf 5120 hd.streamLength).all (fun b => !(landBench (move1 .expand 16) stream16).tagBad (.loom 0) b)
      && hd.list.all (fun e => tableValid (bytes e.1 256))
      && (readRecords bytes hd (fun kind => if kind == 2 || kind == 4 then some 0x020B else none) (fun _ _ => .ok [])
          (streamLens bytes hd) hd.records hd.recordsOffset 0 == ([(List.range 16).map (fun i => BitVec.ofNat 8 i)], none)))) = true := by
  decide +kernel

theorem test_move_issues : after (moveRegs 64) (.moveCopy at0 (wMove 0 3 1 0)) (fun t => (t.seq at0).moves.length == 1 && (t.seq at0).pc == 1) = true
    ∧ after { moveRegs 1 with a := [(1, 0x4000000), (3, 0x400000002)] } (.moveZero at0 (wMove 4 3 0 0)) (fun t => (t.seq at0).run == .faulted 0x0503)
      = true := by decide +kernel
theorem test_move_lands :
    stepsTo (.moveComplete at0) (landBench (move1 .copy 3) [1, 2, 3]) (fun t => t.bytesAt (.cloth 0) 0x100000 4 == [1, 2, 3, 0]) = true
      ∧ stepsTo (.moveComplete at0) (landBench (move1 .strided 2) [1, 2, 3, 4]) (fun t => t.bytesAt (.cloth 0) 0x100000 6 == [1, 2, 0, 0, 3, 4]) = true
      ∧ stepsTo (.moveComplete at0) (landBench (move1 .zero 3) []) (fun t => (t.seq at0).moves == []) = true := by decide +kernel
/-- What the compressor writes, the expander reads back. -/
theorem test_expand : stepsTo (.moveComplete at0) (landBench (move1 .expand 16) stream16)
    (fun t => t.bytesAt (.cloth 0) 0x100000 16 == (List.range 16).map (fun i => BitVec.ofNat 8 i)) = true := by decide +kernel

/-! Threads: index 0 runs from loom 0 to itself. -/

def threadRegs : Seq := { regs [(6, 3)] with a := [(1, 0x4000000)] }
def wThread : SWord := { sw with x := 1, z := 6 }
def threadBench (op : Nat) (q : Seq) (ts : Tab (List (List Byte × List (Nat × Nat)))) : State :=
  (bench q (wThread.code op)).modLoom 0 (fun l => { l with threads := ts, store := putBytes l.store 5120 [7, 8, 9] })
def waitsThread : Seq := { threadRegs with run := .waiting (.thread 0 0x4000000 3) }

theorem witness_threads :
    tsendOk wThread = true
      ∧ finds (threadBench 0x31 threadRegs []) (wThread.code 0x31) 0 false (fun h => (h.k.thread? 0 0).isSome
          && (h.place 1).any (fun p => okAt (h.k.access at0 (some p) p.off 3) 5120) && !h.x.readHeld h.l at0 5120 3) = true
      ∧ finds (threadBench 0x32 threadRegs [(0, [([4, 5, 6], [])])]) (wThread.code 0x32) 0 false (fun h =>
          (h.place 1).any (fun p => okAt (h.k.access at0 (some p) p.off 3) 5120) && !h.x.writeHeld h.l at0 5120 3
            && h.l.threads.get (threadKey 0 0) [] == [([4, 5, 6], [])]) = true
      ∧ ((threadBench 0x32 threadRegs []).loom 0).threads.get (threadKey 0 0) [] = []
      ∧ ((threadBench 0x32 waitsThread [(0, [([4, 5, 6], [])])]).resuming at0).map (fun r => (r.1, r.2.2)) = some (0, .thread 0 0x4000000 3)
      ∧ (cfg0.tread? 0 0).any (fun td => (cfg0.place 0 at0 td 0x4000000).any (fun p => okAt (cfg0.access at0 (some p) p.off 3) 5120)) = true := by
  decide +kernel
theorem test_tsend_trecv :
    stepsTo (.tsend at0 wThread) (threadBench 0x31 threadRegs []) (fun t => (t.loom 0).threads == [(0, [([7, 8, 9], [])])]) = true
      ∧ stepsTo (.trecv at0 wThread) (threadBench 0x32 threadRegs [(0, [([4, 5, 6], [])])])
          (fun t => t.bytesAt (.loom 0) 5120 3 == [4, 5, 6] && (t.loom 0).threads == []) = true
      ∧ stepsTo (.trecv at0 wThread) (threadBench 0x32 threadRegs []) (fun t => (t.seq at0).run == .waiting (.thread 0 0x4000000 3)) = true := by
  decide +kernel
/-- A sender that sent another number of bytes: they are gone, and the receiver faults. -/
theorem test_trecv_landed :
    stepsTo (.trecvLanded at0) (threadBench 0x32 waitsThread [(0, [([4, 5, 6], [])])]) (fun t => (t.seq at0).pc == 1 && t.byteAt (.loom 0) 5122 == 6) = true
      ∧ stepsTo (.trecvLanded at0) (threadBench 0x32 waitsThread [(0, [([4, 5], [])])])
          (fun t => (t.seq at0).run == .faulted 0x0342 && t.byteAt (.loom 0) 5120 == 7 && (t.loom 0).threads == []) = true := by decide +kernel

/-! Vectors -/

def wVop : SWord := { sw with x := 2, y := 0, z := 1 }
def vecBench (w : SWord) (op : Nat) : State :=
  (bench { regs [] with a := [(1, 0x4000000)] } (w.code op)).modLoom 0 (fun l => { l with v := [(0, 0x3F800000), (1, 0x40000000), (64, 0x40400000)] })
def wVld : SWord := { sw with x := 2, y := 1, fn := 10 }

theorem witness_vectors :
    vopOk wVop = true ∧ vredOk { sw with x := 2, y := 0 } = true ∧ vrngOk { sw with x := 2, imm := 0xFFFFFFFFFFFF } = true
      ∧ ((vecBench wVop 0x40).here at0 (wVop.code 0x40)).isSome = true
      ∧ ((vecBench { sw with x := 2, y := 0 } 0x43).here at0 ({ sw with x := 2, y := 0 }.code 0x43)).isSome = true
      ∧ ((vecBench { sw with x := 2, imm := 0xFFFFFFFFFFFF } 0x44).here at0 ({ sw with x := 2, imm := 0xFFFFFFFFFFFF }.code 0x44)).isSome = true
      ∧ vldOk { wVld with fn := 11 } = true ∧ vstOk { wVld with fn := 1 } = true
      ∧ finds (vecBench { wVld with fn := 11 } 0x41) ({ wVld with fn := 11 }.code 0x41) 0 false (fun h => h.aligned { wVld with fn := 11 } (vecAlign 11)
          && okAt (h.k.access at0 (h.place 1) (h.offset { wVld with fn := 11 }) (elemBytes 11 (vecCount 11))) 5120 && !h.x.readHeld h.l at0 5120 256) = true
      ∧ finds (vecBench { wVld with fn := 1 } 0x42) ({ wVld with fn := 1 }.code 0x42) 0 false (fun h => h.aligned { wVld with fn := 1 } (vecAlign 1)
          && okAt (h.k.access at0 (h.place 1) (h.offset { wVld with fn := 1 }) 64) 5120 && !h.x.writeHeld h.l at0 5120 64) = true := by decide +kernel

/-- 1.0 + 3.0 = 4.0 in lane 0; a lane nothing has written is 0. -/
theorem test_vop : stepsTo (.vop at0 wVop) (vecBench wVop 0x40) (fun t => (t.loom 0).lane 2 0 == 0x40800000 && (t.loom 0).lane 2 63 == 0) = true := by
  decide +kernel
/-- The sum 1.0 + 2.0 + 62 zeros. -/
theorem test_vred : stepsTo (.vred at0 { sw with x := 2, y := 0 }) (vecBench { sw with x := 2, y := 0 } 0x43)
    (fun t => (t.loom 0).lane 2 0 == 0x40400000) = true := by decide +kernel
/-- INT8 stores round to nearest even and saturate symmetrically; loads widen. -/
theorem test_vst_vld :
    stepsTo (.vst at0 { wVld with x := 0, fn := 1 }) (vecBench { wVld with x := 0, fn := 1 } 0x42)
        (fun t => t.bytesAt (.loom 0) 5120 3 == [1, 2, 0]) = true
      ∧ stepsTo (.vld at0 { wVld with fn := 1 }) ((vecBench { wVld with fn := 1 } 0x41).modLoom 0 (fun l => { l with store := putBytes l.store 5120 [5, 255] }))
          (fun t => (t.loom 0).lane 2 0 == 0x40A00000 && (t.loom 0).lane 2 1 == 0xBF800000) = true := by decide +kernel

/-! ### Semaphores, queues, waits, runs (06 R138 to R141) -/

/-- The small machine with another partition 0. -/
def withPart (x : Part) (s : State) : State := { s with parts := [(0, x)] }
def entry5 (pick : Word) : QEntry := { w0 := 5, w1 := 6, w2 := 7, w3 := 8, pick := pick, beat := 0, run := true, held := false }
def held5 : Part := part0.setSem 0 3 5
def wSig : SWord := { sw with fn := 3, imm := 5 }
def wTake : SWord := { sw with x := 4 }
def waitBench (x : Part) (w : Wait) : State := withPart x (bench { Seq.zero with run := .waiting w } 0)
def findsIn (x : Part) (q : Seq) (w : SWord) (op : Nat) (f : Here → Bool) : Bool :=
  finds (withPart x (bench q (w.code op))) (w.code op) 0 false (fun h => !h.landing && f h)

/-- SIG up to the greatest count and beyond it, SWAIT with the count it takes and with one less. -/
theorem witness_semaphores :
    sigOk wSig = true ∧ findsIn (part0.setSem 0 3 4294967289) (regs []) wSig 0x50 (fun h => h.x.sem 0 3 + 5 == 2 ^ 32 - 2) = true
      ∧ findsIn (part0.setSem 0 3 4294967290) (regs []) wSig 0x50 (fun h => decide (2 ^ 32 - 2 < h.x.sem 0 3 + 5)) = true
      ∧ findsIn held5 (regs []) wSig 0x51 (fun h => h.x.sem 0 3 == 5) = true
      ∧ findsIn (part0.setSem 0 3 4) (regs []) wSig 0x51 (fun h => decide (h.x.sem 0 3 < 5)) = true
      ∧ ((waitBench held5 (.sem 3 5)).resuming at0).map (fun r => (r.1, r.2.2)) = some (0, .sem 3 5) ∧ 5 ≤ held5.sem 0 3 := by decide +kernel
/-- PUT into the last free entry and into none, TAKE with an entry, without one, and with deadlines before, at and after. -/
theorem witness_queues :
    putOk sw = true ∧ takeOk wTake = true ∧ takeOk { wTake with opt := 1, y := 2 } = true
      ∧ findsIn (part0.setQueue 0 0 [entry5 0]) (regs []) sw 0x52 (fun h => (queueOf h.x 0 0).length == 1 && (h.x.cfg.queueCfg 0 0).depth == 2) = true
      ∧ findsIn (part0.setQueue 0 0 [entry5 0, entry5 0]) (regs []) sw 0x52 (fun h => decide ((h.x.cfg.queueCfg 0 0).depth ≤ (queueOf h.x 0 0).length)) = true
      ∧ findsIn (part0.setQueue 0 0 [entry5 0]) (regs [(2, 1)]) { wTake with opt := 1, y := 2 } 0x53 (fun h =>
          queueOf h.x 0 0 == [entry5 0] && h.q.getB 2 == 1) = true
      ∧ findsIn part0 (regs []) wTake 0x53 (fun h => queueOf h.x 0 0 == []) = true
      ∧ findsIn part0 (regs [(2, 1)]) { wTake with opt := 1, y := 2 } 0x53 (fun h => queueOf h.x 0 0 == [] && !h.s.passed h.x 1) = true
      ∧ findsIn part0 (regs [(2, 0)]) { wTake with opt := 1, y := 2 } 0x53 (fun h => queueOf h.x 0 0 == [] && !h.s.passed h.x 0) = true
      ∧ ((waitBench (part0.setQueue 0 0 [entry5 0]) (.entry 0 0 4 (some 1))).resuming at0).map (fun r => (r.1, r.2.2))
          = some (0, .entry 0 0 4 (some 1)) := by decide +kernel
/-- The same machine once pick 0 has come. -/
def picked (s : State) : State := { s with pick := { s.pick with formed := true, everFormed := true } }
theorem witness_waits :
    ((picked (waitBench part0 (.entry 0 0 4 (some 0)))).resuming at0).map (fun r => (r.1, r.2.2)) = some (0, .entry 0 0 4 (some 0))
      ∧ (picked (waitBench part0 (.entry 0 0 4 (some 0)))).passed part0 0 = true ∧ (picked (bench (regs []) 0)).passed part0 1 = false
      ∧ findsIn part0 (regs []) sw 0x54 (fun h => (queueOf h.x 0 0).length == 0) = true
      ∧ findsIn (part0.setQueue 0 0 [entry5 0, entry5 0]) (regs []) sw 0x54 (fun h => (queueOf h.x 0 0).length == 2) = true
      ∧ ((waitBench part0 (.room 0)).resuming at0).map (fun r => (r.1, r.2.2)) = some (0, .room 0)
      ∧ finds (picked (bench (regs []) (sw.code 0x55))) (sw.code 0x55) 0 false (fun h => h.s.passed h.x 0 && !h.landing) = true
      ∧ findsIn part0 (regs [(2, 1)]) { sw with y := 2 } 0x55 (fun h => !h.s.passed h.x 1) = true := by decide +kernel
def running5 : Part := part0.modCtx 0 (fun k => { k with runs := [5] })
theorem witness_done : doneOk sw = true ∧ findsIn running5 (regs [(1, 5)]) { sw with x := 1 } 0x56 (fun h => (h.x.ctx 0).runs.contains (h.q.getB 1)) = true
    ∧ findsIn running5 (regs [(1, 6)]) { sw with x := 1 } 0x56 (fun h => !(h.x.ctx 0).runs.contains (h.q.getB 1)) = true := by decide +kernel

def ran0 (x : Part) (q : Seq) (c : Instr) (f : State → Bool) : Bool :=
  match wordOf c with
  | none => false
  | some (_, code, _, _) => stepsTo c (withPart x (bench q code)) f
def partIs (t : State) (f : Part → Bool) : Bool := (t.part? 0).any f
theorem test_sig_swait :
    ran0 (part0.setSem 0 3 4294967289) (regs []) (.sig at0 wSig) (fun t => partIs t (fun x => x.sem 0 3 == 4294967294)) = true
      ∧ ran0 (part0.setSem 0 3 4294967290) (regs []) (.sig at0 wSig)
          (fun t => (t.seq at0).run == .faulted 0x0324 && partIs t (fun x => x.sem 0 3 == 4294967290)) = true
      ∧ ran0 held5 (regs []) (.swait at0 wSig) (fun t => (t.seq at0).pc == 1 && partIs t (fun x => x.sem 0 3 == 0)) = true
      ∧ ran0 part0 (regs []) (.swait at0 wSig) (fun t => (t.seq at0).run == .waiting (.sem 3 5)) = true
      ∧ stepsTo (.swaitResume at0) (waitBench held5 (.sem 3 5)) (fun t => (t.seq at0).pc == 1 && (t.seq at0).run == .running) = true := by decide +kernel
theorem test_put_take :
    ran0 part0 (regs [(0, 5), (1, 6)]) (.put at0 sw) (fun t => partIs t (fun x => (queueOf x 0 0).map (fun e => (e.w0, e.w1)) == [(5, 6)])) = true
      ∧ ran0 (part0.setQueue 0 0 [entry5 0, entry5 0]) (regs []) (.put at0 sw) (fun t => (t.seq at0).cond == 2 && (t.seq at0).pc == 1) = true
      ∧ ran0 (part0.setQueue 0 0 [entry5 0]) (regs []) (.take at0 wTake) (fun t => (t.seq at0).getB 4 == 5 && (t.seq at0).getB 7 == 8
          && partIs t (fun x => (x.ctx 0).runs == [5] && (x.ctx 0).acct.taken == 1 && queueOf x 0 0 == [])) = true
      ∧ stepsTo (.takeResume at0) (waitBench (part0.setQueue 0 0 [entry5 0]) (.entry 0 0 4 none)) (fun t => (t.seq at0).getB 5 == 6) = true := by
  decide +kernel
/-- An entry of the deadline's own pick comes too late (R141). -/
theorem test_take_timeout :
    stepsTo (.takeTimeout at0) (picked (waitBench part0 (.entry 0 0 4 (some 0)))) (fun t => (t.seq at0).cond == 3 && (t.seq at0).pc == 1) = true
      ∧ stepsTo (.takeTimeout at0) (picked (waitBench part0 (.entry 0 0 4 (some 1)))) (fun t => (t.seq at0).run == .waiting (.entry 0 0 4 (some 1)))
        = true := by decide +kernel
theorem test_waitsp_pwait :
    ran0 (part0.setQueue 0 0 [entry5 0, entry5 0]) (regs []) (.waitsp at0 sw) (fun t => (t.seq at0).run == .waiting (.room 0)) = true
      ∧ stepsTo (.waitspResume at0) (waitBench part0 (.room 0)) (fun t => (t.seq at0).run == .running) = true
      ∧ ran0 part0 (regs [(2, 1)]) (.pwait at0 { sw with y := 2 }) (fun t => (t.seq at0).run == .waiting (.pick 1)) = true := by decide +kernel
theorem test_done :
    ran0 running5 (regs [(1, 5), (2, 0x10002)]) (.done at0 { sw with x := 1, y := 2 })
        (fun t => partIs t (fun x => x.ended == [.run 1 2 5] && (x.ctx 0).acct.done == 1 && (x.ctx 0).runs == [])) = true
      ∧ ran0 running5 (regs [(1, 6)]) (.done at0 { sw with x := 1 }) (fun t => (t.seq at0).run == .faulted 0x0A03) = true := by decide +kernel

/-! ### Streams (10, 12) and sequences (11) -/

def stream0 : Stream := { Stream.zero with statePtr := 0x100000, partLen := 1, parts := 1, live := true, step := 4, resetAt := 5 }
def withStreams (l : Tab Stream) : Part := { part0 with streams := l }
/-- B1 names stream 2; A1 is offset 0 of buffer 0, loom-store address 4,096. -/
def streamRegs : Seq := { regs [(1, 2)] with a := [(1, 0)] }
def wSin : SWord := { sw with x := 1, y := 1 }
def streamAt (l : Tab Stream) (op : Nat) (w : SWord) : State := withPart (withStreams l) (bench streamRegs (w.code op))
def copy2 (out far : Bool) : Copy :=
  { loom := 0, ctx := 0, id := 2, part := 0, out := out, toFar := far, store := 4096, record := 0x100000, len := 4096 }
def copying (out : Bool) : State := withPart { withStreams [(2, { stream0 with resident := if out then 1 else 0 })] with copies := [{ copy2 out false with len := 8 }] }
  ((bench (regs []) 0).modLoom 0 (fun l => { l with store := putBytes l.store 4096 [3, 4] }))

theorem witness_sin_sout :
    doneOk wSin = true ∧ soutOk { wSin with opt := 1 } = true
      ∧ finds (streamAt [(2, stream0)] 0x60 wSin) (wSin.code 0x60) 0 false (fun h => !h.copying && h.x.owned? 0 2 == some stream0
          && decide (h.k.rank 0 < stream0.parts) && okAt (h.partExtent (h.place 1) 4096) 4096 && !h.s.locked 0 h.k (.cloth 0) 0x100000 4096
          && !h.x.writeHeld h.l at0 4096 4096 && !stream0.thrashes (h.s.pickFor h.x)) = true
      ∧ finds (streamAt [(2, { stream0 with outSeen := true })] 0x60 wSin) (wSin.code 0x60) 0 false (fun h =>
          ({ stream0 with outSeen := true } : Stream).thrashes (h.s.pickFor h.x)) = true
      ∧ finds (streamAt [(2, { stream0 with resident := 1 })] 0x60 wSin) (wSin.code 0x60) 0 false (fun h =>
          (h.x.owned? 0 2).any (fun e => e.resident.getLsbD (h.k.rank 0))) = true
      ∧ finds (streamAt [(2, { stream0 with resident := 1 })] 0x61 { wSin with opt := 1 }) ({ wSin with opt := 1 }.code 0x61) 0 false (fun h =>
          (h.x.owned? 0 2).any (fun e => e.resident.getLsbD 0 && e.kids == 0) && okAt (h.partExtent (h.place 1) 4096) 4096
            && !h.x.readHeld h.l at0 4096 4096) = true
      ∧ finds (streamAt [(2, stream0)] 0x61 wSin) (wSin.code 0x61) 0 false (fun h => (h.x.owned? 0 2).any (fun e => !e.resident.getLsbD 0)) = true := by
  decide +kernel
theorem witness_parts_land :
    ((copying false).loom 0).part = some 0 ∧ (((copying false).part? 0).any (fun x => x.copy? at0 false == some { copy2 false false with len := 8 })) = true
      ∧ (copying false).readFails (.cloth 0) 0x100000 8 = none
      ∧ (blocksOf 0x100000 8).all (fun b => !(copying false).blockBad (.cloth 0) b) = true
      ∧ (((copying true).part? 0).any (fun x => x.copy? at0 true == some { copy2 true false with len := 8 })) = true
      ∧ (copying true).readFails (.loom 0) 4096 8 = none := by decide +kernel
theorem test_sin : stepsTo (.sin at0 wSin) (streamAt [(2, stream0)] 0x60 wSin) (fun t => partIs t (fun x => x.copies == [copy2 false false])) = true
    ∧ stepsTo (.sin at0 wSin) (streamAt [] 0x60 wSin) (fun t => (t.seq at0).run == .faulted 0x0325) = true := by decide +kernel
theorem test_sout_lands : stepsTo (.soutLanded at0) (copying true) (fun t => t.bytesAt (.cloth 0) 0x100000 3 == [3, 4, 0]
    && partIs t (fun x => x.copies == [] && (x.stream? 2).any (fun e => e.resident == 0 && e.outSeen))) = true := by decide +kernel

def wStep : SWord := { sw with x := 1, y := 3, z := 4 }
/-- FORK of one child of stream 2 whose record is a near carve's first block but one; PRUNE and JOIN of its child 3. -/
def wFork : SWord := { sw with x := 1, y := 5, z := 4, imm := 0x101000 }
def wJoin : SWord := { sw with x := 1, y := 5 }
def child3 : Stream := { stream0 with parent := 2, depth := 1, statePtr := 0x101000, shared := 1, step := 6 }
def homeAt (l : Tab Stream) (q : Tab Word) (op : Nat) (w : SWord) : State := withPart (withStreams l) (bench (regs q) (w.code op))
def homeOk (op : Nat) (w : SWord) (h : Here) : Bool :=
  match h.x.owned? 0 (streamId (h.q.getB w.x.val)) with
  | none => false
  | some e =>
    (op != 0x62 || (e.kids == 0 && (e.final == 0 || decide ((e.step + 1).toNat ≤ e.final.toNat))))
      && (op != 0x63 || (!ones (h.q.getB w.y.val) && !e.stat stClosing && e.resident == 0 && decide (1 ≤ (h.q.getB w.y.val).toNat)
        && decide ((h.q.getB w.y.val).toNat ≤ 256) && decide (e.depth ≤ 15) && (h.x.pool.boundTo 2).isNone
        && (h.x.forkIds false (h.q.getB w.y.val).toNat).isSome
        && (h.k.nearTrap 0 w.imm.toNat ((h.q.getB w.y.val).toNat * e.recordBytes)).isNone))
      && (op != 0x64 || e.depth != 0)
      && (op != 0x65 || (h.x.stream? (streamId (h.q.getB w.y.val))).any (fun f => f.parent == 2 && f.depth == e.depth + 1 && f.kids == 0))
/-- The stream home lies on the mill of the partition's first loom; here the instruction issues on another. -/
def away : At := { loom := 32, ctx := 0 }
def awayBench : State :=
  { State.reset with
    parts := [(0, { withStreams [(2, stream0)] with cfg := { cfg0 with looms := [0, 32], treads := [{ tread0 with loom := 32 }] } })],
    looms := [(32, loom0 (regs [(1, 2)]) (wStep.code 0x62))] }

theorem witness_stream_home :
    (Instr.sstep at0 wStep).wf = true ∧ (Instr.fork at0 wFork).wf = true ∧ (Instr.prune at0 { sw with x := 1 }).wf = true ∧ (Instr.join at0 wJoin).wf = true
      ∧ finds (homeAt [(2, stream0)] [(1, 2)] 0x62 wStep) (wStep.code 0x62) 0 false (fun h => h.k.home == h.mill && homeOk 0x62 wStep h) = true
      ∧ finds (homeAt [(2, { stream0 with final := 5 })] [(1, 2)] 0x62 wStep) (wStep.code 0x62) 0 false (homeOk 0x62 wStep) = true
      ∧ finds (homeAt [(2, stream0)] [(1, 2), (5, 2)] 0x63 wFork) (wFork.code 0x63) 0 false (homeOk 0x63 wFork) = true
      ∧ finds (homeAt [(2, { stream0 with kids := 1 }), (3, child3)] [(1, 3)] 0x64 { sw with x := 1 }) ({ sw with x := 1 }.code 0x64) 0 false
          (homeOk 0x64 { sw with x := 1 }) = true
      ∧ finds (homeAt [(2, { stream0 with kids := 1 }), (3, child3)] [(1, 2), (5, 3)] 0x65 wJoin) (wJoin.code 0x65) 0 false (homeOk 0x65 wJoin) = true
      ∧ finds (homeAt [] [(1, 2)] 0x62 wStep) (wStep.code 0x62) 0 false (fun h => (h.x.owned? 0 2).isNone) = true
      ∧ (awayBench.here away (wStep.code 0x62)).any (fun h => h.k.home != h.mill) = true := by decide +kernel
def queued (u : HomeUpdate) : State := withPart { withStreams [(2, stream0)] with homeQueue := [u] }
  (bench { regs [(1, 2)] with run := .waiting .home } 0)
theorem witness_home_queue :
    ((queued { at_ := at0, op := 0x62, w := wStep }).part? 0).any (fun x => x.homeQueue == [{ at_ := at0, op := 0x62, w := wStep }]) = true
      ∧ ((queued { at_ := at0, op := 0x62, w := wStep }).seq at0).run = .waiting .home
      ∧ ((withPart (withStreams [(2, stream0)]) (bench { regs [(1, 2), (5, 3)] with run := .waiting (.fork wFork) } 0)).resuming at0).map
          (fun r => (r.1, r.2.2)) = some (0, .fork wFork) := by decide +kernel

/-- Step 5 is the reset's step: P3 reads 1 and the count since it is 1. -/
theorem test_sstep :
    stepsTo (.sstep at0 wStep) (homeAt [(2, stream0)] [(1, 2)] 0x62 wStep) (fun t => (t.seq at0).getP 3 && (t.seq at0).getB 4 == 5
      && partIs t (fun x => (x.stream? 2).any (fun e => e.step == 5 && e.sinceReset == 1 && e.resetAt == 0 && e.lastReset == 5))) = true
      ∧ stepsTo (.sstep at0 wStep) (homeAt [(2, { stream0 with final := 4 })] [(1, 2)] 0x62 wStep) (fun t => (t.seq at0).run == .faulted 0x0325) = true := by
  decide +kernel
/-- The lowest run of three free IDs below four is none while 2 is taken; of one it is 0. -/
theorem test_fork :
    stepsTo (.fork at0 wFork) (homeAt [(2, stream0)] [(1, 2), (5, 1)] 0x63 wFork) (fun t => (t.seq at0).getB 4 == 0 && (t.seq at0).cond == 0
      && partIs t (fun x => (x.stream? 0).any (fun e => e.parent == 2 && e.depth == 1 && e.step == 4 && e.shared == 1 && e.statePtr == 0x101000)
        && (x.stream? 2).any (fun e => e.kids == 1))) = true
      ∧ stepsTo (.fork at0 wFork) (homeAt [(2, stream0)] [(1, 2), (5, 3)] 0x63 wFork) (fun t => (t.seq at0).cond == 8) = true := by decide +kernel
theorem test_prune_join :
    stepsTo (.prune at0 { sw with x := 1 }) (homeAt [(2, { stream0 with kids := 1 }), (3, child3)] [(1, 3)] 0x64 { sw with x := 1 })
        (fun t => partIs t (fun x => (x.stream? 3).isNone && (x.stream? 2).any (fun e => e.kids == 0))) = true
      ∧ stepsTo (.join at0 wJoin) (homeAt [(2, { stream0 with kids := 1 }), (3, child3)] [(1, 2), (5, 3)] 0x65 wJoin)
          (fun t => partIs t (fun x => (x.stream? 3).isNone && (x.stream? 2).any (fun e => e.step == 6 && e.kids == 0))) = true := by decide +kernel
theorem test_stream_home_update : stepsTo (.streamHomeUpdate 0) (queued { at_ := at0, op := 0x62, w := wStep }) (fun t =>
    (t.seq at0).pc == 1 && (t.seq at0).getB 4 == 5 && partIs t (fun x => x.homeQueue == [])) = true := by decide +kernel

/-! Sequences: sequence 1 holds one token in page 1; the staging record stands at offset 0 of buffer 0, its sources behind it. -/

def staged : List Byte :=
  [1, 0] ++ List.replicate 6 0 ++ leBytes 8 0x4000000 ++ List.replicate 8 0 ++ leBytes 8 0x8000000 ++ leBytes 8 0x10000000
def wScatter : SWord := { sw with x := 1, y := 0, z := 2 }
def pool1 : Pool :=
  { Pool.fresh 0 with seqs := [(1, seq1)], tables := [(tableKey 1 0 0, page1)],
                      frames := [(1, { refs := 1, state := 1, pinned := false, holds := 0, deferred := false })] }
def seqBench (k : Pool) (pages : Nat) (op : Nat) (b : Tab Word) : State :=
  (withPart { part0 with cfg := { cfg0 with pools := { cfg0.pools with pages := pages } }, pool := k } (bench (regs b) (wScatter.code op))).modLoom 0
    (fun l => { l with store := putBytes l.store 4096 staged })
def emptySeq : Pool := { Pool.fresh 0 with seqs := [(1, { seq1 with length := 0 })] }
def waitingFrame : Pool := { emptySeq with frames := [(0, { refs := 0, state := 1, pinned := false, holds := 1, deferred := true })] }
def dropped1 : Pool := { Pool.fresh 0 with seqs := [(1, seq1)], tables := [(tableKey 1 0 0, { page1 with state := 2 })] }

def stagesOk (h : Here) (n : Nat) (one : Bool) (f : Sources → Bool) : Bool :=
  (h.sequence 1).1 == 1 && (h.sequence 1).2.any (fun e => good (h.staging wScatter e n one) (fun r =>
    !h.sourceHeld (r.2 :: r.1.places) && (h.sourceFails (r.2 :: r.1.places)).isNone && f r.1))
def roomIs (h : Here) (n : Nat) (r : Room) (s : Sources) : Bool :=
  (h.sequence 1).2.any (fun e =>
    h.x.pool.room h.k.pools.pages ((scatterKeys 1 e n s.items).filter h.x.pool.opens).length (scatterKeys 1 e n s.items) [] == r
      && scatterEvicts h.x.pool 1 e n s.items == []
      && (scatterKeys 1 e n s.items).all (fun i => !(h.x.pool.entry i).damaged)
      && decide (s.items.length * 2 * (pageFmt e.format).source n ≤ h.k.pools.staging * 4096))
/-- An append on an open page, one up to the limit and one beyond it, one with no frame, one that waits for a frame. -/
theorem witness_scatter :
    scatterOk wScatter = true
      ∧ finds (seqBench pool1 64 0x66 [(1, 1), (2, 1)]) (wScatter.code 0x66) 0 false (fun h => stagesOk h 1 false (roomIs h 1 .now)) = true
      ∧ finds (seqBench { pool1 with seqs := [(1, { seq1 with limit := 2 })] } 64 0x66 [(1, 1), (2, 1)]) (wScatter.code 0x66) 0 false
          (fun h => stagesOk h 1 false (roomIs h 1 .now)) = true
      ∧ finds (seqBench { pool1 with seqs := [(1, { seq1 with limit := 1 })] } 64 0x66 [(1, 1), (2, 1)]) (wScatter.code 0x66) 0 false
          (fun h => stagesOk h 1 false (fun _ => true)) = true
      ∧ finds (seqBench emptySeq 0 0x66 [(1, 1), (2, 1)]) (wScatter.code 0x66) 0 false (fun h => stagesOk h 1 false (roomIs h 1 .never)) = true
      ∧ finds (seqBench waitingFrame 1 0x66 [(1, 1), (2, 1)]) (wScatter.code 0x66) 0 false (fun h => stagesOk h 1 false (roomIs h 1 .later)) = true
      ∧ ((withPart part0 (bench { regs [] with run := .waiting (.scatter false wScatter) } 0)).resuming at0).map (fun r => (r.1, r.2.2))
          = some (0, .scatter false wScatter) := by decide +kernel
theorem witness_pgfill :
    finds (seqBench pool1 64 0x67 [(1, 1), (2, 0)]) (wScatter.code 0x67) 0 false (fun h => stagesOk h 0 true (fun s => s.items.length == 1)
        && (h.x.pool.entry (tableKey 1 0 0)).state == 1 && decide (0 < seq1.entries)) = true
      ∧ finds (seqBench dropped1 64 0x67 [(1, 1), (2, 0)]) (wScatter.code 0x67) 0 false (fun h => stagesOk h 1 true (fun _ => true)
        && (h.x.pool.entry (tableKey 1 0 0)).state == 2 && h.x.pool.room h.k.pools.pages 1 [tableKey 1 0 0] [] == .now) = true
      ∧ finds (seqBench dropped1 0 0x67 [(1, 1), (2, 0)]) (wScatter.code 0x67) 0 false (fun h =>
          h.x.pool.room h.k.pools.pages 1 [tableKey 1 0 0] [] == .never) = true := by decide +kernel
theorem test_scatter :
    stepsTo (.scatter at0 wScatter) (seqBench pool1 64 0x66 [(1, 1), (2, 1)]) (fun t => (t.seq at0).cond == 0
        && partIs t (fun x => (x.pool.seq? 1).any (fun e => e.length == 2) && (x.pool.entry (tableKey 1 0 0)).count == 2)) = true
      ∧ stepsTo (.scatter at0 wScatter) (seqBench emptySeq 0 0x66 [(1, 1), (2, 1)]) (fun t => (t.seq at0).cond == 5
        && partIs t (fun x => (x.pool.seq? 1).any (fun e => e.starved && e.length == 0))) = true := by decide +kernel
theorem test_pgfill : stepsTo (.pgfill at0 wScatter) (seqBench dropped1 64 0x67 [(1, 1), (2, 0)]) (fun t => (t.seq at0).cond == 0
    && partIs t (fun x => (x.pool.entry (tableKey 1 0 0)).state == 1)) = true := by decide +kernel

/-! ### Switches, self-tests, checks, fault records (05 R101 to R103, 16 R316 to R318, 19) -/

def idlePart : Part := { part0 with entry := .idle, code := 0x10 }
/-- Loom 0 runs context 0, whose sequencer waits, and its partition's plan has gone idle. -/
def dueBench (beat : Nat) : State := { withPart idlePart (bench { Seq.zero with run := .waiting (.room 0) } 0) with beat := beat }
def testLoom (test : Option Word) : State :=
  (withPart { part0 with entry := .test, code := 0x20 } (bench (regs []) 0)).modLoom 0 (fun l => { l with entry := .test, test := test, v := [(0, 1)] })

theorem witness_switch :
    ((dueBench 225000).loom 0).part = some 0 ∧ (dueBench 225000).part? 0 = some idlePart ∧ idlePart.started = true
      ∧ ((dueBench 225000).loom 0).switchDue idlePart = true ∧ ((dueBench 225001).loom 0).switchDue idlePart = true
      ∧ (dueBench 225001).beat - (dueBench 225001).boundaryBeat = 225001 := by decide +kernel
theorem witness_self_test :
    ((testLoom none).loom 0).part = some 0 ∧ ((testLoom none).loom 0).entry = .test ∧ ((testLoom none).loom 0).failed = false
      ∧ ((testLoom none).loom 0).stopped = false ∧ ((testLoom none).loom 0).safeStop = false ∧ ((testLoom none).loom 0).test = none
      ∧ (testLoom none).fld (.safeTest 0) Fl.safeTest_RESULT = 0
      ∧ ((testLoom (some 0)).part? 0).all (fun x => ((testLoom (some 0)).loom 0).test == some ((testLoom (some 0)).pickFor x)) = true
      ∧ ((testLoom (some 1)).part? 0).all (fun x => (testLoom (some 1)).pickFor x != 1) = true := by decide +kernel
theorem witness_storage_errors :
    (EccPlace.loomStore 0 0x5FFFFF).inRange = true ∧ (EccPlace.near 31 (some (0, 0x100))).inRange = true
      ∧ (EccPlace.far 3 0 0x200).inRange = true ∧ (EccPlace.millStore 7 0x5FFFFFF).inRange = true
      ∧ ((bench (regs []) 0).part? 0).isSome = true ∧ ((bench (regs []) 0).loom 0).part ≠ none := by decide
theorem witness_monitors : (bench (regs []) 0).part? 0 ≠ none ∧ ∀ k, Domain.mill 3 ≠ .stack k := ⟨by decide, fun k h => by cases h⟩

def fault1 (unit code : BitVec 16) : Record := { pick := 0, beat := 7, unit := unit, code := code, detail := 0 }
def flying (n : Nat) : State :=
  { bench (regs []) 0 with safety := { Safety.reset with flight := [fault1 2 0x0301], queue := List.replicate n (fault1 2 0x030A) } }
def queuedFault (r : Record) : State := { bench (regs []) 0 with safety := { Safety.reset with queue := [r] } }
theorem witness_fault_records :
    (flying 4095).safety.flight = [fault1 2 0x0301] ∧ (flying 4095).safety.queue.length < 4096
      ∧ 4096 ≤ (flying 4096).safety.queue.length ∧ (queuedFault (fault1 2 0x0301)).safety.queue = [fault1 2 0x0301]
      ∧ (queuedFault (fault1 2 0x0301)).affects (fault1 2 0x0301) 0 part0 = true ∧ part0.safe = none
      ∧ (queuedFault (fault1 2 0x030A)).affects (fault1 2 0x030A) 0 part0 = false
      ∧ moduleCode 0x0902 = true ∧ moduleCode 0x0301 = false :=
  ⟨rfl, Nat.lt_of_le_of_lt (Nat.le_of_eq List.length_replicate) (by decide),
    Nat.le_of_eq List.length_replicate.symm, rfl, by decide, rfl, by decide, rfl, rfl⟩

/-- A machine whose port 0 is up and which knows its neighbour 10.0.0.1 on the management VLAN. -/
def noticeDest : Dest := { Dest.blank false with a := 0x0A000001, port := 40001, v4 := true }
def noticeBench : State :=
  let s : State := { State.reset with
    net := { Net.reset with ports := [(0, { Port.reset with link := true })], notices := [(0, noticeDest)] },
    safety := { Safety.reset with notices := [fault1 2 0x0301] } }
  { s with net := { s.net with neighbours := [(vlanKey 0 (s.vlanFor none 0 true), { v4 := true, value := 0x0A000001 }, 0x020000000001)] } }
theorem witness_notice :
    noticeBench.net.notices = [(0, noticeDest)] ∧ noticeBench.parts = [] ∧ noticeBench.safety.notices.length = 1 ∧ noticeDest.a ≠ 0
      ∧ noticeDest.b = 0 ∧ (noticeBench.upPorts 0).head? = some 0 ∧ (noticeBench.port 0).macsec ≠ 1
      ∧ (noticeBench.macOf (vlanKey 0 (noticeBench.vlanFor none 0 true)) { v4 := true, value := 0x0A000001 }).isSome = true := by decide +kernel

theorem test_context_switch :
    stepsTo (.contextSwitch 0) (dueBench 225000) (fun t => (t.loom 0).entry == .idle && t.fld (.schedSwitch 0) Fl.schedSwitch_LATE_LOOMS == 0) = true
      ∧ stepsTo (.contextSwitch 0) (dueBench 225001) (fun t => t.fld (.schedSwitch 0) Fl.schedSwitch_LATE_LOOMS == 1
          && t.fld (.schedSwitch 0) Fl.schedSwitch_MAX_DELAY == 225001 && t.safety.flight.map Record.code == [0x0A01]) = true := by decide +kernel
theorem test_self_test :
    stepsTo (.loomSelfTest 0) (testLoom none) (fun t => (t.loom 0).test == some 0 && (t.loom 0).v == []) = true
      ∧ stepsTo (.loomSelfTestEnd 0 false 9) (testLoom (some 0)) (fun t => (t.loom 0).stopped && t.fld (.safeTest 0) Fl.safeTest_RESULT == 2
          && t.safety.flight.map (fun r => (r.code, r.detail)) == [(0x0901, 9)]) = true
      ∧ stepsTo (.selfTestAbandon 0) (testLoom (some 1)) (fun t => t.fld (.safeTest 0) Fl.safeTest_RESULT == 3
          && t.safety.flight.map Record.code == [0x0908]) = true := by decide +kernel
/-- LOOM_CHECK shows the harness, heddle and fell; the detail of 0x0301 is harness, heddle in [7:2], fell in [8]. -/
theorem test_residue_mismatch : stepsTo (.residueMismatch 0 3 5 1 false) (tileBench (opened 1)) (fun t => (t.seq at0).run == .faulted 0x0301
    && (t.seq at0).tile.isNone && t.fld (.loomCheck 0) Fl.loomCheck_LAST_HEDDLE == 5
    && t.safety.flight.map (fun r => bits r.detail.toNat 0 10) == [3 + 5 * 4 + 256]) = true := by decide +kernel
theorem test_lockstep_rounder :
    stepsTo (.lockstepMismatch 0) (bench (regs []) 0) (fun t => (t.loom 0).stopped && t.safety.flight.map Record.code == [0x0302]) = true
      ∧ stepsTo (.drainRounderMismatch 0) (bench (regs []) 0) (fun t => t.safety.flight.map Record.code == [0x0303]) = true := by decide +kernel
/-- A corrected error is recorded once a pick; an uncorrectable one damages its 4 KiB block. -/
theorem test_secded :
    stepsTo (.secdedCorrected (.loomStore 0 0x1234)) (bench (regs []) 0) (fun t => t.fld (.loomEcc 0) Fl.loomEcc_LAST_ADDR == 0x1234
      && t.safety.flight.map Record.code == [0x030A]
      && stepsTo (.secdedCorrected (.loomArray 0)) t (fun u => u.safety.flight.length == 1 && u.fld (.loomEcc 0) Fl.loomEcc_CORRECTED == 2)) = true
      ∧ stepsTo (.secdedUncorrectable (.loomStore 0 0x1234)) (bench (regs []) 0) (fun t => t.blockBad (.loom 0) 1 && (t.seq at0).run == .faulted 0x0304)
        = true := by decide +kernel
theorem test_monitors :
    stepsTo (.clockOutOfTolerance (.mill 2)) State.reset (fun t => t.safety.flight.map (fun r => (r.unit, r.code)) == [(0x2F9A, 0x0904)]) = true
      ∧ stepsTo (.supplyOutOfTolerance .beam 3 0x100) State.reset (fun t => t.safety.flight.map (fun r => (r.code, r.detail)) == [(0x0905, 0x10003)]) = true
      ∧ stepsTo (.junctionWarning (.loom 33)) State.reset (fun t => t.safety.flight.map (fun r => (r.unit, r.code)) == [(0x1085, 0x0907)]) = true := by
  decide +kernel
theorem test_fault_arrival : stepsTo .faultRecordArrival (flying 1) (fun t => t.safety.queue.length == 2 && t.safety.flight == []
    && t.safety.notices == [fault1 2 0x0301]) = true := by decide +kernel
/-- A residue fault of loom 0 concerns its owner, whose loom stops with its open tile; a corrected error concerns no partition. -/
theorem test_fault_handled :
    (queuedFault (fault1 2 0x0301)).affects (fault1 2 0x0301) 0 part0 = true
      ∧ (((tileBench (opened 1)).stopLooms part0).loom 0).safeStop = true ∧ (((tileBench (opened 1)).stopLooms part0).seq at0).tile = none
      ∧ stepsTo .faultRecordHandled (queuedFault (fault1 2 0x030A)) (fun t => partIs t (fun x => x.safe == none) && t.safety.queue == []) = true := by
  decide +kernel
theorem test_fault_notice : stepsTo .faultNotice noticeBench (fun t => t.safety.notices == []
    && t.net.tx.map (fun k => (k.dstPort, k.bytes.drop 40)) == [(40001, (fault1 2 0x0301).bytes)]) = true := by decide +kernel

/-! ### The pick unit (03) -/

/-- The pulse source armed with a window of 2 µs and a period of 1 ms; the last pulse came at 5 ms and formed pick 40. -/
def pulseBench (k : PickUnit) (regs : List (Reg × Fld × Nat)) : State :=
  regs.foldl (fun s e => s.setFld e.1 e.2.1 e.2.2)
    (({ State.reset with pick := k }.setFld .pickSource Fl.pickSource_SEL 2).setFld .pickSource Fl.pickSource_WINDOW_NS 2000
      |>.setFld .pickPeriod Fl.pickPeriod_PERIOD_NS 1000000)
def pickUnit40 : PickUnit := { State.reset.pick with formed := true, everFormed := true, anchor := some (5000000, 40), lastEdge := some 5000000 }
def pulses (k : PickUnit) : State := (pulseBench k [(.pickStatus, Fl.pickStatus_STATE, 2)]).setReg .pickNow 40
/-- In holdover with n boundaries counted. -/
def holdover (n : Nat) : State :=
  ((pulses pickUnit40).setFld .pickStatus Fl.pickStatus_STATE 3).setFld .pickStatus Fl.pickStatus_HOLDOVER_PICKS n

theorem witness_pulses :
    (pulses pickUnit40).sel = 2 ∧ (pulses pickUnit40).now = 40 ∧ (pulses pickUnit40).expected 41 = some 6000000 ∧ (pulses pickUnit40).window = 2000
      ∧ (5998000 ≤ 6000000 + 2000 ∧ 6000000 ≤ 5998000 + 2000) ∧ (6002000 ≤ 6000000 + 2000 ∧ 5997999 + 2000 < 6000000 ∧ 6000000 + 2000 < 6002001)
      ∧ pickUnit40.lastEdge = some 5000000 ∧ 5001000 ≤ 5000000 + 1000 ∧ 5000000 + 1000 < 5001001
      ∧ (pulses State.reset.pick).sel = 2 ∧ State.reset.pick.formed = false ∧ State.reset.pick.lastEdge = none ∧ State.reset.pick.due = none
      ∧ (pulses { pickUnit40 with due := some 40 }).pick.due.isSome = true ∧ (pulses pickUnit40).sourceState ≠ 1
      ∧ (pulses pickUnit40).inHoldover = false ∧ (holdover 1).inHoldover = true ∧ (holdover 1).sourceState ≠ 1
      ∧ (holdover 1000).sourceState = 3 ∧ (holdover 1000).fld .pickStatus Fl.pickStatus_HOLDOVER_PICKS = 1000 := by decide +kernel
/-- A pulse within the window forms the next pick, at either end of it; one just outside is spurious, one within 1 µs of the last is not recorded. -/
theorem test_pick_pulse :
    stepsTo (.pickPulse 5998000) (pulses pickUnit40) (fun t => t.now == 41 && t.pick.due == some 41 && t.pick.anchor == some (5998000, 41)) = true
      ∧ stepsTo (.pickPulse 6002001) (pulses pickUnit40) (fun t => t.now == 40 && t.fld .pickStatus Fl.pickStatus_SPURIOUS == 1
          && t.safety.flight.map Record.code == [0x0C04]) = true
      ∧ stepsTo (.pickPulse 5001000) (pulses pickUnit40) (fun t => t.now == 40 && t.fld .pickStatus Fl.pickStatus_SPURIOUS == 1 && t.safety.flight == [])
        = true := by decide +kernel
theorem test_pulse_missed :
    stepsTo (.pulseMissed 6002000) (pulses pickUnit40) (fun t => t.now == 41 && t.sourceState == 3 && t.fld .pickStatus Fl.pickStatus_MISSED == 1
        && t.fld .pickStatus Fl.pickStatus_HOLDOVER_PICKS == 1 && t.safety.flight.map (fun r => (r.code, r.detail)) == [(0x0C03, 0), (0x0C01, 3)]) = true
      ∧ stepsTo .holdoverExpired (holdover 1000) (fun t => t.sourceState == 4 && t.safety.flight.map Record.code == [0x0C02]) = true := by decide +kernel

/-- A PTP machine: port 0 is up; the clock 5 is the selected grandmaster, whose path delay gap is 400 ns. -/
def clock5 : Clock := { source := 5, rank := 9, grandmaster := 5, interval := 0, port := 0 }
def sync1 (two : Bool) : PtpMsg :=
  { port := 0, transport := 1, vlan := 0, domain := 0, source := 5, sequence := 3, twoStep := two, origin := 1000, ingress := 1600, rank := 9, grandmaster := 5, interval := 0 }
def ptpBench (k : PickUnit) (state : Nat) : State :=
  let s : State := { State.reset with net := { Net.reset with ports := [(0, { Port.reset with link := true })] }, pick := k }
  ((((s.setFld .netPtp Fl.netPtp_EN 1).setFld .netPtp Fl.netPtp_BANKS 1).setFld .pickSource Fl.pickSource_SEL 1).setFld .pickPeriod Fl.pickPeriod_PERIOD_NS 1000000).setFld
    .pickStatus Fl.pickStatus_STATE state
def ptpUnit : PickUnit := { State.reset.pick with clocks := [clock5], selected := some clock5, delayGap := 400, haveDelay := true }

theorem witness_ptp :
    (ptpBench ptpUnit 1).hearsPtp (sync1 false) = true ∧ (ptpBench ptpUnit 1).fromSelected (sync1 false) = true ∧ (ptpBench ptpUnit 1).sel = 1
      ∧ (ptpBench ptpUnit 1).sourceState = 1 ∧ (ptpBench ptpUnit 2).sourceState = 2 ∧ (ptpBench ptpUnit 3).inHoldover = true
      ∧ (offsetOf (ptpBench ptpUnit 1) 1000 1600).natAbs ≤ 1000 ∧ 10000 < (offsetOf (ptpBench ptpUnit 1) 1000 40000).natAbs
      ∧ ({ ptpUnit with lockRun := 15 } : PickUnit).lockTime = none ∧ ({ ptpUnit with badRun := 7 } : PickUnit).badRun = 7
      ∧ ({ ptpUnit with halfSync := some (3, 1600) } : PickUnit).halfSync = some ((sync1 true).sequence, 1600) ∧ ptpUnit.haveDelay = true
      ∧ ({ ptpUnit with delayReq := some (3, 0, 2000) } : PickUnit).delayReq = some ((sync1 true).sequence, (sync1 true).port, 2000)
      ∧ ptpUnit.selected = some clock5 ∧ clock5.port = (0 : Fin 8).val ∧ (ptpBench ptpUnit 1).fld .netPtp Fl.netPtp_EN = 1
      ∧ ((ptpBench ptpUnit 1).port 0).link = true ∧ ((ptpBench ptpUnit 1).port 0).macsec ≠ 1
      ∧ (State.reset.setFld .pickSource Fl.pickSource_REF_EN 1).fld .pickSource Fl.pickSource_REF_EN = 1 := by decide +kernel
/-- With gaps of 600 and 400 ns the path delay is 500 ns and the offset 100 ns; sixteen such Syncs lock the clock. -/
theorem test_ptp_sync :
    stepsTo (.ptpSync (sync1 false)) (ptpBench { ptpUnit with lockRun := 15 } 1) (fun t => t.fld .pickStatus Fl.pickStatus_OFFSET_NS == 100
        && t.pick.lockTime == some 1500) = true
      ∧ stepsTo (.ptpFollowUp (sync1 true)) (ptpBench { ptpUnit with halfSync := some (3, 40000), badRun := 7 } 2) (fun t => t.sourceState == 3
        && t.safety.flight.map (fun r => (r.code, r.detail)) == [(0x0C01, 2)]) = true := by decide +kernel
theorem test_ptp_delay :
    stepsTo (.delayReq 0 2000) (ptpBench ptpUnit 1) (fun t => t.pick.delayReq == some (0, 0, 2000) && t.net.tx.map (fun k => k.dstPort) == [319]) = true
      ∧ stepsTo (.ptpDelayResp { sync1 false with origin := 2500 }) (ptpBench { ptpUnit with delayReq := some (3, 0, 2000) } 1)
          (fun t => t.pick.delayGap == 500 && t.pick.delayReq == none) = true := by decide +kernel
theorem test_ptp_announce :
    stepsTo (.ptpAnnounce { sync1 false with source := 4 }) (ptpBench ptpUnit 1) (fun t => (t.pick.selected.map Clock.source) == some 4) = true
      ∧ stepsTo .ptpAnnounceTimeout (ptpBench ptpUnit 2) (fun t => t.pick.selected == none && t.sourceState == 3
        && t.safety.flight.map (fun r => (r.code, r.detail)) == [(0x0C01, 1)]) = true := by decide +kernel
theorem test_reference :
    stepsTo .refLost (State.reset.setFld .pickSource Fl.pickSource_REF_EN 1) (fun t => t.fld .pickStatus Fl.pickStatus_REF_LOST == 1
        && t.safety.flight.map Record.code == [0x0C05]) = true
      ∧ stepsTo .refRestored (State.reset.setFld .pickSource Fl.pickSource_REF_EN 1) (fun t => t.fld .pickStatus Fl.pickStatus_REF_OK == 1) = true := by
  decide +kernel

/-- Boundary 40 is due; partition 0 is loaded and will start there, partition 1 runs its plan. -/
def dueNow : State := { pulses { pickUnit40 with due := some 40 } with parts := [(0, { part0 with start := none }), (1, { part0 with start := some 0, entry := .idle })] }
def behind (late : Bool) : State := withPart (withStreams [(2, { stream0 with behind := some late })]) State.reset
theorem witness_boundary :
    dueNow.pick.due = some 40 ∧ dueNow.now = 40 ∧ (ptpBench { ptpUnit with formed := true } 2).pick.formed = true
      ∧ (ptpBench { ptpUnit with lockTime := some 5000 } 1).pick.lockTime = some 5000 ∧ 0 < (ptpBench ptpUnit 1).period
      ∧ (ptpBench ptpUnit 1).ptpInstant 0 ≤ 5000 ∧ (ptpBench ptpUnit 1).pick.due = none ∧ (ptpBench ptpUnit 1).pick.lockTime = none
      ∧ ((behind true).part? 0).any (fun x => (x.stream? 2).any (fun e => e.behind == some true)) = true := by decide +kernel
theorem test_boundary :
    stepsTo .pickBoundary dueNow (fun t => t.pick.due == none && partIs t (fun x => x.due == some 40) && (t.part? 1).any (fun x => x.entry == .ctx 0)) = true
      ∧ stepsTo .pickBoundary (ptpBench { ptpUnit with lockTime := some 1000000 } 1) (fun t => t.now == 2 && t.sourceState == 2) = true := by decide +kernel
theorem test_cadence : stepsTo (.cadenceCheck 0 2) (behind true) (fun t => partIs t (fun x => (x.stream? 2).any (fun e => e.late == 1 && e.stat stLate))) = true := by
  decide +kernel

/-! ### Septa messages (17) -/

/-- A message of n payload bytes to the management endpoint, and one to partition 0's control endpoint. -/
def mg (payload : List Byte) : Msg :=
  { route := route0, hdr := { hdr0 with length := BitVec.ofNat 32 payload.length }, payload := payload }
def ct (payload : List Byte) : Msg :=
  { route := { route0 with dst := { v4 := true, value := 0x0A000003 } },
    hdr := { hdr0 with plane := 1, partition := 0, context := 0, length := BitVec.ofNat 32 payload.length }, payload := payload }
/-- The payload of a REG_WRITE of one register (R347). -/
def regPayload (a v : Nat) : List Byte := beBytes 2 1 ++ beBytes 2 0 ++ beBytes 4 0 ++ beBytes 4 a ++ beBytes 4 0 ++ beBytes 8 v

/-- A machine listens on the management address 10.0.0.2 and, for its partitions, on the control address 10.0.0.3, both in VLAN 5 of port 0;
its management firmware runs. -/
def ctrl0 : EndpointCfg := { plane := 1, banks := 3, vlan := 5, addr := { v4 := true, value := 0x0A000003 }, port := 47510, qps := 0 }
def listens (s : State) : State :=
  let s : State := { s with
    net := { s.net with ports := [(0, { Port.reset with link := true })] },
    store := { s.store with running := some (0, 1, true, 0) },
    parts := s.parts.map (fun e => (e.1, { e.2 with cfg := { e.2.cfg with endpoints := ctrl0 :: e.2.cfg.endpoints } })) }
  ((s.setReg .netMgmt (BitVec.ofNat 64 (5 + 4096 + 3 * 8192 + 1500 * 32768))).setReg .netMgmtAddrLo 0x0A000002).setFld .moduleState Fl.moduleState_PHASE 3

/-- The request that a message not authenticated makes, with the state that its handler sees. -/
def arrives? (s : State) (t : MsgType) (m : Msg) : Option (Staged × State) :=
  match (heard s m).endpointAt m.route.port m.route.vlan.toNat m.route.dst, standing s m with
  | some ep, .fresh w =>
    if (s.port m.route.port).link = true ∧ (s.port m.route.port).macsec ≠ 1 ∧ (ep = .mgmt → (heard s m).mgmtReady = true)
        ∧ m.hdr.magic.toNat = 0x5E7A ∧ m.hdr.length.toNat = m.payload.length ∧ m.hdr.plane.toNat = planeOf ep ∧ planeOf ep ≠ 2
        ∧ m.hdr.flags.getLsbD 0 = false ∧ m.hdr.sequence.toNat ≠ 0 ∧ m.hdr.sequence.toNat ≠ 2 ^ 64 - 1 ∧ t.authentic = false
        ∧ (headerFails m.hdr t ep).isNone = true ∧ (formFails t.form t.tail m.payload).isNone = true then
      some (requestOf s t m ep m.payload none, numbered s m w)
    else none
  | _, _ => none

/-- It reaches its handler, and something holds of request and state. -/
def reaches (s : State) (t : MsgType) (m : Msg) (f : Staged → State → Bool) : Bool := (arrives? s t m).any (fun e => f e.1 e.2)

theorem arrives_spec {s : State} {t : MsgType} {m : Msg} {r : Staged} {u : State} (h : arrives? s t m = some (r, u)) : Reaches s t m r u := by
  unfold arrives? at h
  split at h
  · next ep w he hw =>
    split at h
    · next hc =>
      obtain ⟨h1, h2, h3, h4, h5, h6, h7, h8, h9, h10, h11, h12, h13⟩ := hc
      cases h
      exact ⟨ep, m.payload, none, w, ⟨h1, h2, he, h3⟩, ⟨h4, h5, ⟨h6, h7⟩, h8⟩, ⟨h9, h10⟩, by simp [State.authenticate, h11], hw,
        Option.isNone_iff_eq_none.mp h12, Option.isNone_iff_eq_none.mp h13, rfl, rfl⟩
    · cases h
  · cases h

theorem reaches_spec {s : State} {t : MsgType} {m : Msg} {f : Staged → State → Bool} (h : reaches s t m f = true) :
    ∃ r u, Reaches s t m r u ∧ f r u = true := by
  unfold reaches at h
  cases e : arrives? s t m with
  | none => rw [e] at h; cases h
  | some p => obtain ⟨r, u⟩ := p; rw [e] at h; exact ⟨r, u, arrives_spec e, h⟩

/-- What the last reply sent says: its status, the header offset and field. -/
def lastReply (t : State) : List Nat := (t.net.tx.getLast?.map (fun (k : Packet) => (slice k.bytes 32 4).map BitVec.toNat)).getD []
def mgmt0 : State := listens (bench (regs []) 0)
def ctlMsg : MsgType := ctrlType 0x0002 true [.any 4, .any 2, .zero 2]

/-- Every way of being turned away, and of coming through. -/
theorem witness_screening :
    (State.reset.port 0).link = false ∧ (mgmt0.port 0).link = true
      ∧ (({ mgmt0 with net := { mgmt0.net with ports := [(0, { Port.reset with link := true, macsec := 1 })] } } : State).port 0).macsec = 1
      ∧ (heard mgmt0 { mg [] with route := { route0 with vlan := 6 } }).endpointAt 0 6 route0.dst = none
      ∧ (heard (mgmt0.setFld .moduleState Fl.moduleState_PHASE 1) (mg [])).mgmtReady = false
      ∧ (heard mgmt0 (mg [])).endpointAt 0 5 route0.dst = some .mgmt ∧ (heard mgmt0 (mg [])).mgmtReady = true
      ∧ (mg [1]).hdr.magic.toNat = 0x5E7A ∧ (mg [1]).hdr.length.toNat = (mg [1]).payload.length
      ∧ reaches mgmt0 typeEcho (mg [1, 2]) (fun r _ => r.payload == [1, 2]) = true
      ∧ reaches mgmt0 ctlMsg (ct (beBytes 4 0x300000 ++ beBytes 2 1 ++ [0, 0])) (fun r _ => r.num 4 2 == 1 && !r.mgmt) = true
      ∧ (standing mgmt0 (mg []) matches .fresh _) = true
      ∧ (standing { mgmt0 with net := { mgmt0.net with windows := [(windowKey hdr0, { high := 7, seen := 1 })] } } (mg []) matches .duplicate) = true
      ∧ (standing { mgmt0 with net := { mgmt0.net with windows := [(windowKey hdr0, { high := 263, seen := 1 })] } } (mg []) matches .stale) = true
      ∧ headerFails { hdr0 with version := 2 } typeEcho .mgmt ≠ none ∧ formFails ctlMsg.form ctlMsg.tail [0] = some 1 := by decide +kernel
def session0 : Session := { origin := 0, kMsg := 0, kCt := 0, kCd := 0 }
/-- A session whose origin is the message's flags' upper byte, for the messages that a session authenticates. -/
def withSession (s : State) : State :=
  { s with sec := { s.sec with sessions := [(0, session0)] } }
theorem witness_authenticates :
    (withSession mgmt0).sec.sessions.find? (sessionKey { hdr0 with partition := 0 }) = some session0
      ∧ hdrOrigin hdr0 = 0 ∧ mgmt0.sec.sessions.find? (sessionKey hdr0) = none := by decide

/-- The last case of 64 registers and the one beyond; a read of a hole; a write refused by each of its reasons. -/
theorem witness_register_messages :
    reaches mgmt0 typeEcho (mg (List.replicate 257 0)) (fun _ _ => true) = true
      ∧ reaches mgmt0 (ctrlType 0x0002 true [.any 4, .any 2, .zero 2]) (mg (beBytes 4 0x200100 ++ beBytes 2 65 ++ [0, 0])) (fun r _ => decide (64 < r.num 4 2)) = true
      ∧ reaches mgmt0 (ctrlType 0x0002 true [.any 4, .any 2, .zero 2]) (mg (beBytes 4 0x200100 ++ beBytes 2 64 ++ [0, 0]))
          (fun r _ => r.num 4 2 == 64 && (Reg.ofAddr (r.num 0 4 + 8 * 63)).isNone) = true
      ∧ reaches mgmt0 (ctrlType 0x0002 true [.any 4, .any 2, .zero 2]) (mg (beBytes 4 0x200100 ++ beBytes 2 3 ++ [0, 0]))
          (fun r _ => (List.range 3).all (fun i => (Reg.ofAddr (r.num 0 4 + 8 * i)).isSome)) = true
      ∧ reaches mgmt0 typeRegWrite (mg (regPayload 0x200108 1)) (fun r u => r.num 0 2 == 1 && r.num 12 4 == 0
          && u.mayWrite (r.num 8 4) (BitVec.ofNat 64 (r.num 16 8)) == some .netMgmtAddrHi) = true
      ∧ reaches mgmt0 typeRegWrite (mg (regPayload 0x200101 1)) (fun r u => u.mayWrite (r.num 8 4) (BitVec.ofNat 64 (r.num 16 8)) == none) = true := by
  decide +kernel
def sourceReq (v : Nat) : WriteReq := wr (BitVec.ofNat 64 v)
def sourceValue (sel w : Nat) : Nat := (Fl.pickSource_WINDOW_NS.set (Fl.pickSource_SEL.set 0 sel) w).toNat
def sourced (sel : Nat) : State := ((bench (regs []) 0).setFld .pickPeriod Fl.pickPeriod_PERIOD_NS 500000).setFld .pickSource Fl.pickSource_SEL sel
def wrote (s : State) (v : Nat) (reg : Reg) (f : Staged → State → Bool) : Bool :=
  reaches (listens s) typeRegWrite { writeMsg (sourceReq v) reg with hdr := (writeMsg (sourceReq v) reg).hdr } f
theorem witness_source_writes :
    wrote (sourced 0) (sourceValue 1 0) .pickSource (fun _ u => u.sel == 0 && u.period == 500000) = true
      ∧ wrote (sourced 0) (sourceValue 2 1000) .pickSource (fun _ _ => true) = true ∧ 4 * 1000 ≤ 500000
      ∧ (Reg.pickSource).zeroBits (BitVec.ofNat 64 (sourceValue 2 1000)) = true
      ∧ Fl.pickSource_SEL.get (BitVec.ofNat 64 (sourceValue 2 1000)) = 2 ∧ Fl.pickSource_WINDOW_NS.get (BitVec.ofNat 64 (sourceValue 2 1000)) = 1000
      ∧ wrote { sourced 1 with parts := [] } 0 .pickSource (fun _ u => u.sel == 1 && u.parts.isEmpty) = true
      ∧ wrote (sourced 1) (sourceValue 1 0) .pickSource (fun _ _ => true) = true ∧ wrote (sourced 1) (sourceValue 2 0) .pickSource (fun _ _ => true) = true
      ∧ wrote State.reset (Fl.moduleReset_REQUEST.set 0 1).toNat .moduleReset (fun _ _ => true) = true := by decide +kernel

theorem test_echo : stepsTo (.echo (mg [9, 8])) mgmt0 (fun t => lastReply t == [0, 0, 0, 0]
    && (t.net.tx.getLast?.map (fun (k : Packet) => k.bytes.drop 40)) == some [9, 8]) = true := by decide +kernel
theorem test_reg_read : stepsTo (.regRead (mg (beBytes 4 0x200100 ++ beBytes 2 1 ++ [0, 0]))) mgmt0 (fun t =>
    (t.net.tx.getLast?.map (fun (k : Packet) => k.bytes.drop 40)) == some (beBytes 8 (5 + 4096 + 3 * 8192 + 1500 * 32768))) = true := by decide +kernel
theorem test_reg_write : stepsTo (.regWrite (mg (regPayload 0x200108 77))) mgmt0 (fun t => t.reg .netMgmtAddrHi == 77 && lastReply t == [0, 0, 0, 0]) = true
    ∧ stepsTo (.regWrite (mg (regPayload 0x200101 77))) mgmt0 (fun t => lastReply t == [2, 0, 0, 8]) = true := by decide +kernel
theorem test_arm : stepsTo (.pickSourceArmPulse (sourceReq (sourceValue 2 1000))) (listens (sourced 0)) (fun t => t.sel == 2 && t.sourceState == 1) = true
    ∧ stepsTo (.moduleResetRequest (sourceReq (Fl.moduleReset_REQUEST.set 0 1).toNat)) mgmt0 (fun t => t.power.resetDue) = true := by decide +kernel

/-! ### Control-plane requests (16 R321, 10, 11, 17) -/

/-- A control-plane message reaches its handler over partition x, of the type of a row. -/
def asks (x : Part) (t : MsgType) (payload : List Byte) (f : Staged → State → Bool) : Bool :=
  reaches (listens (withPart x (bench (regs []) 0))) t (ct payload) f
def asksMgmt (s : State) (t : MsgType) (payload : List Byte) (f : Staged → State → Bool) : Bool := reaches (listens s) t (mg payload) f
/-- The partition that a request names in a state. -/
def targets (f : Part → Bool) (r : Staged) (u : State) : Bool := (r.part?.bind u.part?).any (fun x => x.started && f x)
def runPayload (i : Nat) : List Byte := beBytes 1 i ++ List.replicate 7 0 ++ beBytes 8 11 ++ beBytes 8 12
def runType : MsgType := ctrlType 0x0100 false [.any 1, .zero 7, .any 8, .any 8]
def replaying0 : Part := { part0 with swatch := some { replay := true, base := 0x100000, len := 0x20000, pos := 0, records := 0, bytes := [], ended := false,
                                                       virtualPick := 0, begun := false, realPick := none, expected := [], formed := [] } }
/-- A submission with room, of a queue that the control plane does not feed, of a full queue, of a stopped partition, of an ended context, and
of a partition that has not started. -/
theorem witness_runs :
    asks part0 runType (runPayload 0) (fun r u => (r.ctx?.map Fin.val) == some 0 && targets (fun x => !x.replaying && x.safe.isNone
        && x.stopping.isNone && (x.ctx 0).fault.isNone && !u.ctxEnded x 0 && x.cfg.controlFed 0 (r.num 0 1) && x.swatch.isNone
        && decide ((queueOf x 0 (r.num 0 1)).length < (x.cfg.queueCfg 0 (r.num 0 1)).depth)) r u) = true
      ∧ asks part0 runType (runPayload 2) (fun r u => targets (fun x => !x.cfg.controlFed 0 (r.num 0 1)) r u) = true
      ∧ asks (part0.setQueue 0 0 [entry5 0, entry5 0]) runType (runPayload 0) (fun r u => targets (fun x =>
          decide ((x.cfg.queueCfg 0 (r.num 0 1)).depth ≤ (queueOf x 0 (r.num 0 1)).length)) r u) = true
      ∧ asks { part0 with safe := some 0 } runType (runPayload 0) (fun r u => targets (fun x => x.safe.isSome) r u) = true
      ∧ reaches (listens (bench { Seq.zero with run := .ended } 0)) runType (ct (runPayload 0)) (fun r u => targets (fun x => u.ctxEnded x 0) r u) = true
      ∧ asks { part0 with start := none } runType (runPayload 0) (fun r u => (r.part?.bind u.part?).any (fun x => !x.started)) = true := by decide +kernel

/-- The payloads of the staged requests: stream 2 in the near carve with its far copy, sequence 1, destination 3, slot 5. -/
def openPayload (parts far : Nat) : List Byte :=
  beBytes 2 2 ++ beBytes 1 parts ++ [0] ++ beBytes 2 1 ++ [0, 0] ++ beBytes 8 0x100000 ++ beBytes 8 far ++ beBytes 8 1 ++ beBytes 4 0x3F800000 ++ beBytes 4 3
    ++ beBytes 8 9 ++ [1] ++ List.replicate 7 0
def stepPayload (n : Nat) : List Byte := beBytes 2 2 ++ List.replicate 6 0 ++ beBytes 8 n
def idPayload (i : Nat) : List Byte := beBytes 2 i ++ List.replicate 6 0
def seqPayload (flags : Nat) : List Byte :=
  beBytes 2 1 ++ beBytes 2 1 ++ [1, 0, BitVec.ofNat 8 flags, 0] ++ beBytes 4 256 ++ beBytes 4 7 ++ beBytes 2 0 ++ beBytes 2 0 ++ List.replicate 4 0
def policyPayload : List Byte := beBytes 2 1 ++ [7, 3] ++ beBytes 2 9 ++ [0, 0]
def destPayload (interval : Nat) : List Byte :=
  [3, 0] ++ beBytes 2 interval ++ beBytes 2 40001 ++ [4, 0] ++ [10, 0, 0, 1] ++ List.replicate 12 0 ++ List.replicate 16 0
def creel5 : CreelCfg := { slot := 5, format := 3, width := 64, height := 64, ringBase := 0x120000, ringLen := 0x8000, jitter := 4, ctx := 0, queue := 1 }
def creelPart : Part := { part0 with cfg := { cfg0 with creel := [creel5] } }
/-- A ring slot's stream context from 0x04 on: 30,000 luma samples a second, the smallest elementary-stream ring, the whole picture as BF16. -/
def creelPayload : List Byte :=
  beBytes 2 5 ++ [0, 0] ++ beBytes 4 30 ++ List.replicate 8 0 ++ beBytes 8 0x110000 ++ beBytes 4 8192 ++ List.replicate 8 0 ++ beBytes 4 0x400040
    ++ [0, 0, 0, 4] ++ List.replicate 24 0
def stagesWell (x : Part) (t : MsgType) (payload : List Byte) (fails : Staged → Part → Option Nat) : Bool :=
  asks x t payload (fun r u => targets (fun x => (fails r x).isNone && !x.replaying) r u)
def creelBreaks (r : Staged) (x : Part) : Option Nat := match r.slotOf x with | none => some 0 | some c => openCreelBreaks x.cfg c r
theorem witness_staging :
    stagesWell part0 (ctrlType 0x0101 false formStreamOpen) (openPayload 1 0x200000) (fun r x => openBreaks r x.cfg.maskMode) = true
      ∧ asks part0 (ctrlType 0x0101 false formStreamOpen) (openPayload 65 0) (fun r u => targets (fun x => openBreaks r x.cfg.maskMode == some 2) r u) = true
      ∧ asks replaying0 (ctrlType 0x0101 false formStreamOpen) (openPayload 64 0x200000) (fun r u => targets (fun x =>
          (openBreaks r x.cfg.maskMode).isNone && x.replaying) r u) = true
      ∧ stagesWell part0 (ctrlType 0x0102 false formStreamStep) (stepPayload 5) (fun _ _ => none) = true
      ∧ stagesWell part0 (ctrlType 0x0103 false formStreamStep) (stepPayload 5) (fun _ _ => none) = true
      ∧ stagesWell part0 (ctrlType 0x0108 false formSeqOpen) (seqPayload 0) (fun r _ => seqOpenBreaks r) = true
      ∧ stagesWell part0 (ctrlType 0x0109 false formSeqPolicy) policyPayload (fun r _ => seqPolicyBreaks r) = true
      ∧ stagesWell part0 (ctrlType 0x010A false formId) (idPayload 1) (fun _ _ => none) = true
      ∧ stagesWell part0 (ctrlType 0x0120 false formDest) (destPayload 1) (fun r _ => destBreaks r) = true
      ∧ stagesWell creelPart (ctrlType 0x0110 false [.any 2, .zero 2, .any 64]) creelPayload creelBreaks = true
      ∧ stagesWell creelPart (ctrlType 0x0111 false [.any 2, .zero 6]) (idPayload 5) (fun r x => if (r.slotOf x).isNone then some 0 else none) = true := by
  decide +kernel
/-- A management request about partition 0. -/
def mg0 (payload : List Byte) : Msg := { mg payload with hdr := { (mg payload).hdr with partition := 0 } }
def asks0 (s : State) (t : MsgType) (payload : List Byte) (f : Staged → State → Bool) : Bool := reaches (listens s) t (mg0 payload) f
def fencePayload (kind n : Nat) : List Byte := [BitVec.ofNat 8 kind, 0] ++ beBytes 2 n ++ List.replicate 4 0
def fenceIs (r : Staged) (f : Nat → Nat → Bool) : Bool := match fenceOf r with | .ok (looms, links, _) => f looms links | .error _ => false
theorem witness_management_staging :
    asks0 (bench (regs []) 0) (secType 0x0410 false false [] false) [] (fun r u => (r.part?.bind u.part?).isSome) = true
      ∧ asks0 (bench (regs []) 0) (mgmtType 0x0501 [] false) [] (fun r u => (r.part?.bind u.part?).isSome) = true
      ∧ asksMgmt (bench (regs []) 0) (mgmtType 0x0320 formFence false) (fencePayload 1 255) (fun r u => fenceIs r (fun a b => !u.fenceBusy a b)) = true
      ∧ asksMgmt (bench (regs []) 0) (mgmtType 0x0320 formFence false) (fencePayload 1 0) (fun r u => fenceIs r u.fenceBusy) = true
      ∧ asksMgmt (bench (regs []) 0) (mgmtType 0x0321 formFence false) (fencePayload 3 7) (fun r _ => fenceIs r (fun _ _ => true)) = true
      ∧ ∀ e ∈ mgmt0.parts, e.2.replaying = false := by decide +kernel
/-- A session's key messages come to partition 0's control endpoint. -/
theorem witness_key_messages : Authenticates (withSession mgmt0) (secType 0x0403 true true [.any 2, .zero 6] true) (ct []) (.control 0) session0 { high := 7, seen := 1 }
    ∧ Authenticates (withSession mgmt0) (secType 0x0404 true true [.any 1, .zero 7] false) (ct []) (.control 0) session0 { high := 7, seen := 1 } :=
  ⟨⟨⟨by decide, by decide, by decide +kernel, by decide⟩, ⟨by decide, by decide, by decide, by decide⟩, ⟨by decide, by decide⟩, by decide, by decide,
    rfl, by decide +kernel⟩,
   ⟨⟨by decide, by decide, by decide +kernel, by decide⟩, ⟨by decide, by decide, by decide, by decide⟩, ⟨by decide, by decide⟩, by decide, by decide,
    rfl, by decide +kernel⟩⟩

/-- A staged request of a type, and how partition x answers it. -/
def req (type : Nat) (payload : List Byte) : Staged :=
  { type := type, msg := ct payload, payload := payload, key := none, pick := 0, mgmt := false }
def applies (x : Part) (r : Staged) (f : Part → Bool) : Bool := match x.apply r with | .ok y => f y | .error _ => false
def refusesAt (x : Part) (r : Staged) (off : Nat) : Bool := match x.apply r with | .ok _ => false | .error f => f == off
def mgReq (type : Nat) (payload : List Byte) : Staged := { req type payload with msg := mg0 payload, mgmt := true }
/-- A live stream at step 4 that awaits no reset. -/
def steady : Stream := { stream0 with resetAt := 0 }
def maskPart : Part := { part0 with cfg := { cfg0 with maskMode := true }, streams := [(2, { stream0 with resetAt := 0 })] }
theorem witness_applied :
    (bench (regs []) 0).waits (req 0x0101 (openPayload 1 0x200000)) 1 = false ∧ (req 0x0101 []).part? = some 0 ∧ part0.swatch = none
      ∧ applies part0 (req 0x0101 (openPayload 1 0x200000)) (fun y => y.swatch.isNone) = true
      ∧ refusesAt part0 (req 0x0101 (openPayload 2 0)) 2 = true ∧ refusesAt (withStreams [(2, stream0)]) (req 0x0101 (openPayload 1 0)) 0 = true
      ∧ refusesAt (withStreams [(2, steady)]) (req 0x0102 (stepPayload 4)) 8 = true
      ∧ applies (withStreams [(2, steady)]) (req 0x0102 (stepPayload 5)) (fun y => (y.stream? 2).any (fun e => e.resetAt == 5)) = true
      ∧ refusesAt (withStreams [(2, steady)]) (req 0x0103 (stepPayload 3)) 8 = true
      ∧ applies (withStreams [(2, steady)]) (req 0x0103 (stepPayload 4)) (fun y => (y.stream? 2).any (fun e => e.final == 4)) = true
      ∧ applies maskPart (req 0x0103 (stepPayload 0)) (fun y => (y.stream? 2).any (fun e => e.releasing)) = true
      ∧ applies part0 (req 0x0108 (seqPayload 0)) (fun y => (y.pool.seq? 1).any (fun e => e.limit == 256)) = true
      ∧ applies { part0 with pool := emptySeq } (req 0x0109 policyPayload) (fun y => (y.pool.seq? 1).any (fun e => e.pin && e.budget == 9)) = true
      ∧ applies { part0 with pool := emptySeq } (req 0x010A (idPayload 1)) (fun y => (y.pool.seq? 1).isNone) = true
      ∧ applies part0 (req 0x0120 (destPayload 2)) (fun y => (Tab.find? y.dests 3).any (fun d => d.interval == 2)) = true
      ∧ applies part0 (req 0x0120 (destPayload 0)) (fun y => (Tab.find? y.dests 3).isNone) = true := by decide +kernel
theorem witness_applied_management :
    (bench (regs []) 0).waits (mgReq 0x0410 []) 1 = false ∧ (mgReq 0x0410 []).part? = some 0 ∧ (bench (regs []) 0).panel? 0 = none
      ∧ (bench (regs []) 0).fenceBusy (2 ^ 255) 0 = false ∧ (mgReq 0x0320 (fencePayload 1 255)).num 0 1 = 1
      ∧ (mgReq 0x0320 (fencePayload 1 255)).num 2 2 = 255
      ∧ (State.reset.store.update? [.write (objectOf 9 0) (fenceBytes (State.reset.store.fenceLooms ||| 2 ^ 255) 0 0)]).isSome = true := by decide +kernel
theorem witness_numbering : SerialsBelow State.reset.store := by intro e h; cases h

theorem test_run_submit : stepsTo (.runSubmit (ct (runPayload 0))) mgmt0 (fun t => partIs t (fun x =>
    (queueOf x 0 0).map (fun e => (e.w0, e.w1, e.w3)) == [(1, 11, 12)] && (x.ctx 0).acct.submitted == 1)) = true := by decide +kernel
theorem test_staged : stepsTo (.streamOpen (ct (openPayload 1 0x200000))) mgmt0 (fun t => lastReply t == [1, 0, 0, 0] && t.net.staged.length == 1) = true
    ∧ stepsTo (.streamOpen (ct (openPayload 65 0))) mgmt0 (fun t => lastReply t == [2, 0, 0, 2] && t.net.staged.length == 0) = true := by decide +kernel
theorem test_fence : stepsTo (.fence (mg (fencePayload 1 0))) mgmt0 (fun t => lastReply t == [7, 0, 0, 0]) = true
    ∧ bit (((listens (bench (regs []) 0)).applyStaged (mgReq 0x0320 (fencePayload 1 255)) 1).store.fenceLooms) 255 = true := by decide +kernel

/-! ### Status messages -/

def sampled : State := { bench (regs []) 0 with tele := { State.reset.tele with sample := some (3, 5, [1, 2]) } }
def acct144 : List Byte := beBytes 8 1 ++ leBytes 8 2 ++ List.replicate 128 0
def storing (items : List StoreItem) (s : State) : State := { s with store := (s.store.update? items).getD s.store }
theorem witness_status :
    asks (withStreams [(2, stream0)]) (ctrlType 0x0104 true formId) (idPayload 2) (fun r u => targets (fun x => decide (r.num 0 2 < x.cfg.streamCount)
        && x.stream? (r.num 0 2) == some stream0) r u) = true
      ∧ asks part0 (ctrlType 0x0104 true formId) (idPayload 3) (fun r u => targets (fun x => decide (r.num 0 2 < x.cfg.streamCount)
        && (x.stream? (r.num 0 2)).isNone) r u) = true
      ∧ asks part0 (ctrlType 0x0104 true formId) (idPayload 4) (fun r u => targets (fun x => decide (x.cfg.streamCount ≤ r.num 0 2)) r u) = true
      ∧ asksMgmt State.reset (ctrlType 0x0112 true [.any 2, .zero 6]) (idPayload 1023) (fun r _ => decide (r.num 0 2 < 1024) && r.mgmt) = true
      ∧ asksMgmt State.reset (ctrlType 0x0112 true [.any 2, .zero 6]) (idPayload 1024) (fun r _ => decide (1024 ≤ r.num 0 2)) = true
      ∧ asks part0 (ctrlType 0x0112 true [.any 2, .zero 6]) (idPayload 5) (fun r u => !r.mgmt && (u.slot 5).part != r.part?) = true
      ∧ asksMgmt sampled (mgmtType 0x0330 [] false) [] (fun _ u => u.tele.sample == some (3, 5, [1, 2])) = true
      ∧ asksMgmt State.reset (mgmtType 0x0330 [] false) [] (fun _ u => u.tele.sample.isNone) = true
      ∧ asksMgmt (storing [.write (objectOf 0x0A 3) acct144] State.reset) (mgmtType 0x0331 [.any 4, .zero 4] false) (beBytes 4 3 ++ List.replicate 4 0)
          (fun r u => u.store.content (objectOf 0x0A (r.num 0 4)) == some acct144 && acct144.length == 144) = true
      ∧ asksMgmt State.reset (mgmtType 0x0331 [.any 4, .zero 4] false) (beBytes 4 0x1000000 ++ List.replicate 4 0) (fun r _ => decide (2 ^ 24 ≤ r.num 0 4)) = true
      ∧ asksMgmt { State.reset with sec := { State.reset.sec with identity := true } } (secType 0x0400 true false [] false) [] (fun _ u => u.sec.identity) = true
      ∧ asksMgmt State.reset (secType 0x0400 true false [] false) [] (fun _ u => !u.sec.identity) = true := by decide +kernel
theorem test_status : stepsTo (.telemetryRead (mg [])) (listens sampled) (fun t => (t.net.tx.getLast?.map (fun (k : Packet) => k.bytes.drop 40))
      == some (beBytes 8 3 ++ beBytes 8 5 ++ [1, 2])) = true
    ∧ stepsTo (.secIdentity (mg [])) (listens State.reset) (fun t => lastReply t == [7, 0, 0, 0]) = true := by decide +kernel

/-! ### Mode changes, transfers, drafts, starts, firmware (03, 02, 20) -/

def at50 (s : State) : State := { (s.setReg .pickNow 50) with pick := { s.pick with formed := true, everFormed := true } }
def modePayload (p kind value : Nat) : List Byte := beBytes 8 p ++ beBytes 2 kind ++ List.replicate 6 0 ++ beBytes 8 value
def modeType : MsgType := mgmtType 0x0210 [.count 8, .any 2, .zero 6, .any 8] false
/-- A change of the power cap to 2,000 W is in hand for pick p. -/
def cap2000 (p : Nat) (answered : List (BitVec 16)) : Change := { kind := 1, value := 2000, pick := BitVec.ofNat 64 p, answered := answered, toApply := [] }
def inHand (c : Change) (s : State) : State :=
  let s := at50 s
  (s.setFld .pickMode Fl.pickMode_PHASE (if c.toApply.isEmpty then 1 else 2)).setReg .pickModePick c.pick |> fun t => { t with pick := { t.pick with change := some c } }
/-- Every loom is fenced: the units of the mills and of the beam die take part. -/
def fenced : State := storing [.write (objectOf 9 0) (fenceBytes (2 ^ 256 - 1) 0 0)] State.reset
def everyone (s : State) : List (BitVec 16) := s.participants.map (BitVec.ofNat 16)
def applying : Change := { cap2000 50 [] with toApply := [BitVec.ofNat 16 (loomUnit 0 1), BitVec.ofNat 16 (loomUnit 1 1)] }

theorem witness_mode_announce :
    asksMgmt (at50 State.reset) modeType (modePayload 52 1 1500) (fun r u => decide (u.now.toNat + 2 ≤ r.num 0 8) && u.pick.formed
        && modeOk (r.num 8 2) (r.num 16 8) && u.fld .pickMode Fl.pickMode_PHASE == 0) = true
      ∧ asksMgmt (at50 State.reset) modeType (modePayload 51 1 4200) (fun r u => decide (r.num 0 8 < u.now.toNat + 2) && modeOk 1 (r.num 16 8)) = true
      ∧ asksMgmt (inHand (cap2000 60 []) State.reset) modeType (modePayload 52 4 63) (fun r u => u.fld .pickMode Fl.pickMode_PHASE != 0 && modeOk 4 (r.num 16 8)) = true
      ∧ asksMgmt State.reset modeType (modePayload 52 5 0) (fun r u => r.num 8 2 == 5 && !u.pick.formed) = true
      ∧ asksMgmt State.reset modeType (modePayload 52 3 2) (fun r _ => !modeOk (r.num 8 2) (r.num 16 8)) = true := by decide +kernel
theorem witness_mode_change :
    (inHand (cap2000 51 []) State.reset).canAnswer (cap2000 51 []) (beamUnit 0x20) = true ∧ (inHand (cap2000 51 []) State.reset).now.toNat < 51
      ∧ (inHand (cap2000 51 []) State.reset).fld .pickMode Fl.pickMode_PHASE = 1 ∧ (inHand (cap2000 50 []) State.reset).now.toNat = 50
      ∧ silentUnits (inHand (cap2000 50 (everyone fenced)) fenced) (cap2000 50 (everyone fenced)) = []
      ∧ silentUnits (inHand (cap2000 50 []) State.reset) (cap2000 50 []) ≠ []
      ∧ BitVec.ofNat 16 (loomUnit 0 1) ∈ applying.toApply ∧ ((inHand applying State.reset).loom (unitLoom (loomUnit 0 1))).busy = false := by decide +kernel
theorem test_mode_announce : stepsTo (.modeAnnounce (mg (modePayload 52 1 1500))) (listens (at50 State.reset)) (fun t =>
    t.fld .pickMode Fl.pickMode_PHASE == 1 && t.pick.change == some { cap2000 52 [] with value := 1500 } && lastReply t == [0, 0, 0, 0]) = true := by decide +kernel
/-- All of them have answered: it is committed; with one silent it is cancelled. -/
theorem test_mode_decide :
    stepsTo .modeChangeDecide (inHand (cap2000 50 (everyone fenced)) fenced) (fun t => t.tele.cap == 2000
        && t.fld .pickMode Fl.pickMode_GENERATION == 1 && t.fld .pickMode Fl.pickMode_LAST_OUTCOME == 1) = true
      ∧ stepsTo .modeChangeDecide (inHand (cap2000 50 ((everyone fenced).drop 1)) fenced) (fun t => t.tele.cap == State.reset.tele.cap
        && t.fld .pickMode Fl.pickMode_LAST_OUTCOME == 2 && t.fld .pickMode Fl.pickMode_NOT_ANSWERED == 1
        && t.safety.flight.map Record.code == [0x0C06]) = true := by decide +kernel
theorem test_mode_ack_apply :
    stepsTo (.modeChangeAck (BitVec.ofNat 16 (beamUnit 0x20))) (inHand (cap2000 51 []) State.reset) (fun t =>
        (t.pick.change.map Change.answered) == some [BitVec.ofNat 16 (beamUnit 0x20)]) = true
      ∧ stepsTo (.modeChangeApply (BitVec.ofNat 16 (loomUnit 0 1))) (inHand applying State.reset) (fun t =>
        (t.pick.change.map Change.toApply) == some [BitVec.ofNat 16 (loomUnit 1 1)]) = true := by decide +kernel

/-! Transfers. -/

def beginPayload (n : Nat) : List Byte := beBytes 4 n ++ List.replicate 4 0
def dataPayload (off : Nat) (bs : List Byte) : List Byte := beBytes 4 off ++ beBytes 4 bs.length ++ bs
def transfer (total : Nat) (units : Tab Bool) : Transfer := { origin := 0, total := total, units := units, bytes := [] }
def sending (t : Option Transfer) : State :=
  { bench (regs []) 0 with net := { Net.reset with transfer := t }, store := { StoreUnit.reset with transfer := t } }
def other (t : Transfer) : Transfer := { t with origin := 3 }
theorem witness_transfers :
    asksMgmt (sending none) (mgmtType 0x0200 formBegin false) (beginPayload (2 ^ 28)) (fun r u => u.draftPhase && r.num 0 4 == 2 ^ 28
        && u.net.transfer.isNone) = true
      ∧ asksMgmt (sending (some (other (transfer 9 [])))) (mgmtType 0x0200 formBegin false) (beginPayload 9) (fun r u => u.draftPhase
        && u.net.transfer.any (fun t => t.origin != hdrOrigin r.msg.hdr)) = true
      ∧ asksMgmt (sending none) (mgmtType 0x0200 formBegin false) (beginPayload (2 ^ 28 + 1)) (fun r _ => decide (2 ^ 28 < r.num 0 4)) = true
      ∧ reaches ((listens (sending none)).setFld .moduleState Fl.moduleState_PHASE 2) (mgmtType 0x0200 formBegin false) (mg (beginPayload 9)) (fun _ u => !u.draftPhase) = true
      ∧ asksMgmt (sending none) (mgmtType 0x0300 formBegin false) (beginPayload 9) (fun _ u => u.store.running == some (0, 1, true, 0)) = true
      ∧ reaches { listens (sending none) with store := { StoreUnit.reset with running := some (0, 1, false, 1) } } (mgmtType 0x0300 formBegin false) (mg (beginPayload 9))
          (fun _ u => u.store.running == some (0, 1, false, 1)) = true
      ∧ asksMgmt (sending (some (transfer 9 []))) (mgmtType 0x0201 formData true) (dataPayload 0 (List.replicate 9 1)) (fun r u =>
          u.net.transfer.any (fun t => t.origin == hdrOrigin r.msg.hdr && r.num 0 4 + r.num 4 4 == t.total && r.num 0 4 % 1024 == 0)
            && r.payload.length == 8 + r.num 4 4) = true
      ∧ asksMgmt (sending (some (transfer 9 []))) (mgmtType 0x0301 formData true) (dataPayload 1 [1]) (fun r u =>
          u.store.transfer.isSome && r.num 0 4 % 1024 != 0) = true
      ∧ asksMgmt (sending (some (transfer 9 []))) (mgmtType 0x0301 formData true) (dataPayload 0 (List.replicate 10 1)) (fun r u =>
          u.store.transfer.any (fun t => decide (r.num 0 4 ≤ t.total) && decide (t.total < r.num 0 4 + r.num 4 4))) = true
      ∧ asksMgmt (sending none) (mgmtType 0x0201 formData true) (dataPayload 0 []) (fun _ u => u.net.transfer.isNone && u.store.transfer.isNone) = true := by
  decide +kernel
theorem witness_draft_end :
    asksMgmt (sending (some (transfer 1024 [(0, true)]))) (mgmtType 0x0202 [] false) [] (fun r u => u.draft.loading.isNone
        && u.net.transfer.any (fun t => t.origin == hdrOrigin r.msg.hdr)) = true
      ∧ asksMgmt (sending (some (transfer 1025 [(0, true)]))) (mgmtType 0x0202 [] false) [] (fun _ u =>
        u.net.transfer.any (fun t => decide (1024 * 1 < t.total) && !Tab.get t.units 1 false)) = true
      ∧ asksMgmt (sending (some (transfer 9 []))) (mgmtType 0x0203 [] false) [] (fun r u => u.net.transfer.any (fun t => t.origin == hdrOrigin r.msg.hdr)) = true
      ∧ asksMgmt (sending (some (other (transfer 9 [])))) (mgmtType 0x0203 [] false) [] (fun r u => u.net.transfer.any (fun t => t.origin != hdrOrigin r.msg.hdr)) = true := by
  decide +kernel
/-- Every unit of a transfer of 1,024 bytes has come. -/
theorem witness_complete (k : Nat) (h : 1024 * k < 1024) : Tab.get (transfer 1024 [(0, true)]).units k false = true := by
  have : k = 0 := by omega
  subst this; decide
theorem test_transfer :
    stepsTo (.draftBegin (mg (beginPayload 9))) (listens (sending none)) (fun t => t.net.transfer == some (transfer 9 [])) = true
      ∧ stepsTo (.draftData (mg (dataPayload 0 [7, 0, 5]))) (listens (sending (some (transfer 3 [])))) (fun t =>
          t.net.transfer == some { transfer 3 [(0, true)] with bytes := [(0, 7), (2, 5)] } && lastReply t == [0, 0, 0, 0]) = true := by decide +kernel
theorem test_draft_end :
    stepsTo (.draftEnd (mg [])) (listens (sending (some { transfer 3 [(0, true)] with bytes := [(0, 7), (2, 5)] }))) (fun t =>
        (t.draft.loading.map Loading.bytes) == some [7, 0, 5] && lastReply t == [1, 0, 0, 0]) = true
      ∧ stepsTo (.draftAbort (mg [])) (listens (sending (some (transfer 9 [])))) (fun t => t.net.transfer == none) = true := by decide +kernel

/-! Drafts. A draft's header has its kind at 6, its target at 7 and its pick at 0x18 (02). -/

def draftBytes (kind p pick : Nat) : List Byte := List.replicate 6 0 ++ [BitVec.ofNat 8 kind, BitVec.ofNat 8 p] ++ List.replicate 16 0 ++ leBytes 8 pick ++ List.replicate 64 0
def loading (kind pick : Nat) : Loading := { bytes := draftBytes kind 0 pick, pick := 48, request := none }
def judging (l : Loading) : State := { at50 (bench (regs []) 0) with draft := { State.reset.draft with loading := some l }, sec := { State.reset.sec with entropy := 1 } }
def newCfg : PartCfg := { cfg0 with seed := 9, generation := 2 }
def panel0 (pick : Nat) (replaced : Bool) : Panel := { part := 0, effective := BitVec.ofNat 64 pick, cfg := newCfg, replaced := replaced }
def pendingPanel (k : Panel) (x : Part) : State := { at50 (withPart x (bench { Seq.zero with run := .ended } 0)) with draft := { State.reset.draft with panels := [k] } }
def stopping0 : Part := { part0 with stopping := some .panel }
theorem witness_drafts :
    (judging (loading 2 50)).panelLate (loading 2 50) = true ∧ (judging (loading 2 51)).panelLate (loading 2 51) = false
      ∧ draftPanel (loading 2 51).bytes = true ∧ draftPanel (loading 1 0).bytes = false ∧ draftTarget (loading 2 50).bytes = 0
      ∧ (judging (loading 1 0)).panelLate (loading 1 0) = false ∧ (judging (loading 1 0)).drbgReady = true
      ∧ (pendingPanel (panel0 51 false) part0).panel? 0 = some (panel0 51 false) ∧ (panel0 51 false).effective = (pendingPanel (panel0 51 false) part0).now + 1
      ∧ (pendingPanel (panel0 51 false) part0).panelBroken (panel0 51 false) = false
      ∧ (pendingPanel (panel0 51 false) part0).panelBroken { panel0 51 false with cfg := { cfg0 with credits := [{ ctx := 0, link := 0, credits := 4, tag := 0 }] } }
          = true := by decide +kernel
/-- A draft of zeros fails at the loader's first step; one in hand at its boundary is refused with 0x0D1B. -/
theorem test_draft_verdict :
    stepsTo .draftLoaderVerdict (judging (loading 1 0)) (fun t => t.draft.loading.isNone && t.parts.length == 1
        && t.safety.flight.map (fun r => bits r.code.toNat 8 8) == [0x0D]) = true
      ∧ stepsTo .draftLoaderVerdict (judging (loading 2 50)) (fun t => t.safety.flight.map Record.code == [0x0D1B] && t.parts.length == 1) = true := by decide +kernel
theorem test_panel_recheck : stepsTo (.panelRecheck 0) (storing [.write (objectOf 9 0) (fenceBytes 1 0 0)] (pendingPanel (panel0 51 false) part0)) (fun t =>
    t.draft.panels == [] && t.safety.flight.map Record.code == [0x0D1D]) = true := by decide +kernel

/-- Loaded, to start at pick 50; stopped for a panel draft; replaced. -/
def loaded50 : State := at50 (withPart { part0 with start := none, due := some 50 } (bench Seq.zero 0))
theorem witness_start :
    (loaded50.part? 0).any (fun x => x.start.isNone && x.due == some 50 && x.stopping.isNone) = true ∧ loaded50.safety.moduleSafe = false
      ∧ loaded50.safety.armings.find? 0 = none ∧ (cfg0.treads.filter (fun e => e.ctx == 0 && e.loom == 0)) = [tread0]
      ∧ (pendingPanel (panel0 50 false) stopping0).panel? 0 = some (panel0 50 false) ∧ (pendingPanel (panel0 50 false) stopping0).stoppedAll stopping0 = true
      ∧ (pendingPanel (panel0 49 true) stopping0).panel? 0 = some (panel0 49 true) ∧ stopping0.start.isSome = true
      ∧ (panel0 49 true).effective.toNat < (pendingPanel (panel0 49 true) stopping0).now.toNat
      ∧ ({ loaded50 with safety := { loaded50.safety with moduleSafe := true } } : State).safety.moduleSafe = true := by decide +kernel
theorem test_start :
    stepsTo (.partitionStart 0) loaded50 (fun t => partIs t (fun x => x.start == some 50 && x.entry == .ctx 0) && (t.loom 0).part == some 0
        && (t.seq at0).run == .notStarted) = true
      ∧ stepsTo (.panelReplace 0) (pendingPanel (panel0 50 false) stopping0) (fun t => (t.draft.panels.map Panel.replaced) == [true]
        && (t.loom 0).store == []) = true
      ∧ stepsTo (.partitionStart 0) (pendingPanel (panel0 49 true) stopping0) (fun t => partIs t (fun x => x.cfg.seed == 9 && x.start == some 50)) = true := by
  decide +kernel

/-! Firmware. -/

def imaged (items : List StoreItem) (run : Option (Nat × Nat × Bool × Nat)) : State :=
  let s := listens (storing items (sending (some (transfer 1 [(0, true)]))))
  { s with store := { s.store with running := run } }
def image0 : List Byte := List.replicate 64 7
theorem witness_firmware :
    reaches (imaged [] none) (mgmtType 0x0302 [] false) (mg []) (fun _ _ => true) = false
      ∧ reaches (imaged [] (some (1, 3, true, 0))) (mgmtType 0x0302 [] false) (mg []) (fun r u => endTransfer u.store.transfer r == some [0]
          && (u.store.contentTxn (imageObject 0)).isNone && (u.store.update? [.write (imageObject 0) [0]]).isSome) = true
      ∧ reaches (listens (sending none)) (mgmtType 0x0302 [] false) (mg []) (fun r u => (endTransfer u.store.transfer r).isNone) = true
      ∧ reaches (imaged [.write (imageObject 0) image0] (some (0, 3, false, 2))) (mgmtType 0x0304 [] false) (mg []) (fun _ u =>
          (u.store.contentTxn (imageObject 1)).isNone && (u.store.update? [.confirm (imageObject 0) (u.store.imageNote 0)]).isSome
            && decide (u.fuses.count < 3)) = true
      ∧ asksMgmt State.reset (mgmtType 0x0303 [] false) [] (fun _ u => u.net.transfer.isNone && u.store.transfer.isNone && u.draft.panels.isEmpty
          && u.fld .pickMode Fl.pickMode_PHASE == 0 && u.store.images.isEmpty) = true
      ∧ asksMgmt (sending (some (transfer 1 []))) (mgmtType 0x0303 [] false) [] (fun _ u => u.net.transfer.isSome) = true
      ∧ asksMgmt (storing [.write (imageObject 0) image0, .confirm (imageObject 0) []] State.reset) (mgmtType 0x0303 [] false) [] (fun _ u =>
          u.store.images == [0] && u.store.confirmed 0 && u.store.running.isSome) = true
      ∧ State.reset.store.running = none := by decide +kernel
theorem test_fw_confirm : stepsTo (.fwConfirm (mg [])) (imaged [.write (imageObject 0) image0] (some (0, 3, false, 2))) (fun t =>
    t.store.running == some (0, 3, true, 2) && t.fuses.count == 3 && t.store.confirmed 0) = true := by decide +kernel
theorem test_fw_restart : stepsTo (.fwRestart (mg [])) (listens State.reset) (fun t => t.store.running.isNone
    && t.fld .moduleState Fl.moduleState_PHASE == 6 && t.fld .moduleState Fl.moduleState_CAUSE == 3) = true := by decide +kernel

/-! ### The store and the security controller (20, 18) -/

def slotPayload (i : Nat) : List Byte := BitVec.ofNat 8 i :: List.replicate 7 0
def savedPanel : State := storing [.write (standby 7) [1, 2]] (sending (some (transfer 1 [(0, true)])))
def enrolled : State := storing [.write (objectOf 8 1) (List.replicate 32 9)] State.reset
def enrolPayload : List Byte := slotPayload 0 ++ List.replicate 32 9
theorem witness_store :
    SerialsBelow savedPanel.store ∧ SerialsBelow enrolled.store
      ∧ asksMgmt savedPanel (mgmtType 0x0310 formSlot false) (slotPayload 7) (fun r u => decide (r.num 0 1 < 8) && endTransfer u.net.transfer r == some [0]) = true
      ∧ asksMgmt State.reset (mgmtType 0x0318 [] false) [] (fun _ u => (u.store.update? [.write (objectOf 7 0) (List.replicate 24 0)]).isSome) = true
      ∧ asksMgmt State.reset (secType 0x0420 false false [.any 1, .zero 7, .any 32] false) enrolPayload (fun r _ => decide (r.num 0 1 < 8)) = true
      ∧ asksMgmt savedPanel (mgmtType 0x0312 formSlot false) (slotPayload 7) (fun r u => (u.store.contentTxn (standby (r.num 0 1))).isSome
          && (u.store.update? [.delete (standby (r.num 0 1))]).isSome) = true
      ∧ asksMgmt savedPanel (mgmtType 0x0312 formSlot false) (slotPayload 0) (fun r u => (u.store.contentTxn (standby (r.num 0 1))).isNone) = true
      ∧ asksMgmt enrolled (secType 0x0421 false false [.any 1, .zero 7] false) (slotPayload 0) (fun r u =>
          (u.store.contentTxn (objectOf 8 (1 + r.num 0 1))).isSome) = true
      ∧ asksMgmt savedPanel (mgmtType 0x0311 formSlot false) (slotPayload 7) (fun r u => u.store.content (standby (r.num 0 1)) == some [1, 2] && u.draftPhase
          && u.draft.loading.isNone) = true
      ∧ asksMgmt savedPanel (mgmtType 0x0311 formSlot false) (slotPayload 8) (fun r _ => decide (8 ≤ r.num 0 1)) = true
      ∧ asksMgmt State.reset (mgmtType 0x0328 [] false) [] (fun _ _ => true) = true := by
  refine ⟨?_, ?_, ?_⟩
  · unfold SerialsBelow; decide +kernel
  · unfold SerialsBelow; decide +kernel
  · decide +kernel
/-- A store whose oldest segment, 0, holds nothing still wanted, in a window of 1 of 2 picks at pick 50. -/
def journal (kind seg txn : Nat) (o : BitVec 32) : JRec := { kind := kind, copy := false, serial := txn, txn := txn, object := o, payload := [], segment := seg }
def compactBench (pick : Nat) : State :=
  let s := { at50 State.reset with store := { StoreUnit.reset with
    records := [journal 1 0 1 (standby 1), journal 2 0 1 (standby 1), journal 1 1 3 (standby 1), journal 2 1 3 (standby 1)], nextSerial := 5, head := 1, wanted := true } }
  (((s.setFld .pickStatus Fl.pickStatus_STATE 2).setFld .storeCompact Fl.storeCompact_PERIOD 2).setFld .storeCompact Fl.storeCompact_LENGTH 1).setReg .pickNow (BitVec.ofNat 64 pick)
theorem witness_compaction :
    (compactBench 51).compacting = false ∧ (compactBench 50).compacting = true
      ∧ (∀ e ∈ (compactBench 50).store.records.take 2, e.segment = 0) ∧ (∀ e ∈ (compactBench 50).store.records.drop 2, e.segment ≠ 0)
      ∧ (∀ e ∈ (compactBench 50).store.records, e.segment = 0 → e.kind = 1 → (compactBench 50).store.contentTxn e.object ≠ some e.txn)
      ∧ (compactBench 51).store.passDue = true ∧ (compactBench 51).pick.formed = true ∧ 0 < (compactBench 51).now.toNat
      ∧ (compactBench 51).windowOpen 50 = true ∧ (compactBench 51).windowOpen 51 = false := by decide +kernel
theorem test_compaction :
    stepsTo .compactionPass (compactBench 50) (fun t => t.store.records.length == 2 && !t.store.wanted) = true
      ∧ stepsTo .compactionWindowEnd (compactBench 51) (fun t => t.safety.flight.map Record.code == [0x0B06]) = true := by decide +kernel
theorem test_net_save : stepsTo (.netSave (mg [])) (listens State.reset) (fun t => (t.store.content (objectOf 7 0)).map List.length == some 24) = true := by decide +kernel
theorem test_signers :
    stepsTo (.signerEnrol (mg enrolPayload)) (listens State.reset) (fun t => t.store.content (objectOf 8 1) == some (List.replicate 32 9)) = true
      ∧ stepsTo (.signerRemove (mg (slotPayload 0))) (listens enrolled) (fun t => t.store.content (objectOf 8 1) == none) = true := by decide +kernel
theorem test_standby :
    stepsTo (.draftErase (mg (slotPayload 7))) (listens savedPanel) (fun t => t.store.content (standby 7) == none) = true
      ∧ stepsTo (.draftStandbyLoad (mg (slotPayload 7))) (listens savedPanel) (fun t => (t.draft.loading.map Loading.bytes) == some [1, 2]) = true := by decide +kernel

/-- A machine with an identity and an attestation key, whose entropy source is in a state. -/
def secured (entropy : Nat) (f : Sec → Sec) (s : State) : State :=
  { s with sec := f { s.sec with entropy := entropy, identity := true, attestation := some 4 } }
def kem0 : PendingKem := { secret := 5, nonce := List.replicate 32 1, quote := [] }
def quoteType : MsgType := secType 0x0401 true false [.any 32] false
def sessionType : MsgType := secType 0x0402 true false [.any 32, .any 1568, .any 32] false
def sessionPayload (b : Byte) : List Byte := List.replicate 32 b ++ List.replicate 1600 0
def keyIs (u : State) (r : Staged) (k : Nat) : Bool := match u.secKey r with | .ok j => j == k | .error _ => false
theorem witness_quotes :
    asksMgmt (secured 1 id State.reset) quoteType (List.replicate 32 1) (fun r u => keyIs u r 16 && u.sec.attestation == some 4 && u.sec.entropy == 1) = true
      ∧ reaches (secured 3 id mgmt0) quoteType (ct (List.replicate 32 1)) (fun r u => keyIs u r 0 && u.sec.entropy == 3) = true
      ∧ asksMgmt (secured 0 id State.reset) quoteType (List.replicate 32 1) (fun _ u => u.sec.entropy == 0) = true
      ∧ asksMgmt (secured 2 id State.reset) quoteType (List.replicate 32 1) (fun _ u => u.sec.entropy == 2) = true
      ∧ reaches (secured 1 id (withSession mgmt0)) sessionType (ct (sessionPayload 1)) (fun r u => keyIs u r 0 && (u.sec.sessions.find? 0).isSome) = true
      ∧ reaches (secured 1 id mgmt0) sessionType (ct (sessionPayload 1)) (fun r u => keyIs u r 0 && (u.sec.pendings.find? 0).isNone) = true
      ∧ reaches (secured 1 (fun k => { k with pendings := [(0, kem0)] }) mgmt0) sessionType (ct (sessionPayload 1)) (fun r u => keyIs u r 0
          && u.sec.pendings.find? 0 == some kem0 && slice r.payload 0 32 == kem0.nonce) = true
      ∧ reaches (secured 1 (fun k => { k with pendings := [(0, kem0)] }) mgmt0) sessionType (ct (sessionPayload 2)) (fun r _ => slice r.payload 0 32 != kem0.nonce)
          = true := by decide +kernel
/-- A nonce that is not the quote's uses the pending pair up. -/
theorem test_session_open : stepsTo (.secSessionOpen (ct (sessionPayload 2))) (secured 1 (fun k => { k with pendings := [(0, kem0)] }) mgmt0) (fun t =>
    t.sec.pendings.find? 0 == none && t.sec.sessions == [] && lastReply t == [2, 0, 0, 0]) = true := by decide +kernel
theorem test_quote_waits : stepsTo (.secQuote (mg (List.replicate 32 1))) (listens (secured 2 id State.reset)) (fun t =>
    t.net.waiting.map (fun e => e.1) == [96] && t.net.tx.length == 0) = true := by decide +kernel

/-- One item: the region secret. -/
def keyLoad : Staged := req 0x0403 (beBytes 2 1 ++ List.replicate 6 0 ++ [1] ++ List.replicate 63 8)
def keyClose : Staged := req 0x0404 (List.replicate 8 0)
def tokenPayload (scopes : Nat) : List Byte := beBytes 4 0x44444247 ++ beBytes 2 1 ++ beBytes 2 scopes ++ List.replicate 7912 0
def tokenType : MsgType := secType 0x0431 false false formToken false
theorem witness_keys :
    (withSession (bench (regs []) 0)).waits keyLoad 1 = false ∧ (withSession (bench (regs []) 0)).sec.sessions.has 0 = true
      ∧ (withSession (bench (regs []) 0)).sec.region.find? 0 = none ∧ keyLoad.num 0 2 = 1 ∧ itemKind (keyItem keyLoad.payload 0) = 1
      ∧ (withSession (bench (regs []) 0)).protectedSlotOpen 0 part0 = false ∧ keyClose.num 0 1 = 0
      ∧ asksMgmt (bench (regs []) 0) (secType 0x0411 false false [] false) [] (fun _ u => !u.parts.isEmpty) = true
      ∧ asksMgmt (secured 1 id enrolled) (secType 0x0411 false false [] false) [] (fun _ u => u.parts.isEmpty && u.sec.entropy == 1
          && (u.store.update? [.delete (objectOf 8 1)]).isSome) = true
      ∧ asksMgmt (secured 1 id State.reset) (secType 0x0430 false false [] false) [] (fun _ u => u.sec.entropy == 1) = true
      ∧ asksMgmt (secured 3 id State.reset) (secType 0x0430 false false [] false) [] (fun _ u => u.sec.entropy == 3) = true
      ∧ asksMgmt (secured 2 id State.reset) (secType 0x0430 false false [] false) [] (fun _ u => u.sec.entropy == 2) = true
      ∧ asksMgmt (secured 1 id State.reset) tokenType (tokenPayload 7) (fun r u => u.parts.isEmpty && (tokenBreaks r).isNone) = true
      ∧ asksMgmt (secured 1 id (bench (regs []) 0)) tokenType (tokenPayload 8) (fun r u => !u.parts.isEmpty && tokenBreaks r == some 6) = true
      ∧ (secured 2 (fun k => { k with restarts := 1 }) State.reset).sec.restarts < 2 ∧ 2 ≤ (secured 2 (fun k => { k with restarts := 2 }) State.reset).sec.restarts
      ∧ (secured 2 (fun k => { k with restarts := 2 }) State.reset).sec.entropy = 2 := by decide +kernel
theorem test_key_load :
    (((withSession (bench (regs []) 0)).applyStaged keyLoad 1).sec.region.find? 0) = some (BitVec.ofNat 256 (beNat (List.replicate 32 8)))
      ∧ (((withSession (bench (regs []) 0)).applyStaged keyClose 1).sec.sessions) = [] := by decide +kernel
theorem test_entropy :
    stepsTo .entropyHealthFailure (secured 2 (fun k => { k with restarts := 2 }) State.reset) (fun t => t.sec.entropy == 3
        && t.safety.flight.map Record.code == [0x0802]) = true
      ∧ stepsTo .entropyRestartComplete (secured 2 id State.reset) (fun t => t.sec.entropy == 1) = true := by decide +kernel
theorem test_zeroise : stepsTo (.moduleZeroise (mg [])) (listens (secured 1 id enrolled)) (fun t => t.store.content (objectOf 8 1) == none
    && t.safety.flight.map Record.code == [0x080B]) = true := by decide +kernel

/-! ### Stacks and far memory (15) -/

/-- Stack 0 is in a state; its neighbours 1 to 3 are ready. -/
def stacksAt (n : Nat) (f : Memory → Memory) (s : State) : State := { s with mem := f { s.mem with stackState := [(0, n), (1, 2), (2, 2), (3, 2)] } }
def evacValue (op : Nat) : Nat := (Fl.memEvac_OP.set (Fl.memEvac_STACK.set 0 0) op).toNat
def evacs (s : State) (op : Nat) (f : State → Bool) : Bool := wrote s (evacValue op) (.memEvac 0) (fun _ u => f u)
theorem witness_evacuation :
    (Reg.memEvac 0).zeroBits (BitVec.ofNat 64 (evacValue 3)) = true ∧ Fl.memEvac_OP.get (BitVec.ofNat 64 (evacValue 3)) = 3
      ∧ stackOf 0 (Fl.memEvac_STACK.get (BitVec.ofNat 64 (evacValue 1))) = 0
      ∧ evacs (stacksAt 2 id (bench (regs []) 0)) 1 (fun u => u.stack 0 == 2 && u.mem.evac.isNone && u.evacFits 0 && decide (0 < u.granulesOn 0)) = true
      ∧ evacs (stacksAt 2 id State.reset) 1 (fun u => u.stack 0 == 2 && u.evacFits 0 && u.granulesOn 0 == 0) = true
      ∧ evacs (stacksAt 1 id State.reset) 1 (fun u => u.stack 0 == 1) = true
      ∧ evacs (stacksAt 4 id State.reset) 2 (fun u => u.stack 0 == 4 && u.mem.recal.isNone) = true
      ∧ evacs (stacksAt 6 id State.reset) 2 (fun u => u.stack 0 == 6 && u.mem.recal.isNone) = true
      ∧ evacs (stacksAt 5 id State.reset) 2 (fun u => u.stack 0 == 5) = true
      ∧ evacs (stacksAt 4 id State.reset) 3 (fun u => u.stack 0 == 4 && u.mem.evac.isNone && u.mem.recal != some 0) = true
      ∧ evacs (stacksAt 4 (fun m => { m with recal := some 0 }) State.reset) 3 (fun u => u.mem.recal == some 0) = true := by decide +kernel
theorem witness_granules :
    (stacksAt 5 (fun m => { m with evac := some (0, 1) }) State.reset).mem.evac = some (0, 1) ∧ (stacksAt 5 id State.reset).stack 0 = 5
      ∧ (stacksAt 3 (fun m => { m with evac := some (0, 2) }) State.reset).mem.evac = some (0, 2)
      ∧ (stacksAt 4 (fun m => { m with recal := some 0 }) State.reset).mem.recal = some 0 ∧ (stacksAt 2 id State.reset).stack 0 ≠ 6 := by decide
theorem test_evacuate : stepsTo (.memEvacEvacuate 0 (sourceReq (evacValue 1))) (listens (stacksAt 2 id (bench (regs []) 0))) (fun t => t.stack 0 == 3
    && t.mem.evac.any (fun e => e.1 == 0 && decide (0 < e.2))) = true := by decide +kernel
theorem test_recalibrate :
    stepsTo (.memEvacRecalibrate 0 (sourceReq (evacValue 2))) (listens (stacksAt 4 id State.reset)) (fun t => t.mem.recal == some 0) = true
      ∧ stepsTo (.memEvacReturn 0 (sourceReq (evacValue 3))) (listens (stacksAt 2 id State.reset)) (fun t => t.safety.flight.map Record.code == [0x0509]) = true := by
  decide +kernel
theorem test_granule_move :
    stepsTo (.evacuationGranuleMove 0 true) (stacksAt 5 (fun m => { m with evac := some (0, 1) }) State.reset) (fun t => t.stack 0 == 2 && t.mem.evac == none) = true
      ∧ stepsTo (.evacuationGranuleMove 0 false) (stacksAt 3 (fun m => { m with evac := some (0, 2) }) State.reset) (fun t =>
          t.mem.evac == some (0, 1) && t.safety.flight.map Record.code == [0x0501]) = true := by decide +kernel
theorem test_stack_failure :
    stepsTo (.stackFailure 0) (stacksAt 2 id State.reset) (fun t => t.stack 0 == 6 && t.safety.flight.map Record.code == [0x0507]) = true
      ∧ stepsTo (.stackRecalibrationComplete 0 false) (stacksAt 4 (fun m => { m with recal := some 0 }) State.reset) (fun t => t.stack 0 == 6) = true := by decide +kernel

/-- Far ports 0 and 1; partition 0's one far page lies on port 0. -/
def farUp (gib : Nat) : FarPort := { FarPort.reset with state := 2, present := true, capacity := gib, clock := true, perst := true }
def page0 : Page :=
  { ctx := 0, mill := 0, port := 0, staged := none, staging := false, dirty := [], unwritten := false, writing := false, evict := false, flush := false, again := [],
    fails := 0 }
def farBench (a b : FarPort) (g : Page) (f : Memory → Memory) : State :=
  let s := withPart { part0 with cloth := { Cloth.empty with pages := [(1, g)] } } (bench (regs []) 0)
  { s with mem := f { s.mem with far := [(0, a), (1, b)] } }
def farValue (op port : Nat) : Nat := (Fl.farCmd_OP.set (Fl.farCmd_PORT.set 0 port) op).toNat
def farAsk (s : State) (op port : Nat) (f : State → Bool) : Bool := wrote s (farValue op port) .farCmd (fun _ u => f u)
theorem witness_far_commands :
    (Reg.farCmd).zeroBits (BitVec.ofNat 64 (farValue 3 3)) = true ∧ Fl.farCmd_PORT.get (BitVec.ofNat 64 (farValue 1 1)) = 1
      ∧ farAsk (farBench (farUp 16) (farUp 16) page0 id) 1 0 (fun u => u.mem.removal.isNone && u.mem.evac.isNone && !u.mem.flushing
          && (u.farPort 0).state == 2 && decide (0 < u.pagesOn 0) && decide (u.pagesOn 0 ≤ u.freePages 1 + u.freePages 2 + u.freePages 3)) = true
      ∧ farAsk (farBench (farUp 16) (farUp 16) page0 id) 1 1 (fun u => u.pagesOn 1 == 0 && (u.farPort 1).state == 2) = true
      ∧ farAsk (farBench (farUp 16) FarPort.reset page0 id) 1 0 (fun u => decide (u.freePages 1 + u.freePages 2 + u.freePages 3 < u.pagesOn 0)) = true
      ∧ farAsk (farBench (farUp 16) FarPort.reset page0 id) 2 1 (fun u => (u.farPort 1).state == 0) = true
      ∧ farAsk (farBench (farUp 16) FarPort.reset page0 id) 2 0 (fun u => (u.farPort 0).state == 2) = true
      ∧ farAsk (farBench (farUp 16) FarPort.reset { page0 with staged := some 0, dirty := [(0, true)] } id) 3 0 (fun u =>
          u.mem.removal.isNone && !u.mem.flushing && (pageOf u 0 1).any (fun g => g.dirty != [])) = true
      ∧ farAsk (farBench (farUp 16) FarPort.reset page0 id) 3 0 (fun u => u.farPages.all (fun e => e.2.2.dirty == [] && !e.2.2.writing && !e.2.2.flush)) = true
      ∧ farAsk (farBench (farUp 16) FarPort.reset page0 (fun m => { m with flushing := true })) 3 0 (fun u => u.mem.flushing) = true := by decide +kernel
theorem witness_far_ports :
    (farBench (farUp 16) (farUp 16) page0 (fun m => { m with removal := some 0 })).mem.removal = some 0
      ∧ (farBench (farUp 16) (farUp 16) page0 id).farPages.find? (fun e => e.2.2.port == 0) = some (0, 1, page0)
      ∧ pageOf (farBench (farUp 16) (farUp 16) page0 id) 0 1 = some page0 ∧ (farBench (farUp 16) (farUp 16) page0 id).nextPort 0 = some 1
      ∧ ({ farUp 0 with state := 1, perst := false } : FarPort).state = 1 ∧ ({ farUp 0 with state := 1 } : FarPort).perst = true
      ∧ (4096 : BitVec 13).toNat ≤ 4096 ∧ 4096 < (4097 : BitVec 13).toNat
      ∧ ((farBench (farUp 16) (farUp 16) page0 id).farPort 0).state = 2 ∧ (farUp 16).present = true ∧ ({ farUp 16 with state := 4 } : FarPort).state = 4
      ∧ FarPort.reset.present = false := by decide +kernel
theorem test_far_command :
    stepsTo (.farCmdMovePagesOff (sourceReq (farValue 1 0))) (listens (farBench (farUp 16) (farUp 16) page0 id)) (fun t => t.mem.removal == some 0
        && (t.farPort 0).state == 3) = true
      ∧ stepsTo (.farCmdBringUp (sourceReq (farValue 2 1))) (listens (farBench (farUp 16) FarPort.reset page0 id)) (fun t => (t.farPort 1).state == 1
        && (t.farPort 1).clock) = true := by decide +kernel
theorem test_far_flush : stepsTo (.farCmdFlush (sourceReq (farValue 3 0)))
    (listens (farBench (farUp 16) FarPort.reset { page0 with staged := some 0, dirty := [(0, true)] } id)) (fun t =>
      t.mem.flushing && (pageOf t 0 1).any (fun g => g.writing && g.flush)) = true := by decide +kernel
theorem test_far_page_move : stepsTo (.farPageMove 0) (farBench { farUp 16 with state := 3 } (farUp 16) page0 (fun m => { m with removal := some 0 })) (fun t =>
    (pageOf t 0 1).any (fun g => g.port == 1) && (t.farPort 0).state == 4) = true := by decide +kernel
theorem test_far_training :
    stepsTo (.perstRelease 1) (farBench (farUp 16) { farUp 0 with state := 1, perst := false } page0 id) (fun t => (t.farPort 1).perst) = true
      ∧ stepsTo (.farPortTrained 1 true 4096) (farBench (farUp 16) { farUp 0 with state := 1 } page0 id) (fun t => (t.farPort 1).state == 2
        && (t.farPort 1).capacity == 4096) = true
      ∧ stepsTo (.farPortTrained 1 true 4097) (farBench (farUp 16) { farUp 0 with state := 1 } page0 id) (fun t => (t.farPort 1).state == 5) = true := by decide +kernel
theorem test_far_lost :
    stepsTo (.farDeviceLost 0) (farBench (farUp 16) (farUp 16) page0 id) (fun t => (t.farPort 0).state == 5 && t.safety.flight.map Record.code == [0x0508]) = true
      ∧ stepsTo (.farDevicePresenceChange 2 true) (farBench (farUp 16) (farUp 16) page0 id) (fun t => (t.farPort 2).present) = true := by decide +kernel

theorem witness_pages :
    (∃ x, (farBench (farUp 16) (farUp 16) page0 id).part? 0 = some x) ∧ ({ page0 with staging := true } : Page).staging = true ∧ page0.staging = false
      ∧ ({ page0 with writing := true, evict := true, again := [(3, true)] } : Page).again ≠ [] ∧ ({ page0 with writing := true, evict := true } : Page).again = []
      ∧ ({ page0 with writing := true, fails := 2 } : Page).fails = 2 ∧ ({ page0 with writing := true, fails := 1 } : Page).fails < 2 := by
  refine ⟨⟨_, rfl⟩, ?_⟩; decide
theorem test_staging : stepsTo (.stagingComplete 0 1) (farBench (farUp 16) (farUp 16) { page0 with staging := true } id) (fun t =>
    (pageOf t 0 1).any (fun g => g.staged == some 0 && !g.staging)) = true := by decide +kernel
theorem test_write_back :
    stepsTo (.writeBackComplete 0 1) (farBench (farUp 16) (farUp 16) { page0 with staged := some 0, writing := true, evict := true } id) (fun t =>
        (pageOf t 0 1).any (fun g => g.staged == none && !g.writing)) = true
      ∧ stepsTo (.writeBackFailure 0 1) (farBench (farUp 16) (farUp 16) { page0 with staged := some 0, writing := true, fails := 2 } id) (fun t =>
        (t.farPort 0).state == 5 && t.safety.flight.map Record.code == [0x0508]) = true := by decide +kernel

/-! ### The Creel (13) -/

def data0 : EndpointCfg := { plane := 2, banks := 3, vlan := 5, addr := { v4 := true, value := 0x0A000004 }, port := 5004, qps := 0 }
def creelOf (format : Nat) : Part := { part0 with cfg := { cfg0 with creel := [{ creel5 with format := format }], endpoints := [data0] } }
/-- Slot 5 open with payload type 96, SSRC 77, endpoint 0, a deadline of 2 picks, a ring of 4,096 bytes of records, and room for 3 samples. -/
def slot5 : Slot :=
  { Slot.reset with
    part := some 0, state := 1, sampleBytes := 8192, sampleSlots := 3,
    context := leBytes 4 30 ++ leBytes 4 77 ++ [96, 0] ++ leBytes 2 2 ++ leBytes 8 0x110000 ++ leBytes 4 8192 ++ List.replicate 8 0 ++ leBytes 4 0x400040
      ++ [0, 0, 0, 4] ++ List.replicate 24 0 }
def creelWith (x : Part) (g : Slot) : State :=
  let s := at50 (withPart x (bench (regs []) 0))
  { s with slots := [(5, g)], net := { s.net with ports := [(0, { Port.reset with link := true })] } }
def creelBench (format : Nat) (g : Slot) : State := creelWith (creelOf format) g
def rtp (seq stamp : Nat) (marker : Bool) : RtpPkt :=
  { port := 0, part := 0, endpoint := 0, version := 2, marker := marker, ptype := 96, seq := BitVec.ofNat 16 seq, stamp := BitVec.ofNat 32 stamp, ssrc := 77,
    payload := [1, 2, 3, 4] }
def piece (seq : Nat) (marker : Bool) : Piece := { seq := seq, marker := marker, bytes := [1, 2, 3, 4], dropped := false }
def frameOf (unit pick : Nat) (pieces : List Piece) (handed : Option Word) : FrameIn :=
  { unit := unit, pick := BitVec.ofNat 64 pick, pieces := pieces, ringEnd := 0, handed := handed, broken := false }

theorem witness_hears (format : Nat) (h : format = 1 ∨ format = 2) :
    Hears (creelBench format slot5) (rtp 65535 9 false) (creelOf format) { creel5 with format := format } := by
  rcases h with rfl | rfl
  · exact ⟨by decide, by decide, rfl, by decide, ⟨data0, rfl, rfl, by decide, by decide⟩, by decide +kernel⟩
  · exact ⟨by decide, by decide, rfl, by decide, ⟨data0, rfl, rfl, by decide, by decide⟩, by decide +kernel⟩
/-- The cases of RTP_PACKET: taken or not, new, duplicate, late, in time at the last pick, paused with the buffer just full, and SRTP. -/
theorem witness_packets :
    (rtp 1 9 false).version = 2 ∧ (rtp 1 9 false).ptype.toNat = slot5.num 0x0C 1 ∧ { rtp 1 9 false with ptype := 97 }.ptype.toNat ≠ slot5.num 0x0C 1
      ∧ srtpFormat 1 = false ∧ srtpFormat 2 = true ∧ before (2 ^ 32) 8 9 = true ∧ before (2 ^ 32) 9 9 = false ∧ before (2 ^ 32) (2 ^ 32 - 1) 0 = true
      ∧ ({ slot5 with state := 2, frames := [frameOf 9 50 [piece 1 false] none] } : Slot).buffered ≤ creel5.jitter
      ∧ ¬ ({ slot5 with frames := [frameOf 9 50 [piece 1 false, piece 2 true] none] } : Slot).buffered ≤ creel5.jitter
      ∧ 48 + slot5.num 0x0E 2 ≤ 50 ∧ ¬ 49 + slot5.num 0x0E 2 ≤ 50
      ∧ srtpIndex [] 7 = some 7 ∧ srtpIndex [65536 + 65535] 0 = some (2 * 65536) ∧ srtpReplayed [200] 72 = true ∧ srtpReplayed [200] 73 = false := by decide
theorem witness_srtp : ({ creelBench 2 slot5 with sec := { State.reset.sec with srtp := [(5, 3, 4)] } } : State).sec.srtp.find? 5 = some (3, 4)
    ∧ (creelBench 2 slot5).sec.srtp.find? 5 = none ∧ slot5.frames = [] ∧ slot5.lastStamp = none := by decide
/-- A frame whose packets wrap the sequence number. -/
theorem witness_complete_frame :
    slot5.firstOf (frameOf 9 50 [piece 65535 false, piece 0 true] none) = some 65535 ∧ piece 0 true ∈ (frameOf 9 50 [piece 65535 false, piece 0 true] none).pieces
      ∧ (∀ q ∈ (frameOf 9 50 [piece 65535 false, piece 0 true] none).pieces, q.marker = true → q = piece 0 true)
      ∧ ([65535, 0] : List Nat).Nodup ∧ slot5.complete (frameOf 9 50 [piece 65535 false, piece 0 true] none) = true := by decide
theorem witness_deadline : ((creelBench 1 { slot5 with frames := [frameOf 9 48 [piece 1 false] none] }).slot 5).state = 1
    ∧ (creelBench 1 slot5).pick.formed = true := by decide
/-- The first and last packet of a frame complete it; a late packet counts; an unsound one too. -/
theorem test_rtp :
    stepsTo (.rtpPacket (rtp 0 9 true)) (creelBench 1 { slot5 with frames := [frameOf 9 50 [piece 65535 false] none] }) (fun t =>
        ((t.slot 5).frames.map (fun f => (f.pieces.length, f.handed))) == [(2, some 50)]) = true
      ∧ stepsTo (.rtpPacket (rtp 2 9 false)) (creelBench 1 { slot5 with frames := [frameOf 9 48 [piece 1 false] none] }) (fun t =>
        t.fld (.creelCount 5) Fl.creelCount_LATE_PKTS == 1) = true
      ∧ stepsTo (.rtpPacket { rtp 2 9 false with version := 1 }) (creelBench 1 slot5) (fun t => t.fld .netCount Fl.netCount_BAD_HEADER == 1) = true := by decide +kernel
theorem test_frame_deadline : stepsTo (.creelFrameDeadline 5) (creelBench 1 { slot5 with frames := [frameOf 9 48 [piece 1 false, piece 4 true] none] }) (fun t =>
    ((t.slot 5).frames.map FrameIn.handed) == [some 50] && t.fld (.creelCount 5) Fl.creelCount_LOST == 2) = true := by decide +kernel
theorem test_rtcp : stepsTo (.rtcpPacket 0) (creelBench 1 slot5) (fun t => t.slots == [(5, slot5)]) = true := by decide +kernel

/-- Decode of frames of packets, and of a ring's record of 4 bytes with UNIT 6. -/
def handed9 : FrameIn := frameOf 9 48 [piece 1 true] (some 50)
/-- PRODUCED of the elementary-stream ring, and RELEASED of the sample ring. -/
def ringPart (produced released : Nat) : Part :=
  { creelOf 3 with cloth := { Cloth.empty with bytes := putBytes (putBytes (putBytes [] 0x110000 (leBytes 8 produced)) 0x111000
      (leBytes 4 4 ++ [1, 0, 0, 0] ++ leBytes 8 6 ++ [1, 2, 3, 4])) 0x120008 (leBytes 8 released) } }
def recordIs (r : RingNext) (unit addr len pos : Nat) : Bool := match r with | .record a b c d => (a, b, c, d) == (unit, addr, len, pos) | _ => false
theorem witness_decode_start :
    CanDecode (creelBench 1 { slot5 with frames := [handed9] }) 5 0 (creelOf 1) { creel5 with format := 1 }
      ∧ CanDecode (creelWith (ringPart 64 0) slot5) 5 0 (ringPart 64 0) creel5 :=
  ⟨⟨by decide +kernel, by decide, by decide, by decide, by decide⟩, ⟨by decide +kernel, by decide, by decide, by decide, by decide⟩⟩
theorem witness_ring :
    recordIs ((creelWith (ringPart 64 0) slot5).ringNext 0 creel5 slot5) 6 0x111010 4 64 = true
      ∧ ((creelWith (ringPart 4097 0) slot5).ringNext 0 creel5 slot5 matches .malformed) = true
      ∧ (ringPart 64 0).cfg.touchesProtected (slot5.num 0x10 8) (slot5.num 0x18 4) = false
      ∧ (creelWith (ringPart 64 0) slot5).anyBad (.cloth 0) 0x111010 4 = false ∧ (creelWith (ringPart 64 0) slot5).anyTagBad (.cloth 0) 0x111010 4 = false
      ∧ ({ slot5 with frames := [handed9] } : Slot).nextFrame = some handed9 ∧ slot5.nextFrame = none := by decide +kernel
/-- A frame in decode, RELEASED at its bounds and beyond them, room and none; a frame whose packets were dropped gives no picture. -/
def dropped9 : FrameIn := { handed9 with pieces := [{ piece 1 true with dropped := true }] }
def fullPart : Part := (ringPart 64 0).setQueue 0 1 [entry5 0, entry5 0]
theorem witness_decode_complete :
    (creelWith (ringPart 64 2) slot5).creelCfg 5 = some (0, ringPart 64 2, creel5) ∧ (ringPart 64 2).safe = none ∧ (ringPart 64 2).swatch = none
      ∧ (creelWith (ringPart 64 2) { slot5 with written := 1 }).releasedNow 0 creel5 { slot5 with written := 1 } = none
      ∧ (creelWith (ringPart 64 2) { slot5 with written := 2 }).releasedNow 0 creel5 { slot5 with written := 2 } = some 2
      ∧ ({ slot5 with written := 4, released := 2 } : Slot).ringFull = false ∧ ({ slot5 with written := 5, released := 2 } : Slot).ringFull = true
      ∧ (ringPart 64 2).creelFull creel5 = false ∧ fullPart.creelFull creel5 = true ∧ dropped9.absent 1 [] = some 7
      ∧ ({ slot5 with state := 2, written := 5 } : Slot).owed = none ∧ ({ slot5 with owed := some 0x0101, state := 3 } : Slot).owed = some 0x0101 := by decide +kernel
theorem test_decode_start : stepsTo (.creelDecodeStart 5) (creelWith (ringPart 4097 0) slot5) (fun t => (t.slot 5).state == 3
    && t.safety.flight.map Record.code == [0x0108] && partIs t (fun x => (queueOf x 0 1).map (fun e => e.w0) == [BitVec.ofNat 64 (5 + 0x8000 * 65536 + 0x0108 * 2 ^ 32)]))
    = true := by decide +kernel
theorem test_decode_complete :
    stepsTo (.creelDecodeComplete 5) (creelBench 1 { slot5 with decoding := some dropped9 }) (fun t => (t.slot 5).decoding == none && (t.slot 5).frame == 1
        && t.safety.flight.map Record.code == [0x0107]
        && partIs t (fun x => (queueOf x 0 1).map (fun e => e.w0) == [BitVec.ofNat 64 (5 + 0x8000 * 65536 + 7 * 2 ^ 32)])) = true
      ∧ stepsTo (.creelDecodeComplete 5) (creelWith fullPart { slot5 with decoding := some dropped9 }) (fun t => (t.slot 5).state == 2) = true := by decide +kernel
theorem test_creel_resume :
    stepsTo (.creelResume 5) (creelWith (ringPart 64 3) { slot5 with state := 2, written := 5 }) (fun t => (t.slot 5).state == 1 && (t.slot 5).released == 3) = true
      ∧ stepsTo (.creelResume 5) (creelBench 1 { slot5 with state := 3, owed := some 0x0101 }) (fun t => (t.slot 5).owed == none && (t.slot 5).frame == 1) = true := by
  decide +kernel

/-! ### RoCE (17 R335 to R338) -/

/-- Queue pair 2 of context 0 on data endpoint 0, with a push ring of 4,096 + 64 bytes; its remote end is 10.0.0.9. -/
def qp2 : Qp :=
  { ctx := 0, endpoint := 0, remote := { v4 := true, value := 0x0A000009 }, remoteQpn := 8, qpn := 7, rkey := 0x55, sendPsn := 100, recvPsn := 200, timeout := 14,
    target := true, sealed_ := false, bankB := false, ring := 0x110000, ringLen := 4160, served := 0, unacked := [], retries := 0, error := false, rate := 1,
    rateExp := 0, cnpSent := none, pushes := 0 }
def roceCfg (prot : Bool) : PartCfg :=
  { cfg0 with endpoints := [{ data0 with qps := 4 }], carves := [carve0, { carve0 with base := 0x200000, prot := prot }] }
def rocePart (q : Qp) : Part := { part0 with cfg := roceCfg true, qps := [(2, q)] }
def roceBench (x : Part) : State :=
  let s := withPart x (bench (regs []) 0)
  { s with net := { s.net with ports := (List.range 8).map (fun i => (i, { Port.reset with link := true })) },
           sec := { s.sec with region := [(0, 1)], sealKeys := [(0, 2)] } }
/-- A push descriptor (R338): 8 bytes at 0x100010 to 0x5000, in a ring whose PRODUCED stands at a position. -/
def pushBytes (op n : Nat) : List Byte := leBytes 4 op ++ leBytes 4 n ++ leBytes 8 0x100010 ++ leBytes 8 0x5000 ++ leBytes 4 9 ++ leBytes 4 0
def ringed (op n produced : Nat) (q : Qp) : Part :=
  { rocePart q with cloth := { Cloth.empty with bytes := putBytes (putBytes (putBytes [] 0x100010 [1, 2, 3]) 0x110000 (leBytes 8 produced)) 0x111000 (pushBytes op n) } }
def unacked (psn : BitVec 24) (ends : Option Nat) (rd : Option (Nat × Nat)) : Unacked := { psn := psn, bytes := [9], ends := ends, read := rd }
def rdma (psn : BitVec 24) (va n : Nat) : RdmaReq :=
  { port := 0, srcMac := 0x99, qpn := 7, psn := psn, rkey := 0x55, va := BitVec.ofNat 64 va, length := BitVec.ofNat 32 n, data := (List.replicate n 6), ce := false }
def portOf (s : State) : Fin 8 := (s.qpPort qp2.bank 2).getD 0

def connectPayload (flags ringLen : Nat) : List Byte :=
  beBytes 2 1 ++ [0, 4] ++ [10, 0, 0, 9] ++ List.replicate 12 0 ++ beBytes 4 8 ++ beBytes 4 200 ++ [14, BitVec.ofNat 8 flags, 0, 0] ++ beBytes 8 0x110000
    ++ beBytes 4 ringLen ++ List.replicate 4 0
def connectType : MsgType := ctrlType 0x0118 false formConnect
/-- In the partition the control endpoint of the tests stands before the data endpoint. -/
def connects (x : Part) (payload : List Byte) (f : Option Nat → Part → Bool) : Bool :=
  asks x connectType (payload.set 2 1) (fun r u => targets (fun y => f (y.cfg.connectBreaks y 0 r) y) r u)
theorem witness_connect :
    connects (rocePart qp2) (connectPayload 1 4160) (fun b y => b.isNone && (y.qp? 1).isNone) = true
      ∧ connects { rocePart qp2 with qps := [(1, qp2)] } (connectPayload 1 4160) (fun b y => b.isNone && (y.qp? 1).isSome) = true
      ∧ connects (rocePart qp2) (connectPayload 1 4127) (fun b _ => b == some 40) = true ∧ connects (rocePart qp2) (connectPayload 8 0) (fun b _ => b == some 29) = true
      ∧ asks (rocePart qp2) (ctrlType 0x0119 false [.any 2, .zero 6]) (idPayload 2) (fun r u => targets (fun y => (y.qp? (r.num 0 2)).isSome) r u) = true
      ∧ asks (rocePart qp2) (ctrlType 0x0119 false [.any 2, .zero 6]) (idPayload 3) (fun r u => targets (fun y => (y.qp? (r.num 0 2)).isNone) r u) = true := by
  decide +kernel
theorem test_connect : stepsTo (.qpClose (ct (idPayload 2))) (listens (withPart (rocePart qp2) (bench (regs []) 0))) (fun t => partIs t (fun x => x.qps == [])) = true
    ∧ stepsTo (.qpConnect (ct ((connectPayload 1 4127).set 2 1))) (listens (withPart (rocePart qp2) (bench (regs []) 0))) (fun t => lastReply t == [2, 0, 0, 40]) = true := by
  decide +kernel

theorem witness_requests (q : Qp) (hq : q = qp2 ∨ q = { qp2 with sealed_ := true } ∨ q = { qp2 with target := false }) :
    ToQp (roceBench (rocePart q)) (rdma 200 0x100000 8) 0 (rocePart q) 2 q { data0 with qps := 4 } (portOf (roceBench (rocePart qp2))) := by
  rcases hq with rfl | rfl | rfl <;>
    exact ⟨⟨rfl, rfl, rfl, rfl, by decide +kernel, by decide +kernel⟩, by decide +kernel, by decide +kernel, by rfl, rfl⟩
def heardAt (q : Qp) (k : RdmaReq) : State := heardQp (roceBench (rocePart q)) k q data0
/-- In order, out of order and repeated at the ends of their ranges; accesses at the end of a carve, beyond it, protected, with a wrong key. -/
theorem witness_accesses :
    ((200 : BitVec 24) - qp2.recvPsn).toNat = 0 ∧ ((201 : BitVec 24) - qp2.recvPsn).toNat ≠ 0 ∧ ((200 + 0x7FFFFF : BitVec 24) - qp2.recvPsn).toNat < 2 ^ 23
      ∧ 2 ^ 23 ≤ ((200 + 0x800000 : BitVec 24) - qp2.recvPsn).toNat
      ∧ (heardAt qp2 (rdma 200 0x13FFF8 8)).accessFault 0 (roceCfg true) qp2 0x55 0x13FFF8 8 = none
      ∧ (heardAt qp2 (rdma 200 0x13FFF9 8)).accessFault 0 (roceCfg true) qp2 0x55 0x13FFF9 8 = some 0x0705
      ∧ (heardAt qp2 (rdma 200 0x100000 8)).accessFault 0 (roceCfg true) qp2 0x56 0x100000 8 = some 0x0705
      ∧ (heardAt qp2 (rdma 200 0x200000 8)).accessFault 0 (roceCfg true) qp2 0x55 0x200000 8 = some 0x0705
      ∧ ({ heardAt qp2 (rdma 200 0x200000 8) with sec := State.reset.sec } : State).accessFault 0 (roceCfg true) qp2 0x55 0x200000 8 = some 0x0806
      ∧ (heardAt qp2 (rdma 200 0x200000 4128)).accessFault 0 (roceCfg true) { qp2 with sealed_ := true } 0x55 0x200000 4128 = none
      ∧ (heardAt qp2 (rdma 200 0x100000 8)).sourceFails 0 0 0x100000 8 = none ∧ (heardAt qp2 (rdma 200 0x200000 8)).sourceFails 0 0 0x200000 4096 = none
      ∧ (heardAt qp2 (rdma 200 0x200000 8)).sec.sealKeys.find? 0 = some 2 ∧ (rdma 200 0x100000 8).data.length = 8 ∧ part0.safe = none
      ∧ ({ part0 with safe := some 1 } : Part).safe.isSome = true := by decide +kernel
theorem witness_failing_source :
    (({ heardAt qp2 (rdma 200 0x100000 8) with parts := [(0, { rocePart qp2 with cloth := { Cloth.empty with bad := [(0x100, true)] } })] } : State)).sourceFails 0 0 0x100000 8
      ≠ none := by decide +kernel
theorem test_rdma_write :
    stepsTo (.rdmaWrite (rdma 200 0x100000 8)) (roceBench (rocePart qp2)) (fun t => t.bytesAt (.cloth 0) 0xFFFFF 10 == [0] ++ List.replicate 8 6 ++ [0]
        && partIs t (fun x => (x.qp? 2).any (fun q => q.recvPsn == 201)) && t.net.tx.map (fun k => k.kind) == [.ack]) = true
      ∧ stepsTo (.rdmaWrite (rdma 202 0x100000 8)) (roceBench (rocePart qp2)) (fun t => t.net.tx.map (fun k => k.kind) == [.nak]
        && t.byteAt (.cloth 0) 0x100000 == 0) = true := by decide +kernel
theorem test_rdma_read : stepsTo (.rdmaRead (rdma 200 0x100010 3)) (roceBench (ringed 0 0 0 qp2)) (fun t =>
    t.net.tx.map (fun (k : Packet) => k.bytes.drop 7) == [[1, 2, 3]]) = true := by decide +kernel

def waitingQp : Qp := { qp2 with unacked := [unacked 100 (some 32) none, unacked 101 (some 64) (some (0x100000, 3))], served := 64, sendPsn := 102 }
theorem witness_qp_up (x : Part) (q : Qp) (h : (x, q) = (ringed 1 3 32 qp2, qp2) ∨ (x, q) = (rocePart waitingQp, waitingQp)
    ∨ (x, q) = (rocePart { qp2 with sealed_ := true }, { qp2 with sealed_ := true })) :
    QpUp (roceBench x) 0 x 2 q { data0 with qps := 4 } (portOf (roceBench (rocePart qp2))) ∧ x.swatch = none := by
  rcases h with h | h | h <;> cases h <;> exact ⟨⟨rfl, rfl, rfl, rfl, by decide +kernel, by decide +kernel⟩, rfl⟩
def pushOf (op n : Nat) : Push := readPush (pushBytes op n)
theorem witness_push :
    (roceBench (ringed 1 3 31 qp2)).word64 0 qp2.ring < qp2.served + 32 ∧ (roceBench (ringed 1 3 32 qp2)).word64 0 qp2.ring = qp2.served + 32
      ∧ qp2.served + 32 ≤ qp2.consumed + (qp2.ringLen - 4096) ∧ (pushOf 1 3).malformed (roceCfg true) qp2 = false ∧ (pushOf 5 3).malformed (roceCfg true) qp2 = false
      ∧ (pushOf 6 3).malformed (roceCfg true) qp2 = true ∧ (pushOf 0 3).malformed (roceCfg true) qp2 = true ∧ (pushOf 1 0).malformed (roceCfg true) qp2 = true
      ∧ (roceCfg true).touchesProtected (pushOf 1 3).local_ (pushOf 1 3).len = false ∧ (pushOf 1 3).op ≠ 5 ∧ (pushOf 5 3).op = 5
      ∧ (roceBench (ringed 1 3 32 qp2)).sourceFails 0 0 (pushOf 1 3).local_ (pushOf 1 3).len = none := by decide +kernel
theorem witness_acks :
    let us := [unacked 100 (some 32) none, unacked 101 (some 64) (some (0x100000, 8))]
    us.filter (fun u => u.read.isSome || !psnUpTo u.psn 99) = us ∧ (us.filter (fun u => u.read.isSome || !psnUpTo u.psn 100)).length < us.length
      ∧ us.find? (fun u => u.read.isSome && u.psn == 101) = some (unacked 101 (some 64) (some (0x100000, 8)))
      ∧ 0x100000 + 8 ≤ qp2.ring + 8 ∧ us ≠ [] ∧ ({ qp2 with retries := 6 } : Qp).retries < 7 ∧ 7 ≤ ({ qp2 with retries := 7 } : Qp).retries ∧ qp2.unacked = [] := by
  decide
theorem test_push : stepsTo (.pushRingPoll 0 2) (roceBench (ringed 1 3 32 qp2)) (fun t => partIs t (fun x => (x.qp? 2).any (fun q =>
      q.served == 32 && q.unacked.length == 1 && q.sendPsn == 101 && q.unacked.all (fun u => u.psn == 100 && u.ends == some 32)))) = true
    ∧ stepsTo (.pushRingPoll 0 2) (roceBench (ringed 6 3 32 qp2)) (fun t => t.safety.flight.map Record.code == [0x0706]) = true := by decide +kernel
theorem test_ack :
    stepsTo (.roceAck 0 2 100) (roceBench (rocePart waitingQp)) (fun t => t.bytesAt (.cloth 0) 0x110008 8 == leBytes 8 32
        && partIs t (fun x => (x.qp? 2).any (fun q => q.unacked.length == 1))) = true
      ∧ stepsTo (.rdmaReadResponse 0 2 101 [7, 8, 9]) (roceBench (rocePart waitingQp)) (fun t => t.bytesAt (.cloth 0) 0x100000 3 == [7, 8, 9]) = true := by decide +kernel
theorem test_timeouts :
    stepsTo (.transportTimeout 0 2) (roceBench (rocePart waitingQp)) (fun t => partIs t (fun x => (x.qp? 2).any (fun q => q.retries == 1))) = true
      ∧ stepsTo (.retriesExhausted 0 2) (roceBench (rocePart { waitingQp with retries := 7 })) (fun t => t.safety.flight.map Record.code == [0x0704]
        && partIs t (fun x => (x.qp? 2).any (fun q => q.error))) = true := by decide +kernel
theorem test_rate :
    stepsTo (.cnpReceived 0 2) (roceBench (rocePart qp2)) (fun t => partIs t (fun x => (x.qp? 2).any (fun q => q.rate == 1 && q.rateExp == 1))) = true
      ∧ stepsTo (.rateIncrease 0 2) (roceBench (rocePart { qp2 with rateExp := 1 })) (fun t => partIs t (fun x => (x.qp? 2).any (fun q =>
        q.rate * 16 == 9 * 2 ^ q.rateExp))) = true := by decide +kernel

/-! ### Ethernet frames and ports, die links (17, 01) -/

def netFrame (target : Addr) : NetFrame := { port := 0, vlan := 5, srcMac := 0x77, src := { v4 := true, value := 0x0A000008 }, target := target, payload := [4, 2] }
def mgmtAddr6 : Addr := { v4 := false, value := 0xFE800000000000000000000000000001 }
/-- The management endpoint of the test machine at an IPv6 address. -/
def mgmt6 : State := ((mgmt0.setFld .netMgmt Fl.netMgmt_FAMILY 0).setReg .netMgmtAddrHi 0xFE80000000000000).setReg .netMgmtAddrLo 1
def ownAddr : Addr := { v4 := true, value := 0x0A000002 }
def portBench (k : Port) : State := { mgmt0 with net := { mgmt0.net with ports := [(0, k)] }, power := { mgmt0.power with inReset := false } }
def upPort : Port := { Port.reset with link := true }
def waitingPacket : Packet := { kind := .septa, port := 0, vlan := 5, mac := none, dst := { v4 := true, value := 0x0A000008 }, dstPort := 9, bytes := [1] }
def withCak (s : State) : State := storing [.write cakObject (1 :: List.replicate 63 0)] s
def pfcBench : State := (mgmt0.setFld .netPortCfg Fl.netPortCfg_PFC_A 1).setFld .netPortCfg Fl.netPortCfg_PRIO_A 7
theorem witness_frames :
    (State.reset.port 0).link = false ∧ (mgmt0.port 0).link = true ∧ (mgmt0.port 0).macsec ≠ 1 ∧ ((portBench { upPort with macsec := 1 }).port 0).macsec = 1
      ∧ (heardFrame mgmt0 (netFrame ownAddr)).answersFor 0 5 ownAddr = true ∧ (heardFrame mgmt0 (netFrame mgmtAddr6)).answersFor 0 5 mgmtAddr6 = false
      ∧ (heardFrame mgmt6 (netFrame mgmtAddr6)).answersFor 0 5 mgmtAddr6 = true ∧ ((portBench { upPort with macsec := 2 }).port 0).macsec ≠ 0
      ∧ pfcBench.pfc 0 = some 7 ∧ mgmt0.pfc 0 = none ∧ (0x80 : BitVec 8).getLsbD 7 = true ∧ (0x7F : BitVec 8).getLsbD 7 = false := by decide +kernel
theorem witness_ports :
    (withCak (portBench upPort)).store.cak 0 = some (List.replicate 48 0) ∧ (portBench upPort).store.cak 0 = none
      ∧ ((portBench { upPort with macsec := 2 }).port 0).macsec = 2 ∧ ((portBench upPort).port 0).macsec = 0
      ∧ ({ mgmt0 with net := { mgmt0.net with ports := [(0, upPort), (3, upPort)] } } : State).port 3 = upPort ∧ bankOf 3 = bankOf 0 ∧ bankOf 4 ≠ bankOf 0
      ∧ (State.reset.port 0).link = false ∧ (portBench Port.reset).power.inReset = false := by decide +kernel
theorem test_address_resolution :
    stepsTo (.arpRequest (netFrame ownAddr)) mgmt0 (fun t => t.net.tx.map (fun k => (k.kind, k.mac)) == [(.arp, some 0x77)]) = true
      ∧ stepsTo (.neighborSolicitation (netFrame mgmtAddr6)) mgmt6 (fun t => t.net.tx.map (fun k => k.kind) == [.nd]) = true
      ∧ stepsTo (.icmpEchoRequest (netFrame ownAddr)) mgmt0 (fun t => t.net.tx.map (fun k => k.bytes) == [[4, 2]]) = true
      ∧ stepsTo (.addressResolutionReply (netFrame ownAddr)) { mgmt0 with net := { mgmt0.net with unresolved := [waitingPacket] } } (fun t =>
        t.net.tx == [{ waitingPacket with mac := some 0x77 }] && t.net.unresolved == []) = true := by decide +kernel
theorem test_discarded : stepsTo (.discardedPacket 0 .icrc) mgmt0 (fun t => t.fld .netRoceCount Fl.netRoceCount_ICRC_FAIL == 1) = true
    ∧ stepsTo (.pfcFrame 0 0x80 (Vector.replicate 8 1)) pfcBench (fun t => (t.port 0).paused) = true := by decide +kernel
theorem test_ports :
    stepsTo (.portLinkLost 0) (portBench upPort) (fun t => !(t.port 0).link && t.safety.flight.map Record.code == [0x0701, 0x0702]) = true
      ∧ stepsTo (.portLinkUp 0) (withCak (portBench Port.reset)) (fun t => (t.port 0).link && (t.port 0).macsec == 1) = true
      ∧ stepsTo (.macsecSaLost 0) (portBench { upPort with macsec := 2 }) (fun t => (t.port 0).macsec == 1 && t.safety.flight.map Record.code == [0x0703]) = true
      ∧ stepsTo (.mkaFrame 0 [1]) (portBench upPort) (fun t => t.net.tx == []) = true := by decide +kernel

def full : Link := { Link.reset with width := 2 }
def linkBench (i : Nat) (k : Link) : State :=
  let s := withPart { part0 with cfg := { cfg0 with credits := [{ ctx := 0, link := i, credits := 2, tag := 0 }] } } (bench (regs []) 0)
  { s with links := [(i, k)] }
def flit (i : Fin 96) (kind : FlitKind) (ok : Bool) : Flit := { link := i, down := true, part := 0, ctx := 0, kind := kind, crcOk := ok }
/-- A data flit from the beam die to mill 0. -/
def up64 (generation : Bool) : Flit := { flit 64 (.data generation) true with down := false }
def used (n : Nat) : Link := { full with used := [(creditKey true 0 0, n)] }
/-- A flit of the new generation meets a loom that has yet to apply it. -/
def newerBench : State :=
  let s := linkBench 64 full
  { (s.setFld .pickMode Fl.pickMode_PHASE 2).setFld .pickMode Fl.pickMode_GENERATION 1 with
    pick := { s.pick with change := some applying } }
def retrainPayload (i : Nat) : List Byte := [BitVec.ofNat 8 i, 0, 0, 0, 0, 0, 0, 0]
theorem witness_link_retrain :
    asksMgmt (linkBench 95 full) (mgmtType 0x0322 [.any 1, .zero 7] false) (retrainPayload 95) (fun r u => decide (r.num 0 1 < 96) && !(u.link 95).training) = true
      ∧ asksMgmt (linkBench 95 { full with training := true }) (mgmtType 0x0322 [.any 1, .zero 7] false) (retrainPayload 95) (fun _ u => (u.link 95).training) = true
      ∧ asksMgmt State.reset (mgmtType 0x0322 [.any 1, .zero 7] false) (retrainPayload 96) (fun r _ => decide (96 ≤ r.num 0 1)) = true := by decide +kernel
theorem witness_flits :
    Link.reset.width = 0 ∧ full.width ≠ 0 ∧ ({ full with fails := (0, 8) } : Link).failsOf true = 8 ∧ ({ full with fails := (8, 7) } : Link).failsOf true = 7
      ∧ newerBench.newer (flit 64 (.data true) true) = false ∧ newerBench.newer (up64 true) = true ∧ newerBench.newer (up64 false) = false ∧ (linkBench 64 (used 1)).creditsOn 0 0 64 = 2 ∧ (used 1).used.get (creditKey true 0 0) 0 < 2
      ∧ 2 ≤ (used 2).used.get (creditKey true 0 0) 0 ∧ (2 : Nat) ≤ (used 2).used.get (creditKey (!false) 0 0) 0 := by decide
theorem witness_lanes :
    (0 : Fin 64).val ∉ full.failedLanes ∧ OneHalf [31, 0] ∧ OneHalf [32, 63] ∧ ¬ OneHalf [31, 32] ∧ OneHalf ([(31 : Fin 64), 0].map Fin.val)
      ∧ ¬ OneHalf ([(31 : Fin 64), 32].map Fin.val) := by unfold OneHalf; decide
theorem witness_training :
    ({ full with training := true } : Link).training = true ∧ 8 ≤ ({ full with fails := (8, 0) } : Link).fails.1
      ∧ (∀ f ∈ ({ full with training := true, held := [flit 64 (.data true) true] } : Link).held, f.link = 64) := by decide
theorem test_flit :
    stepsTo (.flitReceived (flit 64 (.data false) true)) (linkBench 64 (used 1)) (fun t => (t.link 64).used == [(creditKey true 0 0, 2)]
        && (t.link 64).delivered == (0, 1)) = true
      ∧ stepsTo (.flitReceived (flit 64 (.data false) true)) (linkBench 64 (used 2)) (fun t => t.safety.flight.map Record.code == [0x0604]) = true
      ∧ stepsTo (.flitReceived (flit 64 (.data false) false)) (linkBench 64 full) (fun t => (t.link 64).fails == (0, 1)) = true := by decide +kernel
theorem test_lane_failure :
    stepsTo (.laneFailure 3 31) (linkBench 3 full) (fun t => (t.link 3).width == 1 && t.safety.flight.map (fun r => (r.unit, r.code, r.detail))
        == [(BitVec.ofNat 16 (millUnit 0 0x19), 0x0601, 3 + 3 * 256 + 31 * 65536)]) = true
      ∧ stepsTo (.laneFailure 3 32) (linkBench 3 { full with width := 1, failedLanes := [31] }) (fun t => (t.link 3).width == 0
        && t.safety.flight.map Record.code == [0x0603]) = true := by decide +kernel
/-- A flit held through a training is delivered; one of a generation not yet applied stays held. -/
theorem test_retraining :
    stepsTo (.linkRetrainingComplete 64 .full) { newerBench with links := [(64, { full with training := true, width := 1, held := [flit 64 (.data false) true,
        up64 true] })] } (fun t => (t.link 64).width == 2 && (t.link 64).held == [up64 true] && (t.link 64).delivered == (0, 1)) = true
      ∧ stepsTo (.retryLimitReached 64) (linkBench 64 { full with fails := (8, 0) }) (fun t => (t.link 64).training && t.safety.flight.map Record.code == [0x0602]) = true := by
  decide +kernel
theorem test_heartbeat : stepsTo (.sidebandHeartbeatLoss 7) (linkBench 95 full) (fun t => (t.link 95).width == 0 && t.safety.flight.map Record.code
    == [0x0603, 0x0603, 0x0603, 0x0603]) = true := by decide +kernel
theorem test_link_retrain : stepsTo (.linkRetrain (mg (retrainPayload 95))) (listens (linkBench 95 full)) (fun t => (t.link 95).training && t.net.waiting.length == 1
    && t.net.tx.length == 0) = true := by decide +kernel

/-! ### Power, reset, boot, the swatch (21, 22, 19) -/

def powered (p : Power) : State := { bench (regs []) 0 with power := p }
def runningPower : Power := { Power.reset with pwrGood := true, inReset := false, resetLow := false }
def bootReport (beam : Bool) : BootReport :=
  { beamOk := beam, flashError := false, ports := 1, millsOk := 0xFF, railsOk := 0xFF, loomsOk := BitVec.allOnes 256, stacksOk := 1, linksOk := 1 }
def bootable (items : List StoreItem) : State := storing items State.reset
theorem witness_resets :
    (powered { runningPower with pwrGood := false }).power.pwrGood = false ∧ (powered runningPower).power.pwrGood = true
      ∧ (powered runningPower).power.resetLow = false ∧ (powered runningPower).power.inReset = false
      ∧ (powered { runningPower with inReset := true }).power.inReset = true ∧ (powered { runningPower with resetLow := true }).power.resetLow = true
      ∧ (powered { runningPower with resetDue := true }).power.resetDue = true := by decide
theorem witness_boot :
    State.reset.power.inReset = true ∧ State.reset.power.pwrGood = true ∧ State.reset.power.resetLow = false ∧ (bootReport false).beamOk = false
      ∧ (bootReport true).beamOk = true ∧ (bootReport true).flashError = false ∧ State.reset.store.images = []
      ∧ (bootable [.write (imageObject 1) image0, .confirm (imageObject 1) []]).store.images = [1]
      ∧ (bootable [.write (imageObject 1) image0, .confirm (imageObject 1) []]).store.confirmed 1 = true ∧ (powered runningPower).power.inReset = false
      ∧ State.reset.power.straps.toNat = 3 ∧ (0x53 : BitVec 7).toNat = 0x50 + 3 ∧ (511 : BitVec 9).toNat + (1 : BitVec 9).toNat ≤ 512
      ∧ (0x4B : BitVec 7).toNat = 0x48 + 3 ∧ (0x4F : BitVec 7).toNat = 0x4C + 3 ∧ (0x52 : BitVec 7).toNat ≠ 0x50 + 3 := by decide +kernel
theorem test_resets :
    stepsTo .resetInputAssert (powered runningPower) (fun t => t.parts == [] && t.power.inReset && t.fld .moduleState Fl.moduleState_CAUSE == 1) = true
      ∧ stepsTo .resetInputRelease (powered { runningPower with resetLow := true }) (fun t => !t.power.resetLow) = true
      ∧ stepsTo .moduleResetExecute (powered { runningPower with resetDue := true }) (fun t => t.looms == [] && t.fld .moduleState Fl.moduleState_CAUSE == 2) = true := by
  decide +kernel
theorem test_power :
    stepsTo .powerGoodDeassert (powered runningPower) (fun t => !t.power.pwrGood && t.parts == []) = true
      ∧ stepsTo .powerUp (powered { runningPower with pwrGood := false }) (fun t => t.power.pwrGood && t.fld .moduleState Fl.moduleState_CAUSE == 0) = true := by
  decide +kernel
theorem test_boot :
    stepsTo (.boot (bootReport false)) State.reset (fun t => t.fld .moduleState Fl.moduleState_PHASE == 6 && t.safety.flight.map Record.code == [0x0902]) = true
      ∧ stepsTo (.boot (bootReport true)) State.reset (fun t => t.fld .moduleState Fl.moduleState_PHASE == 6 && !t.power.inReset) = true := by decide +kernel
/-- The first bytes of the identity EEPROM read as its MAGIC; a write is not acknowledged. -/
theorem test_eeprom : stepsTo (.boardServiceRead 0x53 0 4) State.reset (fun t => t.power.service == some [0x44, 0x4E, 0x34, 0x38]) = true
    ∧ stepsTo (.eepromWrite 0x53 0 [1]) State.reset (fun t => t.power.service == none) = true := by decide +kernel

def armPayload (mode : Nat) : List Byte := BitVec.ofNat 8 mode :: List.replicate 7 0 ++ beBytes 8 0x100000 ++ beBytes 8 0x20000
def armType : MsgType := mgmtType 0x0500 [.any 1, .zero 7, .any 8, .count 8] false
def mgc (payload : List Byte) : Msg := { mg0 payload with hdr := { (mg0 payload).hdr with context := 0 } }
def arming0 : Arming := { replay := false, ctx := 0, base := 0, len := 0 }
def armed0 (s : State) : State := { s with safety := { s.safety with armings := [(0, arming0)] } }
theorem witness_arming :
    asksMgmt State.reset (mgmtType 0x0220 formDest false) (destPayload 1) (fun r _ => (destBreaks r).isNone && r.num 2 2 != 0) = true
      ∧ asksMgmt State.reset (mgmtType 0x0220 formDest false) (destPayload 0) (fun r _ => (destBreaks r).isNone && r.num 2 2 == 0) = true
      ∧ asksMgmt State.reset (mgmtType 0x0220 formDest false) ((destPayload 1).set 6 5) (fun r _ => destBreaks r == some 6) = true
      ∧ (mg []).hdr.partition = 0xFF
      ∧ reaches (listens (bench (regs []) 0)) armType (mgc (armPayload 1)) (fun r u => r.part? == some 0 && r.ctx? == some 0 && r.num 0 1 == 1
          && (Tab.find? u.safety.armings 0).isNone) = true
      ∧ reaches (listens (bench (regs []) 0)) armType (mgc (armPayload 3)) (fun r _ => r.num 0 1 == 3) = true
      ∧ reaches (armed0 (listens (bench (regs []) 0))) armType (mgc (armPayload 2)) (fun _ u => (Tab.find? u.safety.armings 0).isSome) = true
      ∧ reaches (armed0 (listens (bench (regs []) 0))) (mgmtType 0x0502 [] false) (mg0 []) (fun r _ => r.part? == some 0) = true := by decide +kernel
theorem test_arming :
    stepsTo (.swatchArm (mgc (armPayload 2))) (listens (bench (regs []) 0)) (fun t =>
        Tab.find? t.safety.armings 0 == some { replay := true, ctx := 0, base := 0x100000, len := 0x20000 }) = true
      ∧ stepsTo (.swatchDisarm (mg0 [])) (armed0 (listens (bench (regs []) 0))) (fun t => t.safety.armings == []) = true
      ∧ stepsTo (.noticeSet (mg (destPayload 1))) (listens State.reset) (fun t => t.net.notices.map (fun (e : Nat × Dest) => (e.1, e.2.port)) == [(3, 40001)]) = true := by
  decide +kernel

/-- A replay over the ring at 0x100000 whose records are so many bytes: a header of pick 30, then a CLOTH record of two bytes at 0x130000, then one of pick 31. -/
def swRecordBytes (kind n pick : Nat) (body : List Byte) : List Byte := leBytes 1 kind ++ [0, 0, 0] ++ leBytes 4 n ++ leBytes 8 pick ++ body
def headBody : List Byte := leBytes 4 0x48545753 ++ leBytes 2 1 ++ [0, 0] ++ List.replicate 32 0 ++ List.replicate 8 0 ++ leBytes 8 30 ++ List.replicate 56 0
def clothBody : List Byte := leBytes 8 0x130000 ++ leBytes 4 2 ++ [0, 0, 0, 0] ++ [5, 6] ++ List.replicate 30 0
def swatch0 (begun : Bool) (pos : Nat) : Swatch :=
  { replay := true, base := 0x100000, len := 0x20000, pos := pos, records := 0, bytes := [], ended := false, virtualPick := 30, begun := begun, realPick := none, expected := [],
    formed := [] }
def replayPart (measure : BitVec 256) (w : Swatch) (produced : Nat) : Part :=
  let rs := swRecordBytes 1 128 0 headBody ++ swRecordBytes 2 64 30 clothBody ++ swRecordBytes 2 64 31 clothBody
  let cloth := { Cloth.empty with bytes := putBytes (putBytes [] 0x100000 (leBytes 8 produced)) 0x101000 rs }
  { part0 with cfg := { cfg0 with measure := measure }, swatch := some w, start := some 0, cloth := cloth }
def replayBench (m : BitVec 256) (w : Swatch) (produced : Nat) : State := at50 (withPart (replayPart m w produced) (bench (regs []) 0))
def gotIs (r : SwNext) (f : SwRec → Bool) : Bool := match r with | .got e => f e | _ => false
theorem witness_replays (w : Swatch) (h : w.replay = true ∧ w.ended = false) (m : BitVec 256) (n : Nat) : Replays (replayBench m w n) 0 (replayPart m w n) w :=
  ⟨rfl, rfl, h, rfl, rfl⟩
theorem witness_replay_records :
    (swatch0 false 0).replay = true ∧ (swatch0 false 0).ended = false ∧ (replayPart 0 (swatch0 false 0) 128).started = true
      ∧ gotIs ((replayBench 0 (swatch0 false 0) 128).swRecord 0 (swatch0 false 0) 0) (fun r => r.kind == 1 && leNat (slice r.body 0 4) == 0x48545753
          && leNat (slice r.body 4 2) == 1 && beNat (slice r.body 8 32) == 0 && leNat (slice r.body 48 8) == 30 && r.len == 128) = true
      ∧ (replayBench 0 (swatch0 false 0) 128).word64 0 0x100000 = 128
      ∧ gotIs ((replayBench 1 (swatch0 false 0) 128).swRecord 0 (swatch0 false 0) 0) (fun r => beNat (slice r.body 8 32) != 1) = true
      ∧ (replayBench 0 (swatch0 true 128) 191).swRecord 0 (swatch0 true 128) 128 = .none
      ∧ gotIs ((replayBench 0 (swatch0 true 128) 192).swRecord 0 (swatch0 true 128) 128) (fun r => r.kind == 2 && decide (r.pick ≤ 30)
          && leNat (slice r.body 0 8) == 0x130000 && leNat (slice r.body 8 4) == 2 && r.len == 64) = true
      ∧ carve0.base ≤ 0x130000 ∧ 0x130000 + 2 ≤ carve0.base + carve0.len := by decide +kernel
theorem witness_virtual_boundary :
    (replayBench 0 (swatch0 true 192) 256).pickDone 0 (replayPart 0 (swatch0 true 192) 256) (swatch0 true 192) = true
      ∧ (swatch0 true 192).realPick ≠ some (replayBench 0 (swatch0 true 192) 256).now ∧ (replayPart 0 (swatch0 true 192) 256).start = some 0
      ∧ ({ swatch0 true 192 with realPick := some 50 } : Swatch).realPick = some (replayBench 0 (swatch0 true 192) 256).now := by decide +kernel
theorem test_replay :
    stepsTo (.replayVirtualBoundary 0) (replayBench 0 (swatch0 true 128) 192) (fun t => t.bytesAt (.cloth 0) 0x130000 3 == [5, 6, 0]
        && partIs t (fun x => x.swatch.any (fun w => w.pos == 192 && w.virtualPick == 30))) = true
      ∧ stepsTo (.replayVirtualBoundary 0) (replayBench 0 (swatch0 true 192) 256) (fun t => partIs t (fun x => x.swatch.any (fun w => w.virtualPick == 31
        && w.realPick == some 50))) = true
      ∧ stepsTo (.replayVirtualBoundary 0) (replayBench 1 (swatch0 false 0) 128) (fun t => t.safety.flight.map (fun r => (r.code, r.detail))
        == [(0x090B, BitVec.ofNat 128 (attributionPart 0 + 1))]) = true := by decide +kernel

/-! ### Fells, reset requests, rounders (04 R77, 10 R192, 05 R102) -/

/-- A fell that holds the largest S: a contribution overflows it. -/
def bigFell : Fell := { Fell.cleared with s := 2 ^ 191 - 1, w := 24, empty := false }
theorem witness_fells :
    Fell.cleared.state = .finite ∧ (Fell.cleared.add (.inf true)).state = .negInf ∧ ((Fell.cleared.add (.inf true)).add (.inf false)).state = .nan
      ∧ ((Fell.cleared.add (.inf false)).add (.fin true 5 0)) = Fell.cleared.add (.inf false) ∧ (Fell.cleared.add .nan).add (.inf true) = Fell.cleared.add .nan
      ∧ bigFell.state = .finite ∧ (bigFell.add (.fin false (2 ^ 190) 0)).state = .nan := by
  decide +kernel
theorem witness_reset_requests :
    (req 0x0102 (stepPayload 5)).type = 0x0102 ∧ (withPart (withStreams [(2, steady)]) (bench (regs []) 0)).waits (req 0x0102 (stepPayload 5)) 1 = false
      ∧ (req 0x0102 []).part? = some 0 ∧ (req 0x0102 (stepPayload 5)).num 0 2 = 2 ∧ (withStreams [(2, steady)]).stream? 2 = some steady
      ∧ steady.stat stClosing = false ∧ steady.resetAt = 0 ∧ steady.step.toNat = 4 ∧ (BitVec.ofNat 64 ((req 0x0102 (stepPayload 5)).num 8 8)).toNat = 5
      ∧ maskPart.cfg.maskMode = true ∧ part0.stream? 2 = none := by decide +kernel

/-! ### The named hash functions and ciphers, by the published test values of their standards -/

/-- FIPS 180-4: SHA-256 of "abc". -/
theorem test_sha256 : sha256 [0x61, 0x62, 0x63] = 0xBA7816BF8F01CFEA414140DE5DAE2223B00361A396177A9CB410FF61F20015AD := by decide +kernel
/-- The SipHash paper: key bytes 0 to 15, input bytes 0 to 14. -/
theorem test_siphash :
    sipHash 0x0F0E0D0C0B0A09080706050403020100 ((List.range 15).map (fun i => BitVec.ofNat 8 i)) = 0xA129CA6149BE45E5 := by decide +kernel
/-- FIPS 197, appendix C.3: AES-256 of 00112233445566778899AABBCCDDEEFF under the key of bytes 0 to 31. -/
theorem test_aes256 :
    aesBlock (aesSchedule 0x000102030405060708090A0B0C0D0E0F101112131415161718191A1B1C1D1E1F) (beBytes 16 0x00112233445566778899AABBCCDDEEFF)
      = beBytes 16 0x8EA2B7CA516745BFEAFC49904B496089 := by decide +kernel
/-- The GCM specification, test case 14: one zero block under the zero key and nonce. -/
theorem test_gcm :
    gcmSeal 0 (List.replicate 12 0) [] (List.replicate 16 0) = beBytes 32 0xCEA7403D4D606B6E074EC5D3BAF39D18D0D1C8A799996BF0265B98B5D48AB919
      ∧ gcmOpen 0 (List.replicate 12 0) [] (beBytes 32 0xCEA7403D4D606B6E074EC5D3BAF39D18D0D1C8A799996BF0265B98B5D48AB918) = none := by
  decide +kernel

end Sys2Proof.Tests
end

section
/-! PROOFS. The register map, the register file and the storages: every register is found at its address, a register and a
storage read what was written to them (00 R7, 01 R33, 15 R287, R295), and the state after reset (00 R8, 03 R17, 21 R418, R419). -/

namespace Sys2Proof.Machine

open Sys2Proof

/-! ### The register map (R7, R33) -/

/-- An index is found again from a number that stands for it. -/
theorem ofNat_eq_of_mod {n : Nat} [NeZero n] (i : Fin n) {k : Nat} (h : k % n = i.val) : Fin.ofNat n k = i := Fin.ext h

theorem Reg.ofAddr_of_module {a : Nat} (h8 : a % 8 = 0) (ha : a < 0x10000000) : Reg.ofAddr a = moduleReg a := by
  rw [Reg.ofAddr, if_neg (by omega), if_pos ha]

/-- A mill's own registers lie in the lower half of its 16 MiB. -/
theorem Reg.ofAddr_of_mill (m : Fin 8) {o : Nat} (h8 : o % 8 = 0) (ho : o < 0x00800000) :
    Reg.ofAddr (millBase m + o) = millReg m o := by
  have hm : Fin.ofNat 8 ((millBase m + o - 0x10000000) / 0x01000000) = m := ofNat_eq_of_mod m (by simp only [millBase]; omega)
  have hoff : (millBase m + o - 0x10000000) % 0x01000000 = o := by simp only [millBase]; omega
  simp only [Reg.ofAddr, hm, hoff]
  rw [if_neg (by simp only [millBase]; omega), if_neg (by simp only [millBase]; omega), if_pos (by simp only [millBase]; omega), if_pos ho]

theorem loomBase_mill (g : Fin 256) {o : Nat} (ho : o < 0x00010000) : (loomBase g + o - 0x10000000) / 0x01000000 = g.val / 32 := by
  simp only [loomBase]; omega

theorem loomBase_offset (g : Fin 256) {o : Nat} (ho : o < 0x00010000) :
    (loomBase g + o - 0x10000000) % 0x01000000 = 0x00800000 + (g.val % 32 * 0x00010000 + o) := by
  simp only [loomBase]; omega

/-- A loom's registers lie in 64 KiB of its own in the upper half of its mill's 16 MiB. -/
theorem Reg.ofAddr_of_loom (g : Fin 256) {o : Nat} (h8 : o % 8 = 0) (ho : o < 0x00010000) :
    Reg.ofAddr (loomBase g + o) = loomReg g o := by
  have hm : g.val / 32 % 8 = g.val / 32 := by omega
  have hg : Fin.ofNat 256 (g.val / 32 * 32 + (g.val % 32 * 0x00010000 + o) / 0x10000) = g := ofNat_eq_of_mod g (by omega)
  have hin : (g.val % 32 * 0x00010000 + o) % 0x10000 = o := by rw [Nat.mul_add_mod_self_right, Nat.mod_eq_of_lt ho]
  simp only [Reg.ofAddr, loomBase_mill g ho, loomBase_offset g ho, Fin.val_ofNat, hm, Nat.add_sub_cancel_left, hg, hin]
  rw [if_neg (by simp only [loomBase]; omega), if_neg (by simp only [loomBase]; omega), if_pos (by simp only [loomBase]; omega),
    if_neg (by omega), if_pos (by omega)]

theorem millBase_bounds (m : Fin 8) : millBase m % 8 = 0 ∧ millBase m ≤ 0x17000000 := by
  simp only [millBase]; omega

theorem loomBase_bounds (g : Fin 256) : loomBase g % 8 = 0 ∧ loomBase g ≤ 0x17A00000 := by
  simp only [loomBase]; omega

/-- Every address is 8-byte aligned and of 32 bits. -/
theorem Reg.addr_bounds (r : Reg) : r.addr % 8 = 0 ∧ r.addr < 2 ^ 32 := by
  cases r
  case netPort i | creelEngine i | creelSlot i | creelCount i | farPort i | farCount i | safeLogData i | safeWindow i | safeSwatch i
      | safeTest i | storeFence i | schedPlan i | schedSwitch i =>
    simp only [Reg.addr]; omega
  case schedAcct p c k => simp only [Reg.addr]; omega
  case linkState m i | cxeStream m i | cxeStreamCount m i | cxePool m i | cxePageCount m i | cxeFork m i | bcSlot m i | memStack m i
      | memEcc m i | memTraffic m i =>
    have hm := millBase_bounds m
    simp only [Reg.addr]; omega
  case bcStatus m | bcCount m | memStage m | memEvac m | memGuard m | memGuardAddr m =>
    have hm := millBase_bounds m
    simp only [Reg.addr]; omega
  case loomCarve g i | loomPc g i | loomTstat g i | dxSlot g i =>
    have hg := loomBase_bounds g
    simp only [Reg.addr]; omega
  case loomStatus g | loomTiles g | loomStall g | loomCheck g | loomEcc g | loomBeats g | loomBound g | loomBoundValue g | loomDrainset g
      | dxStatus g | dxCount g | dxLast g =>
    have hg := loomBase_bounds g
    simp only [Reg.addr]; omega
  all_goals decide

/-- The register map finds every register at its address: by the part of the module that the register belongs to. -/
theorem Reg.ofAddr_addr (r : Reg) : Reg.ofAddr r.addr = some r := by
  cases r
  case netPort i | creelEngine i | creelSlot i | creelCount i | farPort i | farCount i | safeLogData i | safeWindow i | safeSwatch i
      | safeTest i | storeFence i | schedPlan i | schedSwitch i =>
    rw [Reg.addr, ofAddr_of_module (by omega) (by omega)]
    simp (disch := omega) only [moduleReg, ↓if_neg, ↓if_pos]
    rw [ofNat_eq_of_mod i (by omega)]
  case schedAcct p c k =>
    rw [Reg.addr, ofAddr_of_module (by omega) (by omega)]
    simp (disch := omega) only [moduleReg, ↓if_neg, ↓if_pos]
    rw [ofNat_eq_of_mod p (by omega), ofNat_eq_of_mod c (by omega), ofNat_eq_of_mod k (by omega)]
  case linkState m i | cxeStream m i | cxeStreamCount m i | cxePool m i | cxePageCount m i | cxeFork m i | bcSlot m i | memStack m i
      | memEcc m i | memTraffic m i =>
    rw [Reg.addr, Nat.add_assoc, ofAddr_of_mill m (by omega) (by omega)]
    simp (disch := omega) only [millReg, ↓if_neg, ↓if_pos]
    rw [ofNat_eq_of_mod i (by omega)]
  case bcStatus m | bcCount m | memStage m | memEvac m | memGuard m | memGuardAddr m =>
    rw [Reg.addr, ofAddr_of_mill m (by omega) (by omega)]
    simp (disch := omega) only [millReg, ↓if_neg, ↓if_pos]
  case loomCarve g i | loomPc g i | loomTstat g i | dxSlot g i =>
    rw [Reg.addr, Nat.add_assoc, ofAddr_of_loom g (by omega) (by omega)]
    simp (disch := omega) only [loomReg, ↓if_neg, ↓if_pos]
    rw [ofNat_eq_of_mod i (by omega)]
  case loomStatus g | loomTiles g | loomStall g | loomCheck g | loomEcc g | loomBeats g | loomBound g | loomBoundValue g | loomDrainset g
      | dxStatus g | dxCount g | dxLast g =>
    rw [Reg.addr, ofAddr_of_loom g (by omega) (by omega)]
    simp (disch := omega) only [loomReg, ↓if_neg, ↓if_pos]
  all_goals rfl

theorem Reg.addr_injective : Function.Injective Reg.addr := fun r q h => by
  have hr := Reg.ofAddr_addr r
  rw [h, Reg.ofAddr_addr q] at hr
  exact (Option.some.inj hr).symm

/-- Writing a register leaves every other register. -/
theorem State.reg_setReg_of_reg_ne (s : State) {q r : Reg} (v : Word) (h : q ≠ r) : (s.setReg r v).reg q = s.reg q :=
  s.reg_setReg_of_ne v (fun e => h (Reg.addr_injective e))

end Sys2Proof.Machine

namespace Sys2Proof.Claims

open Sys2Proof Sys2Proof.Machine

/-! ### The register file and the storages -/

theorem registerMapIsOneToOne : RegisterMapIsOneToOne := fun r =>
  ⟨r.addr_bounds.1, r.addr_bounds.2, r.ofAddr_addr⟩

theorem registerFileReadsBack : RegisterFileReadsBack := fun s r v =>
  ⟨s.reg_setReg_self r v, fun _ h => s.reg_setReg_of_reg_ne v h, rfl⟩

/-- The bytes that a storage lists after a write are those it listed, with the written bytes put in. -/
theorem listed_putAt_self {s : State} {st : Store} (h : Exists s st) (a : Nat) (bs : List Byte) :
    listed (s.putAt st a bs) st = putBytes (listed s st) a bs := by
  cases st with
  | loom g => simp [listed, State.putAt, State.modLoom]
  | mill m p c => exact Tab.get_put_self _ _ _ _
  | cloth p =>
    obtain ⟨x, hx⟩ := Option.isSome_iff_exists.mp h
    simp [listed, State.putAt, State.modPart_of_some hx, hx]

theorem storagesReadBack : StoragesReadBack := by
  intro s st a bs h
  have hread := s.byteAt_putAt st a bs (h := fun p e => by subst e; exact h)
  refine ⟨fun i => by simp [hread], fun su i hne => by simp [hread, hne], fun hwf => ?_⟩
  rw [listed_putAt_self h]
  exact wf_putBytes hwf a bs

/-! ### The state after reset -/

theorem listed_reset (st : Store) : listed State.reset st = [] := by
  cases st <;> rfl

theorem resetState : ResetState :=
  ⟨fun _ => rfl, listed_reset, rfl, fun _ => rfl, by decide, by decide, rfl, fun _ => rfl, fun _ => rfl, fun _ => rfl⟩

theorem resetMeetsTheInvariant : ResetMeetsTheInvariant :=
  { queue := fun _ h => absurd h List.not_mem_nil
    ordered := State.Ordered.reset
    past := Nat.le_refl _
    fuses := Nat.zero_le _ }

/-- Settles O5: nothing is listed in any table of the reset state, so that every read gives its default. -/
theorem resetIsAsTheSpecSays : Obligations.ResetIsAsTheSpecSays := ⟨resetState, resetMeetsTheInvariant⟩

/-- Settles O6, by what a read gives after a write and by the parts of the address space that the register map takes in turn. -/
theorem registersAndStoragesReadBack : Obligations.RegistersAndStoragesReadBack :=
  ⟨registerMapIsOneToOne, registerFileReadsBack, storagesReadBack⟩

end Sys2Proof.Claims
end

section
/-! PROOFS. Fields of registers (00 R7, R8): what a field reads after a write of it, of another, and of several at once; and what the
reads and writes of registers that messages ask for change. -/

namespace Sys2Proof.Machine

open Sys2Proof

/-! ### Fields of a word -/

/-- Two fields that share no bit. -/
def Fld.Apart (f g : Fld) : Prop := f.lo + f.w ≤ g.lo ∨ g.lo + g.w ≤ f.lo

theorem Fld.testBit_get (f : Fld) (v : Word) (j : Nat) : (f.get v).testBit j = (decide (j < f.w) && v.getLsbD (f.lo + j)) := by
  simp [Fld.get, bits, BitVec.getLsbD]

/-- A write of a field puts its bits and leaves every other bit. -/
theorem Fld.getLsbD_set (f : Fld) (v : Word) (n : Nat) {i : Nat} (hi : i < 64) :
    (f.set v n).getLsbD i = if f.lo ≤ i ∧ i < f.lo + f.w then n.testBit (i - f.lo) else v.getLsbD i := by
  simp only [Fld.set, BitVec.getLsbD_or, BitVec.getLsbD_and, BitVec.getLsbD_not, BitVec.getLsbD_ofNat, hi, decide_true, Bool.true_and,
    Nat.testBit_mul_two_pow, Nat.testBit_two_pow_sub_one, Nat.testBit_mod_two_pow]
  by_cases hlo : f.lo ≤ i
  · have hw : i - f.lo < f.w ↔ i < f.lo + f.w := by omega
    by_cases hhi : i < f.lo + f.w <;> simp [hlo, hhi, hw]
  · simp [hlo]

theorem Fld.get_set_self {f : Fld} (h : f.lo + f.w ≤ 64) (v : Word) (n : Nat) : f.get (f.set v n) = n % 2 ^ f.w := by
  refine Nat.eq_of_testBit_eq fun j => ?_
  rw [testBit_get, Nat.testBit_mod_two_pow]
  by_cases hj : j < f.w
  · rw [getLsbD_set f v n (by omega), if_pos (by omega), Nat.add_sub_cancel_left]
  · simp [hj]

theorem Fld.get_set_of_apart {f g : Fld} (h : f.Apart g) (v : Word) (n : Nat) : g.get (f.set v n) = g.get v := by
  refine Nat.eq_of_testBit_eq fun j => ?_
  rw [testBit_get, testBit_get]
  by_cases hj : j < g.w
  · by_cases hi : g.lo + j < 64
    · rw [getLsbD_set f v n hi, if_neg (by unfold Fld.Apart at h; omega)]
    · rw [BitVec.getLsbD_of_ge _ _ (by omega), BitVec.getLsbD_of_ge _ _ (by omega)]
  · simp [hj]

theorem Fld.get_lt (f : Fld) (v : Word) : f.get v < 2 ^ f.w := Nat.mod_lt _ (Nat.two_pow_pos _)

/-! ### The fields of a register -/

/-- The fields stand one above another from bit lo on, within the 64 bits. -/
def laidOut (lo : Nat) (l : List Fld) : Bool :=
  match l with
  | [] => decide (lo ≤ 64)
  | f :: rest => decide (lo ≤ f.lo) && laidOut (f.lo + f.w) rest

theorem laidOut_cons {lo : Nat} {f : Fld} {rest : List Fld} :
    laidOut lo (f :: rest) = true ↔ lo ≤ f.lo ∧ laidOut (f.lo + f.w) rest = true := by
  simp [laidOut]

theorem le_of_laidOut {lo : Nat} {l : List Fld} (h : laidOut lo l = true) : lo ≤ 64 := by
  induction l generalizing lo with
  | nil => simpa [laidOut] using h
  | cons f rest ih =>
    obtain ⟨hlo, hrest⟩ := laidOut_cons.mp h
    have := ih hrest
    omega

theorem bounds_of_laidOut {lo : Nat} {l : List Fld} (h : laidOut lo l = true) {f : Fld} (hf : f ∈ l) : lo ≤ f.lo ∧ f.lo + f.w ≤ 64 := by
  induction l generalizing lo with
  | nil => cases hf
  | cons g rest ih =>
    obtain ⟨hlo, hrest⟩ := laidOut_cons.mp h
    rcases List.mem_cons.mp hf with rfl | hf
    · exact ⟨hlo, le_of_laidOut hrest⟩
    · have := ih hrest hf
      exact ⟨by omega, this.2⟩

theorem Reg.fields_laidOut (r : Reg) : laidOut 0 r.fields = true := by
  cases r <;> rfl

/-! ### Writes of fields -/

theorem State.reg_setFld_of_ne (s : State) {q r : Reg} (f : Fld) (n : Nat) (h : q ≠ r) : (s.setFld r f n).reg q = s.reg q :=
  s.reg_setReg_of_reg_ne _ h

theorem State.fld_setFld_self (s : State) (r : Reg) {f : Fld} (h : f.lo + f.w ≤ 64) (n : Nat) :
    (s.setFld r f n).fld r f = n % 2 ^ f.w := by
  rw [State.fld, State.setFld, State.reg_setReg_self, Fld.get_set_self h]

theorem State.fld_setFld_of_apart (s : State) (r : Reg) {f g : Fld} (h : f.Apart g) (n : Nat) :
    (s.setFld r f n).fld r g = s.fld r g := by
  rw [State.fld, State.setFld, State.reg_setReg_self, Fld.get_set_of_apart h, State.fld]

/-- Some fields of a register written one after another: each with the value that val gives it, if it gives one. -/
def State.putFlds (s : State) (r : Reg) (val : Fld → Option Nat) (l : List Fld) : State :=
  l.foldl (fun s f => (val f).elim s (s.setFld r f)) s

section
variable (s : State) (r : Reg) (val : Fld → Option Nat)

theorem State.putFlds_cons (f : Fld) (rest : List Fld) :
    s.putFlds r val (f :: rest) = ((val f).elim s (s.setFld r f)).putFlds r val rest := rfl

/-- Nothing but the register file changes. -/
theorem State.putFlds_frame (l : List Fld) : { s.putFlds r val l with regs := s.regs } = s := by
  induction l generalizing s with
  | nil => rfl
  | cons f rest ih =>
    rw [putFlds_cons]
    cases val f with
    | none => exact ih s
    | some n => exact congrArg (fun t : State => { t with regs := s.regs }) (ih (s.setFld r f n))

theorem State.reg_putFlds_of_ne {q : Reg} (h : q ≠ r) (l : List Fld) : (s.putFlds r val l).reg q = s.reg q := by
  induction l generalizing s with
  | nil => rfl
  | cons f rest ih =>
    rw [putFlds_cons, ih]
    cases val f with
    | none => rfl
    | some n => exact s.reg_setFld_of_ne f n h

theorem State.fld_putFlds_of_apart {g : Fld} {l : List Fld} (h : ∀ f ∈ l, f.Apart g) : (s.putFlds r val l).fld r g = s.fld r g := by
  induction l generalizing s with
  | nil => rfl
  | cons f rest ih =>
    rw [putFlds_cons, ih _ (fun f' hf => h f' (List.mem_cons_of_mem f hf))]
    cases val f with
    | none => rfl
    | some n => exact s.fld_setFld_of_apart r (h f List.mem_cons_self) n

/-- Each field reads what it was given, and what it read before where it was given nothing. -/
theorem State.fld_putFlds {lo : Nat} {l : List Fld} (h : laidOut lo l = true) {g : Fld} (hg : g ∈ l) :
    (s.putFlds r val l).fld r g = (val g).elim (s.fld r g) (· % 2 ^ g.w) := by
  induction l generalizing s lo with
  | nil => cases hg
  | cons f rest ih =>
    obtain ⟨-, hrest⟩ := laidOut_cons.mp h
    rw [putFlds_cons]
    rcases List.mem_cons.mp hg with rfl | hg
    · rw [fld_putFlds_of_apart _ _ _ (fun f' hf => .inr (bounds_of_laidOut hrest hf).1)]
      cases val g with
      | none => rfl
      | some n => exact s.fld_setFld_self r (le_of_laidOut hrest) n
    · rw [ih _ hrest hg]
      have hfg : f.Apart g := .inl (bounds_of_laidOut hrest hg).1
      cases val f with
      | none => rfl
      | some n => rw [Option.elim_some, s.fld_setFld_of_apart r hfg n]

end

/-! ### Reads that clear, and ordinary writes (R8) -/

/-- What a read on the management plane gives each field: RC fields are cleared. -/
def clearedValue (f : Fld) : Option Nat := if f.acc = .rc then some 0 else none

/-- What an accepted write gives each field: RW fields take the value, W1C bits written as 1 are cleared. -/
def writtenValue (v : Word) (f : Fld) : Option Nat :=
  if f.acc = .rw then some (f.get v) else if f.acc = .w1c ∧ f.get v = 1 then some 0 else none

theorem State.clearRead_eq (s : State) (r : Reg) : s.clearRead r = s.putFlds r clearedValue r.fields := by
  rw [State.clearRead, List.foldl_filter, State.putFlds]
  congr 1
  funext t f
  by_cases hf : f.acc = .rc <;> simp [clearedValue, hf]

theorem State.plainWrite_eq (s : State) (r : Reg) (v : Word) : s.plainWrite r v = s.putFlds r (writtenValue v) r.fields := by
  rw [State.plainWrite, State.putFlds]
  congr 1
  funext t f
  unfold writtenValue
  split
  · rfl
  · split <;> rfl

theorem State.clearRead_frame (s : State) (r : Reg) : { s.clearRead r with regs := s.regs } = s := by
  rw [State.clearRead_eq]; exact s.putFlds_frame r _ _

theorem State.fld_clearRead (s : State) (r : Reg) {f : Fld} (hf : f ∈ r.fields) :
    (s.clearRead r).fld r f = if f.acc = .rc then 0 else s.fld r f := by
  rw [State.clearRead_eq, State.fld_putFlds s r _ r.fields_laidOut hf, clearedValue]
  split <;> simp

theorem State.fld_plainWrite (s : State) (r : Reg) (v : Word) {f : Fld} (hf : f ∈ r.fields) :
    (s.plainWrite r v).fld r f = if f.acc = .rw then f.get v else if f.acc = .w1c ∧ f.get v = 1 then 0 else s.fld r f := by
  rw [State.plainWrite_eq, State.fld_putFlds s r _ r.fields_laidOut hf, writtenValue]
  split
  · exact Nat.mod_eq_of_lt (f.get_lt v)
  · split <;> simp

/-! ### Reads of registers -/

theorem State.viewDx_frame (s : State) (g : Fin 256) (v : Word) : { (s.viewDx g v).2 with freeCount := s.freeCount } = s := by
  simp only [State.viewDx, State.draw]
  split
  · rfl
  · split <;> rfl

theorem State.viewBc_frame (s : State) (m : Fin 8) (v : Word) : { (s.viewBc m v).2 with freeCount := s.freeCount } = s := by
  simp only [State.viewBc, State.draw]
  split <;> rfl

/-- A read of a register only draws free values. -/
theorem State.readReg_frame (s : State) (r : Reg) : { (s.readReg r).2 with freeCount := s.freeCount } = s := by
  cases r
  case dxStatus g => exact s.viewDx_frame g _
  case bcStatus m => exact s.viewBc_frame m _
  all_goals rfl

theorem State.readReg_regs (s : State) (r : Reg) : (s.readReg r).2.regs = s.regs := by
  have h := congrArg State.regs (s.readReg_frame r)
  exact h

theorem State.readReg_reg (s : State) (r q : Reg) : (s.readReg r).2.reg q = s.reg q := by
  rw [State.reg, State.readReg_regs, State.reg]

/-- One register of a read: its value behind those before it. -/
def readStep (clear : Bool) (a : List Byte × State) (r : Reg) : List Byte × State :=
  (a.1 ++ beBytes 8 (a.2.readReg r).1.toNat, if clear then (a.2.readReg r).2.clearRead r else (a.2.readReg r).2)

theorem State.readRegs_eq (s : State) (clear : Bool) (l : List Reg) : s.readRegs clear l = l.foldl (readStep clear) ([], s) := rfl

theorem length_leBytes (n v : Nat) : (leBytes n v).length = n := by
  induction n generalizing v with
  | zero => rfl
  | succ k ih => rw [leBytes, List.length_cons, ih]

@[simp] theorem length_beBytes (n v : Nat) : (beBytes n v).length = n := by
  rw [beBytes, List.length_reverse, length_leBytes]

theorem length_foldl_readStep (clear : Bool) (l : List Reg) (a : List Byte × State) :
    (l.foldl (readStep clear) a).1.length = a.1.length + 8 * l.length := by
  induction l generalizing a with
  | nil => rfl
  | cons r rest ih => rw [List.foldl_cons, ih]; simp [readStep]; omega

theorem readStep_frame (clear : Bool) (a : List Byte × State) (r : Reg) :
    { (readStep clear a r).2 with regs := a.2.regs, freeCount := a.2.freeCount } = a.2 := by
  cases clear with
  | false => exact congrArg (fun t : State => { t with regs := a.2.regs }) (a.2.readReg_frame r)
  | true =>
    have hclear := State.clearRead_frame (a.2.readReg r).2 r
    exact (congrArg (fun t : State => { t with regs := a.2.regs, freeCount := a.2.freeCount }) hclear).trans
      (congrArg (fun t : State => { t with regs := a.2.regs }) (a.2.readReg_frame r))

/-- Reads of registers change RC fields and draw free values. -/
theorem foldl_readStep_frame (clear : Bool) (l : List Reg) (a : List Byte × State) :
    { (l.foldl (readStep clear) a).2 with regs := a.2.regs, freeCount := a.2.freeCount } = a.2 := by
  induction l generalizing a with
  | nil => rfl
  | cons r rest ih =>
    have h := congrArg (fun t : State => { t with regs := a.2.regs, freeCount := a.2.freeCount }) (ih (readStep clear a r))
    exact h.trans (readStep_frame clear a r)

/-- Reads that clear nothing leave the register file. -/
theorem foldl_readStep_regs (l : List Reg) (a : List Byte × State) : (l.foldl (readStep false) a).2.regs = a.2.regs := by
  induction l generalizing a with
  | nil => rfl
  | cons r rest ih => exact (ih _).trans (a.2.readReg_regs r)

end Sys2Proof.Machine
end

section
/-! PROOFS. A Septa message that reaches its handler (17 R339 to R344) is answered by it; the numbers in payloads; ECHO and REG_READ (17
R344, R347). -/

namespace Sys2Proof.Claims

open Sys2Proof Sys2Proof.Machine

theorem sawFrame_eq_heard (s : State) (m : Msg) :
    s.sawFrame m.route.port.val m.route.vlan.toNat m.route.src m.route.srcMac = heard s m := rfl

/-- A message that reaches its handler is answered by it. -/
theorem septa_of_reaches {s : State} {t : MsgType} {m : Msg} {r : Staged} {u : State} (h : Reaches s t m r u)
    (f : Staged → State → State × Answer) : s.septa t m f = .next (u.answer r f) := by
  obtain ⟨ep, payload, key, w, hcomes, hsound, hnum, hauth, hwin, hhead, hform, rfl, rfl⟩ := h
  obtain ⟨hlink, hclear, hep, hready⟩ := hcomes
  obtain ⟨hmagic, hlen, ⟨hplane, hp2⟩, hreq⟩ := hsound
  have hmg : (ep == .mgmt && !(heard s m).mgmtReady) = false := by
    by_cases he : ep = .mgmt
    · simp [he, hready he]
    · simp [he]
  have hhdr : ¬ (m.hdr.magic.toNat ≠ 0x5E7A ∨ m.hdr.length.toNat ≠ m.payload.length ∨ planeOf ep = 2 ∨ m.hdr.plane.toNat ≠ planeOf ep
      ∨ m.hdr.flags.getLsbD 0 = true) := by
    rintro (h | h | h | h | h)
    · exact h hmagic
    · exact h hlen
    · exact hp2 h
    · exact h hplane
    · exact Bool.noConfusion (hreq.symm.trans h)
  have hseq : ¬ (m.hdr.sequence.toNat = 0 ∨ m.hdr.sequence.toNat = 2 ^ 64 - 1) := not_or.mpr hnum
  have hreqst : (heard s m).request t ep m f = (numbered s m w).answer (requestOf s t m ep payload key) f := by
    unfold State.request
    simp only [if_neg hseq, hauth]
    rw [standing] at hwin
    simp only [hwin, hhead, hform]
    rfl
  simp only [State.septa, hlink, Bool.not_true, if_neg Bool.false_ne_true, if_neg hclear, sawFrame_eq_heard, hep, hmg]
  exact (if_neg hhdr).trans (congrArg Host.Outcome.next hreqst)

/-- A handler's answer, given at once, is the command's reply. -/
theorem replies_of_handler {c : Instr} {s : State} {t : MsgType} {m : Msg} {r : Staged} {u v : State} {f : Staged → State → State × Answer}
    {status field : Nat} {body : List Byte} {P : State → Prop} (h : Reaches s t m r u) (hc : exec c s = s.septa t m f)
    (hf : f r u = (v, .reply status field 0 body)) (hv : P v) : Replies c s r status field body P :=
  ⟨v, hv, by rw [hc, septa_of_reaches h, State.answer, hf]⟩

/-- A message that is not authenticated is taken as it came. -/
theorem payload_of_reaches {s : State} {t : MsgType} {m : Msg} {r : Staged} {u : State} (h : Reaches s t m r u) (ht : t.authentic = false) :
    r.payload = m.payload := by
  obtain ⟨ep, payload, key, w, -, -, -, hauth, -, -, -, rfl, -⟩ := h
  rw [State.authenticate, ht] at hauth
  cases hauth
  rfl

end Sys2Proof.Claims

namespace Sys2Proof.Machine

open Sys2Proof

/-! ### Numbers in payloads (R2) -/

theorem leNat_leBytes (n v : Nat) : leNat (leBytes n v) = v % 256 ^ n := by
  induction n generalizing v with
  | zero => rw [Nat.pow_zero, Nat.mod_one]; rfl
  | succ k ih =>
    rw [leBytes, leNat, ih, BitVec.toNat_ofNat, show 256 ^ (k + 1) = 256 * 256 ^ k from Nat.pow_succ']
    exact Nat.mod_mul.symm

theorem beNat_beBytes (n v : Nat) : beNat (beBytes n v) = v % 256 ^ n := by
  rw [beNat, beBytes, List.reverse_reverse, leNat_leBytes]

/-- Bytes with others before and behind them are the slice at their place. -/
theorem slice_append (a b c : List Byte) : slice (a ++ (b ++ c)) a.length b.length = b := by
  simp [slice]

end Sys2Proof.Machine

namespace Sys2Proof.Claims

open Sys2Proof Sys2Proof.Machine

/-! ### ECHO and REG_READ (R344, R347) -/

/-- The handler of REG_READ. -/
def handleRegRead (r : Staged) (s : State) : State × Answer :=
  let a := r.num 0 4
  let n := r.num 4 2
  if n = 0 ∨ 64 < n then (s, .field 4)
  else
    let l := (List.range n).map (fun i => Reg.ofAddr (a + 8 * i))
    if l.any Option.isNone then (s, .field 0)
    else
      let (bs, s) := s.readRegs r.mgmt (l.filterMap id)
      (s, .done bs)

theorem exec_regRead_eq (m : Msg) (s : State) :
    exec (.regRead m) s = s.septa (ctrlType 0x0002 true [.any 4, .any 2, .zero 2]) m handleRegRead := rfl

/-- What the addresses of a read map. -/
def mapped (r : Staged) : List (Option Reg) := (List.range (r.num 4 2)).map (fun i => Reg.ofAddr (r.num 0 4 + 8 * i))

theorem mapped_any_isNone {r : Staged} :
    (mapped r).any Option.isNone = true ↔ ∃ i < r.num 4 2, Reg.ofAddr (r.num 0 4 + 8 * i) = none := by
  simp [mapped]

theorem handleRegRead_count {r : Staged} (h : r.num 4 2 = 0 ∨ 64 < r.num 4 2) (s : State) : handleRegRead r s = (s, .field 4) := by
  simp only [handleRegRead, if_pos h]

theorem handleRegRead_unmapped {r : Staged} (h0 : 0 < r.num 4 2) (h64 : r.num 4 2 ≤ 64)
    (h : ∃ i < r.num 4 2, Reg.ofAddr (r.num 0 4 + 8 * i) = none) (s : State) : handleRegRead r s = (s, .field 0) := by
  have hn : ¬ (r.num 4 2 = 0 ∨ 64 < r.num 4 2) := by omega
  simp only [handleRegRead, if_neg hn]
  exact if_pos (mapped_any_isNone.mpr h)

theorem handleRegRead_mapped {r : Staged} (h0 : 0 < r.num 4 2) (h64 : r.num 4 2 ≤ 64)
    (h : ∀ i < r.num 4 2, Reg.ofAddr (r.num 0 4 + 8 * i) ≠ none) (s : State) :
    handleRegRead r s = ((s.readRegs r.mgmt ((mapped r).filterMap id)).2, .done (s.readRegs r.mgmt ((mapped r).filterMap id)).1) := by
  have hn : ¬ (r.num 4 2 = 0 ∨ 64 < r.num 4 2) := by omega
  have hany : ¬ (mapped r).any Option.isNone = true := fun e => by
    obtain ⟨i, hi, hnone⟩ := mapped_any_isNone.mp e
    exact h i hi hnone
  simp only [handleRegRead, if_neg hn]
  exact if_neg hany

theorem length_filterMap_mapped {r : Staged} (h : ∀ i < r.num 4 2, Reg.ofAddr (r.num 0 4 + 8 * i) ≠ none) :
    ((mapped r).filterMap id).length = r.num 4 2 := by
  have hsome : ∀ o ∈ mapped r, (id o).isSome = true := by
    simpa [mapped, Option.isSome_iff_ne_none] using h
  rw [List.length_filterMap_eq_countP, List.countP_eq_length.mpr hsome, mapped, List.length_map, List.length_range]

theorem mapped_of_one {r : Staged} {reg : Reg} (hn : r.num 4 2 = 1) (hreg : Reg.ofAddr (r.num 0 4) = some reg) : mapped r = [some reg] := by
  simp [mapped, hn, hreg]

theorem echo_answers (s : State) (m : Msg) (r : Staged) (u : State) (h : Reaches s typeEcho m r u) :
    (m.payload.length ≤ 256 → Done (.echo m) s r m.payload (· = u))
      ∧ (256 < m.payload.length → Replies (.echo m) s r 2 256 [] (· = u)) := by
  have hp := payload_of_reaches h rfl
  refine ⟨fun hl => replies_of_handler h rfl ?_ rfl, fun hl => replies_of_handler h rfl ?_ rfl⟩
  · simp only [hp, if_neg (Nat.not_lt.mpr hl)]; rfl
  · simp only [hp, if_pos hl]; rfl

theorem regRead_one {s : State} {m : Msg} {r : Staged} {u : State} (h : Reaches s (ctrlType 0x0002 true [.any 4, .any 2, .zero 2]) m r u)
    {reg : Reg} (hn : r.num 4 2 = 1) (hreg : Reg.ofAddr (r.num 0 4) = some reg) :
    Done (.regRead m) s r (beBytes 8 (u.readReg reg).1.toNat) (fun v =>
      (∀ q, q ≠ reg → v.reg q = u.reg q) ∧ ∀ f ∈ reg.fields, v.fld reg f = (if r.mgmt = true ∧ f.acc = .rc then 0 else u.fld reg f)) := by
  have hread : u.readRegs r.mgmt ((mapped r).filterMap id) = readStep r.mgmt ([], u) reg := by
    rw [mapped_of_one hn hreg]; rfl
  have hall : ∀ i < r.num 4 2, Reg.ofAddr (r.num 0 4 + 8 * i) ≠ none := fun i hi => by
    obtain rfl : i = 0 := by omega
    simp [hreg]
  refine replies_of_handler h (exec_regRead_eq m s) ((handleRegRead_mapped (by omega) (by omega) hall u).trans ?_)
    (v := (readStep r.mgmt ([], u) reg).2) ?_
  · rw [hread]; rfl
  · cases hm : r.mgmt with
    | false => exact ⟨fun q _ => u.readReg_reg reg q, fun f _ => by simp [readStep, State.fld, u.readReg_reg reg reg]⟩
    | true =>
      refine ⟨fun q hq => ?_, fun f hf => ?_⟩
      · simp only [readStep, if_true]
        rw [State.clearRead_eq, State.reg_putFlds_of_ne _ _ _ hq, u.readReg_reg]
      · simp only [readStep, if_true, true_and]
        rw [State.fld_clearRead _ _ hf]
        simp [State.fld, u.readReg_reg reg reg]

theorem regRead_answers (s : State) (m : Msg) (r : Staged) (u : State) (h : Reaches s (ctrlType 0x0002 true [.any 4, .any 2, .zero 2]) m r u) :
    let a := r.num 0 4
    let n := r.num 4 2
    (n = 0 ∨ 64 < n → Replies (.regRead m) s r 2 4 [] (· = u))
      ∧ (0 < n → n ≤ 64 → (∃ i < n, Reg.ofAddr (a + 8 * i) = none) → Replies (.regRead m) s r 2 0 [] (· = u))
      ∧ (0 < n → n ≤ 64 → (∀ i < n, Reg.ofAddr (a + 8 * i) ≠ none) → ∃ body : List Byte, body.length = 8 * n
          ∧ Done (.regRead m) s r body (fun v => { v with regs := u.regs, freeCount := u.freeCount } = u
              ∧ (r.mgmt = false → v.regs = u.regs))) := by
  refine ⟨fun hn => ?_, fun h0 h64 hnone => ?_, fun h0 h64 hall => ?_⟩
  · exact replies_of_handler h (exec_regRead_eq m s) (handleRegRead_count hn u) rfl
  · exact replies_of_handler h (exec_regRead_eq m s) (handleRegRead_unmapped h0 h64 hnone u) rfl
  · refine ⟨_, ?_, replies_of_handler h (exec_regRead_eq m s) (handleRegRead_mapped h0 h64 hall u) ⟨?_, fun hm => ?_⟩⟩
    · rw [State.readRegs_eq, length_foldl_readStep, length_filterMap_mapped hall, List.length_nil, Nat.zero_add]
    · exact foldl_readStep_frame r.mgmt _ ([], u)
    · rw [hm]; exact foldl_readStep_regs _ ([], u)

end Sys2Proof.Claims
end

section
/-! PROOFS. REG_WRITE (17 R347; 00 R8, R11), and the writes that arm and disarm the pick source or ask for a reset (03 R52 to R54, 21
R414). -/

namespace Sys2Proof.Machine

open Sys2Proof

/-! ### What a write asks (R347) -/

theorem State.mayWrite_addr (s : State) {r : Reg} {v : Word} (hr : r.writable = true) (hz : r.zeroBits v = true) :
    s.mayWrite r.addr v = if s.writeOk r v = true then some r else none := by
  rw [State.mayWrite, r.ofAddr_addr]
  simp only [hr, hz, Bool.true_and]

/-- A register whose write does no more than set values. -/
def Reg.Ordinary (r : Reg) : Prop := r ≠ .pickSource ∧ r ≠ .farCmd ∧ r ≠ .moduleReset ∧ ∀ k, r ≠ .memEvac k

theorem State.writeReg_of_ordinary (s : State) {r : Reg} (h : r.Ordinary) (v : Word) : s.writeReg r v = s.plainWrite r v := by
  obtain ⟨hsource, hfar, hreset, hevac⟩ := h
  unfold State.writeReg
  split
  · exact absurd rfl hsource
  · exact absurd rfl (hevac _)
  · exact absurd rfl hfar
  · exact absurd rfl hreset
  · rfl

/-! ### The handler of REG_WRITE -/

theorem writeItem_payload (r : Staged) (i : Nat) :
    writeItem r.payload i = (r.num (8 + 16 * i) 4, r.num (12 + 16 * i) 4, BitVec.ofNat 64 (r.num (16 + 16 * i) 8)) := rfl

section
variable {s : State} {r : Staged} {i : Nat}

theorem State.checkWrites_reserved (hz : r.num (12 + 16 * i) 4 ≠ 0) (k : Nat) :
    s.checkWrites r.payload i (k + 1) = .error (12 + 16 * i) := by
  simp [State.checkWrites, writeItem_payload, hz]

theorem State.checkWrites_unaccepted (hz : r.num (12 + 16 * i) 4 = 0)
    (hm : s.mayWrite (r.num (8 + 16 * i) 4) (BitVec.ofNat 64 (r.num (16 + 16 * i) 8)) = none) (k : Nat) :
    s.checkWrites r.payload i (k + 1) = .error (8 + 16 * i) := by
  simp [State.checkWrites, writeItem_payload, hz, hm]

section
variable {k : Nat} {reg : Reg} (hz : r.num (12 + 16 * i) 4 = 0)
  (hm : s.mayWrite (r.num (8 + 16 * i) 4) (BitVec.ofNat 64 (r.num (16 + 16 * i) 8)) = some reg)
include hz hm

theorem State.checkWrites_error_of_rest {off : Nat} (hrest : s.checkWrites r.payload (i + 1) k = .error off) :
    s.checkWrites r.payload i (k + 1) = .error off := by
  simp [State.checkWrites, writeItem_payload, hz, hm, hrest]

theorem State.checkWrites_ok_of_rest {l : List (Reg × Word)} (hrest : s.checkWrites r.payload (i + 1) k = .ok l) :
    s.checkWrites r.payload i (k + 1) = .ok ((reg, BitVec.ofNat 64 (r.num (16 + 16 * i) 8)) :: l) := by
  simp [State.checkWrites, writeItem_payload, hz, hm, hrest]

end

/-- A message with a write that is not accepted is refused whole: its checks end in a field. -/
theorem State.checkWrites_error (h : s.mayWrite (r.num (8 + 16 * i) 4) (BitVec.ofNat 64 (r.num (16 + 16 * i) 8)) = none) {j n : Nat}
    (hj : j ≤ i) (hn : i < j + n) : ∃ off, s.checkWrites r.payload j n = .error off := by
  induction n generalizing j with
  | zero => omega
  | succ k ih =>
    by_cases hz : r.num (12 + 16 * j) 4 = 0
    · cases hm : s.mayWrite (r.num (8 + 16 * j) 4) (BitVec.ofNat 64 (r.num (16 + 16 * j) 8)) with
      | none => exact ⟨_, checkWrites_unaccepted hz hm k⟩
      | some reg =>
        have hji : j ≠ i := fun e => by rw [e, h] at hm; cases hm
        obtain ⟨off, hoff⟩ := ih (j := j + 1) (by omega) (by omega)
        exact ⟨off, checkWrites_error_of_rest hz hm hoff⟩
    · exact ⟨_, checkWrites_reserved hz k⟩

end

section
variable {r : Staged} (h0 : 0 < r.num 0 2) (h64 : r.num 0 2 ≤ 64) (hl : r.payload.length = 8 + 16 * r.num 0 2) {s : State}
include h0 h64 hl

theorem handleRegWrite_error {off : Nat} (h : s.checkWrites r.payload 0 (r.num 0 2) = .error off) :
    handleRegWrite r s = (s, .field off) := by
  have hn : ¬ (r.num 0 2 = 0 ∨ 64 < r.num 0 2) := by omega
  simp [handleRegWrite, hn, hl, h]

theorem handleRegWrite_ok {l : List (Reg × Word)} (h : s.checkWrites r.payload 0 (r.num 0 2) = .ok l) :
    handleRegWrite r s = (l.foldl (fun s e => s.writeReg e.1 e.2) s, .done []) := by
  have hn : ¬ (r.num 0 2 = 0 ∨ 64 < r.num 0 2) := by omega
  simp [handleRegWrite, hn, hl, h]

end

section
variable {r : Staged} {s : State} (hn : r.num 0 2 = 1) (hl : r.payload.length = 24)
include hn hl

theorem handleRegWrite_one_error {off : Nat} (h : s.checkWrites r.payload 0 1 = .error off) : handleRegWrite r s = (s, .field off) :=
  handleRegWrite_error (by omega) (by omega) (by omega) (by rw [hn, h])

/-- A message of one write that is accepted. -/
theorem handleRegWrite_one_accepted (hz : r.num 12 4 = 0) {reg : Reg}
    (hm : s.mayWrite (r.num 8 4) (BitVec.ofNat 64 (r.num 16 8)) = some reg) :
    handleRegWrite r s = (s.writeReg reg (BitVec.ofNat 64 (r.num 16 8)), .done []) :=
  handleRegWrite_ok (r := r) (l := [(reg, BitVec.ofNat 64 (r.num 16 8))]) (by omega) (by omega) (by omega)
    (by rw [hn]; exact State.checkWrites_ok_of_rest (i := 0) (k := 0) hz hm rfl)

end

/-! ### A row's message -/

/-- Where each field of a row's message stands. -/
structure WriteFields (r : Staged) (addr : Nat) (v : Word) : Prop where
  count : r.num 0 2 = 1
  length : r.payload.length = 24
  addr : r.num 8 4 = addr
  reserved : r.num 12 4 = 0
  value : BitVec.ofNat 64 (r.num 16 8) = v

theorem writeFields_of_payload {r : Staged} {q : WriteReq} {reg : Reg} (h : r.payload = (writeMsg q reg).payload) :
    WriteFields r reg.addr q.value := by
  have hcount := slice_append [] (beBytes 2 1) (List.replicate 6 0 ++ (beBytes 4 reg.addr ++ (List.replicate 4 0 ++ beBytes 8 q.value.toNat)))
  have haddr := slice_append (beBytes 2 1 ++ List.replicate 6 0) (beBytes 4 reg.addr) (List.replicate 4 0 ++ beBytes 8 q.value.toNat)
  have hzero := slice_append (beBytes 2 1 ++ List.replicate 6 0 ++ beBytes 4 reg.addr) (List.replicate 4 0) (beBytes 8 q.value.toNat)
  have hvalue := slice_append (beBytes 2 1 ++ List.replicate 6 0 ++ beBytes 4 reg.addr ++ List.replicate 4 0) (beBytes 8 q.value.toNat) []
  simp only [List.append_assoc, List.nil_append, List.append_nil, List.length_append, List.length_nil, length_beBytes,
    List.length_replicate] at hcount haddr hzero hvalue
  simp only [writeMsg, List.append_assoc] at h
  have hv : q.value.toNat % 256 ^ 8 = q.value.toNat := Nat.mod_eq_of_lt q.value.isLt
  constructor
  · rw [Staged.num, h, hcount]; rfl
  · simp [h]
  · rw [Staged.num, h, haddr, beNat_beBytes]; exact Nat.mod_eq_of_lt reg.addr_bounds.2
  · rw [Staged.num, h, hzero]; rfl
  · rw [Staged.num, h, hvalue, beNat_beBytes, hv, BitVec.ofNat_toNat, BitVec.setWidth_eq]

/-! ### Writes of PICK_SOURCE (R52 to R54) -/

/-- What a write of PICK_SOURCE that arms or disarms the source leaves: the register as written, the source acquiring or disarmed with
no boundary formed, and picks and fault records as they were. -/
structure Switched (s : State) (v : Word) (t : State) : Prop where
  source : t.reg .pickSource = v
  state : t.sourceState = if Fl.pickSource_SEL.get v = 0 then 0 else 1
  holdover : t.fld .pickStatus Fl.pickStatus_HOLDOVER_PICKS = 0
  pick : t.pick = s.pick.idle
  now : t.now = s.now
  safety : t.safety = s.safety

/-- The register as written, REF_OK cleared where the reference is turned off. -/
def State.sourceWritten (s : State) (v : Word) : State :=
  if Fl.pickSource_REF_EN.get v = 0 then (s.setReg .pickSource v).setFld .pickStatus Fl.pickStatus_REF_OK 0 else s.setReg .pickSource v

theorem State.sourceWritten_pick (s : State) (v : Word) : (s.sourceWritten v).pick = s.pick := by
  unfold State.sourceWritten
  split <;> rfl

theorem State.sourceWritten_safety (s : State) (v : Word) : (s.sourceWritten v).safety = s.safety := by
  unfold State.sourceWritten
  split <;> rfl

theorem State.sourceWritten_source (s : State) (v : Word) : (s.sourceWritten v).reg .pickSource = v := by
  unfold State.sourceWritten
  split
  · rw [State.reg_setFld_of_ne _ _ _ (by decide), State.reg_setReg_self]
  · exact s.reg_setReg_self _ _

theorem State.sourceWritten_now (s : State) (v : Word) : (s.sourceWritten v).reg .pickNow = s.reg .pickNow := by
  unfold State.sourceWritten
  split
  · rw [State.reg_setFld_of_ne _ _ _ (by decide), State.reg_setReg_of_reg_ne _ _ (by decide)]
  · exact s.reg_setReg_of_reg_ne _ (by decide)

/-- The fields of PICK_STATUS that a switch of the source writes: no holdover picks, no offset, and the state of the source. -/
def State.statusSwitched (s : State) (n : Nat) : State :=
  ((s.setFld .pickStatus Fl.pickStatus_HOLDOVER_PICKS 0).setFld .pickStatus Fl.pickStatus_OFFSET_NS 0).setSource n

theorem State.statusSwitched_reg_of_ne (s : State) (n : Nat) {q : Reg} (h : q ≠ .pickStatus) : (s.statusSwitched n).reg q = s.reg q := by
  rw [statusSwitched, setSource, reg_setFld_of_ne _ _ _ h, reg_setFld_of_ne _ _ _ h, reg_setFld_of_ne _ _ _ h]

theorem State.statusSwitched_state (s : State) (n : Nat) : (s.statusSwitched n).sourceState = n % 8 :=
  State.fld_setFld_self _ _ (by decide) n

theorem State.statusSwitched_holdover (s : State) (n : Nat) : (s.statusSwitched n).fld .pickStatus Fl.pickStatus_HOLDOVER_PICKS = 0 := by
  rw [statusSwitched, setSource, fld_setFld_of_apart _ _ (.inl (by decide)), fld_setFld_of_apart _ _ (.inr (by decide)),
    fld_setFld_self _ _ (by decide)]
  rfl

theorem State.writeSource_of_switch {s : State} {v : Word} (h : Fl.pickSource_SEL.get v ≠ s.sel) :
    s.writeSource v =
      ({ s.sourceWritten v with pick := (s.sourceWritten v).pick.idle } : State).statusSwitched (if Fl.pickSource_SEL.get v = 0 then 0 else 1) := by
  rw [State.writeSource]
  exact if_neg h

theorem State.writeSource_switches {s : State} {v : Word} (h : Fl.pickSource_SEL.get v ≠ s.sel) : Switched s v (s.writeSource v) := by
  rw [State.writeSource_of_switch h]
  constructor
  · rw [statusSwitched_reg_of_ne _ _ (by decide)]; exact s.sourceWritten_source v
  · rw [statusSwitched_state]; split <;> rfl
  · exact statusSwitched_holdover _ _
  · exact congrArg PickUnit.idle (s.sourceWritten_pick v)
  · rw [State.now, statusSwitched_reg_of_ne _ _ (by decide)]; exact s.sourceWritten_now v
  · exact s.sourceWritten_safety v

/-! ### Which writes of PICK_SOURCE are accepted (R52) -/

theorem State.sourceOk_ptp {s : State} {v : Word} (hs : s.sel = 0) (hlo : 500000 ≤ s.period) (hhi : s.period ≤ 1000000000)
    (hv : Fl.pickSource_SEL.get v = 1) : s.sourceOk v = true := by
  simp [State.sourceOk, hs, hv, hlo, hhi]

theorem State.sourceOk_pulse {s : State} {v : Word} (hs : s.sel = 0) (hlo : 500000 ≤ s.period) (hhi : s.period ≤ 1000000000)
    (hv : Fl.pickSource_SEL.get v = 2) (hw : 1000 ≤ Fl.pickSource_WINDOW_NS.get v) (hw4 : 4 * Fl.pickSource_WINDOW_NS.get v ≤ s.period) :
    s.sourceOk v = true := by
  simp [State.sourceOk, hs, hv, hlo, hhi, hw, hw4]

theorem State.sourceOk_disarm {s : State} {v : Word} (hs : s.sel ≠ 0) (hp : ∀ e ∈ s.parts, e.2.started = false)
    (hv : Fl.pickSource_SEL.get v = 0) : s.sourceOk v = true := by
  simp only [State.sourceOk, ne_eq, hs, not_false_eq_true, if_true, hv]
  simpa using hp

theorem State.not_sourceOk_armed {s : State} {v : Word} (hs : s.sel ≠ 0) (hv : Fl.pickSource_SEL.get v ≠ 0) : ¬ s.sourceOk v = true := by
  simp [State.sourceOk, hs, hv]

end Sys2Proof.Machine

namespace Sys2Proof.Claims

open Sys2Proof Sys2Proof.Machine

/-! ### What REG_WRITE answers -/

theorem exec_regWrite_eq (m : Msg) (s : State) : exec (.regWrite m) s = s.septa typeRegWrite m handleRegWrite := rfl

theorem regWrite_one_answers (s : State) (m : Msg) (r : Staged) (u : State) (h : Reaches s typeRegWrite m r u) (hn : r.num 0 2 = 1)
    (hl : m.payload.length = 24) :
    let a := r.num 8 4
    let w : Word := BitVec.ofNat 64 (r.num 16 8)
    (r.num 12 4 ≠ 0 → Replies (.regWrite m) s r 2 12 [] (· = u))
      ∧ (r.num 12 4 = 0 → u.mayWrite a w = none → Replies (.regWrite m) s r 2 8 [] (· = u))
      ∧ (∀ reg, r.num 12 4 = 0 → u.mayWrite a w = some reg → reg ≠ .pickSource → reg ≠ .farCmd → reg ≠ .moduleReset →
          (∀ k, reg ≠ .memEvac k) →
          Done (.regWrite m) s r [] (fun v => { v with regs := u.regs } = u ∧ (∀ q, q ≠ reg → v.reg q = u.reg q)
            ∧ ∀ f ∈ reg.fields, v.fld reg f =
                (if f.acc = .rw then f.get w else if f.acc = .w1c ∧ f.get w = 1 then 0 else u.fld reg f))) := by
  rw [← payload_of_reaches h rfl] at hl
  refine ⟨fun hz => ?_, fun hz hm => ?_, fun reg hz hm hsource hfar hreset hevac => ?_⟩
  · exact replies_of_handler h (exec_regWrite_eq m s) (handleRegWrite_one_error hn hl (State.checkWrites_reserved (i := 0) hz 0)) rfl
  · exact replies_of_handler h (exec_regWrite_eq m s) (handleRegWrite_one_error hn hl (State.checkWrites_unaccepted (i := 0) hz hm 0)) rfl
  · refine replies_of_handler h (exec_regWrite_eq m s) (handleRegWrite_one_accepted hn hl hz hm) ?_
    rw [u.writeReg_of_ordinary ⟨hsource, hfar, hreset, hevac⟩]
    exact ⟨by rw [State.plainWrite_eq]; exact u.putFlds_frame _ _ _,
      fun q hq => by rw [State.plainWrite_eq, State.reg_putFlds_of_ne _ _ _ hq], fun f hf => u.fld_plainWrite reg _ hf⟩

theorem regWrite_refuses_whole (s : State) (m : Msg) (r : Staged) (u : State) (i : Nat) (h : Reaches s typeRegWrite m r u)
    (h0 : 0 < r.num 0 2) (h64 : r.num 0 2 ≤ 64) (hl : m.payload.length = 8 + 16 * r.num 0 2) (hi : i < r.num 0 2)
    (_ : r.num (12 + 16 * i) 4 = 0) (hm : u.mayWrite (r.num (8 + 16 * i) 4) (BitVec.ofNat 64 (r.num (16 + 16 * i) 8)) = none) :
    ∃ off, Replies (.regWrite m) s r 2 off [] (· = u) := by
  rw [← payload_of_reaches h rfl] at hl
  obtain ⟨off, hoff⟩ := State.checkWrites_error hm (Nat.zero_le i) (by omega : i < 0 + r.num 0 2)
  exact ⟨off, replies_of_handler h (exec_regWrite_eq m s) (handleRegWrite_error h0 h64 hl hoff) rfl⟩

theorem registerMessages : RegisterMessages := by
  refine ⟨echo_answers, fun s m r u h => ?_, regWrite_one_answers, regWrite_refuses_whole⟩
  obtain ⟨hcount, hunmapped, hmapped⟩ := regRead_answers s m r u h
  exact ⟨hcount, hunmapped, hmapped, fun reg hn hreg => regRead_one h hn hreg⟩

/-! ### The rows that write PICK_SOURCE and MODULE_RESET -/

section
variable {s : State} {q : WriteReq} {r : Staged} {u : State} {c : Instr} {reg : Reg} (h : Reaches s typeRegWrite (writeMsg q reg) r u)
  (hc : exec c s = execRegWrite (writeMsg q reg) s) (hw : reg.writable = true) (hz : reg.zeroBits q.value = true)
include h hc hw hz

/-- A row's write that its register takes is done. -/
theorem row_done (hok : u.writeOk reg q.value = true) {P : State → Prop} (hP : P (u.writeReg reg q.value)) : Done c s r [] P := by
  obtain ⟨hcount, hlen, haddr, hres, hval⟩ := writeFields_of_payload (payload_of_reaches h rfl)
  have hm : u.mayWrite (r.num 8 4) (BitVec.ofNat 64 (r.num 16 8)) = some reg := by
    rw [haddr, hval, u.mayWrite_addr hw hz, if_pos hok]
  refine replies_of_handler h hc (handleRegWrite_one_accepted hcount hlen hres hm) ?_
  rw [hval]; exact hP

/-- A row's write that its register does not take is refused. -/
theorem row_refused (hok : ¬ u.writeOk reg q.value = true) : Replies c s r 2 8 [] (· = u) := by
  obtain ⟨hcount, hlen, haddr, hres, hval⟩ := writeFields_of_payload (payload_of_reaches h rfl)
  have hm : u.mayWrite (r.num 8 4) (BitVec.ofNat 64 (r.num 16 8)) = none := by
    rw [haddr, hval, u.mayWrite_addr hw hz, if_neg hok]
  exact replies_of_handler h hc (handleRegWrite_one_error hcount hlen (State.checkWrites_unaccepted (i := 0) hres hm 0)) rfl

end

theorem exec_of_mine {q : WriteReq} {reg : Reg} {mine : Bool} {name : String} (s : State) (h : mine = true) :
    oneWrite q reg mine name s = execRegWrite (writeMsg q reg) s := if_pos h

section
variable {s : State} {q : WriteReq}

theorem exec_armPtp (h : Fl.pickSource_SEL.get q.value = 1) : exec (.pickSourceArmPtp q) s = execRegWrite (writeMsg q .pickSource) s :=
  exec_of_mine s (beq_iff_eq.mpr h)

theorem exec_armPulse (h : Fl.pickSource_SEL.get q.value = 2) : exec (.pickSourceArmPulse q) s = execRegWrite (writeMsg q .pickSource) s :=
  exec_of_mine s (beq_iff_eq.mpr h)

theorem exec_disarm (h : Fl.pickSource_SEL.get q.value = 0) : exec (.pickSourceDisarm q) s = execRegWrite (writeMsg q .pickSource) s :=
  exec_of_mine s (beq_iff_eq.mpr h)

theorem exec_resetRequest (h : Fl.moduleReset_REQUEST.get q.value = 1) :
    exec (.moduleResetRequest q) s = execRegWrite (writeMsg q .moduleReset) s :=
  exec_of_mine s (beq_iff_eq.mpr h)

end

/-- An accepted write of PICK_SOURCE that changes SEL switches the source. -/
theorem switch_done {s : State} {q : WriteReq} {r : Staged} {u : State} {c : Instr} (h : Reaches s typeRegWrite (writeMsg q .pickSource) r u)
    (hc : exec c s = execRegWrite (writeMsg q .pickSource) s) (hz : (Reg.pickSource).zeroBits q.value = true)
    (hok : u.sourceOk q.value = true) (hne : Fl.pickSource_SEL.get q.value ≠ u.sel) {P : State → Prop}
    (hP : ∀ v, Switched u q.value v → P v) : Done c s r [] P :=
  row_done h hc rfl hz hok (hP _ (State.writeSource_switches hne))

theorem pickSourceAndResetWrites : PickSourceAndResetWrites := by
  intro s q r u
  refine ⟨fun h hz => ⟨fun hs hlo hhi => ⟨fun hv => ?_, fun hv hw hw4 => ?_⟩, fun hs hp hv => ?_, fun hs hv => ?_, fun hs hv => ?_⟩,
    fun h hz hv => ?_⟩
  · refine switch_done h (exec_armPtp hv) hz (State.sourceOk_ptp hs hlo hhi hv) (by omega) ?_
    rintro v ⟨hsource, hstate, -, hpick, hnow, hsafety⟩
    rw [hv] at hstate
    exact ⟨hsource, hstate, by rw [hpick]; rfl, by rw [hpick]; rfl, by rw [hpick]; rfl, hnow, hsafety⟩
  · refine switch_done h (exec_armPulse hv) hz (State.sourceOk_pulse hs hlo hhi hv hw hw4) (by omega) ?_
    rintro v ⟨hsource, hstate, -, hpick, hnow, hsafety⟩
    rw [hv] at hstate
    exact ⟨hsource, hstate, by rw [hpick]; rfl, by rw [hpick]; rfl, by rw [hpick]; rfl, by rw [hpick]; rfl, hnow, hsafety⟩
  · refine switch_done h (exec_disarm hv) hz (State.sourceOk_disarm hs hp hv) (by omega) ?_
    rintro v ⟨hsource, hstate, hholdover, hpick, hnow, hsafety⟩
    rw [hv] at hstate
    exact ⟨by rw [State.sel, State.fld, hsource, hv], hstate, by rw [hpick]; rfl, hnow, hholdover, hsafety⟩
  · exact row_refused h (exec_armPtp hv) rfl hz (State.not_sourceOk_armed hs (by omega))
  · exact row_refused h (exec_armPulse hv) rfl hz (State.not_sourceOk_armed hs (by omega))
  · exact row_done h (exec_resetRequest hv) rfl hz rfl (if_pos hv)

/-- Settles O34: a message that reaches its handler is answered by it. Reads and ordinary writes go field by field, since no two fields
of a register share a bit; a write of PICK_SOURCE goes by what a switch of the source leaves. -/
theorem registersAreReadAndWritten : Obligations.RegistersAreReadAndWritten := ⟨registerMessages, pickSourceAndResetWrites⟩

end Sys2Proof.Claims
end

section
/-! PROOFS. What the operations on partitions leave and write: tables under filters, changes of several looms, and a partition as it
starts (02 R44, R46; 05 R112; 06 R117; 15 R295; 16 R314). -/

namespace Sys2Proof.Machine

open Sys2Proof

/-! ### Tables that keep some keys -/

theorem Tab.get_keep {α : Type} (t : Tab α) (f : Nat → Bool) (i : Nat) (d : α) :
    (t.keep (fun j _ => f j)).get i d = if f i = true then t.get i d else d := by
  induction t with
  | nil => simp [Tab.keep]
  | cons e rest ih =>
    obtain ⟨j, v⟩ := e
    simp only [Tab.keep, List.filter_cons] at ih ⊢
    by_cases hj : j = i
    · subst hj
      by_cases hf : f j = true <;> simp_all [Tab.get]
    · by_cases hf : f j = true <;> simp_all [Tab.get]

theorem Tab.find?_del_self {α : Type} (t : Tab α) (k : Nat) : (t.del k).find? k = none := by
  induction t with
  | nil => rfl
  | cons e rest ih =>
    obtain ⟨j, v⟩ := e
    by_cases hj : j = k
    · simpa [Tab.del, hj] using ih
    · simpa [Tab.del, Tab.find?, hj] using ih

/-- Where one partition has been put in the table, it stands there. -/
theorem State.part?_of_ins_self {s t : State} {p : Fin 16} {y : Part} (h : t.parts = s.parts.ins p.val y) : t.part? p = some y := by
  rw [part?, h]
  exact Tab.find?_ins_self _ _ _

/-- Where one partition has been put in the table, every other is as it was. -/
theorem State.part?_of_ins_of_ne {s t : State} {p q : Fin 16} {y : Part} (h : t.parts = s.parts.ins p.val y) (hq : q ≠ p) :
    t.part? q = s.part? q := by
  rw [part?, h]
  exact Tab.find?_ins_of_ne _ _ (fun e => hq (Fin.ext e))

theorem millKey_part (m : Fin 8) (p : Fin 16) (c : Fin 8) : millKey m p c % 128 / 8 = p.val := by
  simp only [millKey]; omega

/-! ### Changes of several looms -/

/-- What every step of a fold keeps, the fold keeps. -/
theorem foldl_keeps {σ α β : Type} {f : σ → α → σ} (g : σ → β) (l : List α) (s : σ) (h : ∀ s a, g (f s a) = g s := by intros; rfl) :
    g (l.foldl f s) = g s := by
  induction l generalizing s with
  | nil => rfl
  | cons a rest ih => exact (ih (f s a)).trans (h s a)

/-- Some looms changed one after another, each by its number. -/
def State.modLooms (s : State) (f : Fin 256 → Loom → Loom) (l : List Nat) : State :=
  l.foldl (fun s n => s.modLoom (Fin.ofNat 256 n) (f (Fin.ofNat 256 n))) s

section
variable (s : State) (f : Fin 256 → Loom → Loom)

theorem State.modLooms_cons (n : Nat) (l : List Nat) :
    s.modLooms f (n :: l) = (s.modLoom (Fin.ofNat 256 n) (f (Fin.ofNat 256 n))).modLooms f l := rfl

/-- Nothing but looms changes. -/
theorem State.modLooms_frame (l : List Nat) : { s.modLooms f l with looms := s.looms } = s :=
  congrArg (fun t : State => { t with looms := s.looms })
    (foldl_keeps (fun t : State => { t with looms := [] }) l s)

@[simp] theorem State.modLooms_parts (l : List Nat) : (s.modLooms f l).parts = s.parts :=
  foldl_keeps State.parts l s
@[simp] theorem State.modLooms_mem (l : List Nat) : (s.modLooms f l).mem = s.mem :=
  foldl_keeps State.mem l s
@[simp] theorem State.modLooms_sec (l : List Nat) : (s.modLooms f l).sec = s.sec :=
  foldl_keeps State.sec l s

theorem State.loom_modLooms_of_not_mem {g : Fin 256} {l : List Nat} (h : ∀ n ∈ l, Fin.ofNat 256 n ≠ g) :
    (s.modLooms f l).loom g = s.loom g := by
  induction l generalizing s with
  | nil => rfl
  | cons n rest ih =>
    rw [modLooms_cons, ih _ (fun m hm => h m (List.mem_cons_of_mem n hm)),
      loom_modLoom_of_ne _ _ (Ne.symm (h n List.mem_cons_self))]

/-- A change that, made twice, is the change made once reaches each loom of the list. -/
theorem State.loom_modLooms_of_mem {g : Fin 256} {l : List Nat} (hf : ∀ k, f g (f g k) = f g k) (h : ∃ n ∈ l, Fin.ofNat 256 n = g) :
    (s.modLooms f l).loom g = f g (s.loom g) := by
  induction l generalizing s with
  | nil => obtain ⟨_, hn, -⟩ := h; cases hn
  | cons n rest ih =>
    rw [modLooms_cons]
    by_cases hr : ∃ m ∈ rest, Fin.ofNat 256 m = g
    · rw [ih _ hr]
      by_cases hn : Fin.ofNat 256 n = g
      · subst hn; rw [loom_modLoom_self, hf]
      · rw [loom_modLoom_of_ne _ _ (Ne.symm hn)]
    · rw [loom_modLooms_of_not_mem _ _ (fun m hm hg => hr ⟨m, hm, hg⟩)]
      obtain ⟨m, hm, rfl⟩ := h
      rcases List.mem_cons.mp hm with rfl | hm
      · rw [loom_modLoom_self]
      · exact absurd ⟨m, hm, rfl⟩ hr

end

/-- A loom of the list stands in it under its own number. -/
theorem exists_ofNat_eq {g : Fin 256} {l : List Nat} (h : g.val ∈ l) : ∃ n ∈ l, Fin.ofNat 256 n = g := ⟨g.val, h, Fin.ofNat_val_eq_self g⟩

/-- The loom as a partition's treadlings are loaded into it. -/
def Loom.loaded (k : PartCfg) (g : Fin 256) (l : Loom) : Loom := { l with store := k.loadCode g, bad := [] }

/-- The loom as a partition takes it. -/
def Loom.taken (p : Fin 16) (k : PartCfg) (g : Fin 256) (l : Loom) : Loom :=
  { l.free with part := some p, store := l.store, bad := l.bad, seqs := k.seqs g }

/-- The loom with its store zeroised. -/
def Loom.zeroised (l : Loom) : Loom := { l with store := [], bad := [] }

theorem State.loadTreads_eq (s : State) (k : PartCfg) : s.loadTreads k = s.modLooms (Loom.loaded k) k.looms := rfl
theorem State.takeLooms_eq (s : State) (p : Fin 16) (k : PartCfg) : s.takeLooms p k = s.modLooms (Loom.taken p k) k.looms := rfl
theorem State.freeLooms_eq (s : State) (l : List Nat) : s.freeLooms l = s.modLooms (fun _ => Loom.free) l := rfl

section
variable (s : State) (p : Fin 16) (k : PartCfg) {g : Fin 256}

theorem State.loom_loadTreads_of_mem (h : g.val ∈ k.looms) : (s.loadTreads k).loom g = (s.loom g).loaded k g :=
  s.loom_modLooms_of_mem (Loom.loaded k) (fun _ => rfl) (exists_ofNat_eq h)

theorem State.loom_loadTreads_of_not_mem (h : ∀ n ∈ k.looms, Fin.ofNat 256 n ≠ g) : (s.loadTreads k).loom g = s.loom g :=
  s.loom_modLooms_of_not_mem (Loom.loaded k) h

theorem State.takeLooms_frame : { s.takeLooms p k with looms := s.looms } = s := s.modLooms_frame (Loom.taken p k) k.looms

theorem State.loom_takeLooms_of_mem (h : g.val ∈ k.looms) : (s.takeLooms p k).loom g = (s.loom g).taken p k g :=
  s.loom_modLooms_of_mem (Loom.taken p k) (fun _ => rfl) (exists_ofNat_eq h)

theorem State.loom_takeLooms_of_not_mem (h : ∀ n ∈ k.looms, Fin.ofNat 256 n ≠ g) : (s.takeLooms p k).loom g = s.loom g :=
  s.loom_modLooms_of_not_mem (Loom.taken p k) h

@[simp] theorem State.loadTreads_parts : (s.loadTreads k).parts = s.parts :=
  s.modLooms_parts (Loom.loaded k) k.looms

@[simp] theorem State.takeLooms_parts : (s.takeLooms p k).parts = s.parts :=
  s.modLooms_parts (Loom.taken p k) k.looms

@[simp] theorem State.freeLooms_parts (l : List Nat) : (s.freeLooms l).parts = s.parts :=
  s.modLooms_parts (fun _ => Loom.free) l

/-- The stores of the looms are emptied, and the partition's mill-store carves. -/
theorem State.zeroiseStores_eq : s.zeroiseStores p k =
    { s.modLooms (fun _ => Loom.zeroised) k.looms with mem := { s.mem with
        millStore := s.mem.millStore.keep (fun i _ => !(i % 128 / 8 == p.val)),
        millBad := s.mem.millBad.keep (fun i _ => !(i % 128 / 8 == p.val)) } } := by
  rw [← s.modLooms_mem (fun _ => Loom.zeroised) k.looms]
  rfl

@[simp] theorem State.zeroiseStores_parts : (s.zeroiseStores p k).parts = s.parts := by
  rw [zeroiseStores_eq]
  exact s.modLooms_parts (fun _ => Loom.zeroised) k.looms

end

/-! ### What fitting out looms, slots and keys leaves -/

/-- What stays as looms and slots are freed and taken and keys are drawn and dropped. -/
structure State.FitsOut (s t : State) : Prop where
  regs : t.regs = s.regs
  safety : t.safety = s.safety
  draft : t.draft = s.draft
  outcomes : t.net.outcomes = s.net.outcomes

theorem State.FitsOut.refl (s : State) : s.FitsOut s := ⟨rfl, rfl, rfl, rfl⟩

theorem State.FitsOut.trans {s t u : State} (h : s.FitsOut t) (k : t.FitsOut u) : s.FitsOut u :=
  ⟨k.regs.trans h.regs, k.safety.trans h.safety, k.draft.trans h.draft, k.outcomes.trans h.outcomes⟩

theorem State.fitsOut_foldl {α : Type} {f : State → α → State} (h : ∀ (s : State) (a : α), s.FitsOut (f s a)) (l : List α) (s : State) :
    s.FitsOut (l.foldl f s) := by
  induction l generalizing s with
  | nil => exact .refl s
  | cons a rest ih => exact (h s a).trans (ih (f s a))

section
variable (s : State) (p : Fin 16) (k : PartCfg)

theorem State.fitsOut_setPart (x : Part) : s.FitsOut (s.setPart p x) := ⟨rfl, rfl, rfl, rfl⟩
theorem State.fitsOut_setLoom (g : Fin 256) (l : Loom) : s.FitsOut (s.setLoom g l) := ⟨rfl, rfl, rfl, rfl⟩
theorem State.fitsOut_setSlot (i : Fin 1024) (x : Slot) : s.FitsOut (s.setSlot i x) := ⟨rfl, rfl, rfl, rfl⟩
theorem State.fitsOut_drbg (w : Nat) : s.FitsOut (s.drbg w).2 := ⟨rfl, rfl, rfl, rfl⟩
theorem State.fitsOut_freeSlots : s.FitsOut (s.freeSlots p) := ⟨rfl, rfl, rfl, rfl⟩
theorem State.fitsOut_emptyWindows : s.FitsOut (s.emptyWindows p) := ⟨rfl, rfl, rfl, rfl⟩

theorem State.fitsOut_modLooms (f : Fin 256 → Loom → Loom) (l : List Nat) : s.FitsOut (s.modLooms f l) :=
  fitsOut_foldl (fun t n => t.fitsOut_setLoom (Fin.ofNat 256 n) _) l s

theorem State.fitsOut_takeLooms : s.FitsOut (s.takeLooms p k) := s.fitsOut_modLooms (Loom.taken p k) k.looms
theorem State.fitsOut_loadTreads : s.FitsOut (s.loadTreads k) := s.fitsOut_modLooms (Loom.loaded k) k.looms
theorem State.fitsOut_freeLooms (l : List Nat) : s.FitsOut (s.freeLooms l) := s.fitsOut_modLooms (fun _ => Loom.free) l

theorem State.fitsOut_takeSlots : s.FitsOut (s.takeSlots p k) :=
  fitsOut_foldl (fun t (c : CreelCfg) => t.fitsOut_setSlot (Fin.ofNat 1024 c.slot) { Slot.reset with part := some p }) k.creel s

@[simp] theorem State.takeSlots_parts : (s.takeSlots p k).parts = s.parts :=
  foldl_keeps State.parts k.creel s

end

/-! ### Starting a partition (R44, R314) -/

/-- The partition as it starts at boundary n. -/
def Part.begun (x : Part) (n : Word) (selfTest : Bool) : Part :=
  { x with
    start := some n, due := none, position := 0, cycles := 0, code := x.cfg.codeAt n.toNat n.toNat, entry := x.cfg.entryAt n.toNat n.toNat selfTest,
    ctxs := (List.range x.cfg.nctx).foldl (fun t c => t.put c { Ctx.zero with acct := { Acct.zero with epoch := n.toNat } } Ctx.zero) [] }

theorem State.beginSwatch_of_unarmed {s : State} {p : Fin 16} (h : s.safety.armings.find? p.val = none) (n : Word) (vs : List CarveCfg) :
    s.beginSwatch p n vs = s := by
  simp [beginSwatch, h]

theorem State.startPart_of_unarmed {s : State} {p : Fin 16} {x : Part} (hx : s.part? p = some x)
    (h : s.safety.armings.find? p.val = none) (n : Word) (vs : List CarveCfg) :
    s.startPart p n vs = (s.setPart p (x.begun n s.safety.selfTest)).takeLooms p x.cfg := by
  simp only [startPart, hx]
  refine beginSwatch_of_unarmed ?_ n vs
  rw [(fitsOut_takeLooms _ p _).safety]
  exact h

theorem queues_foldl_put {k : Ctx} (hk : k.queues = []) (l : List Nat) {t : Tab Ctx} {i : Nat} (ht : (t.get i Ctx.zero).queues = []) :
    ((l.foldl (fun t c => t.put c k Ctx.zero) t).get i Ctx.zero).queues = [] := by
  induction l generalizing t with
  | nil => exact ht
  | cons c rest ih =>
    refine ih ?_
    by_cases hc : i = c
    · rw [hc, Tab.get_put_self]; exact hk
    · rw [Tab.get_put_of_ne _ _ _ _ hc]; exact ht

/-- Nothing is queued in a partition that has just started. -/
theorem Part.queues_begun (x : Part) (n : Word) (b : Bool) (c : Fin 8) : ((x.begun n b).ctx c).queues = [] :=
  queues_foldl_put rfl _ rfl

/-- The sequencer of a treadling at the start of its partition (R117). -/
def TreadCfg.firstSeq (t : TreadCfg) : Seq := { Seq.zero with pc := BitVec.ofNat 32 t.entry }

/-- Each context's sequencer is its last treadling's. -/
theorem get_foldl_firstSeq (l : List TreadCfg) (m : Tab Seq) (i : Nat) :
    (l.foldl (fun m t => m.put t.ctx t.firstSeq Seq.zero) m).get i Seq.zero
      = (l.filter (fun t => t.ctx == i)).getLast?.elim (m.get i Seq.zero) TreadCfg.firstSeq := by
  induction l generalizing m with
  | nil => rfl
  | cons t rest ih =>
    rw [List.foldl_cons, ih, List.filter_cons]
    by_cases ht : t.ctx = i
    · rw [if_pos (beq_iff_eq.mpr ht), List.getLast?_cons, ht, Tab.get_put_self]
      cases (rest.filter (fun t => t.ctx == i)).getLast? <;> rfl
    · rw [if_neg (by simpa using ht), Tab.get_put_of_ne _ _ _ _ (Ne.symm ht)]

/-- A context's sequencer has not started and holds no tile, whether it has a treadling or none. -/
theorem firstSeq_idle (o : Option TreadCfg) :
    (o.elim Seq.zero TreadCfg.firstSeq).run = .notStarted ∧ (o.elim Seq.zero TreadCfg.firstSeq).tile = none := by
  cases o <;> exact ⟨rfl, rfl⟩

theorem PartCfg.seqs_get (k : PartCfg) (g : Fin 256) (i : Nat) : (k.seqs g).get i Seq.zero
    = (k.treads.filter (fun t => t.ctx == i && t.loom == g.val)).getLast?.elim Seq.zero TreadCfg.firstSeq := by
  rw [← List.filter_filter]
  exact get_foldl_firstSeq _ [] i

end Sys2Proof.Machine
end

section
/-! PROOFS. Drafts in hand (02 R40, R44, R45, R47, R49): what a refusal and an acceptance leave, and the judgement of a draft. -/

namespace Sys2Proof.Machine

open Sys2Proof

/-! ### Creating partitions (R44) -/

/-- A partition created for a configuration, and not started. -/
def State.HoldsFresh (s : State) (p : Fin 16) (k : PartCfg) : Prop :=
  ∃ key cloth, s.part? p = some (Part.fresh k key cloth [] (Dest.blank false))

section
variable (s : State) (p : Fin 16) (k : PartCfg)

theorem State.createPart_parts :
    ∃ key cloth, (s.createPart p k).parts = s.parts.ins p.val (Part.fresh k key cloth [] (Dest.blank false)) := by
  refine ⟨(s.drbg 128).1, { Cloth.empty with pages := (s.drbg 128).2.farMap k.carves [] }, ?_⟩
  show (State.takeSlots _ p k).parts = _
  rw [takeSlots_parts, takeLooms_parts, loadTreads_parts, freeLooms_parts]
  rfl

theorem State.fitsOut_createPart : s.FitsOut (s.createPart p k) :=
  (s.fitsOut_drbg 128).trans <| (fitsOut_setPart _ p _).trans <| (fitsOut_freeLooms _ k.looms).trans <| (fitsOut_loadTreads _ k).trans <|
    (fitsOut_takeLooms _ p k).trans <| (fitsOut_takeSlots _ p k).trans (fitsOut_emptyWindows _ p)

theorem State.holdsFresh_createPart : (s.createPart p k).HoldsFresh p k := by
  obtain ⟨key, cloth, h⟩ := s.createPart_parts p k
  exact ⟨key, cloth, part?_of_ins_self h⟩

theorem State.part?_createPart_of_ne {q : Fin 16} (hq : q ≠ p) : (s.createPart p k).part? q = s.part? q := by
  obtain ⟨key, cloth, h⟩ := s.createPart_parts p k
  exact part?_of_ins_of_ne h hq

end

/-- The partitions of a draft created one after another. -/
def State.createParts (s : State) (cfgs : List (Nat × PartCfg)) : State :=
  cfgs.foldl (fun s e => s.createPart (Fin.ofNat 16 e.1) e.2) s

theorem State.createParts_cons (s : State) (e : Nat × PartCfg) (l : List (Nat × PartCfg)) :
    s.createParts (e :: l) = (s.createPart (Fin.ofNat 16 e.1) e.2).createParts l := rfl

theorem State.fitsOut_createParts (s : State) (cfgs : List (Nat × PartCfg)) : s.FitsOut (s.createParts cfgs) := by
  induction cfgs generalizing s with
  | nil => exact .refl s
  | cons e rest ih => exact (s.fitsOut_createPart _ e.2).trans (ih _)

theorem State.part?_createParts_of_ne (s : State) {q : Fin 16} {l : List (Nat × PartCfg)} (h : ∀ e ∈ l, Fin.ofNat 16 e.1 ≠ q) :
    (s.createParts l).part? q = s.part? q := by
  induction l generalizing s with
  | nil => rfl
  | cons e rest ih =>
    rw [createParts_cons, ih _ (fun e' he => h e' (List.mem_cons_of_mem e he)),
      part?_createPart_of_ne _ _ _ (Ne.symm (h e List.mem_cons_self))]

/-- Where no two configurations are for one partition, each creates its own. -/
theorem State.holdsFresh_createParts (s : State) {l : List (Nat × PartCfg)}
    (hone : ∀ e ∈ l, ∀ f ∈ l, Fin.ofNat 16 e.1 = Fin.ofNat 16 f.1 → e = f) {e : Nat × PartCfg} (he : e ∈ l) :
    (s.createParts l).HoldsFresh (Fin.ofNat 16 e.1) e.2 := by
  induction l generalizing s with
  | nil => cases he
  | cons a rest ih =>
    rw [createParts_cons]
    by_cases hrest : e ∈ rest
    · exact ih _ (fun b hb c hc => hone b (List.mem_cons_of_mem a hb) c (List.mem_cons_of_mem a hc)) hrest
    · obtain rfl : e = a := (List.mem_cons.mp he).resolve_right hrest
      have hother : ∀ f ∈ rest, Fin.ofNat 16 f.1 ≠ Fin.ofNat 16 e.1 := fun f hf heq =>
        hrest (hone f (List.mem_cons_of_mem e hf) e he heq ▸ hf)
      obtain ⟨key, cloth, h⟩ := s.holdsFresh_createPart (Fin.ofNat 16 e.1) e.2
      exact ⟨key, cloth, by rw [part?_createParts_of_ne _ hother, h]⟩

/-! ### The judgement of a draft (R40) -/

/-- A draft that no step refuses gives the configurations that its sections spell. -/
theorem State.eq_draftCfgs_of_judge {s : State} {bs : List Byte} {pick : Word} {cfgs : List (Nat × PartCfg)}
    (h : s.judge bs pick = .ok cfgs) : cfgs = draftCfgs bs := by
  simp only [judge] at h
  split at h
  · cases h
  · split at h
    · cases h
    · exact (Except.ok.inj h).symm

theorem eq_of_mem_draftCfgs {bs : List Byte} {e f : Nat × PartCfg} (he : e ∈ draftCfgs bs) (hf : f ∈ draftCfgs bs) (h : e.1 = f.1) : e = f := by
  obtain ⟨p, -, rfl⟩ := List.mem_map.mp he
  obtain ⟨q, -, rfl⟩ := List.mem_map.mp hf
  obtain rfl : p = q := h
  rfl

/-- A full draft's sections are for partitions 0 to 15 (R35). -/
theorem lt_of_mem_draftCfgs {bs : List Byte} (hfull : draftPanel bs = false) {e : Nat × PartCfg} (he : e ∈ draftCfgs bs) : e.1 < 16 := by
  obtain ⟨p, hp, rfl⟩ := List.mem_map.mp he
  rw [if_neg (by simp [hfull]), draftParts, List.mem_eraseDups, List.mem_filter] at hp
  exact of_decide_eq_true hp.2

theorem ofNat_inj_of_mem_draftCfgs {bs : List Byte} (hfull : draftPanel bs = false) :
    ∀ e ∈ draftCfgs bs, ∀ f ∈ draftCfgs bs, Fin.ofNat 16 e.1 = Fin.ofNat 16 f.1 → e = f := by
  intro e he f hf h
  have hmod : e.1 % 16 = f.1 % 16 := congrArg Fin.val h
  have := lt_of_mem_draftCfgs hfull he
  have := lt_of_mem_draftCfgs hfull hf
  exact eq_of_mem_draftCfgs he hf (by omega)

/-! ### A draft in hand is done with (R346) -/

section
variable (s : State) (l : Loading) (status field : Nat)

/-- What stays as the draft in hand is done with. -/
theorem State.endLoading_frame :
    { s.endLoading l status field with draft := s.draft, net := s.net } = s := by
  unfold endLoading
  cases l.request <;> rfl

@[simp] theorem State.endLoading_regs : (s.endLoading l status field).regs = s.regs :=
  (congrArg State.regs (s.endLoading_frame l status field) :)
@[simp] theorem State.endLoading_safety : (s.endLoading l status field).safety = s.safety :=
  (congrArg State.safety (s.endLoading_frame l status field) :)
@[simp] theorem State.endLoading_mem : (s.endLoading l status field).mem = s.mem :=
  (congrArg State.mem (s.endLoading_frame l status field) :)
@[simp] theorem State.endLoading_looms : (s.endLoading l status field).looms = s.looms :=
  (congrArg State.looms (s.endLoading_frame l status field) :)
@[simp] theorem State.endLoading_parts : (s.endLoading l status field).parts = s.parts :=
  (congrArg State.parts (s.endLoading_frame l status field) :)

@[simp] theorem State.endLoading_draft : (s.endLoading l status field).draft = { s.draft with loading := none } := by
  unfold endLoading
  cases l.request <;> rfl

end

/-- The state in which a full draft's partitions are created: its fence maps are in force (R407). -/
def State.withFences (s : State) (bs : List Byte) : State :=
  { s with draft := { s.draft with fenceLooms := (s.load bs 0).fenceLooms, fenceLinks := (s.load bs 0).fenceLinks } }

section
variable (s : State) (bs : List Byte) (cfgs : List (Nat × PartCfg))

theorem State.acceptFull_eq : s.acceptFull bs cfgs =
    if ((s.withFences bs).createParts cfgs).fld .moduleState Fl.moduleState_PHASE = 3 then
      ((s.withFences bs).createParts cfgs).setFld .moduleState Fl.moduleState_PHASE 4
    else (s.withFences bs).createParts cfgs := rfl

theorem State.acceptFull_parts : (s.acceptFull bs cfgs).parts = ((s.withFences bs).createParts cfgs).parts := by
  rw [acceptFull_eq]
  split <;> rfl

theorem State.acceptFull_safety : (s.acceptFull bs cfgs).safety = s.safety := by
  have h : ((s.withFences bs).createParts cfgs).safety = s.safety := (fitsOut_createParts _ cfgs).safety
  rw [acceptFull_eq, ← h]
  split <;> rfl

theorem State.acceptFull_outcomes : (s.acceptFull bs cfgs).net.outcomes = s.net.outcomes := by
  have h : ((s.withFences bs).createParts cfgs).net.outcomes = s.net.outcomes := (fitsOut_createParts _ cfgs).outcomes
  rw [acceptFull_eq, ← h]
  split <;> rfl

theorem State.phase_acceptFull (h : s.fld .moduleState Fl.moduleState_PHASE = 3) :
    (s.acceptFull bs cfgs).fld .moduleState Fl.moduleState_PHASE = 4 := by
  have hregs : ((s.withFences bs).createParts cfgs).regs = s.regs := (fitsOut_createParts _ cfgs).regs
  have hphase : ((s.withFences bs).createParts cfgs).fld .moduleState Fl.moduleState_PHASE = 3 := by
    rw [fld, reg, hregs]; exact h
  rw [acceptFull_eq, if_pos hphase, fld_setFld_self _ _ (by decide)]
  rfl

end

/-- The pending panel draft of a configuration. -/
def pendingOf (bs : List Byte) (e : Nat × PartCfg) : Panel :=
  { part := Fin.ofNat 16 e.1, effective := BitVec.ofNat 64 (draftPick bs), cfg := e.2, replaced := false }

theorem State.acceptPanel_eq (s : State) (bs : List Byte) (cfgs : List (Nat × PartCfg)) :
    s.acceptPanel bs cfgs = { s with draft := { s.draft with panels := s.draft.panels ++ cfgs.map (pendingOf bs) } } := by
  induction cfgs generalizing s with
  | nil => simp [acceptPanel]
  | cons e rest ih =>
    refine (ih { s with draft := { s.draft with panels := s.draft.panels ++ [pendingOf bs e] } }).trans ?_
    simp [List.append_assoc]

/-! ### The verdict, by its branches -/

section
variable {s : State} {l : Loading} (hl : s.draft.loading = some l)
include hl

theorem execDraftLoaderVerdict_late (h : s.panelLate l = true) : execDraftLoaderVerdict s = .next (s.missDeadline l) := by
  simp [execDraftLoaderVerdict, hl, h]

theorem execDraftLoaderVerdict_refused (h : s.panelLate l = false) {n : Nat} {b : Flaw} (hj : s.judge l.bytes l.pick = .error (n, b)) :
    execDraftLoaderVerdict s = .next ((s.refuseDraft n b).endLoading l 2 0xFFFF) := by
  simp [execDraftLoaderVerdict, hl, h, hj]

theorem execDraftLoaderVerdict_accepted (h : s.panelLate l = false) {cfgs : List (Nat × PartCfg)} (hj : s.judge l.bytes l.pick = .ok cfgs)
    (hready : s.drbgReady = true) : execDraftLoaderVerdict s =
      .next ((if draftPanel l.bytes then s.acceptPanel l.bytes cfgs else s.acceptFull l.bytes cfgs).endLoading l 0 0) := by
  have hover : s.drbgOver = false := by
    cases ho : s.drbgOver with
    | false => rfl
    | true =>
      simp only [State.drbgOver, State.drbgReady, Bool.and_eq_true, Bool.or_eq_true, beq_iff_eq, decide_eq_true_eq] at ho hready
      omega
  simp [execDraftLoaderVerdict, hl, h, hj, hready, hover]

theorem execPanelCheckDeadline_late (h : s.panelLate l = true) {p : Fin 16} (hp : draftTarget l.bytes = p.val) :
    execPanelCheckDeadline p s = .next (s.missDeadline l) := by
  simp [execPanelCheckDeadline, hl, h, hp]

end

/-- The field that names the last refusal, read after a refusal. -/
theorem State.lastFault_refuseDraft (s : State) (n : Nat) (b : Flaw) :
    (s.refuseDraft n b).fld .storeDraftState Fl.storeDraftState_LAST_FAULT = b.code % 65536 := by
  have hset : ∀ t : State, (t.setFld .storeDraftState Fl.storeDraftState_LAST_FAULT b.code).fld .storeDraftState
      Fl.storeDraftState_LAST_FAULT = b.code % 65536 := fun t => t.fld_setFld_self _ (by decide) _
  unfold refuseDraft
  extract_lets t
  split
  · rw [fld_setFld_of_apart _ _ (.inr (by decide))]
    exact hset _
  · rw [fld_setFld_of_apart _ _ (.inr (by decide)), fld_setFld_of_apart _ _ (.inr (by decide))]
    exact hset _

/-- A refusal changes registers and adds a record. -/
theorem State.refuseDraft_frame (s : State) (n : Nat) (b : Flaw) :
    { s.refuseDraft n b with regs := s.regs } = s.report (beamUnit 0x2B) b.code (flawDetail n b) := by
  unfold refuseDraft
  by_cases hb : b.index = 0xFFFF
  · simp only [if_pos hb]; rfl
  · simp only [if_neg hb]; rfl

end Sys2Proof.Machine

namespace Sys2Proof.Claims

open Sys2Proof Sys2Proof.Machine

/-! ### Refusals -/

/-- A record of the loader with its code in LAST_FAULT, and nothing else of partitions, looms and memories. -/
theorem refuses_of {s t : State} {code detail : Nat} (hsafety : t.safety = (s.report (beamUnit 0x2B) code detail).safety)
    (hlast : t.fld .storeDraftState Fl.storeDraftState_LAST_FAULT = code % 65536) (hparts : t.parts = s.parts)
    (hlooms : t.looms = s.looms) (hmem : t.mem = s.mem) : Refuses s t code :=
  ⟨⟨s.record (beamUnit 0x2B) code detail, by rw [hsafety]; rfl, rfl, rfl⟩, hlast, hparts, hlooms, hmem⟩

theorem refuses_refuseDraft (s : State) (n : Nat) (b : Flaw) : Refuses s (s.refuseDraft n b) b.code := by
  have hframe := s.refuseDraft_frame n b
  have hsafety := congrArg State.safety hframe
  have hparts := congrArg State.parts hframe
  have hlooms := congrArg State.looms hframe
  have hmem := congrArg State.mem hframe
  exact refuses_of hsafety (s.lastFault_refuseDraft n b) hparts hlooms hmem

theorem refuses_endLoading {s t : State} {code : Nat} (h : Refuses s t code) (l : Loading) (status field : Nat) :
    Refuses s (t.endLoading l status field) code := by
  obtain ⟨hflight, hlast, hparts, hlooms, hmem⟩ := h
  exact ⟨by rwa [State.endLoading_safety], by rwa [State.fld, State.reg, State.endLoading_regs], by rwa [State.endLoading_parts],
    by rwa [State.endLoading_looms], by rwa [State.endLoading_mem]⟩

/-- The outcome that is owed once a draft is done with follows those owed before. -/
theorem owes_endLoading {s t : State} (h : t.net.outcomes = s.net.outcomes) (l : Loading) (status field : Nat) :
    Owes s (t.endLoading l status field) l status field := by
  unfold State.endLoading Owes
  cases hr : l.request with
  | none => simpa using h
  | some r => simpa using h

theorem refuses_missDeadline (s : State) (l : Loading) : Refuses s (s.missDeadline l) 0x0D1B :=
  refuses_endLoading (refuses_refuseDraft (s.draw 8).2 _ (Flaw.header 0x0D1B 0x18)) l 2 0xFFFF

theorem owes_refused {s u : State} (h : u.net.outcomes = s.net.outcomes) (l : Loading) (n : Nat) (b : Flaw) :
    Owes s ((u.refuseDraft n b).endLoading l 2 0xFFFF) l 2 0xFFFF := by
  have hnet := congrArg (fun t : State => t.net.outcomes) (u.refuseDraft_frame n b)
  exact owes_endLoading (t := u.refuseDraft n b) (hnet.trans h) l 2 0xFFFF

theorem owes_missDeadline (s : State) (l : Loading) : Owes s (s.missDeadline l) l 2 0xFFFF :=
  owes_refused (u := (s.draw 8).2) rfl l _ (Flaw.header 0x0D1B 0x18)

theorem refuses_cancelPanel (s : State) (p : Fin 16) : Refuses s (s.cancelPanel p) 0x0D1D :=
  refuses_of (detail := attributionPart p) rfl (State.fld_setFld_self _ _ (by decide) _) rfl rfl rfl

/-! ### The verdict on a draft -/

section
variable {s : State} {l : Loading} (hl : s.draft.loading = some l)
include hl

theorem late_draft_refused (h : s.panelLate l = true) :
    Gives .draftLoaderVerdict s (fun t => Refuses s t 0x0D1B ∧ Owes s t l 2 0xFFFF)
      ∧ Gives (.panelCheckDeadline (Fin.ofNat 16 (draftTarget l.bytes))) s (fun t => draftTarget l.bytes < 16 →
          Refuses s t 0x0D1B ∧ Owes s t l 2 0xFFFF) := by
  refine ⟨⟨_, execDraftLoaderVerdict_late hl h, refuses_missDeadline s l, owes_missDeadline s l⟩, ?_⟩
  by_cases ht : draftTarget l.bytes < 16
  · exact ⟨_, execPanelCheckDeadline_late hl h (Nat.mod_eq_of_lt ht).symm, fun _ => ⟨refuses_missDeadline s l, owes_missDeadline s l⟩⟩
  · obtain ⟨t, ht', -⟩ := keeps_execPanelCheckDeadline (Fin.ofNat 16 (draftTarget l.bytes)) s (keeps_refl s)
    exact ⟨t, ht', fun hlt => absurd hlt ht⟩

variable (h : s.panelLate l = false)
include h

theorem flawed_draft_refused {n : Nat} {b : Flaw} (hj : s.judge l.bytes l.pick = .error (n, b)) :
    Gives .draftLoaderVerdict s (fun t => Refuses s t b.code ∧ Owes s t l 2 0xFFFF ∧ t.draft.panels = s.draft.panels) := by
  have hdraft := congrArg (fun t : State => t.draft.panels) (s.refuseDraft_frame n b)
  refine ⟨_, execDraftLoaderVerdict_refused hl h hj, refuses_endLoading (refuses_refuseDraft s n b) l _ _, owes_refused rfl l n b, ?_⟩
  rw [State.endLoading_draft]
  exact hdraft

variable {cfgs : List (Nat × PartCfg)} (hj : s.judge l.bytes l.pick = .ok cfgs) (hready : s.drbgReady = true)
include hj hready

theorem panel_draft_pending (hp : draftPanel l.bytes = true) :
    Gives .draftLoaderVerdict s (fun t => Owes s t l 0 0 ∧ t.parts = s.parts ∧ t.looms = s.looms ∧ t.safety = s.safety
      ∧ t.draft.panels = s.draft.panels ++ cfgs.map (pendingOf l.bytes)) := by
  refine ⟨_, execDraftLoaderVerdict_accepted hl h hj hready, ?_⟩
  rw [if_pos hp, s.acceptPanel_eq]
  exact ⟨owes_endLoading rfl l 0 0, by simp⟩

/-- The partitions of a full draft exist, those of no section of it are as they were, and PHASE is running (R44). -/
theorem full_draft_creates (hp : draftPanel l.bytes = false) :
    Gives .draftLoaderVerdict s (fun t => Owes s t l 0 0
      ∧ (∀ e ∈ cfgs, t.HoldsFresh (Fin.ofNat 16 e.1) e.2)
      ∧ (∀ p : Fin 16, (∀ e ∈ cfgs, e.1 ≠ p.val) → t.part? p = s.part? p)
      ∧ (s.fld .moduleState Fl.moduleState_PHASE = 3 → t.fld .moduleState Fl.moduleState_PHASE = 4)
      ∧ t.safety = s.safety) := by
  obtain rfl := State.eq_draftCfgs_of_judge hj
  refine ⟨_, execDraftLoaderVerdict_accepted hl h hj hready, ?_⟩
  rw [if_neg (by simp [hp])]
  refine ⟨owes_endLoading (s.acceptFull_outcomes _ _) l 0 0, fun e he => ?_, fun p hne => ?_, fun hphase => ?_, ?_⟩
  · obtain ⟨key, cloth, h⟩ := (s.withFences l.bytes).holdsFresh_createParts (ofNat_inj_of_mem_draftCfgs hp) he
    exact ⟨key, cloth, by rw [State.part?, State.endLoading_parts, s.acceptFull_parts]; exact h⟩
  · rw [State.part?, State.endLoading_parts, s.acceptFull_parts]
    refine (s.withFences l.bytes).part?_createParts_of_ne fun e he heq => hne e he ?_
    rw [← heq, Fin.val_ofNat, Nat.mod_eq_of_lt (lt_of_mem_draftCfgs hp he)]
  · rw [State.fld, State.reg, State.endLoading_regs]
    exact s.phase_acceptFull _ _ hphase
  · rw [State.endLoading_safety, s.acceptFull_safety]

end

/-! ### A pending panel draft -/

section
variable {s : State} {p : Fin 16} {k : Panel} (hk : s.panel? p.val = some k)
include hk

theorem broken_panel_cancelled (hformed : s.pick.formed = true) (heff : k.effective = s.now + 1) (hb : s.panelBroken k = true) :
    Gives (.panelRecheck p) s (fun t => Refuses s t 0x0D1D ∧ t.draft.panels = s.draft.panels.filter (fun e => e.part != p)) := by
  refine ⟨s.cancelPanel p, ?_, refuses_cancelPanel s p, rfl⟩
  simp [execPanelRecheck, hk, hformed, heff, hb]

theorem sound_panel_stays (hb : s.panelBroken k = false) : exec (.panelRecheck p) s = .next s := by
  simp [execPanelRecheck, hk, hb]

end

/-- Settles O41: the loader refuses by one record and LAST_FAULT, and an accepted full draft has one configuration for each of its
partitions, so that each stands as it was created. That the recheck of an unbroken panel draft leaves the state is the model's choice
(log entry 45). -/
theorem draftsAreJudged : Obligations.DraftsAreJudged := by
  refine ⟨fun s l hl => ⟨late_draft_refused hl, fun h => ?_⟩, fun s p k hk hformed heff =>
    ⟨broken_panel_cancelled hk hformed heff, sound_panel_stays hk⟩⟩
  cases hj : s.judge l.bytes l.pick with
  | error f => exact flawed_draft_refused hl h hj
  | ok cfgs =>
    refine ⟨fun hready hp => ?_, panel_draft_pending hl h hj⟩
    obtain ⟨t, ht, howes, hfresh, hrest⟩ := full_draft_creates hl h hj hready hp
    refine ⟨t, ht, howes, fun e he => ?_, hrest⟩
    obtain ⟨key, cloth, hpart⟩ := hfresh e he
    exact ⟨_, hpart, rfl, rfl, rfl, rfl, rfl, rfl, rfl, rfl⟩

end Sys2Proof.Claims
end

section
/-! PROOFS. Partitions at their boundaries (02 R44, R46; 05 R112; 06 R117; 16 R314; 17 R349): a loaded partition starts, a replaced one is
cleared once it has stopped, and its successor starts. -/

namespace Sys2Proof.Machine

open Sys2Proof

/-! ### Withdrawn runs and discarded entries (R46, R310) -/

theorem Part.ctx_modCtx_self (x : Part) (c : Fin 8) (f : Ctx → Ctx) : (x.modCtx c f).ctx c = f (x.ctx c) := Tab.get_put_self _ _ _ _

theorem Part.ctx_modCtx_of_ne (x : Part) {c d : Fin 8} (f : Ctx → Ctx) (h : d ≠ c) : (x.modCtx c f).ctx d = x.ctx d :=
  Tab.get_put_of_ne _ _ _ _ (fun e => h (Fin.ext e))

/-- A context with no run open and nothing queued. -/
def Ctx.Empty (k : Ctx) : Prop := k.queues = [] ∧ k.runs = []

/-- The runs of one context withdrawn, and its queues emptied. -/
def Part.withdrawCtx (x : Part) (outcome : Nat) (c : Fin 8) : Part :=
  (x.endRuns c outcome 0).modCtx c (fun k => { k with queues := [] })

section
variable (x : Part) (outcome : Nat)

theorem Part.empty_withdrawCtx (c : Fin 8) : ((x.withdrawCtx outcome c).ctx c).Empty := by
  rw [withdrawCtx, ctx_modCtx_self]
  refine ⟨rfl, ?_⟩
  simp only [endRuns, ctx_modCtx_self]

theorem Part.ctx_withdrawCtx_of_ne {c d : Fin 8} (h : d ≠ c) : (x.withdrawCtx outcome c).ctx d = x.ctx d := by
  rw [withdrawCtx, ctx_modCtx_of_ne _ _ h]
  simp only [endRuns, ctx_modCtx_of_ne _ _ h]
  exact foldl_keeps (fun y : Part => y.ctx d) (x.runsOf c) x

/-- The contexts listed are empty once they have been withdrawn one after another; an empty context stays so. -/
theorem Part.empty_foldl_withdrawCtx {l : List (Fin 8)} {c : Fin 8} (h : c ∈ l ∨ (x.ctx c).Empty) :
    ((l.foldl (fun x c => x.withdrawCtx outcome c) x).ctx c).Empty := by
  induction l generalizing x with
  | nil => exact h.resolve_left List.not_mem_nil
  | cons d rest ih =>
    refine ih _ ?_
    by_cases hd : c = d
    · subst hd; exact .inr (x.empty_withdrawCtx outcome c)
    · rw [x.ctx_withdrawCtx_of_ne outcome hd]
      exact h.imp_left (fun hc => (List.mem_cons.mp hc).resolve_left hd)

theorem Part.empty_withdraw (c : Fin 8) : ((x.withdraw outcome).ctx c).Empty :=
  x.empty_foldl_withdrawCtx outcome (.inl (List.mem_finRange c))

theorem Part.withdraw_cfg : (x.withdraw outcome).cfg = x.cfg :=
  foldl_keeps Part.cfg (List.finRange 8) x (fun y c => (y.endRuns_cfg c outcome 0).1)

theorem Part.withdraw_cloth : (x.withdraw outcome).cloth = x.cloth :=
  foldl_keeps Part.cloth (List.finRange 8) x (fun y c => (y.endRuns_cfg c outcome 0).2)

end

/-! ### A partition cleared for its panel draft (R46) -/

/-- The partition as it is cleared: the carves of the list stay, and nothing waits. -/
def Part.clearedFor (x : Part) (k : PartCfg) : Part :=
  { x.withdraw 3 with cloth := x.cloth.only (kept x.cfg k), qps := [], copies := [], homeQueue := [] }

theorem Part.clearedFor_cfg (x : Part) (k : PartCfg) : (x.clearedFor k).cfg = x.cfg := by
  simp only [clearedFor, withdraw_cfg]

theorem Part.empty_clearedFor (x : Part) (k : PartCfg) (c : Fin 8) : ((x.clearedFor k).ctx c).Empty := by
  simp only [clearedFor, ctx]
  exact x.empty_withdraw 3 c

theorem State.withStore_frame (s : State) (k : StoreUnit) : { s.withStore k with store := s.store, safety := s.safety } = s := by
  cases h : decide (1536 < k.occupied) && !s.store.over75 <;> simp [withStore, h, storeReport, report]

theorem State.frame_commit_ (s : State) (items : List StoreItem) : { s.commit_ items with store := s.store, safety := s.safety } = s := by
  unfold commit_ commit
  cases s.store.update? items with
  | none => rfl
  | some k => exact s.withStore_frame k

/-- Final accounting records change the store, and may be reported. -/
theorem State.storeAccounts_frame (s : State) (p : Fin 16) (x : Part) :
    { s.storeAccounts p x with store := s.store, safety := s.safety } = s := by
  unfold storeAccounts commitAccounts
  split
  · rfl
  · exact s.frame_commit_ _

section
variable (s : State) (p : Fin 16) (x : Part)

@[simp] theorem State.storeAccounts_parts : (s.storeAccounts p x).parts = s.parts := by
  simpa only using congrArg State.parts (s.storeAccounts_frame p x)
@[simp] theorem State.storeAccounts_mem : (s.storeAccounts p x).mem = s.mem := by
  simpa only using congrArg State.mem (s.storeAccounts_frame p x)
@[simp] theorem State.storeAccounts_sec : (s.storeAccounts p x).sec = s.sec := by
  simpa only using congrArg State.sec (s.storeAccounts_frame p x)

end

/-- The sessions, stores and slots of a partition given up, the partition left as y. -/
def State.giveUp (s : State) (p : Fin 16) (k : PartCfg) (y : Part) : State :=
  (((s.endSession p).zeroiseStores p k).setPart p y).freeSlots p

section
variable (s : State) (p : Fin 16) (k : PartCfg) (y : Part)

theorem State.giveUp_parts : (s.giveUp p k y).parts = s.parts.ins p.val y := by
  show ((s.endSession p).zeroiseStores p k).parts.ins p.val y = _
  rw [zeroiseStores_parts]
  rfl

theorem State.giveUp_millStore : (s.giveUp p k y).mem.millStore = s.mem.millStore.keep (fun i _ => !(i % 128 / 8 == p.val)) := by
  rw [giveUp, zeroiseStores_eq]
  rfl

theorem State.giveUp_sec : (s.giveUp p k y).sec = (s.endSession p).sec := by
  rw [giveUp, zeroiseStores_eq]
  exact modLooms_sec _ _ _

theorem State.loom_giveUp {g : Fin 256} (h : g.val ∈ k.looms) : (s.giveUp p k y).loom g = (s.loom g).zeroised := by
  rw [giveUp, zeroiseStores_eq]
  exact loom_modLooms_of_mem _ (fun _ => Loom.zeroised) (fun _ => rfl) (exists_ofNat_eq h)

end

section
variable {s : State} {p : Fin 16} {x : Part} (hx : s.part? p = some x) (k : Panel)
include hx

/-- What R46's steps 1 to 3 come to. -/
theorem State.clearForPanel_eq : s.clearForPanel p k =
    ((s.setPart p (x.withdraw 3)).storeAccounts p (x.withdraw 3)).giveUp p x.cfg (x.clearedFor k.cfg) := by
  simp only [clearForPanel, modPart_of_some hx, part?_setPart_self, Part.clearedFor, x.withdraw_cfg, x.withdraw_cloth, giveUp]

theorem State.clearForPanel_parts : (s.clearForPanel p k).parts = s.parts.ins p.val (x.clearedFor k.cfg) := by
  simp [clearForPanel_eq hx, giveUp_parts]

theorem State.clearForPanel_millStore :
    (s.clearForPanel p k).mem.millStore = s.mem.millStore.keep (fun i _ => !(i % 128 / 8 == p.val)) := by
  simp [clearForPanel_eq hx, giveUp_millStore]

theorem State.clearForPanel_sessions : (s.clearForPanel p k).sec.sessions = s.sec.sessions.del p.val := by
  simp [clearForPanel_eq hx, giveUp_sec, endSession]

theorem State.clearForPanel_region : (s.clearForPanel p k).sec.region = s.sec.region.del p.val := by
  simp [clearForPanel_eq hx, giveUp_sec, endSession]

theorem State.clearForPanel_store {g : Fin 256} (h : g.val ∈ x.cfg.looms) : ((s.clearForPanel p k).loom g).store = [] := by
  rw [clearForPanel_eq hx, loom_giveUp _ _ _ _ h]
  rfl

end

/-- The panel draft of a partition has replaced it, its treadlings loaded. -/
def State.markReplaced (s : State) (p : Fin 16) : State :=
  { s with draft := { s.draft with panels := s.draft.panels.map (fun e => if e.part = p then { e with replaced := true } else e) } }

/-- The state without the panel draft of a partition. -/
def State.dropPanel (s : State) (p : Fin 16) : State :=
  { s with draft := { s.draft with panels := s.draft.panels.filter (fun e => e.part != p) } }

/-! ### The successor of a replaced partition (R46, R349) -/

/-- What replaces a partition, before it starts: a fresh one with the kept carves and the report destinations. -/
def Part.successor (x : Part) (k : PartCfg) (key : BitVec 128) (pages : Tab Page) : Part :=
  Part.fresh k key { x.cloth.only (kept x.cfg k) with pages := pages } x.dests x.recent

/-- The looms that only the replaced partition held are free, and it is marked whether its protected carves stay (R363). -/
def State.leaveFor (s : State) (p : Fin 16) (x : Part) (k : PartCfg) : State :=
  let t := (s.drbg 128).2.freeLooms (x.cfg.looms.filter (fun g => !k.looms.contains g))
  { t with sec := { t.sec with
      retained := BitVec.ofNat 16 (setBits t.sec.retained.toNat p.val 1 (if (kept x.cfg k).any (fun v => v.prot) then 1 else 0)) } }

theorem State.fitsOut_leaveFor (s : State) (p : Fin 16) (x : Part) (k : PartCfg) : s.FitsOut (s.leaveFor p x k) :=
  (s.fitsOut_drbg 128).trans ((fitsOut_freeLooms _ _).trans ⟨rfl, rfl, rfl, rfl⟩)

theorem State.leaveFor_parts (s : State) (p : Fin 16) (x : Part) (k : PartCfg) : (s.leaveFor p x k).parts = s.parts :=
  freeLooms_parts _ _

/-- The successor stands in the partition's place with its slots, before it starts. -/
def State.install (s : State) (p : Fin 16) (y : Part) : State := ((s.setPart p y).freeSlots p).takeSlots p y.cfg

theorem State.fitsOut_install (s : State) (p : Fin 16) (y : Part) : s.FitsOut (s.install p y) :=
  (s.fitsOut_setPart p y).trans ((fitsOut_freeSlots _ p).trans (fitsOut_takeSlots _ p y.cfg))

theorem State.install_parts (s : State) (p : Fin 16) (y : Part) : (s.install p y).parts = s.parts.ins p.val y :=
  takeSlots_parts _ _ _

/-- A partition is replaced by its successor, which starts. -/
theorem State.replacePart_eq {s : State} {p : Fin 16} {x : Part} (hx : s.part? p = some x) (k : PartCfg) (n : Word)
    (harm : s.safety.armings.find? p.val = none) :
    ∃ key pages, s.replacePart p k n =
      (((s.leaveFor p x k).install p (x.successor k key pages)).setPart p ((x.successor k key pages).begun n s.safety.selfTest)).takeLooms p k := by
  have hreplace : ∃ key pages, s.replacePart p k n =
      ((s.leaveFor p x k).install p (x.successor k key pages)).startPart p n (kept x.cfg k) := by
    simp only [replacePart, hx]
    exact ⟨_, _, rfl⟩
  obtain ⟨key, pages, h⟩ := hreplace
  have hout := (s.fitsOut_leaveFor p x k).trans ((s.leaveFor p x k).fitsOut_install p (x.successor k key pages))
  have hpart : ((s.leaveFor p x k).install p (x.successor k key pages)).part? p = some (x.successor k key pages) :=
    part?_of_ins_self ((s.leaveFor p x k).install_parts p _)
  refine ⟨key, pages, ?_⟩
  rw [h, startPart_of_unarmed hpart (by rw [hout.safety]; exact harm), hout.safety]
  rfl

end Sys2Proof.Machine

namespace Sys2Proof.Claims

open Sys2Proof Sys2Proof.Machine

/-- A queue of a context that holds no entries in any queue. -/
theorem queueOf_of_empty {x : Part} {c : Fin 8} (h : (x.ctx c).queues = []) (i : Nat) : queueOf x c i = [] := by
  rw [queueOf, h]
  rfl

/-- Where the partition's cloth holds what some carves held, so do its bytes. -/
theorem byteAt_of_cloth_only {s t : State} {p : Fin 16} {x y : Part} (hx : s.part? p = some x) (hy : t.part? p = some y)
    {vs : List CarveCfg} (hbytes : y.cloth.bytes = (x.cloth.only vs).bytes) (a : Nat) :
    t.byteAt (.cloth p) a = if inAny vs a then s.byteAt (.cloth p) a else 0 := by
  simp only [State.byteAt, hx, hy, hbytes]
  exact Tab.get_keep x.cloth.bytes (inAny vs) a 0

/-! ### A loaded partition starts (R44) -/

/-- A loom as its partition starts: the partition's, with its store, its fells cleared and its sequencers at their entries. -/
theorem taken_loom (p : Fin 16) (k : PartCfg) (s : State) {g : Fin 256} (h : g.val ∈ k.looms) :
    let t := s.takeLooms p k
    (t.loom g).part = some p ∧ (t.loom g).store = (s.loom g).store ∧ (t.loom g).fells = []
      ∧ ∀ c, (t.seq { loom := g, ctx := c }).run = .notStarted ∧ (t.seq { loom := g, ctx := c }).tile = none
        ∧ ∀ tr, k.treads.filter (fun e => e.ctx == c.val && e.loom == g.val) = [tr] →
            (t.seq { loom := g, ctx := c }).pc = BitVec.ofNat 32 tr.entry := by
  intro t
  have hloom : t.loom g = (s.loom g).taken p k g := s.loom_takeLooms_of_mem p k h
  refine ⟨by rw [hloom]; rfl, by rw [hloom]; rfl, by rw [hloom]; rfl, fun c => ?_⟩
  have hseq : t.seq { loom := g, ctx := c }
      = (k.treads.filter (fun e => e.ctx == c.val && e.loom == g.val)).getLast?.elim Seq.zero TreadCfg.firstSeq := by
    rw [State.seq, hloom]
    exact k.seqs_get g c.val
  rw [hseq]
  obtain ⟨hrun, htile⟩ := firstSeq_idle (k.treads.filter (fun e => e.ctx == c.val && e.loom == g.val)).getLast?
  exact ⟨hrun, htile, fun tr htr => by rw [htr]; rfl⟩

section
variable {s : State} {p : Fin 16} {x : Part} (hx : s.part? p = some x)
include hx

theorem exec_partitionStart_loaded {n : Word} (hstart : x.start = none) (hdue : x.due = some n) (hstop : x.stopping = none)
    (hsafe : s.safety.moduleSafe = false) : exec (.partitionStart p) s = .next (s.startPart p n []) := by
  simp [execPartitionStart, hx, hstart, hdue, hstop, hsafe]

/-- What a partition that starts is, and what it takes and leaves. -/
theorem started_partition (n : Word) (harm : s.safety.armings.find? p.val = none) :
    let t := s.startPart p n []
    t.part? p = some (x.begun n s.safety.selfTest) ∧ (∀ q, q ≠ p → t.part? q = s.part? q)
      ∧ (∀ g : Fin 256, (∀ h ∈ x.cfg.looms, Fin.ofNat 256 h ≠ g) → t.loom g = s.loom g)
      ∧ { t with looms := s.looms, parts := s.parts } = s := by
  intro t
  have ht : t = (s.setPart p (x.begun n s.safety.selfTest)).takeLooms p x.cfg := State.startPart_of_unarmed hx harm n []
  have hparts : t.parts = s.parts.ins p.val (x.begun n s.safety.selfTest) := by rw [ht, State.takeLooms_parts]; rfl
  refine ⟨State.part?_of_ins_self hparts, fun q hq => State.part?_of_ins_of_ne hparts hq, fun g hg => ?_, ?_⟩
  · rw [ht]
    exact State.loom_takeLooms_of_not_mem _ p x.cfg hg
  · rw [ht]
    exact congrArg (fun u : State => { u with parts := s.parts }) ((s.setPart p (x.begun n s.safety.selfTest)).takeLooms_frame p x.cfg)

end

/-! ### A replaced partition is cleared (R46) -/

section
variable {s : State} {p : Fin 16} {x : Part} {k : Panel} (hk : s.panel? p.val = some k) (hx : s.part? p = some x)
include hk hx

theorem exec_panelReplace_stopped (hr : k.replaced = false) (hstop : x.stopping = some .panel) (hall : s.stoppedAll x = true) :
    exec (.panelReplace p) s = .next (((s.clearForPanel p k).loadTreads k.cfg).markReplaced p) := by
  simp [execPanelReplace, hk, hx, hr, hstop, hall, State.markReplaced]

end

theorem replaced_of_markReplaced {s : State} {p : Fin 16} {e : Panel} (he : e ∈ (s.markReplaced p).draft.panels) (hp : e.part = p) :
    e.replaced = true := by
  obtain ⟨f, -, rfl⟩ := List.mem_map.mp he
  by_cases hf : f.part = p
  · rw [if_pos hf]
  · rw [if_neg hf] at hp
    exact absurd hp hf

section
variable {s : State} {p : Fin 16} {x : Part} (hx : s.part? p = some x) (k : Panel)
include hx

theorem byteAt_mill_clearForPanel (m : Fin 8) (q : Fin 16) (c : Fin 8) (i : Nat) :
    (s.clearForPanel p k).byteAt (.mill m q c) i = if q = p then 0 else s.byteAt (.mill m q c) i := by
  rw [State.byteAt, State.clearForPanel_millStore hx, Tab.get_keep _ (fun i => !(i % 128 / 8 == p.val)), millKey_part]
  by_cases hq : q = p
  · rw [if_pos hq, if_neg (by simp [hq])]
    rfl
  · rw [if_neg hq, if_pos (by simpa using fun e => hq (Fin.ext e))]
    rfl

theorem replaced_partition_cleared :
    let t := ((s.clearForPanel p k).loadTreads k.cfg).markReplaced p
    (∃ y, t.part? p = some y ∧ y.cfg = x.cfg ∧ y.qps = [] ∧ ∀ c, (∀ i, queueOf y c i = []) ∧ (y.ctx c).runs = [])
      ∧ (∀ g : Fin 256, g.val ∈ k.cfg.looms → (t.loom g).store = k.cfg.loadCode g)
      ∧ (∀ g : Fin 256, g.val ∈ x.cfg.looms → (∀ h ∈ k.cfg.looms, Fin.ofNat 256 h ≠ g) → (t.loom g).store = [])
      ∧ (∀ m c i, t.byteAt (.mill m p c) i = 0)
      ∧ (∀ q, q ≠ p → t.part? q = s.part? q ∧ ∀ m c i, t.byteAt (.mill m q c) i = s.byteAt (.mill m q c) i)
      ∧ (∀ a, t.byteAt (.cloth p) a = if inAny (kept x.cfg k.cfg) a then s.byteAt (.cloth p) a else 0)
      ∧ (t.sec.sessions.find? p.val = none ∧ t.sec.region.find? p.val = none)
      ∧ ∀ e ∈ t.draft.panels, e.part = p → e.replaced = true := by
  intro t
  have hparts : t.parts = s.parts.ins p.val (x.clearedFor k.cfg) :=
    ((s.clearForPanel p k).loadTreads_parts k.cfg).trans (State.clearForPanel_parts hx k)
  have hloom : ∀ g, t.loom g = ((s.clearForPanel p k).loadTreads k.cfg).loom g := fun _ => rfl
  have hmem : t.mem = (s.clearForPanel p k).mem := State.modLooms_mem _ (Loom.loaded k.cfg) k.cfg.looms
  have hmill : ∀ m q c i, t.byteAt (.mill m q c) i = if q = p then 0 else s.byteAt (.mill m q c) i := fun m q c i => by
    rw [← byteAt_mill_clearForPanel hx k m q c i, State.byteAt, hmem, State.byteAt]
  have hsec : t.sec = (s.clearForPanel p k).sec := State.modLooms_sec _ (Loom.loaded k.cfg) k.cfg.looms
  have hself := State.part?_of_ins_self hparts
  have hempty : ∀ c, (∀ i, queueOf (x.clearedFor k.cfg) c i = []) ∧ ((x.clearedFor k.cfg).ctx c).runs = [] := fun c => by
    obtain ⟨hqueues, hruns⟩ := x.empty_clearedFor k.cfg c
    exact ⟨queueOf_of_empty hqueues, hruns⟩
  refine ⟨⟨_, hself, x.clearedFor_cfg k.cfg, rfl, hempty⟩, fun g hg => ?_, fun g hg hk => ?_, fun m c i => by rw [hmill, if_pos rfl],
    fun q hq => ⟨State.part?_of_ins_of_ne hparts hq, fun m c i => by rw [hmill, if_neg hq]⟩, byteAt_of_cloth_only hx hself rfl, ⟨?_, ?_⟩,
    fun e => replaced_of_markReplaced⟩
  · rw [hloom, State.loom_loadTreads_of_mem _ _ hg]
    rfl
  · rw [hloom, State.loom_loadTreads_of_not_mem _ _ hk, State.clearForPanel_store hx k hg]
  · rw [hsec, State.clearForPanel_sessions hx k, Tab.find?_del_self]
  · rw [hsec, State.clearForPanel_region hx k, Tab.find?_del_self]

end

/-! ### Its successor starts (R46) -/

theorem panel?_dropPanel (s : State) (p : Fin 16) : (s.dropPanel p).panel? p.val = none := by
  refine List.find?_eq_none.mpr fun e he hp => ?_
  have hne := (List.mem_filter.mp he).2
  rw [beq_iff_eq] at hp
  exact absurd (Fin.ext hp) (by simpa using hne)

section
variable {s : State} {p : Fin 16} {x : Part} {k : Panel} (hx : s.part? p = some x)
include hx

theorem exec_partitionStart_replaced (hk : s.panel? p.val = some k) (hr : k.replaced = true) (hstart : x.start.isSome = true)
    (hformed : s.pick.formed = true) (hpast : k.effective.toNat < s.now.toNat) (hsafe : s.safety.moduleSafe = false) :
    exec (.partitionStart p) s = .next ((s.dropPanel p).replacePart p k.cfg (k.effective + 1)) := by
  obtain ⟨n, hn⟩ := Option.isSome_iff_exists.mp hstart
  simp [execPartitionStart, hx, hk, hr, hn, hformed, hpast, hsafe, State.dropPanel]

/-- What a partition that replaces another is, and what it takes and leaves. -/
theorem successor_starts (k : PartCfg) (n : Word) (harm : s.safety.armings.find? p.val = none) :
    let t := s.replacePart p k n
    (∃ key pages, t.part? p = some ((x.successor k key pages).begun n s.safety.selfTest))
      ∧ (∀ q, q ≠ p → t.part? q = s.part? q) ∧ (∀ g : Fin 256, g.val ∈ k.looms → (t.loom g).part = some p) ∧ t.draft = s.draft := by
  obtain ⟨key, pages, h⟩ := State.replacePart_eq hx k n harm
  have hparts : (s.replacePart p k n).parts = s.parts.ins p.val ((x.successor k key pages).begun n s.safety.selfTest) := by
    rw [h, State.takeLooms_parts, State.setPart_parts, State.install_parts, State.leaveFor_parts, Tab.ins_ins]
  have hout := (s.fitsOut_leaveFor p x k).trans <| (State.fitsOut_install _ p (x.successor k key pages)).trans <|
    (State.fitsOut_setPart _ p ((x.successor k key pages).begun n s.safety.selfTest)).trans (State.fitsOut_takeLooms _ p k)
  refine ⟨⟨key, pages, State.part?_of_ins_self hparts⟩, fun q hq => State.part?_of_ins_of_ne hparts hq, fun g hg => ?_, ?_⟩
  · rw [h]
    exact (taken_loom p k _ hg).1
  · rw [h]
    exact hout.draft

end

/-- Settles O42: a start is a change of one entry of the table of partitions and of the looms that its draft names; a clearance filters
the tables of its storages by the carves that both drafts keep. That a start in the
safe module leaves the state is the model's choice (R378; log entry 39). -/
theorem partitionsStart : Obligations.PartitionsStart := by
  refine ⟨fun s p x n hx hstart hdue hstop hsafe harm => ?_, fun s p hsafe => if_pos hsafe,
    fun s p x k hk hx hr hstop hall => ⟨_, exec_panelReplace_stopped hk hx hr hstop hall, replaced_partition_cleared hx k⟩,
    fun s p x k hk hx hr hstart hformed hpast hsafe harm => ?_⟩
  · obtain ⟨hself, hother, hlooms, hframe⟩ := started_partition hx n harm
    refine ⟨_, exec_partitionStart_loaded hx hstart hdue hstop hsafe,
      ⟨_, hself, rfl, rfl, rfl, rfl, fun c => queueOf_of_empty (x.queues_begun n _ c), rfl⟩, fun g hg => ?_, hlooms, hother, hframe⟩
    rw [State.startPart_of_unarmed hx harm]
    exact taken_loom p x.cfg (s.setPart p (x.begun n s.safety.selfTest)) hg
  · have hx' : (s.dropPanel p).part? p = some x := hx
    obtain ⟨⟨key, pages, hself⟩, hother, hlooms, hdraft⟩ := successor_starts hx' k.cfg (k.effective + 1) harm
    refine ⟨_, exec_partitionStart_replaced hx hk hr hstart hformed hpast hsafe,
      ⟨_, hself, rfl, rfl, rfl, rfl, rfl, rfl, fun c => queueOf_of_empty (Part.queues_begun _ _ _ c)⟩,
      byteAt_of_cloth_only hx hself rfl, hlooms, hother, ?_⟩
    rw [State.panel?, hdraft]
    exact panel?_dropPanel s p

end Sys2Proof.Claims
end

section
/-! PROOFS. The states of a fell (04 R76, R77, R79, R83): what each kind of contribution makes of each state, what a fell
that leaves the finite state holds, and that LOST once set stays set. -/

namespace Sys2Proof.Machine

open Sys2Proof

namespace Fell

/-! ### Contributions to a fell, by its state (R77) -/

section
variable {f : Fell}

theorem add_inf_of_finite (hf : f.state = .finite) (neg : Bool) : f.add (.inf neg) = f.leave (if neg then .negInf else .posInf) := by
  simp only [add, addInf, hf]

theorem add_inf_of_posInf (hf : f.state = .posInf) (neg : Bool) : f.add (.inf neg) = if neg then f.leave .nan else f := by
  simp only [add, addInf, hf]

theorem add_inf_of_negInf (hf : f.state = .negInf) (neg : Bool) : f.add (.inf neg) = if neg then f else f.leave .nan := by
  simp only [add, addInf, hf]

theorem add_nan_of_ne (hf : f.state ≠ .nan) : f.add .nan = f.leave .nan := if_neg hf

theorem add_fin_of_ne_finite (hf : f.state ≠ .finite) (neg : Bool) (m : Nat) (e : Int) : f.add (.fin neg m e) = f := by
  simp [add, hf]

/-- NaN absorbs every contribution. -/
theorem add_of_nan (hf : f.state = .nan) (x : Num) : f.add x = f := by
  cases x with
  | fin neg m e => exact add_fin_of_ne_finite (by simp [hf]) neg m e
  | inf neg => simp only [add, addInf, hf]
  | nan => exact if_pos hf

/-- Finite contributions to a fell that is not finite are discarded, however many come. -/
theorem foldl_add_of_ne_finite (hf : f.state ≠ .finite) {xs : List Num} (hxs : ∀ y ∈ xs, ∃ neg m e, y = .fin neg m e) :
    xs.foldl add f = f := by
  refine List.foldlRecOn (motive := (· = f)) xs add rfl fun g hg y hy => ?_
  obtain ⟨neg, m, e, rfl⟩ := hxs y hy
  rw [hg, add_fin_of_ne_finite hf]

end

/-! ### What a contribution can do -/

/-- All that a contribution can do: leave the fell as it is, take it out of the finite state or to NaN, or add to a finite fell. -/
theorem add_cases (f : Fell) (x : Num) :
    f.add x = f ∨ (∃ st, f.add x = f.leave st) ∨ f.state = .finite ∧ ∃ neg m e, f.add x = f.addFin neg m e := by
  cases x with
  | nan =>
    by_cases hf : f.state = .nan
    · exact .inl (add_of_nan hf _)
    · exact .inr (.inl ⟨_, add_nan_of_ne hf⟩)
  | inf neg =>
    cases hf : f.state with
    | finite => exact .inr (.inl ⟨_, add_inf_of_finite hf neg⟩)
    | posInf =>
      cases neg with
      | false => exact .inl (add_inf_of_posInf hf false)
      | true => exact .inr (.inl ⟨_, add_inf_of_posInf hf true⟩)
    | negInf =>
      cases neg with
      | false => exact .inr (.inl ⟨_, add_inf_of_negInf hf false⟩)
      | true => exact .inl (add_inf_of_negInf hf true)
    | nan => exact .inl (add_of_nan hf _)
  | fin neg m e =>
    by_cases hf : f.state = .finite
    · by_cases hm : m = 0
      · exact .inl (by simp [add, hm])
      · exact .inr (.inr ⟨hf, neg, m, e, by simp [add, hm, hf]⟩)
    · exact .inl (add_fin_of_ne_finite hf neg m e)

/-- A sum leaves the finite state only by an overflow, into a NaN that holds no sum (R83). -/
theorem sum_zero_of_withSum {f : Fell} (hf : f.state = .finite) {i w : Int} {lost : Bool} (h : (f.withSum i w lost).state ≠ .finite) :
    (f.withSum i w lost).s = 0 ∧ (f.withSum i w lost).w = 0 := by
  unfold withSum at h ⊢
  split at h
  case isTrue hover => rw [if_pos hover]; exact ⟨rfl, rfl⟩
  case isFalse => exact absurd hf h

/-- A fell that leaves the finite state holds no sum. -/
theorem sum_zero_of_add {f : Fell} (hf : f.state = .finite) {x : Num} (h : (f.add x).state ≠ .finite) :
    (f.add x).s = 0 ∧ (f.add x).w = 0 := by
  obtain hx | ⟨st, hx⟩ | ⟨-, neg, m, e, hx⟩ := f.add_cases x
  · exact absurd ((congrArg state hx).trans hf) h
  · exact hx ▸ ⟨rfl, rfl⟩
  · rw [hx] at h ⊢
    exact sum_zero_of_withSum hf h

@[simp] theorem lost_withSum (f : Fell) (i w : Int) (lost : Bool) : (f.withSum i w lost).lost = lost := by
  unfold withSum
  split <;> rfl

/-- LOST only grows: a finite contribution may set it (R79), and none clears it. -/
theorem lost_add {f : Fell} (hf : f.lost = true) (x : Num) : (f.add x).lost = true := by
  obtain hx | ⟨st, hx⟩ | ⟨-, neg, m, e, hx⟩ := f.add_cases x
  · exact (congrArg lost hx).trans hf
  · exact (congrArg lost hx).trans hf
  · rw [hx, addFin, lost_withSum, hf, Bool.true_or, Bool.true_or]

end Fell

end Sys2Proof.Machine

namespace Sys2Proof.Claims

open Sys2Proof Sys2Proof.Machine

/-- Settles O58: an equation for each state and kind of contribution, and `Fell.add_cases` for what a fell that leaves the finite state
holds; an induction over the list carries the discarding to every finite contribution after it. -/
theorem fellsLeaveTheFiniteStateForGood : Obligations.FellsLeaveTheFiniteStateForGood := by
  intro f
  refine ⟨Fell.add_inf_of_finite, fun hf => ⟨Fell.add_inf_of_posInf hf false, Fell.add_inf_of_posInf hf true⟩,
    fun hf => ⟨Fell.add_inf_of_negInf hf true, Fell.add_inf_of_negInf hf false⟩, Fell.add_nan_of_ne, Fell.add_of_nan,
    Fell.add_fin_of_ne_finite, fun x hf hx => ?_⟩
  obtain ⟨hs, hw⟩ := Fell.sum_zero_of_add hf hx
  exact ⟨hs, hw, fun hl => Fell.lost_add hl x, fun _ => Fell.foldl_add_of_ne_finite hx⟩

end Sys2Proof.Claims
end

section
/-! PROOFS. Checks of looms and storages, and the monitors (05 R101 to R105; 15 R299, R309; 19 R372): what a write of a check's registers, a
mark on a block and a failed check of a loom leave, and what each of them reports. -/

namespace Sys2Proof.Machine

open Sys2Proof

/-! ### Fields that a check writes -/

section
variable (s : State) {r : Reg} {f g : Fld}

theorem State.fld_setFld_of_lt (h : f.lo + f.w ≤ 64) {n : Nat} (hn : n < 2 ^ f.w) : (s.setFld r f n).fld r f = n :=
  (s.fld_setFld_self r h n).trans (Nat.mod_eq_of_lt hn)

theorem State.fld_setFld_of_before (h : g.lo + g.w ≤ f.lo) (n : Nat) : (s.setFld r f n).fld r g = s.fld r g :=
  s.fld_setFld_of_apart r (.inr h) n

theorem State.fld_setFld_of_after (h : f.lo + f.w ≤ g.lo) (n : Nat) : (s.setFld r f n).fld r g = s.fld r g :=
  s.fld_setFld_of_apart r (.inl h) n

/-- A counter counts up to its greatest value. -/
theorem State.fld_bump_self (h : f.lo + f.w ≤ 64) (n : Nat) : (s.bump r f n).fld r f = min (s.fld r f + n) (2 ^ f.w - 1) := by
  have hpos := Nat.two_pow_pos f.w
  exact s.fld_setFld_of_lt h (by simp only [satAdd]; omega)

end

/-! ### Registers noted by a check -/

/-- Only registers have been written, and not the number of the current pick. -/
structure State.Noted (s u : State) : Prop where
  frame : { u with regs := s.regs } = s
  now : u.now = s.now

section
variable {s u : State}

theorem State.Noted.refl (s : State) : s.Noted s := ⟨rfl, rfl⟩

theorem State.Noted.setFld (h : s.Noted u) {r : Reg} (hr : Reg.pickNow ≠ r) (f : Fld) (n : Nat) : s.Noted (u.setFld r f n) :=
  ⟨h.frame, (u.reg_setFld_of_ne f n hr).trans h.now⟩

theorem State.Noted.bump (h : s.Noted u) {r : Reg} (hr : Reg.pickNow ≠ r) (f : Fld) (n : Nat) : s.Noted (u.bump r f n) :=
  h.setFld hr f _

theorem State.Noted.safety (h : s.Noted u) : u.safety = s.safety :=
  (congrArg State.safety h.frame :)

theorem State.Noted.part? (h : s.Noted u) (p : Fin 16) : u.part? p = s.part? p :=
  (congrArg (fun t : State => t.part? p) h.frame :)

theorem State.Noted.loom (h : s.Noted u) (g : Fin 256) : u.loom g = s.loom g :=
  (congrArg (fun t : State => t.loom g) h.frame :)

theorem State.Noted.byteAt (h : s.Noted u) (st : Store) (i : Nat) : u.byteAt st i = s.byteAt st i :=
  (congrArg (fun t : State => t.byteAt st i) h.frame :)

/-- A record holds the pick and the beats since its boundary, and nothing else of the state (R384). -/
theorem State.record_congr (hpick : u.pick = s.pick) (hnow : u.now = s.now) (hsince : u.sinceBoundary = s.sinceBoundary)
    (unit code detail : Nat) : u.record unit code detail = s.record unit code detail := by
  simp only [record, hpick, hnow, hsince]

theorem State.Noted.record (h : s.Noted u) (unit code detail : Nat) : u.record unit code detail = s.record unit code detail :=
  State.record_congr (s := s) (u := u) (congrArg State.pick h.frame :) h.now (congrArg State.sinceBoundary h.frame :) unit code detail

end

/-! ### Marks on blocks (R299) -/

section
variable (s : State)

theorem State.modPart_frame (p : Fin 16) (f : Part → Part) : { s.modPart p f with parts := s.parts } = s := by
  unfold modPart
  split <;> rfl

theorem State.setBlockBad_frame (st : Store) (k : Nat) (b : Bool) :
    { s.setBlockBad st k b with looms := s.looms, parts := s.parts, mem := s.mem } = s := by
  cases st with
  | loom g => rfl
  | mill m p c => rfl
  | cloth p => exact congrArg (fun t : State => { t with looms := s.looms, mem := s.mem }) (s.modPart_frame p _)

@[simp] theorem State.setBlockBad_safety (st : Store) (k : Nat) (b : Bool) : (s.setBlockBad st k b).safety = s.safety :=
  (congrArg State.safety (s.setBlockBad_frame st k b) :)

@[simp] theorem State.setBlockBad_fld (st : Store) (k : Nat) (b : Bool) (r : Reg) (f : Fld) : (s.setBlockBad st k b).fld r f = s.fld r f :=
  (congrArg (fun t : State => t.fld r f) (s.setBlockBad_frame st k b) :)

@[simp] theorem State.setBlockBad_record (st : Store) (k : Nat) (b : Bool) (unit code detail : Nat) :
    (s.setBlockBad st k b).record unit code detail = s.record unit code detail :=
  (congrArg (fun t : State => t.record unit code detail) (s.setBlockBad_frame st k b) :)

/-- A mark on a block changes no byte. -/
@[simp] theorem State.byteAt_setBlockBad (st : Store) (k : Nat) (b : Bool) (su : Store) (i : Nat) :
    (s.setBlockBad st k b).byteAt su i = s.byteAt su i := by
  cases st with
  | loom g => exact (quiet_modLoom g (fun l => { l with bad := l.bad.put k b false }) rfl rfl).byteAt su i
  | mill m p c => cases su <;> rfl
  | cloth p =>
    cases hx : s.part? p with
    | none => simp only [setBlockBad, modPart, hx]
    | some x =>
      rw [setBlockBad, modPart_of_some hx]
      cases su with
      | loom g => rfl
      | mill m q c => rfl
      | cloth q =>
        by_cases hq : q = p
        · subst hq
          simp only [byteAt, part?_setPart_self, hx]
        · simp only [byteAt, part?_setPart_of_ne _ _ hq]

theorem State.blockBad_setBlockBad_loom (g : Fin 256) (k : Nat) (b : Bool) : (s.setBlockBad (.loom g) k b).blockBad (.loom g) k = b := by
  simp only [setBlockBad, blockBad, loom_modLoom_self, Tab.get_put_self]

/-- A block of the cloth space of a partition that exists takes its mark. -/
theorem State.blockBad_setBlockBad_cloth {p : Fin 16} (h : (s.part? p).isSome = true) (k : Nat) (b : Bool) :
    (s.setBlockBad (.cloth p) k b).blockBad (.cloth p) k = b := by
  obtain ⟨x, hx⟩ := Option.isSome_iff_exists.mp h
  simp only [setBlockBad, blockBad, modPart_of_some hx, part?_setPart_self, Tab.get_put_self]

end

/-! ### A failed check of a loom (R101 to R105) -/

/-- What poisoning a tile and stopping a sequencer leave beside what `State.Quiet` names: every register but LOOM_STALL, and the marks on
the blocks of loom stores. -/
structure State.KeepsMarks (s t : State) : Prop where
  reg : ∀ r, (∀ g, r ≠ .loomStall g) → t.reg r = s.reg r
  bad : ∀ g, (t.loom g).bad = (s.loom g).bad

section
variable {s t u : State}

theorem State.KeepsMarks.trans (h : s.KeepsMarks t) (k : t.KeepsMarks u) : s.KeepsMarks u :=
  ⟨fun r hr => (k.reg r hr).trans (h.reg r hr), fun g => (k.bad g).trans (h.bad g)⟩

theorem State.KeepsMarks.of_regs_looms (hr : t.regs = s.regs) (hl : t.looms = s.looms) : s.KeepsMarks t :=
  ⟨fun r _ => by rw [State.reg, hr, State.reg], fun g => by rw [State.loom, hl, State.loom]⟩

theorem State.keepsMarks_modLoom (g : Fin 256) (f : Loom → Loom) (h : (f (s.loom g)).bad = (s.loom g).bad) : s.KeepsMarks (s.modLoom g f) := by
  refine ⟨fun _ _ => rfl, fun k => ?_⟩
  by_cases hk : k = g
  · subst hk
    rw [loom_modLoom_self, h]
  · rw [loom_modLoom_of_ne s f hk]

theorem State.keepsMarks_releaseFills (s : State) (g : Fin 256) : s.KeepsMarks (s.releaseFills g) :=
  (keepsMarks_modLoom g (fun l => { l with fills := l.fills.map (fun f => { f with heldSince := none }) }) rfl).trans
    ⟨fun _ hr => reg_setFld_of_ne _ _ _ (hr g), fun _ => rfl⟩

theorem State.keepsMarks_poison (s : State) (a : At) : s.KeepsMarks (s.poison a) := by
  unfold poison
  extract_lets q
  split
  · exact .of_regs_looms rfl rfl
  · next tile _ =>
    extract_lets u
    have hu : s.KeepsMarks u := by
      subst u
      split
      · exact .of_regs_looms rfl rfl
      · next p _ =>
        have hframe := s.modPart_frame p (fun x => x.dropSnapshots tile.snapshots)
        exact .of_regs_looms (congrArg State.regs hframe :) (congrArg State.looms hframe :)
    exact (hu.trans (keepsMarks_modLoom a.loom _ rfl)).trans (keepsMarks_releaseFills _ a.loom)

theorem State.keepsMarks_stopSeq (s : State) (a : At) (code : BitVec 16) : s.KeepsMarks (s.stopSeq a code) :=
  keepsMarks_modLoom a.loom (fun l => l.setSeq a.ctx { s.seq a with run := .faulted code }) rfl

end

section
variable (s : State) {a : At} (kind code detail : Nat)

theorem State.loomCheckFails_of_free (h : (s.loom a.loom).part = none) :
    s.loomCheckFails a kind code detail = s.report (loomUnit a.loom kind) code detail := by
  simp only [loomCheckFails, h]

theorem State.loomCheckFails_of_owned {p : Fin 16} (h : (s.loom a.loom).part = some p) :
    s.loomCheckFails a kind code detail
      = ((s.report (loomUnit a.loom kind) code (detail + attribution p a.ctx)).poison a).stopSeq a (BitVec.ofNat 16 code) := by
  simp only [loomCheckFails, h]

/-- No memory changes, nor what a loom stores. -/
theorem State.quiet_loomCheckFails : s.Quiet (s.loomCheckFails a kind code detail) := by
  cases h : (s.loom a.loom).part with
  | none => rw [loomCheckFails_of_free s kind code detail h]; exact quiet_report s _ _ _
  | some p =>
    rw [loomCheckFails_of_owned s kind code detail h]
    exact (quiet_report s _ _ _).trans ((poison_spec a).1.trans (quiet_setSeq a _))

theorem State.keepsMarks_loomCheckFails : s.KeepsMarks (s.loomCheckFails a kind code detail) := by
  have hreport : ∀ d, s.KeepsMarks (s.report (loomUnit a.loom kind) code d) := fun _ => .of_regs_looms rfl rfl
  cases h : (s.loom a.loom).part with
  | none => rw [loomCheckFails_of_free s kind code detail h]; exact hreport detail
  | some p =>
    rw [loomCheckFails_of_owned s kind code detail h]
    exact ((hreport _).trans (keepsMarks_poison _ a)).trans (keepsMarks_stopSeq _ a _)

/-- Its registers are those that the check had noted. -/
theorem State.fld_loomCheckFails {r : Reg} (hr : ∀ g, r ≠ .loomStall g) (f : Fld) :
    (s.loomCheckFails a kind code detail).fld r f = s.fld r f :=
  congrArg f.get ((s.keepsMarks_loomCheckFails kind code detail).reg r hr)

/-- A loom that a partition holds: its record names the partition and the context. -/
theorem State.flight_loomCheckFails_of_owned {p : Fin 16} (h : (s.loom a.loom).part = some p) :
    (s.loomCheckFails a kind code detail).safety.flight
      = s.safety.flight ++ [s.record (loomUnit a.loom kind) code (detail + attribution p a.ctx)] := by
  rw [loomCheckFails_of_owned s kind code detail h]
  obtain ⟨-, hsafety, -, -⟩ := poison_spec (s := s.report (loomUnit a.loom kind) code (detail + attribution p a.ctx)) a
  exact congrArg Safety.flight hsafety

theorem State.flight_loomCheckFails :
    ∃ d, (s.loomCheckFails a kind code detail).safety.flight = s.safety.flight ++ [s.record (loomUnit a.loom kind) code d] := by
  cases h : (s.loom a.loom).part with
  | none => rw [loomCheckFails_of_free s kind code detail h]; exact ⟨_, rfl⟩
  | some p => exact ⟨_, s.flight_loomCheckFails_of_owned kind code detail h⟩

/-- A loom that a partition holds: the sequencer stops, and its open tile is gone. -/
theorem State.stops_loomCheckFails {p : Fin 16} (h : (s.loom a.loom).part = some p) :
    ((s.loomCheckFails a kind code detail).seq a).run = .faulted (BitVec.ofNat 16 code)
      ∧ ((s.loomCheckFails a kind code detail).seq a).tile = none := by
  rw [loomCheckFails_of_owned s kind code detail h, stopSeq, modSeq, seq_setSeq_self]
  obtain ⟨-, -, htile, -⟩ := poison_spec (s := s.report (loomUnit a.loom kind) code (detail + attribution p a.ctx)) a
  exact ⟨rfl, htile⟩

end

/-- The lowest bit of a detail word is the check's own: the attribution lies above it (R384). -/
theorem getLsbD_zero_of_attribution (n : Nat) (p : Fin 16) (c : Fin 8) :
    (BitVec.ofNat 128 (n + attribution p c)).getLsbD 0 = decide (n % 2 = 1) := by
  have : (n + attribution p c) % 2 = n % 2 := by simp only [attribution]; omega
  simp only [BitVec.getLsbD_ofNat, Nat.testBit_zero, this, Nat.zero_lt_succ, decide_true, Bool.true_and]

end Sys2Proof.Machine

namespace Sys2Proof.Claims

open Sys2Proof Sys2Proof.Machine

/-! ### The checks of a loom -/

/-- What a check reports and stops, whatever registers and marks it has written in u before. -/
theorem checkStops_loomCheckFails {s u : State} {g : Fin 256} (hsafety : u.safety = s.safety) (howner : (u.loom g).part = (s.loom g).part)
    (hbytes : ∀ st i, u.byteAt st i = s.byteAt st i) (kind code detail : Nat) :
    CheckStops s (u.loomCheckFails (s.loomCtx g) kind code detail) g kind code := by
  refine ⟨?_, fun h => ?_, fun st i => ((u.quiet_loomCheckFails kind code detail).byteAt st i).trans (hbytes st i)⟩
  · obtain ⟨d, hd⟩ := u.flight_loomCheckFails (a := s.loomCtx g) kind code detail
    exact ⟨_, by rw [hd, hsafety], rfl, rfl⟩
  · obtain ⟨p, hp⟩ := Option.ne_none_iff_exists'.mp h
    exact u.stops_loomCheckFails (a := s.loomCtx g) kind code detail (howner.trans hp)

theorem checkStops_of_noted {s u : State} (h : s.Noted u) (g : Fin 256) (kind code detail : Nat) :
    CheckStops s (u.loomCheckFails (s.loomCtx g) kind code detail) g kind code :=
  checkStops_loomCheckFails h.safety (congrArg Loom.part (h.loom g)) h.byteAt kind code detail

/-- A loom that is marked stopped besides. -/
theorem CheckStops.stopLoom {s t : State} {g : Fin 256} {kind code : Nat} (h : CheckStops s t g kind code) :
    CheckStops s (t.modLoom g (fun l => { l with stopped := true })) g kind code := by
  obtain ⟨hflight, hstops, hbytes⟩ := h
  have hseq : (t.modLoom g (fun l => { l with stopped := true })).seq (s.loomCtx g) = t.seq (s.loomCtx g) :=
    (congrArg (fun l : Loom => l.seq (s.loomCtx g).ctx) (t.loom_modLoom_self g (fun l => { l with stopped := true })) :)
  refine ⟨hflight, fun hp => by rw [hseq]; exact hstops hp, fun st i => ?_⟩
  exact ((State.quiet_modLoom g _ rfl rfl).byteAt st i).trans (hbytes st i)

/-- A counter counts, whatever other registers and fields are written after. -/
theorem counts_of_fld_eq {s t : State} {r : Reg} {f : Fld} {n : Nat} (h : f.lo + f.w ≤ 64) (ht : t.fld r f = (s.bump r f n).fld r f) :
    Counts s t r f n :=
  ht.trans (s.fld_bump_self h n)

theorem residueMismatch_stops (s : State) (g : Fin 256) (harness : Fin 4) (heddle : Fin 64) (fell : Fin 2) (stateCopy : Bool) :
    Gives (.residueMismatch g harness heddle fell stateCopy) s (fun t => CheckStops s t g 2 0x0301
      ∧ t.fld (.loomCheck g) Fl.loomCheck_LAST_HARNESS = harness.val ∧ t.fld (.loomCheck g) Fl.loomCheck_LAST_HEDDLE = heddle.val
      ∧ t.fld (.loomCheck g) Fl.loomCheck_LAST_FELL = fell.val ∧ Counts s t (.loomCheck g) Fl.loomCheck_RESIDUE_FAULTS 1) := by
  have hr : ∀ k, Reg.loomCheck g ≠ .loomStall k := fun _ => by simp
  have hn : Reg.pickNow ≠ .loomCheck g := by simp
  refine ⟨_, rfl, checkStops_of_noted (((((State.Noted.refl s).bump hn _ _).setFld hn _ _).setFld hn _ _).setFld hn _ _) g 2 0x0301 _,
    (State.fld_loomCheckFails _ _ _ _ hr _).trans ?_, (State.fld_loomCheckFails _ _ _ _ hr _).trans ?_,
    (State.fld_loomCheckFails _ _ _ _ hr _).trans ?_, counts_of_fld_eq (by decide) ((State.fld_loomCheckFails _ _ _ _ hr _).trans ?_)⟩
  · rw [State.fld_setFld_of_before _ (by decide), State.fld_setFld_of_before _ (by decide), State.fld_setFld_of_lt _ (by decide) harness.isLt]
  · rw [State.fld_setFld_of_before _ (by decide), State.fld_setFld_of_lt _ (by decide) heddle.isLt]
  · rw [State.fld_setFld_of_lt _ (by decide) fell.isLt]
  · rw [State.fld_setFld_of_before _ (by decide), State.fld_setFld_of_before _ (by decide), State.fld_setFld_of_before _ (by decide)]

theorem lockstepMismatch_stops (s : State) (g : Fin 256) :
    Gives (.lockstepMismatch g) s (fun t => CheckStops s t g 1 0x0302 ∧ t.fld (.loomCheck g) Fl.loomCheck_LOCKSTEP = 1
      ∧ (t.loom g).stopped = true) :=
  ⟨_, rfl, (checkStops_of_noted ((State.Noted.refl s).setFld (by simp) _ _) g 1 0x0302 0).stopLoom,
    (State.fld_loomCheckFails _ _ _ _ (fun _ => by simp) _).trans (State.fld_setFld_of_lt _ (by decide) (by decide)),
    congrArg Loom.stopped (State.loom_modLoom_self _ g _)⟩

theorem drainRounderMismatch_stops (s : State) (g : Fin 256) :
    Gives (.drainRounderMismatch g) s (fun t => CheckStops s t g 2 0x0303 ∧ t.fld (.loomCheck g) Fl.loomCheck_DRAIN_MISMATCH = 1) :=
  ⟨_, rfl, checkStops_of_noted ((State.Noted.refl s).setFld (by simp) _ _) g 2 0x0303 0,
    (State.fld_loomCheckFails _ _ _ _ (fun _ => by simp) _).trans (State.fld_setFld_of_lt _ (by decide) (by decide))⟩

theorem loomChecksStopTheTile : LoomChecksStopTheTile := fun s g =>
  ⟨residueMismatch_stops s g, lockstepMismatch_stops s g, drainRounderMismatch_stops s g⟩

/-- Settles O60: the command only notes DRAIN_MISMATCH before the check fails, and a failed check writes to no storage. -/
theorem roundersThatDifferWriteNothing : Obligations.RoundersThatDifferWriteNothing := by
  intro s g
  have hnoted := (State.Noted.refl s).setFld (r := .loomCheck g) (by simp) Fl.loomCheck_DRAIN_MISMATCH 1
  obtain ⟨d, hflight⟩ := State.flight_loomCheckFails (s.setFld (.loomCheck g) Fl.loomCheck_DRAIN_MISMATCH 1) (a := s.loomCtx g) 2 0x0303 0
  refine ⟨_, rfl, ⟨d, ?_⟩, fun st i => ?_⟩
  · rw [hnoted.safety, hnoted.record] at hflight
    exact hflight
  · exact ((State.quiet_loomCheckFails _ 2 0x0303 0).byteAt st i).trans (hnoted.byteAt st i)

/-! ### The watchdog of a tile -/

theorem exec_tileWatchdogExpiry_none {s : State} {g : Fin 256} (h : (s.loom g).tileOf (fun _ t => decide (t.start + 450000 ≤ s.beat)) = none) :
    exec (.tileWatchdogExpiry g) s = .next s := by
  simp only [exec_tileWatchdogExpiry, execTileWatchdogExpiry, h]

/-- What the watchdog's detail word begins with: whether the tile waited for its bank (log entry 29). -/
def waitsForBank (s : State) (g : Fin 256) (tile : Tile) : Nat := if tile.waiting.isSome && !(s.loom g).bankReady tile.bank then 1 else 0

theorem exec_tileWatchdogExpiry_some {s : State} {g : Fin 256} {c : Fin 8} {tile : Tile}
    (h : (s.loom g).tileOf (fun _ t => decide (t.start + 450000 ≤ s.beat)) = some (c, tile)) :
    exec (.tileWatchdogExpiry g) s = .next ((s.setFld (.loomCheck g) Fl.loomCheck_WATCHDOG 1).loomCheckFails { loom := g, ctx := c } 7 0x0306
      (waitsForBank s g tile)) := by
  simp only [exec_tileWatchdogExpiry, execTileWatchdogExpiry, h, waitsForBank]

theorem waitsForBank_odd (s : State) (g : Fin 256) (tile : Tile) :
    waitsForBank s g tile % 2 = 1 ↔ tile.waiting.isSome = true ∧ (s.loom g).bankReady tile.bank = false := by
  unfold waitsForBank
  split <;> simp_all

/-- Settles O15: the watchdog's check fails on the loom, once LOOM_CHECK has latched it. Which bit of the detail word says that the tile
waited, and that before its time the watchdog does nothing, are the model's choices (log entries 29 and 45). -/
theorem hungTilesAreEnded : Obligations.HungTilesAreEnded := by
  refine fun s g => ⟨exec_tileWatchdogExpiry_none, fun c p tile hp ht => ?_⟩
  have hnoted := (State.Noted.refl s).setFld (r := .loomCheck g) (by simp) Fl.loomCheck_WATCHDOG 1
  generalize hu : s.setFld (.loomCheck g) Fl.loomCheck_WATCHDOG 1 = u at hnoted
  have howner : (u.loom g).part = some p := by rw [hnoted.loom, hp]
  obtain ⟨hrun, htile⟩ := u.stops_loomCheckFails (a := { loom := g, ctx := c }) 7 0x0306 (waitsForBank s g tile) howner
  have hflight := u.flight_loomCheckFails_of_owned (a := { loom := g, ctx := c }) 7 0x0306 (waitsForBank s g tile) howner
  rw [hnoted.safety] at hflight
  refine ⟨_, hu ▸ exec_tileWatchdogExpiry_some ht, htile, hrun, ?_, ⟨_, hflight, rfl, rfl, ?_⟩, fun st i => ?_⟩
  · rw [u.fld_loomCheckFails _ _ _ (fun _ => by simp), ← hu, State.fld_setFld_of_lt _ (by decide) (by decide)]
  · show (BitVec.ofNat 128 (waitsForBank s g tile + attribution p c)).getLsbD 0 = true ↔ _
    rw [getLsbD_zero_of_attribution, decide_eq_true_iff, waitsForBank_odd]
  · exact ((u.quiet_loomCheckFails _ _ _).byteAt st i).trans (hnoted.byteAt st i)

end Sys2Proof.Claims
end

section
/-! PROOFS. Storage errors and the monitors of the dies (05 R103; 11 R210; 15 R299, R309; 16 R312; 19 R372): each place's errors are counted,
marked and recorded; a monitor's report is one record. -/

namespace Sys2Proof.Machine

open Sys2Proof

/-! ### Codes recorded once a pick (R384) -/

theorem State.reportOnce_frame (s : State) (key : Nat × Nat × Nat) (unit code detail : Nat) :
    { s.reportOnce key unit code detail with safety := s.safety } = s := by
  unfold reportOnce
  split <;> rfl

@[simp] theorem State.reportOnce_fld (s : State) (key : Nat × Nat × Nat) (unit code detail : Nat) (r : Reg) (f : Fld) :
    (s.reportOnce key unit code detail).fld r f = s.fld r f :=
  (congrArg (fun t : State => t.fld r f) (s.reportOnce_frame key unit code detail) :)

/-! ### What an error is, by the place it lies in -/

/-- A corrected error of a loom: it counts in LOOM_ECC, with its address, and is recorded once a pick. -/
def State.loomCorrected (s : State) (g : Fin 256) (addr kind : Nat) : State :=
  ((s.bump (.loomEcc g) Fl.loomEcc_CORRECTED 1).setFld (.loomEcc g) Fl.loomEcc_LAST_ADDR addr).reportOnce
    (loomUnit g 0, 0x030A, 0) (loomUnit g kind) 0x030A 0

/-- The loom's registers for an uncorrectable error: the latch of its kind, and its address. -/
def State.loomUncorrectable (s : State) (g : Fin 256) (latch : Fld) (addr : Nat) : State :=
  (s.setFld (.loomEcc g) latch 1).setFld (.loomEcc g) Fl.loomEcc_LAST_ADDR addr

/-- The registers of a stack's memory controller for an uncorrectable error of a granule. -/
def State.nearUncorrectable (s : State) (k : Fin 32) (granule : Nat) : State :=
  ((s.bump (memEccOf k) Fl.memEcc_UNCORRECTED 1).setFld (memEccOf k) Fl.memEcc_UE_SEEN 1).setFld (memEccOf k) Fl.memEcc_LAST_GRANULE granule

section
variable (s : State) (g : Fin 256) (k : Fin 32)

theorem exec_secdedCorrected_loomStore {addr : BitVec 23} (h : (EccPlace.loomStore g addr).inRange = true) :
    exec (.secdedCorrected (.loomStore g addr)) s = .next (s.loomCorrected g addr.toNat 3) := by
  simp only [exec_secdedCorrected, execSecdedCorrected, h, Bool.not_true, Bool.false_eq_true, if_false, State.loomCorrected]

theorem exec_secdedUncorrectable_loomStore {addr : BitVec 23} (h : (EccPlace.loomStore g addr).inRange = true) :
    exec (.secdedUncorrectable (.loomStore g addr)) s
      = .next (((s.loomUncorrectable g Fl.loomEcc_STORE_UE addr.toNat).setBlockBad (.loom g) (addr.toNat / 4096) true).loomCheckFails
          (s.loomCtx g) 3 0x0304 addr.toNat) := by
  simp only [exec_secdedUncorrectable, execSecdedUncorrectable, h, Bool.not_true, Bool.false_eq_true, if_false]
  rfl

theorem exec_secdedCorrected_loomArray : exec (.secdedCorrected (.loomArray g)) s = .next (s.loomCorrected g 0 2) := rfl

theorem exec_secdedUncorrectable_loomArray : exec (.secdedUncorrectable (.loomArray g)) s
    = .next ((s.loomUncorrectable g Fl.loomEcc_ARRAY_UE 0).loomCheckFails (s.loomCtx g) 2 0x0305 0) := rfl

theorem exec_secdedUncorrectable_reserved : exec (.secdedUncorrectable (.near k none)) s
    = .next ((s.nearUncorrectable k 0).report (stackUnit k) 0x0504 0) := rfl

theorem exec_secdedUncorrectable_granule (p : Fin 16) (b : BitVec 36) : exec (.secdedUncorrectable (.near k (some (p, b)))) s
    = .next (((s.nearUncorrectable k b.toNat).setBlockBad (.cloth p) b.toNat true).report (stackUnit k) 0x0504 b.toNat) := rfl

theorem exec_secdedCorrected_millStore {m : Fin 8} {addr : BitVec 27} (h : (EccPlace.millStore m addr).inRange = true) :
    exec (.secdedCorrected (.millStore m addr)) s = .next s := by
  simp only [exec_secdedCorrected, execSecdedCorrected, h, Bool.not_true, Bool.false_eq_true, if_false]

/-- An error of a mill store marks a block of a carve, where it lies in one, and is recorded either way (log entry 36). -/
theorem exec_secdedUncorrectable_millStore {m : Fin 8} {addr : BitVec 27} (h : (EccPlace.millStore m addr).inRange = true) :
    exec (.secdedUncorrectable (.millStore m addr)) s = .next (s.report (millUnit m 0x10) 0x0504 (addr.toNat / 4096))
      ∨ ∃ st b, exec (.secdedUncorrectable (.millStore m addr)) s
          = .next ((s.setBlockBad st b true).report (millUnit m 0x10) 0x0504 (addr.toNat / 4096)) := by
  simp only [exec_secdedUncorrectable, execSecdedUncorrectable, h, Bool.not_true, Bool.false_eq_true, if_false]
  cases s.millCarveAt addr.toNat with
  | none => exact .inl rfl
  | some e => exact .inr ⟨_, _, rfl⟩

theorem State.noted_loomUncorrectable (latch : Fld) (addr : Nat) : s.Noted (s.loomUncorrectable g latch addr) :=
  ((State.Noted.refl s).setFld (by simp) _ _).setFld (by simp) _ _

theorem State.noted_nearUncorrectable (granule : Nat) : s.Noted (s.nearUncorrectable k granule) :=
  (((State.Noted.refl s).bump (by simp [memEccOf]) _ _).setFld (by simp [memEccOf]) _ _).setFld (by simp [memEccOf]) _ _

end

end Sys2Proof.Machine

namespace Sys2Proof.Claims

open Sys2Proof Sys2Proof.Machine

/-! ### Errors that are recorded -/

theorem oncePerPick_reportOnce {s u : State} (h : s.Noted u) (key : Nat × Nat × Nat) (unit code : Nat) :
    OncePerPick s (u.reportOnce key unit code 0) key unit code := by
  refine ⟨fun hk => ?_, fun hk => ?_⟩
  · simp [State.reportOnce, h.safety, hk]
  · simp [State.reportOnce, h.safety, h.record, hk]

/-- What a record adds, after registers have been written and perhaps a block marked: itself, and no byte. -/
def Recorded (s t : State) (r : Record) : Prop := t.safety.flight = s.safety.flight ++ [r] ∧ ∀ st i, t.byteAt st i = s.byteAt st i

theorem recorded_report {s u : State} (h : s.Noted u) (unit code detail : Nat) :
    Recorded s (u.report unit code detail) (s.record unit code detail) := by
  refine ⟨?_, fun st i => ((u.quiet_report unit code detail).byteAt st i).trans (h.byteAt st i)⟩
  rw [State.report_safety, h.safety, h.record]

theorem recorded_markedReport {s u : State} (h : s.Noted u) (st : Store) (k : Nat) (b : Bool) (unit code detail : Nat) :
    Recorded s ((u.setBlockBad st k b).report unit code detail) (s.record unit code detail) := by
  refine ⟨?_, fun su i => ?_⟩
  · rw [State.report_safety, State.setBlockBad_safety, State.setBlockBad_record, h.safety, h.record]
  · exact ((State.quiet_report _ unit code detail).byteAt su i).trans ((u.byteAt_setBlockBad st k b su i).trans (h.byteAt su i))

/-! ### Errors of a loom -/

theorem loomCorrected_counts (s : State) (g : Fin 256) {addr : Nat} (ha : addr < 2 ^ 23) (kind : Nat) :
    let t := s.loomCorrected g addr kind
    Counts s t (.loomEcc g) Fl.loomEcc_CORRECTED 1 ∧ t.fld (.loomEcc g) Fl.loomEcc_LAST_ADDR = addr
      ∧ { t with regs := s.regs, safety := s.safety } = s ∧ OncePerPick s t (loomUnit g 0, 0x030A, 0) (loomUnit g kind) 0x030A := by
  refine ⟨counts_of_fld_eq (by decide) ?_, ?_, ?_, oncePerPick_reportOnce (((State.Noted.refl s).bump (by simp) _ _).setFld (by simp) _ _) _ _ _⟩
  · rw [State.loomCorrected, State.reportOnce_fld, State.fld_setFld_of_before _ (by decide)]
  · rw [State.loomCorrected, State.reportOnce_fld, State.fld_setFld_of_lt _ (by decide) ha]
  · exact (congrArg (fun t : State => { t with regs := s.regs }) (State.reportOnce_frame _ _ _ _ _) :)

theorem loomStoreErrors (s : State) (g : Fin 256) (addr : BitVec 23) (h : (EccPlace.loomStore g addr).inRange = true) :
    Gives (.secdedCorrected (.loomStore g addr)) s (fun t => Counts s t (.loomEcc g) Fl.loomEcc_CORRECTED 1
        ∧ t.fld (.loomEcc g) Fl.loomEcc_LAST_ADDR = addr.toNat ∧ { t with regs := s.regs, safety := s.safety } = s
        ∧ OncePerPick s t (loomUnit g 0, 0x030A, 0) (loomUnit g 3) 0x030A)
      ∧ Gives (.secdedUncorrectable (.loomStore g addr)) s (fun t => CheckStops s t g 3 0x0304
          ∧ t.fld (.loomEcc g) Fl.loomEcc_STORE_UE = 1 ∧ t.blockBad (.loom g) (addr.toNat / 4096) = true) := by
  refine ⟨⟨_, exec_secdedCorrected_loomStore s g h, loomCorrected_counts s g addr.isLt 3⟩, _, exec_secdedUncorrectable_loomStore s g h, ?_⟩
  have hnoted := s.noted_loomUncorrectable g Fl.loomEcc_STORE_UE addr.toNat
  refine ⟨checkStops_loomCheckFails ?_ ?_ (fun st i => ?_) 3 0x0304 addr.toNat, ?_, ?_⟩
  · rw [State.setBlockBad_safety, hnoted.safety]
  · rw [State.setBlockBad, State.loom_modLoom_self, hnoted.loom]
  · rw [State.byteAt_setBlockBad, hnoted.byteAt]
  · rw [State.fld_loomCheckFails _ _ _ _ (fun _ => by simp), State.setBlockBad_fld, State.loomUncorrectable,
      State.fld_setFld_of_before _ (by decide), State.fld_setFld_of_lt _ (by decide) (by decide)]
  · rw [State.blockBad, (State.keepsMarks_loomCheckFails _ 3 0x0304 addr.toNat).bad g]
    exact State.blockBad_setBlockBad_loom _ g _ true

theorem loomArrayErrors (s : State) (g : Fin 256) :
    Gives (.secdedCorrected (.loomArray g)) s (fun t => Counts s t (.loomEcc g) Fl.loomEcc_CORRECTED 1
        ∧ OncePerPick s t (loomUnit g 0, 0x030A, 0) (loomUnit g 2) 0x030A)
      ∧ Gives (.secdedUncorrectable (.loomArray g)) s (fun t => CheckStops s t g 2 0x0305 ∧ t.fld (.loomEcc g) Fl.loomEcc_ARRAY_UE = 1) := by
  obtain ⟨hcounts, -, -, honce⟩ := loomCorrected_counts s g (addr := 0) (by decide) 2
  refine ⟨⟨_, exec_secdedCorrected_loomArray s g, hcounts, honce⟩, _, exec_secdedUncorrectable_loomArray s g,
    checkStops_of_noted (s.noted_loomUncorrectable g _ 0) g 2 0x0305 0, ?_⟩
  rw [State.fld_loomCheckFails _ _ _ _ (fun _ => by simp), State.loomUncorrectable, State.fld_setFld_of_before _ (by decide),
    State.fld_setFld_of_lt _ (by decide) (by decide)]

/-! ### Errors of stacks, far ports and mill stores -/

theorem nearCorrected_counts (s : State) (k : Fin 32) (gr : Option (Fin 16 × BitVec 36)) :
    Gives (.secdedCorrected (.near k gr)) s (fun t => Counts s t (memEccOf k) Fl.memEcc_CORRECTED 1
      ∧ OncePerPick s t (stackUnit k, 0x0505, 0) (stackUnit k) 0x0505) :=
  ⟨_, rfl, counts_of_fld_eq (by decide) ((State.reportOnce_fld _ _ _ _ _ _ _).trans (State.fld_setFld_of_before _ (by decide) _)),
    oncePerPick_reportOnce (((State.Noted.refl s).bump (by simp [memEccOf]) _ _).setFld (by simp [memEccOf]) _ _) _ _ _⟩

theorem nearUncorrectable_counts (s : State) (k : Fin 32) (granule : Nat) :
    Counts s (s.nearUncorrectable k granule) (memEccOf k) Fl.memEcc_UNCORRECTED 1
      ∧ (s.nearUncorrectable k granule).fld (memEccOf k) Fl.memEcc_UE_SEEN = 1 := by
  refine ⟨counts_of_fld_eq (by decide) ?_, ?_⟩
  · rw [State.nearUncorrectable, State.fld_setFld_of_before _ (by decide), State.fld_setFld_of_before _ (by decide)]
  · rw [State.nearUncorrectable, State.fld_setFld_of_before _ (by decide), State.fld_setFld_of_lt _ (by decide) (by decide)]

theorem nearErrors (s : State) (k : Fin 32) (gr : Option (Fin 16 × BitVec 36)) :
    Gives (.secdedCorrected (.near k gr)) s (fun t => Counts s t (memEccOf k) Fl.memEcc_CORRECTED 1
        ∧ OncePerPick s t (stackUnit k, 0x0505, 0) (stackUnit k) 0x0505)
      ∧ Gives (.secdedUncorrectable (.near k gr)) s (fun t => Counts s t (memEccOf k) Fl.memEcc_UNCORRECTED 1
          ∧ t.fld (memEccOf k) Fl.memEcc_UE_SEEN = 1
          ∧ t.safety.flight = s.safety.flight ++ [s.record (stackUnit k) 0x0504 (match gr with | none => 0 | some e => e.2.toNat)]
          ∧ (∀ p b, gr = some (p, b) → (s.part? p).isSome = true → t.blockBad (.cloth p) b.toNat = true)
          ∧ ∀ st i, t.byteAt st i = s.byteAt st i) := by
  refine ⟨nearCorrected_counts s k gr, ?_⟩
  cases gr with
  | none =>
    obtain ⟨hcounts, hseen⟩ := nearUncorrectable_counts s k 0
    obtain ⟨hflight, hbytes⟩ := recorded_report (s.noted_nearUncorrectable k 0) (stackUnit k) 0x0504 0
    exact ⟨_, exec_secdedUncorrectable_reserved s k, hcounts, hseen, hflight, fun _ _ h => (Option.some_ne_none _ h.symm).elim, hbytes⟩
  | some e =>
    obtain ⟨p, b⟩ := e
    have hnoted := s.noted_nearUncorrectable k b.toNat
    obtain ⟨hcounts, hseen⟩ := nearUncorrectable_counts s k b.toNat
    obtain ⟨hflight, hbytes⟩ := recorded_markedReport hnoted (.cloth p) b.toNat true (stackUnit k) 0x0504 b.toNat
    refine ⟨_, exec_secdedUncorrectable_granule s k p b, ?_, ?_, hflight, fun q c hq hp => ?_, hbytes⟩
    · exact (State.setBlockBad_fld _ _ _ _ _ _).trans hcounts
    · exact (State.setBlockBad_fld _ _ _ _ _ _).trans hseen
    · cases hq
      exact State.blockBad_setBlockBad_cloth _ (by rw [hnoted.part?, hp]) b.toNat true

theorem farErrors (s : State) (n : Fin 4) (p : Fin 16) (b : BitVec 36) :
    Gives (.secdedCorrected (.far n p b)) s (fun t => Counts s t (.farCount n) Fl.farCount_CORRECTED 1
        ∧ OncePerPick s t (farUnit n, 0x0505, 0) (farUnit n) 0x0505)
      ∧ Gives (.secdedUncorrectable (.far n p b)) s (fun t => Counts s t (.farCount n) Fl.farCount_POISON 1
          ∧ t.safety.flight = s.safety.flight ++ [s.record (farUnit n) 0x0506 b.toNat]
          ∧ ((s.part? p).isSome = true → t.blockBad (.cloth p) b.toNat = true) ∧ ∀ st i, t.byteAt st i = s.byteAt st i) := by
  have hnoted : ∀ f, s.Noted (s.bump (.farCount n) f 1) := fun f => (State.Noted.refl s).bump (by simp) f 1
  obtain ⟨hflight, hbytes⟩ := recorded_markedReport (hnoted Fl.farCount_POISON) (.cloth p) b.toNat true (farUnit n) 0x0506 b.toNat
  refine ⟨⟨_, rfl, counts_of_fld_eq (by decide) (State.reportOnce_fld _ _ _ _ _ _ _), oncePerPick_reportOnce (hnoted _) _ _ _⟩,
    _, rfl, counts_of_fld_eq (by decide) (State.setBlockBad_fld _ _ _ _ _ _), hflight, fun hp => ?_, hbytes⟩
  exact State.blockBad_setBlockBad_cloth _ (by rw [(hnoted _).part?, hp]) b.toNat true

theorem millStoreErrors (s : State) (m : Fin 8) (addr : BitVec 27) (h : (EccPlace.millStore m addr).inRange = true) :
    exec (.secdedCorrected (.millStore m addr)) s = .next s
      ∧ Gives (.secdedUncorrectable (.millStore m addr)) s (fun t =>
          t.safety.flight = s.safety.flight ++ [s.record (millUnit m 0x10) 0x0504 (addr.toNat / 4096)]
            ∧ ∀ st i, t.byteAt st i = s.byteAt st i) := by
  refine ⟨exec_secdedCorrected_millStore s h, ?_⟩
  obtain hexec | ⟨st, b, hexec⟩ := exec_secdedUncorrectable_millStore s h
  · exact ⟨_, hexec, recorded_report (State.Noted.refl s) _ _ _⟩
  · exact ⟨_, hexec, recorded_markedReport (State.Noted.refl s) st b true _ _ _⟩

theorem storageErrorsAreRecorded : StorageErrorsAreRecorded := fun s =>
  ⟨loomStoreErrors s, loomArrayErrors s, fun k gr _ => nearErrors s k gr, fun n p b _ => farErrors s n p b, millStoreErrors s⟩

/-! ### Monitors -/

theorem onlyReports_refl (s : State) : OnlyReports s s [] := by
  simp [OnlyReports]

theorem onlyReports_report (s : State) (unit code detail : Nat) : OnlyReports s (s.report unit code detail) [s.record unit code detail] := rfl

theorem OnlyReports.trans {s t u : State} {l m : List Record} (h : OnlyReports s t l) (k : OnlyReports t u m) : OnlyReports s u (l ++ m) := by
  unfold OnlyReports at h k ⊢
  rw [k, h, List.append_assoc]

/-- Each owner that exists is recorded in turn, the records being those of the state before them all. -/
theorem onlyReports_foldl (owners : List (Fin 16)) (s : State) :
    OnlyReports s (owners.foldl (fun s p => if (s.part? p).isSome then s.report (beamUnit 0x21) 0x0A02 (attributionPart p) else s) s)
      ((owners.filter (fun p => (s.part? p).isSome)).map (fun p => s.record (beamUnit 0x21) 0x0A02 (attributionPart p))) := by
  induction owners generalizing s with
  | nil => exact onlyReports_refl s
  | cons p rest ih =>
    rw [List.foldl_cons]
    by_cases hp : (s.part? p).isSome = true
    · rw [if_pos hp, List.filter_cons, if_pos hp]
      exact (onlyReports_report s _ _ _).trans (ih (s.report (beamUnit 0x21) 0x0A02 (attributionPart p)))
    · rw [if_neg hp, List.filter_cons, if_neg hp]
      exact ih s

theorem exec_supplyOutOfTolerance_of_rail (s : State) {d : Domain} (hd : ∀ k, d ≠ .stack k) (rail : BitVec 8) (reading : BitVec 32) :
    exec (.supplyOutOfTolerance d rail reading) s = .next (s.report (domainUnit d) 0x0905 (rail.toNat + reading.toNat * 2 ^ 8)) := by
  cases d with
  | stack k => exact absurd rfl (hd k)
  | loom g => rfl
  | mill m => rfl
  | beam => rfl

theorem exec_pageStateUe_some {s : State} {p : Fin 16} {x : Part} (hx : s.part? p = some x) :
    exec (.pageStateUe p) s = .next (s.report (millUnit x.cfg.home 0x1B) 0x0406 (attributionPart p)) := by
  simp only [exec_pageStateUe, execPageStateUe, hx]

theorem monitorsReport : MonitorsReport := fun s =>
  ⟨fun _ => ⟨_, rfl, onlyReports_report s _ _ _⟩,
    fun _ rail reading hd => ⟨_, exec_supplyOutOfTolerance_of_rail s hd rail reading, onlyReports_report s _ _ _⟩,
    fun _ => ⟨_, rfl, onlyReports_report s _ _ _⟩, fun _ => ⟨_, rfl, onlyReports_report s _ _ _⟩,
    fun _ => ⟨_, rfl, onlyReports_report s _ _ _⟩, ⟨_, rfl, onlyReports_report s _ _ _⟩,
    fun _ _ hx => ⟨_, exec_pageStateUe_some hx, onlyReports_report s _ _ _⟩, fun owners => ⟨_, rfl, onlyReports_foldl owners s⟩⟩

/-- Settles O27: a check of a loom notes its registers and fails; an error of a storage is counted, marked and recorded by the place it lies
in; a monitor's report is one record. The errors of mill stores, the units and details of records, monitors that watch in every phase and one
record for each owner of a queue are the model's choices (log entries 36, 29, 10 and 48). -/
theorem checksAreReported : Obligations.ChecksAreReported := ⟨loomChecksStopTheTile, storageErrorsAreRecorded, monitorsReport⟩

end Sys2Proof.Claims
end

section
/-! PROOFS. TBEGIN (06 R133; 05 R100; 07 R147, R148): when it tries to open its tile and when its bank is stale, and what an opening tile
leaves and writes. -/

namespace Sys2Proof.Machine

open Sys2Proof

/-- The bank that a TBEGIN names. -/
def tbeginBank (w : TWord) : Fin 2 := if bit w.sel.toNat 2 then 1 else 0

/-- The fells that a TBEGIN preloads. -/
def tbeginPreloads (w : TWord) : List Nat := (if bit w.sel.toNat 3 then [0] else []) ++ (if bit w.sel.toNat 4 then [1] else [])

/-! ### When a TBEGIN tries to open its tile (R100, R133) -/

section
variable {s : State} {a : At} {w : TWord} {h : Here} (hok : tbeginOk w = true) (hhere : s.here a (w.code 0x20) = some h)
  (hpred : (s.seq a).getP w.pred ≠ w.pneg) (hland : h.landing = false)
include hok hhere hpred hland

theorem exec_tbegin_stale (hwarp : w.d1 ≠ 0) (hstale : ∀ g, h.l.tagOf (tbeginBank w) = some g → g.ctx ≠ h.a.ctx ∨ g.tag ≠ w.tag) :
    exec (.tbegin a w) s = .next (h.go (h.q.setCond .bankStale (tbeginBank w).val)) := by
  rw [exec_tbegin, execTbegin, State.issueT, State.issue_eq hhere hok, if_neg hpred, hland, if_neg Bool.false_ne_true, if_neg hwarp]
  unfold tbeginBank at hstale ⊢
  cases htag : h.l.tagOf (if bit w.sel.toNat 2 then 1 else 0) with
  | none => simp only [htag]
  | some g => simp only [htag, if_pos (hstale g htag)]

theorem exec_tbegin_tries (hbank : w.d1 ≠ 0 → ∃ g : BankTag, h.l.tagOf (tbeginBank w) = some g ∧ g.ctx = h.a.ctx ∧ g.tag = w.tag
      ∧ g.tieup = TieUp.ofCode (w.sel.toNat % 4) ∧ g.etype = (h.desc w.d1.toNat).type ∧ g.group = (h.desc w.d1.toNat).group) :
    exec (.tbegin a w) s = .next (h.tryOpen w) := by
  rw [exec_tbegin, execTbegin, State.issueT, State.issue_eq hhere hok, if_neg hpred, hland, if_neg Bool.false_ne_true]
  by_cases hwarp : w.d1 = 0
  · rw [if_pos hwarp]
  · obtain ⟨g, htag, hctx, hg, htieup, hetype, hgroup⟩ := hbank hwarp
    unfold tbeginBank at htag
    simp [htag, hctx, hg, htieup, hetype, hgroup]

end

/-! ### When it opens (R147, R148) -/

/-- ROWS and COLS of every descriptor of the tile are numbers, and in a partition of one mill within the ceilings of their roles. -/
def Here.ShapesOk (h : Here) (w : TWord) : Prop :=
  ∀ r ∈ h.t.roles h.q.pc.toNat (TieUp.ofCode (w.sel.toNat % 4)),
    (h.shapeNow r.1).rows ≠ BitVec.allOnes 64 ∧ (h.shapeNow r.1).cols ≠ BitVec.allOnes 64
      ∧ (h.k.singleMill = true → ∀ e ∈ r.2.limits (h.shapeNow r.1) (h.k.ceiling h.a.ctx w.aux.toNat), e.1 ≤ e.2.2)

section
variable {h : Here} {w : TWord} (hshapes : h.ShapesOk w)
include hshapes

theorem Here.ShapesOk.numbers :
    ¬ (h.t.roles h.q.pc.toNat (TieUp.ofCode (w.sel.toNat % 4))).any (fun r => ones (h.shapeNow r.1).rows || ones (h.shapeNow r.1).cols) = true := by
  simp only [List.any_eq_true, Bool.or_eq_true, ones, beq_iff_eq, not_exists, not_and, not_or]
  intro r hr
  obtain ⟨hrows, hcols, -⟩ := hshapes r hr
  exact ⟨hrows, hcols⟩

/-- No comparison with the ceilings fails. -/
theorem Here.ShapesOk.within :
    (if h.k.singleMill then ((h.t.roles h.q.pc.toNat (TieUp.ofCode (w.sel.toNat % 4))).flatMap (fun r =>
      (r.2.limits (h.shapeNow r.1) (h.k.ceiling h.a.ctx w.aux.toNat)).filter (fun e => e.2.2 < e.1))).head? else none) = none := by
  split
  case isFalse => rfl
  case isTrue hsingle =>
    rw [List.head?_eq_none_iff, List.flatMap_eq_nil_iff]
    intro r hr
    obtain ⟨-, -, hlimits⟩ := hshapes r hr
    exact List.filter_eq_nil_iff.mpr fun e he => by simpa using hlimits hsingle e he

variable {images : List (List (Nat × Fell) × (Nat × Nat))} {tables : List (DrainSet × List (Nat × Nat))}

theorem Here.tryOpen_opens (himages : eachOk (fun f => h.preload (h.desc w.d2.toNat).addr f) (tbeginPreloads w) = .ok images)
    (htables : eachOk (fun d => h.loadTable (TieUp.ofCode (w.sel.toNat % 4)) d) (h.t.records h.q.pc.toNat) = .ok tables)
    (hreads : ∀ r ∈ images.map (fun e => e.2) ++ tables.flatMap (fun e => e.2), h.x.readHeld h.l h.a r.1 r.2 = false) :
    h.tryOpen w = h.openTile w (h.t.roles h.q.pc.toNat (TieUp.ofCode (w.sel.toNat % 4))) (h.t.records h.q.pc.toNat)
      (images.flatMap (fun e => e.1)) (tables.map (fun e => e.1)) (tables.flatMap (fun e => e.2)).length := by
  have hheld : ¬ (images.map (fun e => e.2) ++ tables.flatMap (fun e => e.2)).any (fun r => h.x.readHeld h.l h.a r.1 r.2) = true := by
    simpa only [List.any_eq_true, not_exists, not_and, Bool.not_eq_true] using hreads
  unfold tbeginPreloads at himages
  simp only [tryOpen, if_neg hshapes.numbers, hshapes.within, himages, htables, if_neg hheld]

end

/-! ### What an opening tile leaves and writes (R133) -/

/-- What a TBEGIN sets of its loom: the context, the tie-up and the bank in hand, the vector registers clear, and the preloaded fells and
no other. -/
def Loom.opened (l : Loom) (c : Fin 8) (w : TWord) (pre : List (Nat × Fell)) : Loom :=
  { l with lastCtx := c, lastTieup := TieUp.ofCode (w.sel.toNat % 4), activeBank := tbeginBank w, v := [], vfell := Fell.cleared,
           fells := pre.foldl (fun t e => t.put e.1 e.2 Fell.cleared) [],
           undrained := pre.foldl (fun t e => t.put (e.1 % 2) true false) [] }

/-- The tile that a TBEGIN opens. -/
def Here.tile (h : Here) (w : TWord) (roles : List (Nat × Role)) (sets : List DrainSet) : Tile :=
  { tieup := TieUp.ofCode (w.sel.toNat % 4), bank := tbeginBank w, ceiling := w.aux.toNat, word := h.q.pc.toNat, start := h.s.beat,
    warp := w.d1.toNat, shapes := roles.foldl (fun t r => t.ins r.1 (h.shapeNow r.1)) [], sets := sets, waiting := none,
    attn := (h.t.tileWords h.q.pc.toNat).any (fun j => bits (h.t.word j) 0 8 == 0x25), snapshots := h.snapshots h.q.pc.toNat, scores := [],
    closing := none }

/-- The sequencer that has opened a tile. -/
def Seq.opened (q : Seq) (tile : Tile) : Seq := { (q.clearOut.setCond .ok 0) with tile := some tile }.next

theorem State.noteDrainSets_frame (s : State) (a : At) (recs : List Nat) (loads : Nat) :
    { s.noteDrainSets a recs loads with regs := s.regs } = s := rfl

/-- Snapshots that are held change nothing of a partition but its pool. -/
theorem State.quiet_holdSnapshots (s : State) (p : Fin 16) (l : List Snapshot) :
    s.Quiet (s.modPart p (fun x => l.foldl (fun x n => x.holdSnapshot n) x)) :=
  quiet_modPart s p _ (fun x => foldl_keeps Part.cfg l x) (fun x => foldl_keeps Part.cloth l x)

/-! The sequencer's registers, by the constructor of `q`: without it the kernel compares whole sequencers, words and all. -/

section
variable (q : Seq) (tile : Tile)

@[simp] theorem Seq.opened_tile : (q.opened tile).tile = some tile := rfl
@[simp] theorem Seq.opened_st : (q.opened tile).st = (q.clearOut.setCond .ok 0).st := rfl
@[simp] theorem Seq.opened_pc : (q.opened tile).pc = q.pc + 1 := by cases q; rfl
@[simp] theorem Seq.opened_b : (q.opened tile).b = q.b := by cases q; rfl
@[simp] theorem Seq.opened_a : (q.opened tile).a = q.a := by cases q; rfl
@[simp] theorem Seq.opened_p : (q.opened tile).p = q.p := by cases q; rfl

end

section
variable {s : State} {a : At} {code : Nat} {h : Here} (hhere : s.here a code = some h) (w : TWord) (roles : List (Nat × Role)) (recs : List Nat)
  (pre : List (Nat × Fell)) (sets : List DrainSet) (loads : Nat)

theorem Here.openTile_eq : h.openTile w roles recs pre sets loads
    = ((((h.setQ (h.q.opened (h.tile w roles sets))).modLoom h.a.loom (fun l => l.opened h.a.ctx w pre)).modPart h.p
        (fun x => (h.snapshots h.q.pc.toNat).foldl (fun x n => x.holdSnapshot n) x)).noteDrainSets h.a recs loads) := rfl

include hhere

theorem Here.openTile_frame :
    { h.openTile w roles recs pre sets loads with regs := s.regs, looms := s.looms, parts := s.parts } = s := by
  rw [openTile_eq]
  obtain ⟨-, hframe, -⟩ := Here.setQ_spec hhere (h.q.opened (h.tile w roles sets))
  generalize h.setQ (h.q.opened (h.tile w roles sets)) = u at hframe
  have hpart := (u.modLoom h.a.loom (fun l => l.opened h.a.ctx w pre)).modPart_frame h.p
    (fun x => (h.snapshots h.q.pc.toNat).foldl (fun x n => x.holdSnapshot n) x)
  exact (congrArg (fun t : State => { t with regs := s.regs, looms := s.looms, parts := s.parts }) hpart :).trans
    (congrArg (fun t : State => { t with regs := s.regs, parts := s.parts }) hframe :)

theorem Here.loom_openTile : (h.openTile w roles recs pre sets loads).loom a.loom
    = ((h.setQ (h.q.opened (h.tile w roles sets))).loom a.loom).opened a.ctx w pre := by
  obtain ⟨ha, -⟩ := State.here_spec hhere
  rw [openTile_eq, ha]
  generalize h.setQ (h.q.opened (h.tile w roles sets)) = u
  have hpart := (u.modLoom a.loom (fun l => l.opened a.ctx w pre)).modPart_frame h.p
    (fun x => (h.snapshots h.q.pc.toNat).foldl (fun x n => x.holdSnapshot n) x)
  exact (congrArg (fun t : State => t.loom a.loom) hpart :).trans (u.loom_modLoom_self a.loom _)

theorem Here.seq_openTile : (h.openTile w roles recs pre sets loads).seq a = h.q.opened (h.tile w roles sets) := by
  rw [State.seq, loom_openTile hhere]
  exact (Here.setQ_spec hhere _).1

theorem Here.byteAt_openTile (st : Store) (i : Nat) : (h.openTile w roles recs pre sets loads).byteAt st i = s.byteAt st i := by
  obtain ⟨-, -, -, -, -, hbytes⟩ := Here.setQ_spec hhere (h.q.opened (h.tile w roles sets))
  rw [openTile_eq, ← hbytes]
  generalize h.setQ (h.q.opened (h.tile w roles sets)) = u
  have hloom : u.Quiet (u.modLoom h.a.loom (fun l => l.opened h.a.ctx w pre)) := State.quiet_modLoom h.a.loom _ rfl rfl
  exact (hloom.trans (State.quiet_holdSnapshots _ h.p _)).byteAt st i

end

end Sys2Proof.Machine

namespace Sys2Proof.Claims

open Sys2Proof Sys2Proof.Machine

/-- An instruction that only sets its sequencer and goes on. -/
theorem seqBecomes_of_go {c : Instr} {s : State} {a : At} {code : Nat} {h : Here} (hhere : s.here a code = some h) {q : Seq}
    (hexec : exec c s = .next (h.go q)) : SeqBecomes c s a q.next :=
  ⟨_, hexec, Here.setQ_spec hhere q.next⟩

theorem calm_of_frame {s t : State} (h : { t with regs := s.regs, looms := s.looms, parts := s.parts } = s) : Calm s t :=
  ⟨(congrArg State.safety h :), (congrArg State.links h :), (congrArg State.slots h :), (congrArg State.net h :), (congrArg State.mem h :)⟩

theorem tbeginOpensTheTile : TbeginOpensTheTile := by
  intro s a w h images tables hok hat hland hbank hshapes himages htables hreads
  obtain ⟨hhere, hpred⟩ := hat
  obtain ⟨ha, -, -, -, -, hs⟩ := State.here_spec hhere
  have hq : h.q = ran s a := Here.q_eq hhere
  have hpc : (s.seq a).pc = h.q.pc := by rw [hq]; rfl
  rw [hpc] at hshapes htables
  rw [← ha] at hreads
  have hopens := Here.tryOpen_opens (h := h) (by rw [← ha] at hshapes; exact hshapes) himages htables hreads
  obtain ⟨roles, recs, loads, hexec⟩ : ∃ roles recs loads, exec (.tbegin a w) s
      = .next (h.openTile w roles recs (images.flatMap (fun e => e.1)) (tables.map (fun e => e.1)) loads) :=
    ⟨_, _, _, (exec_tbegin_tries hok hhere hpred hland (by rw [ha]; exact hbank)).trans (congrArg _ hopens)⟩
  have hbytes := Here.byteAt_openTile hhere w roles recs (images.flatMap (fun e => e.1)) (tables.map (fun e => e.1)) loads
  have hcalm := calm_of_frame (Here.openTile_frame hhere w roles recs (images.flatMap (fun e => e.1)) (tables.map (fun e => e.1)) loads)
  have hseq := Here.seq_openTile hhere w roles recs (images.flatMap (fun e => e.1)) (tables.map (fun e => e.1)) loads
  have hloom := Here.loom_openTile hhere w roles recs (images.flatMap (fun e => e.1)) (tables.map (fun e => e.1)) loads
  rw [hq] at hseq
  refine ⟨_, hexec, ⟨_, (congrArg Seq.tile hseq).trans (Seq.opened_tile _ _), rfl, rfl, by rw [Here.tile, hs]; rfl, rfl, rfl, rfl⟩,
    (congrArg Seq.pc hseq).trans (Seq.opened_pc _ _), (congrArg Seq.st hseq).trans (Seq.opened_st _ _),
    (congrArg Seq.b hseq).trans (Seq.opened_b _ _), (congrArg Seq.a hseq).trans (Seq.opened_a _ _),
    (congrArg Seq.p hseq).trans (Seq.opened_p _ _), fun hd f => ?_, congrArg Loom.v hloom, congrArg Loom.vfell hloom,
    congrArg Loom.lastCtx hloom, hbytes, hcalm⟩
  exact congrArg (fun l : Loom => l.fells.get (2 * hd + f) Fell.cleared) hloom

theorem tbeginBank_val (w : TWord) : (tbeginBank w).val = if bit w.sel.toNat 2 then 1 else 0 := by
  unfold tbeginBank
  split <;> rfl

theorem staleBanksOpenNoTile : StaleBanksOpenNoTile := by
  intro s a w h hok hat hland hwarp hstale
  obtain ⟨hhere, hpred⟩ := hat
  obtain ⟨ha, -⟩ := State.here_spec hhere
  have hexec := exec_tbegin_stale hok hhere hpred hland hwarp (by rw [ha]; exact hstale)
  rw [tbeginBank_val, Here.q_eq hhere] at hexec
  exact seqBecomes_of_go hhere hexec

/-- Settles O12: a TBEGIN tries to open its tile unless its bank is stale, and opens it where no check stops it; the rest is what the opening
writes. That the bank's tag is judged before the shapes is the model's choice (log entry 26). -/
theorem tbeginOpensOrFindsItsBanksStale : Obligations.TbeginOpensOrFindsItsBanksStale := ⟨tbeginOpensTheTile, staleBanksOpenNoTile⟩

end Sys2Proof.Claims
end

section
/-! PROOFS. Threads between looms (07 R157; 05 R111): what setting a thread and copying bytes into a loom store leave, and when a TSEND, a
TRECV and a TRECV whose wait ends carry bytes. -/

namespace Sys2Proof.Machine

open Sys2Proof

/-! ### Accesses that nothing holds (R111) -/

section
variable {h : Here} {a : At} {w : Option Place} {off : Int} {n addr : Nat} (f : Nat → State) (ha : h.a = a)
  (haccess : h.k.access a w off n = .ok addr)
include ha haccess

theorem Here.reading_of_ok (hheld : h.x.readHeld h.l a addr n = false) : h.reading w off n f = f addr := by
  simp only [reading, ha, haccess, hheld, Bool.false_eq_true, if_false]

theorem Here.writing_of_ok (hheld : h.x.writeHeld h.l a addr n = false) : h.writing w off n f = f addr := by
  simp only [writing, ha, haccess, hheld, Bool.false_eq_true, if_false]

end

theorem ones_of_ne {v : Word} (h : v ≠ BitVec.allOnes 64) : ones v = false := beq_eq_false_iff_ne.mpr h

/-! ### What copying bytes into a loom store leaves -/

section
variable (s : State) (g : Fin 256)

/-- What a change of one loom keeps of that loom, it keeps of every loom. -/
theorem State.loom_modLoom_keeps {β : Type} (f : Loom → Loom) (v : Loom → β) (h : v (f (s.loom g)) = v (s.loom g)) (k : Fin 256) :
    v ((s.modLoom g f).loom k) = v (s.loom k) := by
  by_cases hk : k = g
  · subst hk
    rw [loom_modLoom_self, h]
  · rw [loom_modLoom_of_ne s f hk]

/-- What marking a block keeps, carrying marks over keeps. -/
theorem State.carryBad_keeps {β : Type} (v : State → β) {st : Store} (h : ∀ (s : State) k, v (s.setBlockBad st k true) = v s)
    (addr : Nat) (runs : List (Nat × Nat)) : v (s.carryBad st addr runs) = v s :=
  foldl_keeps v runs s (fun u r => foldl_keeps v (blocksOf (addr + r.1) r.2) u h)

variable (addr : Nat) (bs : List Byte) (runs : List (Nat × Nat))

/-- Bytes written to a loom's store, with the marks of the blocks that they come from (R299, R300). -/
def State.copyIn : State := (s.putAt (.loom g) addr bs).carryBad (.loom g) addr runs

theorem State.copyIn_frame : { s.copyIn g addr bs runs with looms := s.looms } = s :=
  congrArg (fun t : State => { t with looms := s.looms })
    (carryBad_keeps (s.putAt (.loom g) addr bs) (fun t : State => { t with looms := [] }) (fun _ _ => rfl) addr runs)

/-- Nothing of a loom changes but its store and its marks. -/
theorem State.loom_copyIn_keeps {β : Type} (v : Loom → β) (h : ∀ (l : Loom) store bad, v { l with store := store, bad := bad } = v l)
    (k : Fin 256) : v ((s.copyIn g addr bs runs).loom k) = v (s.loom k) :=
  (carryBad_keeps _ (fun t => v (t.loom k)) (st := .loom g)
    (fun u _ => u.loom_modLoom_keeps g _ v (h (u.loom g) (u.loom g).store _) k) addr runs).trans
    (s.loom_modLoom_keeps g _ v (h (s.loom g) _ _) k)

theorem State.byteAt_copyIn (st : Store) (i : Nat) : (s.copyIn g addr bs runs).byteAt st i
    = if st = .loom g ∧ addr ≤ i ∧ i < addr + bs.length then bs.getD (i - addr) 0 else s.byteAt st i :=
  (carryBad_keeps _ (fun t => t.byteAt st i) (fun u k => u.byteAt_setBlockBad (.loom g) k true st i) addr runs).trans
    (s.byteAt_putAt (.loom g) addr bs st i (fun _ e => nomatch e))

end

/-! ### What setting a thread leaves -/

/-- Only looms have changed, and neither their stores nor what lies on their threads. -/
structure State.KeepsThreads (s u : State) : Prop where
  frame : { u with looms := s.looms } = s
  quiet : s.Quiet u
  threads : ∀ g, (u.loom g).threads = (s.loom g).threads

theorem State.KeepsThreads.refl (s : State) : s.KeepsThreads s := ⟨rfl, .refl s, fun _ => rfl⟩

theorem State.keepsThreads_setSeq (s : State) (a : At) (q : Seq) : s.KeepsThreads (s.setSeq a q) :=
  ⟨rfl, quiet_setSeq a q, s.loom_modLoom_keeps a.loom _ Loom.threads rfl⟩

/-- At issue only the sequencer runs, and the mark that a tile has just completed is gone. -/
theorem Here.keepsThreads {s : State} {a : At} {code : Nat} {h : Here} (hhere : s.here a code = some h) : s.KeepsThreads h.s := by
  obtain ⟨-, -, -, -, -, hs⟩ := State.here_spec hhere
  rw [hs]
  exact ⟨rfl, State.quiet_modLoom a.loom _ rfl rfl, s.loom_modLoom_keeps a.loom _ Loom.threads rfl⟩

theorem State.KeepsThreads.trans {s t u : State} (h : s.KeepsThreads t) (k : t.KeepsThreads u) : s.KeepsThreads u :=
  ⟨(congrArg (fun t : State => { t with looms := s.looms }) k.frame :).trans h.frame, h.quiet.trans k.quiet,
    fun g => (k.threads g).trans (h.threads g)⟩

theorem State.Quiet.bytesAt {s t : State} (h : s.Quiet t) (st : Store) (i n : Nat) : t.bytesAt st i n = s.bytesAt st i n := by
  simp only [State.bytesAt, h.byteAt]

/-- What lies on one thread to a loom is replaced. -/
def State.setThread (s : State) (g : Fin 256) (key : Nat) (data : List (List Byte × List (Nat × Nat))) : State :=
  s.modLoom g (fun l => { l with threads := l.threads.put key data [] })

section
variable (s : State) (g : Fin 256) (key : Nat) (data : List (List Byte × List (Nat × Nat)))

theorem State.threads_setThread : ((s.setThread g key data).loom g).threads = (s.loom g).threads.put key data [] := by
  rw [setThread, loom_modLoom_self]

theorem State.quiet_setThread : s.Quiet (s.setThread g key data) := quiet_modLoom g _ rfl rfl

theorem State.seq_setThread (a : At) : (s.setThread g key data).seq a = s.seq a :=
  s.loom_modLoom_keeps g _ (fun l => l.seq a.ctx) rfl a.loom

end

/-! ### The oldest bytes of a thread (R157) -/

/-- Bytes of the awaited length are taken whole. -/
theorem State.receive_eq {s : State} {a : At} {key : Nat} {bs : List Byte} {bad : List (Nat × Nat)}
    {rest : List (List Byte × List (Nat × Nat))} (holdest : (s.loom a.loom).threads.get key [] = (bs, bad) :: rest) (addr buf : Nat)
    (q : Seq) :
    s.receive a key addr buf bs.length q = ((s.setThread a.loom key rest).setSeq a q.next).copyIn a.loom addr bs bad := by
  simp only [receive, holdest, ne_eq, not_true, if_false]
  rfl

/-! ### A TSEND and a TRECV that issue -/

section
variable {s : State} {a : At} {w : SWord} {h : Here} {place : Place} {addr : Nat} (hok : tsendOk w = true)
  (hpred : (s.seq a).getP w.pred ≠ w.pneg) (hlength : (s.seq a).getB w.z.val ≠ BitVec.allOnes 64) (hplace : h.place w.x.val = some place)
  (haccess : h.k.access a (some place) place.off ((s.seq a).getB w.z.val).toNat = .ok addr)
include hok hpred hlength hplace haccess

theorem exec_tsend_sends (hhere : s.here a (w.code 0x31) = some h) {th : ThreadCfg} (hth : h.k.thread? a.ctx w.fn.toNat = some th)
    (hheld : h.x.readHeld h.l a addr ((s.seq a).getB w.z.val).toNat = false) :
    exec (.tsend a w) s = .next ((h.go h.q).setThread (Fin.ofNat 256 th.dst) (threadKey a.ctx w.fn.toNat)
      (((h.go h.q).loom (Fin.ofNat 256 th.dst)).threads.get (threadKey a.ctx w.fn.toNat) []
        ++ [(h.s.bytesAt (.loom a.loom) addr ((s.seq a).getB w.z.val).toNat,
          h.s.badRuns (.loom a.loom) addr ((s.seq a).getB w.z.val).toNat)])) := by
  obtain ⟨ha, -⟩ := State.here_spec hhere
  have hb : h.q.getB w.z.val = (s.seq a).getB w.z.val := by rw [Here.q_eq hhere]; rfl
  rw [exec_tsend, execTsend, State.issueS, State.issue_eq hhere hok, if_neg hpred]
  simp only [hb, ones_of_ne hlength, Bool.false_eq_true, if_false, hth, hplace, Here.reading_of_ok _ ha haccess hheld]
  rfl

/-- It waits where the thread is empty, and takes the oldest bytes where it is not. -/
theorem exec_trecv_eq (hhere : s.here a (w.code 0x32) = some h)
    (hheld : h.x.writeHeld h.l a addr ((s.seq a).getB w.z.val).toNat = false) :
    exec (.trecv a w) s = .next (if h.l.threads.get (threadKey a.ctx w.fn.toNat) [] = []
      then h.setQ { h.q with run := .waiting (.thread w.fn.toNat (h.q.getA w.x.val) ((s.seq a).getB w.z.val).toNat) }
      else h.s.receive a (threadKey a.ctx w.fn.toNat) addr place.buf ((s.seq a).getB w.z.val).toNat h.q) := by
  obtain ⟨ha, -⟩ := State.here_spec hhere
  have hb : h.q.getB w.z.val = (s.seq a).getB w.z.val := by rw [Here.q_eq hhere]; rfl
  rw [exec_trecv, execTrecv, State.issueS, State.issue_eq hhere hok, if_neg hpred]
  simp only [hb, ones_of_ne hlength, Bool.false_eq_true, if_false, hplace, Here.writing_of_ok _ ha haccess hheld]
  cases h.l.threads.get (threadKey a.ctx w.fn.toNat) [] <;> rfl

end

theorem exec_trecvLanded_eq {s : State} {a : At} {p : Fin 16} {x : Part} {td : TreadCfg} {i n addr : Nat} {v : Word} {dst : Place}
    (hresuming : s.resuming a = some (p, x, .thread i v n)) (htread : x.cfg.tread? a.ctx a.loom = some td)
    (hplace : x.cfg.place p a td v = some dst) (haccess : x.cfg.access a (some dst) dst.off n = .ok addr) :
    exec (.trecvLanded a) s = .next (s.receive a (threadKey a.ctx i) addr dst.buf n { s.seq a with run := .running }) := by
  simp only [exec_trecvLanded, execTrecvLanded, hresuming, htread, hplace, haccess]
  rfl

end Sys2Proof.Machine

namespace Sys2Proof.Claims

open Sys2Proof Sys2Proof.Machine

theorem calm_of_looms {s t : State} (h : { t with looms := s.looms } = s) : Calm s t :=
  calm_of_frame (congrArg (fun t : State => { t with regs := s.regs, parts := s.parts }) h :)

/-- One run of bytes has been written. -/
theorem wrote_copyIn {s u : State} (h : s.Quiet u) (g : Fin 256) (addr : Nat) (bs : List Byte) (runs : List (Nat × Nat)) :
    Wrote s (u.copyIn g addr bs runs) g [(addr, bs)] := by
  refine ⟨fun st i hst => ?_, fun i => ?_⟩
  · rw [u.byteAt_copyIn, if_neg (fun e => hst e.1), h.byteAt]
  · simp only [u.byteAt_copyIn, h.byteAt, true_and, List.foldl_cons, List.foldl_nil]

/-- What a TRECV leaves that takes the oldest bytes of its thread. -/
theorem receive_takesTheOldest {s u : State} (hsu : s.KeepsThreads u) {a : At} {key : Nat} {bs : List Byte} {bad : List (Nat × Nat)}
    {rest : List (List Byte × List (Nat × Nat))} (holdest : (s.loom a.loom).threads.get key [] = (bs, bad) :: rest)
    (addr buf : Nat) (q : Seq) :
    let t := u.receive a key addr buf bs.length q
    t.seq a = q.next ∧ Wrote s t a.loom [(addr, bs)] ∧ (t.loom a.loom).threads = (s.loom a.loom).threads.put key rest [] ∧ Calm s t := by
  intro t
  have ht : t = ((u.setThread a.loom key rest).setSeq a q.next).copyIn a.loom addr bs bad :=
    State.receive_eq (by rw [hsu.threads, holdest]) addr buf q
  have hset := (u.setThread a.loom key rest).keepsThreads_setSeq a q.next
  rw [ht]
  refine ⟨?_, wrote_copyIn ((hsu.quiet.trans (u.quiet_setThread _ _ _)).trans hset.quiet) _ _ _ _, ?_, calm_of_looms ?_⟩
  · exact (State.loom_copyIn_keeps _ a.loom addr bs bad (fun l => l.seq a.ctx) (fun _ _ _ => rfl) a.loom).trans
      (State.seq_setSeq_self _ a q.next)
  · rw [State.loom_copyIn_keeps _ a.loom addr bs bad Loom.threads (fun _ _ _ => rfl), hset.threads, State.threads_setThread, hsu.threads]
  · exact (congrArg (fun t : State => { t with looms := s.looms }) (State.copyIn_frame _ a.loom addr bs bad) :).trans hsu.frame

/-- Settles O16: a TSEND puts its bytes behind those on the thread, and a TRECV, at its issue or when its wait ends, takes those in front. -/
theorem threadsCarryBytesInOrder : Obligations.ThreadsCarryBytesInOrder := by
  refine ⟨?sends, ?receives, ?landed⟩
  case sends =>
    intro s a w h th src addr hok hat hlength hth hplace haccess hheld
    obtain ⟨hhere, hpred⟩ := hat
    have hissued := Here.keepsThreads hhere
    have hgo : s.KeepsThreads (h.go h.q) := hissued.trans (State.keepsThreads_setSeq h.s h.a h.q.next)
    refine ⟨_, exec_tsend_sends hok hpred hlength hplace haccess hhere hth hheld, ?_, fun st i => ?_, ?_, ?_,
      h.s.badRuns (.loom a.loom) addr ((s.seq a).getB w.z.val).toNat, ?_⟩
    · rw [State.seq_setThread, Here.go, (Here.setQ_spec hhere _).1, Here.q_eq hhere, ran]
    · exact (hgo.quiet.trans (State.quiet_setThread _ _ _ _)).byteAt st i
    · exact calm_of_looms hgo.frame
    · exact (congrArg State.parts hgo.frame :)
    · rw [State.threads_setThread, hgo.threads, hissued.quiet.bytesAt]
  case receives =>
    intro s a w h dst addr hok hat hlength hplace haccess hheld
    obtain ⟨hhere, hpred⟩ := hat
    have hissued := Here.keepsThreads hhere
    obtain ⟨ha, -⟩ := State.here_spec hhere
    have hthreads : h.l.threads = (s.loom a.loom).threads := by rw [Here.l, ha, hissued.threads]
    have hexec := exec_trecv_eq hok hpred hlength hplace haccess hhere hheld
    rw [hthreads, Here.q_eq hhere] at hexec
    refine ⟨fun hempty => ?_, fun bs bad rest holdest hbs => ?_⟩
    · rw [if_pos hempty] at hexec
      exact ⟨_, hexec, Here.setQ_spec hhere _⟩
    · rw [if_neg (by simp [holdest]), ← hbs] at hexec
      exact ⟨_, hexec, receive_takesTheOldest hissued holdest addr dst.buf (ran s a)⟩
  case landed =>
    intro s a p x td i n v dst addr bs bad rest hresuming htread hplace haccess holdest hbs
    subst hbs
    exact ⟨_, exec_trecvLanded_eq hresuming htread hplace haccess, receive_takesTheOldest (.refl s) holdest addr dst.buf (ran s a)⟩

end Sys2Proof.Claims
end

section
/-! PROOFS. ATTN (11 R216 to R220; 06 R133): when its checks let it go on, when it computes its rows, and what writing them leaves. -/

namespace Sys2Proof.Machine

open Sys2Proof Sys2Proof.Claims

/-! ### Runs of bytes written to a loom's store -/

/-- Runs of bytes written to a loom's store, one after another. -/
def State.putRuns (s : State) (g : Fin 256) (ws : List (Nat × List Byte)) : State :=
  ws.foldl (fun s e => s.putAt (.loom g) e.1 e.2) s

section
variable (s : State) (g : Fin 256) (ws : List (Nat × List Byte))

theorem State.putRuns_frame : { s.putRuns g ws with looms := s.looms } = s :=
  congrArg (fun t : State => { t with looms := s.looms })
    (foldl_keeps (f := fun s e => s.putAt (.loom g) e.1 e.2) (fun t : State => { t with looms := [] }) ws s)

/-- Nothing of a loom changes but its store and its marks. -/
theorem State.loom_putRuns_keeps {β : Type} (v : Loom → β) (h : ∀ (l : Loom) store bad, v { l with store := store, bad := bad } = v l)
    (k : Fin 256) : v ((s.putRuns g ws).loom k) = v (s.loom k) :=
  foldl_keeps (fun t : State => v (t.loom k)) ws s (fun u _ => u.loom_modLoom_keeps g _ v (h (u.loom g) _ _) k)

theorem State.byteAt_putRuns_of_ne {st : Store} (hst : st ≠ .loom g) (i : Nat) : (s.putRuns g ws).byteAt st i = s.byteAt st i :=
  foldl_keeps (fun t : State => t.byteAt st i) ws s (fun u e => by
    rw [u.byteAt_putAt (.loom g) e.1 e.2 st i (fun _ h => nomatch h), if_neg (fun h => hst h.1)])

theorem State.byteAt_putRuns (i : Nat) : (s.putRuns g ws).byteAt (.loom g) i
    = ws.foldl (fun b e => if e.1 ≤ i ∧ i < e.1 + e.2.length then e.2.getD (i - e.1) 0 else b) (s.byteAt (.loom g) i) := by
  induction ws generalizing s with
  | nil => rfl
  | cons e rest ih =>
    have hput := s.byteAt_putAt (.loom g) e.1 e.2 (.loom g) i (fun _ h => nomatch h)
    simp only [true_and] at hput
    rw [List.foldl_cons, ← hput]
    exact ih (s.putAt (.loom g) e.1 e.2)

end

/-! ### The status word (R127, R128) -/

section
variable (q : Seq)

theorem Seq.cond_setCond (c : Cond) (detail : Nat) : (q.setCond c detail).cond = c.code := by
  have hc : c.code < 256 := by cases c <;> decide
  simp only [cond, setCond, setBits, bits, BitVec.toNat_ofNat]
  omega

/-- MASKED is no bit of COND. -/
theorem Seq.cond_setMasked : q.setMasked.cond = q.cond := by
  have hmasked : (BitVec.ofNat 64 (2 ^ 20)).toNat % 2 ^ 8 = 0 := by decide
  simp only [cond, setMasked, bits, BitVec.toNat_or, Nat.shiftRight_zero, Nat.or_mod_two_pow, hmasked, Nat.or_zero]

end

/-! ### A partition's sequences -/

theorem Part.setSeqEntry_keeps (x : Part) (id : Nat) (e : SeqEntry) :
    (x.setSeqEntry id e).cfg = x.cfg ∧ (x.setSeqEntry id e).cloth = x.cloth := by
  unfold setSeqEntry
  split
  · exact ⟨rfl, rfl⟩
  · split <;> exact ⟨rfl, rfl⟩

/-- Counting skipped pages changes neither what a partition is nor its cloth. -/
theorem Part.skipPages_keeps (x : Part) (id n : Nat) : (x.skipPages id n).cfg = x.cfg ∧ (x.skipPages id n).cloth = x.cloth := by
  unfold skipPages
  split
  · exact ⟨rfl, rfl⟩
  · exact ⟨rfl, rfl⟩
  · exact x.setSeqEntry_keeps id _

/-- The snapshot that an ATTN reads may be held by its partition; it changes neither what that is nor its cloth. -/
theorem Here.attnSnapshot_keeps {h : Here} {t t₁ : Tile} {v : Word} {layer head : Nat} {x : Part} {n : Snapshot}
    (hsnapshot : h.attnSnapshot t v layer head = some (t₁, x, n)) : x.cfg = h.x.cfg ∧ x.cloth = h.x.cloth := by
  unfold attnSnapshot at hsnapshot
  dsimp only at hsnapshot
  split at hsnapshot
  · cases hsnapshot
    exact ⟨rfl, rfl⟩
  · obtain ⟨m, -, hm⟩ := Option.map_eq_some_iff.mp hsnapshot
    cases hm
    exact ⟨rfl, rfl⟩

/-! ### The checks of an ATTN (R216, R217) -/

theorem not_any_of_forall {α : Type} {p : α → Bool} {l : List α} (h : ∀ y ∈ l, p y = false) : ¬ l.any p = true := by
  rw [Bool.not_eq_true, List.any_eq_false]
  exact fun y hy => Bool.eq_false_iff.mp (h y hy)

/-- The sequence that B[X] = v names, the layer and the head exist, the operands are sound for them, and no FILL is under way. -/
structure Here.AttnSound (h : Here) (w : TWord) (v : Word) (t : Tile) (e : SeqEntry) : Prop where
  sequence : h.x.pool.seq? (attnSeq v) = some e
  named : w.tag.toNat < e.layers ∧ w.aux.toNat < e.heads
  pages : bits v.toNat 33 31 = 0 ∧ attnCount v ≤ 16
  query : queryPairs (pageFmt e.format) (h.desc w.d1.toNat).type (h.desc w.d1.toNat).group = true
  width : (t.shape w.d1.toNat).cols.toNat = (pageFmt e.format).hd
  rows : (t.shape w.d1.toNat).rows.toNat ≠ 0 ∧ (t.shape w.d1.toNat).rows.toNat ≤ 64
  room : (pageFmt e.format).hd + 2 ≤ (t.shape w.d2.toNat).cols.toNat
  filled : h.l.filling 0 = false ∧ h.l.filling 1 = false

/-- The position in a snapshot of the first dropped entry that the sequence does not tolerate (R220). -/
def Snapshot.absent (n : Snapshot) (e : SeqEntry) : Option Nat :=
  if e.tolerate then none else n.entries.findIdx? (fun y => y.state == 2)

theorem Snapshot.absent_eq_none {n : Snapshot} {e : SeqEntry} (h : e.tolerate = true ∨ ∀ y ∈ n.entries, y.state ≠ 2) :
    n.absent e = none := by
  unfold absent
  split
  case isTrue => rfl
  case isFalse hno =>
    have hpresent := h.resolve_left hno
    exact List.findIdx?_eq_none_iff.mpr fun y hy => beq_eq_false_iff_ne.mpr (hpresent y hy)

theorem Snapshot.absent_of_strict {n : Snapshot} {e : SeqEntry} (h : e.tolerate = false) :
    n.absent e = n.entries.findIdx? (fun y => y.state == 2) := by
  rw [absent, h, if_neg Bool.false_ne_true]

/-- An ATTN whose checks pass computes, unless a dropped entry stops it. -/
theorem Here.doAttn_of_sound {h : Here} {w : TWord} {t t₁ : Tile} {e : SeqEntry} {x : Part} {n : Snapshot}
    (hsound : h.AttnSound w (h.q.getB w.x.val) t e)
    (hsnapshot : h.attnSnapshot t (h.q.getB w.x.val) w.tag.toNat w.aux.toNat = some (t₁, x, n))
    (hintact : ∀ y ∈ n.entries, y.damaged = false) :
    h.doAttn w t = (n.absent e).elim (h.attend w e t₁ x n) (fun i => h.go (h.q.setCond .pageAbsent (n.first + i))) := by
  obtain ⟨hsequence, ⟨hlayer, hhead⟩, ⟨hzero, hcount⟩, hquery, hwidth, ⟨hrows, hmost⟩, hroom, hfill0, hfill1⟩ := hsound
  have hnamed : ¬ (e.layers ≤ w.tag.toNat ∨ e.heads ≤ w.aux.toNat) := by omega
  have hoperands : ¬ (bits (h.q.getB w.x.val).toNat 33 31 ≠ 0 ∨ 16 < attnCount (h.q.getB w.x.val)
      ∨ (!queryPairs (pageFmt e.format) (h.desc w.d1.toNat).type (h.desc w.d1.toNat).group) = true
      ∨ (t.shape w.d1.toNat).cols.toNat ≠ (pageFmt e.format).hd ∨ (t.shape w.d1.toNat).rows.toNat = 0
      ∨ 64 < (t.shape w.d1.toNat).rows.toNat ∨ (t.shape w.d2.toNat).cols.toNat < (pageFmt e.format).hd + 2) := by
    simp only [hzero, hquery, hwidth, hrows, Bool.not_true, Bool.false_eq_true, ne_eq, not_true, false_or]
    omega
  simp only [doAttn, hsequence, if_neg hnamed, if_neg hoperands, hfill0, hfill1, Bool.or_self, Bool.false_eq_true, if_false, hsnapshot,
    if_neg (not_any_of_forall hintact)]
  unfold Snapshot.absent
  cases (if e.tolerate then none else n.entries.findIdx? (fun y => y.state == 2)) <;> rfl

/-- An ATTN that issues with its checks passed. -/
theorem exec_attn_of_sound {s : State} {a : At} {w : TWord} {h : Here} {t t₁ : Tile} {e : SeqEntry} {x : Part} {n : Snapshot}
    (hok : attnOk w = true) (hat : At_ s a (w.code 0x25) w.pred w.pneg h) (htile : (s.seq a).tile = some t)
    (hsound : h.AttnSound w ((s.seq a).getB w.x.val) t e)
    (hsnapshot : h.attnSnapshot t ((s.seq a).getB w.x.val) w.tag.toNat w.aux.toNat = some (t₁, x, n))
    (hintact : ∀ y ∈ n.entries, y.damaged = false) :
    exec (.attn a w) s
      = .next ((n.absent e).elim (h.attend w e t₁ x n) (fun i => h.go (h.q.setCond .pageAbsent (n.first + i)))) := by
  obtain ⟨hhere, hpred⟩ := hat
  have hq : h.q = ran s a := Here.q_eq hhere
  have ht : h.q.tile = some t := by rw [hq]; exact htile
  have hv : (s.seq a).getB w.x.val = h.q.getB w.x.val := by rw [hq]; rfl
  rw [hv] at hsound hsnapshot
  rw [exec_attn, execAttn, State.issueT, State.issue_eq hhere hok, if_neg hpred]
  simp only [ht, Here.doAttn_of_sound hsound hsnapshot hintact]

/-! ### The state that an ATTN leaves (R218, R219) -/

/-- The bytes of an output row: the maximum, the mass and the output, as FP32 (R218). -/
def AttnRow.bytes (r : AttnRow) : List Byte := ([r.m, r.l] ++ r.o).flatMap (fun v => leBytes 4 v.toNat)

/-- The runs of bytes that an ATTN writes. -/
def attnRuns (rows : List (Nat × AttnRow)) (addrs : List Nat) : List (Nat × List Byte) :=
  (rows.zip addrs).map (fun ra => (ra.2, ra.1.2.bytes))

/-- Both banks hold no fill: the context engine has used them (R216). -/
def Loom.banksFreed (l : Loom) : Loom :=
  { l with bank0 := { l.bank0 with ready := false, tag := none }, bank1 := { l.bank1 with ready := false, tag := none } }

/-- The tile with the attention mass of the pages read (R219). -/
def Tile.scored (t : Tile) (e : SeqEntry) (n : Snapshot) (rows : List (Nat × AttnRow)) : Tile :=
  { t with scores := t.scores ++ n.masses (n.layer * e.heads + n.head) (rows.map Prod.snd) }

/-- The sequencer after an ATTN: OK, the flags of its rows, MASKED where a row is not written, its tile, and the next word. -/
def Seq.attended (q : Seq) (tile : Tile) (rows : List (Nat × AttnRow)) (r : Nat) : Seq :=
  let q := (q.orFlags 0 (rows.foldl (fun g row => g.or row.2.flags) Flg.none)).setCond .ok 0
  let q := if rows.length < r then q.setMasked else q
  { q with tile := some tile }.next

/-- The beats of the context engine for an ATTN's rows (R221). -/
def Here.attnBeats (h : Here) (w : TWord) (e : SeqEntry) (n : Snapshot) (rows : List (Nat × AttnRow)) : Nat :=
  n.present.length * rows.length * (2 * ceilDiv (pageFmt e.format).hd (perBeat (h.desc w.d1.toNat).type) + 64)

/-- The state after an ATTN: its partition, its sequencer, its loom's banks, the bytes it writes and the beats it counts. -/
def Here.attended (h : Here) (y : Part) (q : Seq) (ws : List (Nat × List Byte)) (beats : Nat) : State :=
  ((((h.s.setPart h.p y).setSeq h.a q).modLoom h.a.loom Loom.banksFreed).putRuns h.a.loom ws).count (.loomBeats h.a.loom) beats

section
variable (q : Seq) (tile : Tile) (rows : List (Nat × AttnRow)) (r : Nat)

theorem Seq.attended_tile : (q.attended tile rows r).tile = some tile := rfl

theorem Seq.attended_pc : (q.attended tile rows r).pc = q.pc + 1 := by
  cases q
  unfold attended
  split <;> rfl

theorem Seq.attended_cond : (q.attended tile rows r).cond = 0 := by
  have hok : ((q.orFlags 0 (rows.foldl (fun g row => g.or row.2.flags) Flg.none)).setCond .ok 0).cond = 0 := Seq.cond_setCond _ .ok 0
  unfold attended
  split
  · exact (Seq.cond_setMasked _).trans hok
  · exact hok

end

/-- With its query and its pages good, and nothing that it touches held, every row in bounds is computed and written (R218). -/
theorem Here.attend_eq {h : Here} {w : TWord} {e : SeqEntry} {t : Tile} {x : Part} {n : Snapshot}
    {qs : List (Option (List (List Num)) × List (Nat × Nat))} {addrs : List Nat}
    (hquery : eachOk (fun i => h.queryRow t w.d1.toNat i) (List.range (t.shape w.d1.toNat).rows.toNat) = .ok qs)
    (hblocks : ∀ b ∈ n.present.flatMap (fun p =>
        rangeFrom (p.2.page * h.k.pools.frame / 4096 + 1) ((pageFmt e.format).size / 4096 - 1)), x.pool.bad.get b false = false)
    (hreads : ∀ r ∈ qs.flatMap (fun q => q.2), h.x.readHeld h.l h.a r.1 r.2 = false)
    (hproduce : eachOk (fun (row : Nat × AttnRow) => h.produce (h.desc w.d2.toNat).addr
      ((row.1 + (h.desc w.d2.toNat).rowoff) * (h.desc w.d2.toNat).stride) (4 * ((pageFmt e.format).hd + 2)))
      (attnRows h w t e x n qs) = .ok addrs)
    (hwrites : ∀ b ∈ addrs, h.x.writeHeld h.l h.a b (4 * ((pageFmt e.format).hd + 2)) = false) :
    h.attend w e t x n
      = h.attended (x.skipPages n.seq (n.entries.filter (fun y => y.state == 2)).length)
          (h.q.attended (t.scored e n (attnRows h w t e x n qs)) (attnRows h w t e x n qs) (t.shape w.d1.toNat).rows.toNat)
          (attnRuns (attnRows h w t e x n qs) addrs) (h.attnBeats w e n (attnRows h w t e x n qs)) := by
  simp only [attend, hquery, if_neg (not_any_of_forall hblocks), if_neg (not_any_of_forall hreads), decide_eq_true_eq,
    ← attnRows.eq_1 h w t e x n qs, hproduce, if_neg (not_any_of_forall hwrites)]
  simp only [attended, State.putRuns, attnRuns, List.foldl_map]
  rfl

section
variable {s : State} {a : At} {code : Nat} {h : Here} (hhere : s.here a code = some h) {y : Part} (q : Seq) (ws : List (Nat × List Byte))
  (beats : Nat)
include hhere

theorem Here.attended_frame : { h.attended y q ws beats with regs := s.regs, looms := s.looms, parts := s.parts } = s := by
  obtain ⟨-, -, -, hframe, -⟩ := Here.setPart_spec hhere y q
  have hruns := State.putRuns_frame (((h.s.setPart h.p y).setSeq h.a q).modLoom h.a.loom Loom.banksFreed) h.a.loom ws
  exact (congrArg (fun t : State => { t with regs := s.regs, looms := s.looms, parts := s.parts }) hruns :).trans
    (congrArg (fun t : State => { t with regs := s.regs }) hframe :)

/-- What the bytes written do not touch of the loom is as its sequencer and its freed banks have it. -/
theorem Here.loom_attended_keeps {β : Type} (v : Loom → β)
    (hv : ∀ (l : Loom) store bad, v { l with store := store, bad := bad } = v l) : v ((h.attended y q ws beats).loom a.loom)
      = v (((h.setQ q).loom a.loom).banksFreed) := by
  obtain ⟨ha, -⟩ := State.here_spec hhere
  have hruns := State.loom_putRuns_keeps (((h.s.setPart h.p y).setSeq h.a q).modLoom a.loom Loom.banksFreed) a.loom ws v hv a.loom
  rw [State.loom_modLoom_self, ha] at hruns
  rw [attended, setQ, ha]
  exact hruns

/-- Its runs of bytes are written, and no other byte of any storage. -/
theorem Here.wrote_attended (hcfg : y.cfg = h.x.cfg) (hcloth : y.cloth = h.x.cloth) : Wrote s (h.attended y q ws beats) a.loom ws := by
  obtain ⟨ha, -, hpart, -, -, hs⟩ := State.here_spec hhere
  have hx : h.s.part? h.p = some h.x := by rw [hs]; exact hpart
  have hquiet : s.Quiet (((h.s.setPart h.p y).setSeq h.a q).modLoom h.a.loom Loom.banksFreed) :=
    (((Here.keepsThreads hhere).quiet.trans (State.quiet_setPart h.s h.p h.x y hx hcfg hcloth)).trans (State.quiet_setSeq h.a q)).trans
      (State.quiet_modLoom h.a.loom _ rfl rfl)
  rw [attended, ha] at *
  refine ⟨fun st i hst => ?_, fun i => ?_⟩
  · exact ((State.quiet_setReg _ _ _).byteAt st i).trans ((State.byteAt_putRuns_of_ne _ a.loom ws hst i).trans (hquiet.byteAt st i))
  · rw [← hquiet.byteAt]
    exact ((State.quiet_setReg _ _ _).byteAt (.loom a.loom) i).trans (State.byteAt_putRuns _ a.loom ws i)

theorem Here.seq_attended : (h.attended y q ws beats).seq a = q :=
  (loom_attended_keeps hhere q ws beats (fun l => l.seq a.ctx) (fun _ _ _ => rfl)).trans (Here.setQ_spec hhere q).1

theorem Here.banks_attended : ((h.attended y q ws beats).loom a.loom).bank0.ready = false
    ∧ ((h.attended y q ws beats).loom a.loom).bank1.ready = false ∧ ((h.attended y q ws beats).loom a.loom).bank0.tag = none
    ∧ ((h.attended y q ws beats).loom a.loom).bank1.tag = none :=
  ⟨loom_attended_keeps hhere q ws beats (fun l => l.bank0.ready) (fun _ _ _ => rfl),
    loom_attended_keeps hhere q ws beats (fun l => l.bank1.ready) (fun _ _ _ => rfl),
    loom_attended_keeps hhere q ws beats (fun l => l.bank0.tag) (fun _ _ _ => rfl),
    loom_attended_keeps hhere q ws beats (fun l => l.bank1.tag) (fun _ _ _ => rfl)⟩

end

end Sys2Proof.Machine

namespace Sys2Proof.Claims

open Sys2Proof Sys2Proof.Machine

theorem attentionWritesItsRows : AttentionWritesItsRows := by
  intro s a w h t₀ t₁ e x n qs addrs hok hat htile hfinds
  obtain ⟨hsequence, hlayer, hhead, hzero, hcount, hpairs, hwidth, hrows, hmost, hroom, hfill0, hfill1, hsnapshot, hintact, htolerated,
    hquery, hblocks, hreads, hproduce, hwrites⟩ := hfinds
  have hhere := hat.1
  obtain ⟨ha, -⟩ := State.here_spec hhere
  rw [← ha] at hreads hwrites
  have hexec := exec_attn_of_sound hok hat htile
    ⟨hsequence, ⟨hlayer, hhead⟩, ⟨hzero, hcount⟩, hpairs, hwidth, ⟨hrows, hmost⟩, hroom, hfill0, hfill1⟩ hsnapshot hintact
  rw [Snapshot.absent_eq_none htolerated, Option.elim_none, Here.attend_eq hquery hblocks hreads hproduce hwrites] at hexec
  obtain ⟨hcfg, hcloth⟩ := Here.attnSnapshot_keeps hsnapshot
  obtain ⟨hskipCfg, hskipCloth⟩ := x.skipPages_keeps n.seq (n.entries.filter (fun y => y.state == 2)).length
  obtain ⟨hready0, hready1, htag0, htag1⟩ := Here.banks_attended hhere _ _ _
  refine ⟨_, hexec, Here.wrote_attended hhere _ _ _ (hskipCfg.trans hcfg) (hskipCloth.trans hcloth), ?pc, ?cond, hready0, hready1,
    htag0, htag1, ⟨t₁.scored e n (attnRows h w t₁ e x n qs), ?tile, rfl⟩, calm_of_frame (Here.attended_frame hhere _ _ _)⟩
  case pc => rw [Here.seq_attended hhere, Seq.attended_pc, Here.q_eq hhere]
  case cond => rw [Here.seq_attended hhere, Seq.attended_cond]
  case tile => rw [Here.seq_attended hhere, Seq.attended_tile]

theorem attentionReportsAnAbsentPage : AttentionReportsAnAbsentPage := by
  intro s a w h t₀ t₁ e x n i hok hat htile hfinds
  obtain ⟨hsequence, hlayer, hhead, hzero, hcount, hpairs, hwidth, hrows, hmost, hroom, hfill0, hfill1, hsnapshot, hintact, hstrict,
    habsent⟩ := hfinds
  have hhere := hat.1
  have hexec := exec_attn_of_sound hok hat htile
    ⟨hsequence, ⟨hlayer, hhead⟩, ⟨hzero, hcount⟩, hpairs, hwidth, ⟨hrows, hmost⟩, hroom, hfill0, hfill1⟩ hsnapshot hintact
  rw [Snapshot.absent_of_strict hstrict, habsent, Option.elim_some, Here.q_eq hhere] at hexec
  exact seqBecomes_of_go hhere hexec

/-- Settles O18: with its checks passed an ATTN computes its rows, unless the first dropped entry that its sequence does not tolerate stops
it. That a row out of bounds is not written, and that the snapshot at issue is the one read, are the model's choices (log entries 17 and
34). -/
theorem attentionRuns : Obligations.AttentionRuns := ⟨attentionWritesItsRows, attentionReportsAnAbsentPage⟩

end Sys2Proof.Claims
end

section
/-! PROOFS. What a write of cloth space leaves and writes (15 R287, R289, R292, R293): staging, eviction, dirty marks and traffic are the memory
tiers' own; the bytes are the write's. -/

namespace Sys2Proof.Machine

open Sys2Proof

/-! ### What the memory tiers leave of a partition -/

/-- A partition without its cloth space. -/
def Part.bare (x : Part) : Part := { x with cloth := Cloth.empty }

/-- Every partition is as it was, its cloth space aside. -/
def State.SameBare (s t : State) : Prop := ∀ q, (t.part? q).map Part.bare = (s.part? q).map Part.bare

theorem State.SameBare.refl (s : State) : s.SameBare s := fun _ => rfl

theorem State.SameBare.trans {s t u : State} (h : s.SameBare t) (k : t.SameBare u) : s.SameBare u := fun q => (k q).trans (h q)

theorem State.SameBare.part {s t : State} (h : s.SameBare t) {p : Fin 16} {x : Part} (hx : s.part? p = some x) :
    ∃ y, t.part? p = some y ∧ y.bare = x.bare := by
  have hp := h p
  rw [hx] at hp
  exact Option.map_eq_some_iff.mp hp

/-- What a change of one partition keeps of it, the table of partitions keeps. -/
theorem State.part?_setPart_keeps {β : Type} {s : State} {p : Fin 16} {x : Part} (hx : s.part? p = some x) {y : Part} (v : Part → β)
    (hv : v y = v x) (q : Fin 16) : ((s.setPart p y).part? q).map v = (s.part? q).map v := by
  by_cases hq : q = p
  · subst hq
    rw [part?_setPart_self, hx, Option.map_some, Option.map_some, hv]
  · rw [part?_setPart_of_ne _ _ hq]

theorem State.part?_modPart_keeps {β : Type} (s : State) (p : Fin 16) (f : Part → Part) (v : Part → β) (hv : ∀ x, v (f x) = v x)
    (q : Fin 16) : ((s.modPart p f).part? q).map v = (s.part? q).map v := by
  unfold modPart
  split
  · rfl
  · next x hx => exact part?_setPart_keeps hx v (hv x) q

/-! ### What the memory tiers do beside a write -/

/-- Work of the memory tiers: registers count it, and neither a byte of cloth space nor anything else of a partition changes. -/
structure State.Tiered (s t : State) : Prop where
  frame : { t with regs := s.regs, parts := s.parts } = s
  bare : s.SameBare t
  bytes : ∀ q, (t.part? q).map (fun x => x.cloth.bytes) = (s.part? q).map (fun x => x.cloth.bytes)

theorem State.Tiered.refl (s : State) : s.Tiered s := ⟨rfl, .refl s, fun _ => rfl⟩

theorem State.Tiered.trans {s t u : State} (h : s.Tiered t) (k : t.Tiered u) : s.Tiered u :=
  ⟨(congrArg (fun t : State => { t with regs := s.regs, parts := s.parts }) k.frame :).trans h.frame, h.bare.trans k.bare,
    fun q => (k.bytes q).trans (h.bytes q)⟩

theorem State.tiered_foldl {α : Type} {f : State → α → State} (h : ∀ (s : State) (a : α), s.Tiered (f s a)) (l : List α) (s : State) :
    s.Tiered (l.foldl f s) := by
  induction l generalizing s with
  | nil => exact .refl s
  | cons a rest ih => exact (h s a).trans (ih (f s a))

theorem State.Tiered.byteAt {s t : State} (h : s.Tiered t) (st : Store) (i : Nat) : t.byteAt st i = s.byteAt st i := by
  cases st with
  | loom g => exact (congrArg (fun t : State => t.byteAt (.loom g) i) h.frame :)
  | mill m p c => exact (congrArg (fun t : State => t.byteAt (.mill m p c) i) h.frame :)
  | cloth p =>
    have hp := h.bytes p
    simp only [State.byteAt]
    cases ht : t.part? p <;> cases hs : s.part? p <;> simp_all

section
variable (s : State) (p : Fin 16)

theorem State.tiered_setReg (r : Reg) (v : Word) : s.Tiered (s.setReg r v) := ⟨rfl, fun _ => rfl, fun _ => rfl⟩

/-- A change of a partition that leaves all but its cloth, and there the bytes. -/
theorem State.tiered_modPart (f : Part → Part) (hbare : ∀ x, (f x).bare = x.bare) (hbytes : ∀ x, (f x).cloth.bytes = x.cloth.bytes) :
    s.Tiered (s.modPart p f) :=
  ⟨(congrArg (fun t : State => { t with regs := s.regs }) (s.modPart_frame p f) :), s.part?_modPart_keeps p f _ hbare,
    s.part?_modPart_keeps p f _ hbytes⟩

theorem State.tiered_setPart {p : Fin 16} {x : Part} (hx : s.part? p = some x) {y : Part} (hbare : y.bare = x.bare)
    (hbytes : y.cloth.bytes = x.cloth.bytes) : s.Tiered (s.setPart p y) :=
  ⟨rfl, part?_setPart_keeps hx _ hbare, part?_setPart_keeps hx _ hbytes⟩

theorem State.tiered_modPage (k : Nat) (f : Page → Page) : s.Tiered (s.modPage p k f) :=
  s.tiered_modPart p _ (fun _ => by dsimp only; split <;> rfl) (fun _ => by dsimp only; split <;> rfl)

theorem State.tiered_evictPage (k : Nat) (g : Page) : s.Tiered (s.evictPage p k g) := by
  unfold evictPage
  split
  · exact s.tiered_modPage p k _
  · exact s.tiered_modPage p k _

theorem State.tiered_makeRoom (c m : Nat) : s.Tiered (s.makeRoom p c m) := by
  unfold makeRoom
  split
  · exact .refl s
  · dsimp only
    split
    · exact .refl s
    · split
      · exact .refl s
      · exact s.tiered_evictPage p _ _

theorem State.tiered_staged (k : Nat) : s.Tiered (s.staged p k) := by
  unfold staged
  split
  · exact .refl s
  · next x hx =>
    split
    · exact .refl s
    · exact (s.tiered_setPart hx (by rfl) (by rfl)).trans (tiered_setReg _ _ _)

theorem State.tiered_stageForWrite (k : Nat) : s.Tiered (s.stageForWrite p k) := by
  unfold stageForWrite
  split
  · exact .refl s
  · split
    · exact .refl s
    · split
      · exact .refl s
      · split
        · exact s.tiered_staged p k
        · exact ((s.tiered_makeRoom p _ _).trans (tiered_modPage _ p k _)).trans (tiered_staged _ p k)

theorem State.tiered_markDirty (a n : Nat) : s.Tiered (s.markDirty p a n) :=
  tiered_foldl (fun t _ => t.tiered_modPage p _ _) _ s

/-! ### Traffic (R287, R289) -/

/-- Traffic only counts: what no count of it changes, it leaves. -/
theorem State.traffic_keeps {β : Type} (v : State → β) (h : ∀ (t : State) m k n, v (t.count (.memTraffic m k) n) = v t) (a n : Nat) :
    v (s.traffic p a n) = v s := by
  unfold traffic
  split
  · rfl
  · refine foldl_keeps v _ s (fun t b => ?_)
    split
    · rfl
    · simp only [apply_ite v, h, ite_self]

theorem State.traffic_frame (a n : Nat) : { s.traffic p a n with regs := s.regs } = s :=
  (congrArg (fun t : State => { t with regs := s.regs })
    (s.traffic_keeps p (fun t => { t with regs := [] }) (fun _ _ _ _ => rfl) a n) :)

theorem State.reg_traffic (a n : Nat) {r : Reg} (hr : ∀ m k, r ≠ .memTraffic m k) : (s.traffic p a n).reg r = s.reg r :=
  s.traffic_keeps p (fun t => t.reg r) (fun t m k _ => t.reg_setReg_of_reg_ne _ (hr m k)) a n

theorem State.tiered_traffic (a n : Nat) : s.Tiered (s.traffic p a n) := by
  have hparts : (s.traffic p a n).parts = s.parts := s.traffic_keeps p State.parts (fun _ _ _ _ => rfl) a n
  refine ⟨(congrArg (fun t : State => { t with parts := s.parts }) (s.traffic_frame p a n) :), fun q => ?_, fun q => ?_⟩
  · rw [part?, hparts, part?]
  · rw [part?, hparts, part?]

/-! ### A write of cloth space (R292) -/

variable (a : Nat) (bs : List Byte)

/-- The pages that a write touches are staged before it. -/
def State.stagedFor : State := (pagesOf a bs.length).foldl (fun s k => s.stageForWrite p k) s

theorem State.tiered_stagedFor : s.Tiered (s.stagedFor p a bs) := tiered_foldl (fun t k => t.tiered_stageForWrite p k) _ s

/-- After the bytes are put, their granules are marked and their traffic counted. -/
theorem State.tiered_store_ : ((s.stagedFor p a bs).putAt (.cloth p) a bs).Tiered (s.store_ (.cloth p) a bs) :=
  (tiered_markDirty _ p a bs.length).trans (tiered_traffic _ p a bs.length)

theorem State.store_frame : { s.store_ (.cloth p) a bs with regs := s.regs, parts := s.parts } = s := by
  have hput : { (s.stagedFor p a bs).putAt (.cloth p) a bs with parts := (s.stagedFor p a bs).parts } = s.stagedFor p a bs :=
    modPart_frame _ p _
  exact ((congrArg (fun t : State => { t with regs := s.regs, parts := s.parts }) (s.tiered_store_ p a bs).frame :).trans
    (congrArg (fun t : State => { t with regs := s.regs, parts := s.parts }) hput :)).trans (s.tiered_stagedFor p a bs).frame

@[simp] theorem State.store_safety : (s.store_ (.cloth p) a bs).safety = s.safety := (congrArg State.safety (s.store_frame p a bs) :)

theorem State.store_bare : s.SameBare (s.store_ (.cloth p) a bs) :=
  ((s.tiered_stagedFor p a bs).bare.trans (part?_modPart_keeps _ p _ _ (by intro; rfl))).trans
    (s.tiered_store_ p a bs).bare

theorem State.byteAt_store_ {x : Part} (hx : s.part? p = some x) (st : Store) (i : Nat) :
    (s.store_ (.cloth p) a bs).byteAt st i
      = if st = .cloth p ∧ a ≤ i ∧ i < a + bs.length then bs.getD (i - a) 0 else s.byteAt st i := by
  obtain ⟨y, hy, -⟩ := (s.tiered_stagedFor p a bs).bare.part hx
  rw [(s.tiered_store_ p a bs).byteAt, byteAt_putAt _ (.cloth p) a bs st i (fun q hq => by cases hq; rw [hy]; rfl),
    (s.tiered_stagedFor p a bs).byteAt]

/-- What a write has put is read. -/
theorem State.bytesAt_store_self {x : Part} (hx : s.part? p = some x) : (s.store_ (.cloth p) a bs).bytesAt (.cloth p) a bs.length = bs := by
  refine List.ext_getElem (by simp [bytesAt]) fun n _ hn => ?_
  simp only [bytesAt, List.getElem_map, List.getElem_range, s.byteAt_store_ p a bs hx, true_and]
  rw [if_pos (by omega), Nat.add_sub_cancel_left, List.getD_eq_getElem?_getD, List.getElem?_eq_getElem hn, Option.getD_some]

end

end Sys2Proof.Machine
end

section
/-! PROOFS. Slots of the Creel: what posts, pauses and faults of a stream leave and write (13 R255, R260, R261, R264). -/

namespace Sys2Proof.Machine

open Sys2Proof

/-! ### Slots -/

@[simp] theorem State.slot_setSlot_self (s : State) (i : Fin 1024) (k : Slot) : (s.setSlot i k).slot i = k :=
  Tab.get_put_self s.slots i.val k Slot.reset

theorem State.slot_setSlot_of_ne (s : State) {i j : Fin 1024} (k : Slot) (h : j ≠ i) : (s.setSlot i k).slot j = s.slot j :=
  Tab.get_put_of_ne s.slots k Slot.reset Slot.reset (fun e => h (Fin.ext e))

theorem State.sameBare_setSlot (s : State) (i : Fin 1024) (k : Slot) : s.SameBare (s.setSlot i k) := fun _ => rfl

@[simp] theorem State.byteAt_setSlot (s : State) (i : Fin 1024) (k : Slot) (st : Store) (a : Nat) :
    (s.setSlot i k).byteAt st a = s.byteAt st a := by
  cases st <;> rfl

@[simp] theorem State.part?_setSlot (s : State) (i : Fin 1024) (k : Slot) (q : Fin 16) : (s.setSlot i k).part? q = s.part? q := rfl

/-- A slot that has a record is its partition's, and that exists (R253). -/
theorem State.part?_of_creelCfg {s : State} {i : Fin 1024} {p : Fin 16} {x : Part} {c : CreelCfg} (h : s.creelCfg i = some (p, x, c)) :
    s.part? p = some x := by
  unfold creelCfg at h
  split at h
  · cases h
  · obtain ⟨y, hy, hc⟩ := Option.bind_eq_some_iff.mp h
    obtain ⟨d, -, hd⟩ := Option.map_eq_some_iff.mp hc
    cases hd
    exact hy

/-! ### Posts (R260) -/

theorem Part.queue_setQueue_self (x : Part) (c : Fin 8) (i : Nat) (l : List QEntry) : (x.setQueue c i l).queue c i = l := by
  rw [queue, setQueue, modCtx, setCtx, ctx, Tab.get_put_self, Tab.get_put_self]

theorem Part.queue_setQueue_of_ne (x : Part) {c d : Fin 8} {i j : Nat} (l : List QEntry) (h : ¬ (d = c ∧ j = i)) :
    (x.setQueue c i l).queue d j = x.queue d j := by
  by_cases hd : d = c
  · subst hd
    rw [queue, setQueue, modCtx, setCtx, ctx, Tab.get_put_self, Tab.get_put_of_ne _ _ _ _ (fun e => h ⟨rfl, e⟩), queue]
  · rw [queue, setQueue, modCtx, setCtx, ctx, Tab.get_put_of_ne _ _ _ _ (fun e => hd (Fin.ext e)), queue, ctx]

/-- The slot with one FRAME number spent. -/
def Slot.numbered (k : Slot) : Slot := { k with frame := k.frame + 1 }

section
variable (s : State) (p : Fin 16) (c : CreelCfg) (flags code frame addr : Nat) (pick : Word)

theorem State.postEntry_frame : { s.postEntry p c flags code frame addr pick with parts := s.parts } = s := s.modPart_frame p _

theorem State.quiet_postEntry : s.Quiet (s.postEntry p c flags code frame addr pick) :=
  s.quiet_modPart p _ (fun _ => rfl) (fun _ => rfl)

/-- A post leaves its partition's recording, if it has one. -/
theorem State.swatch_postEntry {x : Part} (hx : s.part? p = some x) :
    ∃ y, (s.postEntry p c flags code frame addr pick).part? p = some y ∧ y.swatch = x.swatch := by
  rw [postEntry, modPart_of_some hx]
  exact ⟨_, part?_setPart_self _ _ _, rfl⟩

variable (i : Fin 1024)

theorem State.postAbsent_frame : { s.postAbsent i p c code pick with parts := s.parts, slots := s.slots } = s :=
  (congrArg (fun t : State => { t with slots := s.slots })
    ((s.setSlot i (s.slot i).numbered).postEntry_frame p c 0x8000 code (s.slot i).frame 0 pick) :)

theorem State.slots_postAbsent : (s.postAbsent i p c code pick).slots = (s.setSlot i (s.slot i).numbered).slots :=
  (congrArg State.slots ((s.setSlot i (s.slot i).numbered).postEntry_frame p c 0x8000 code (s.slot i).frame 0 pick) :)

theorem State.slot_postAbsent_self : (s.postAbsent i p c code pick).slot i = (s.slot i).numbered := by
  rw [slot, slots_postAbsent]
  exact s.slot_setSlot_self i _

theorem State.slot_postAbsent_of_ne {j : Fin 1024} (h : j ≠ i) : (s.postAbsent i p c code pick).slot j = s.slot j := by
  rw [slot, slots_postAbsent]
  exact s.slot_setSlot_of_ne _ h

theorem State.byteAt_postAbsent (st : Store) (a : Nat) : (s.postAbsent i p c code pick).byteAt st a = s.byteAt st a :=
  ((s.setSlot i (s.slot i).numbered).quiet_postEntry p c 0x8000 code (s.slot i).frame 0 pick).byteAt st a

end

/-! ### Pauses (R261) -/

/-- Slots may have changed their states, and registers count it. -/
structure State.Pausing (s t : State) : Prop where
  frame : { t with regs := s.regs, slots := s.slots } = s
  slot : ∀ j, ∃ n, t.slot j = { s.slot j with state := n }

theorem State.Pausing.refl (s : State) : s.Pausing s := ⟨rfl, fun j => ⟨(s.slot j).state, rfl⟩⟩

theorem State.Pausing.trans {s t u : State} (h : s.Pausing t) (k : t.Pausing u) : s.Pausing u := by
  refine ⟨(congrArg (fun t : State => { t with regs := s.regs, slots := s.slots }) k.frame :).trans h.frame, fun j => ?_⟩
  obtain ⟨m, hm⟩ := h.slot j
  obtain ⟨n, hn⟩ := k.slot j
  exact ⟨n, by rw [hn, hm]⟩

theorem State.pausing_foldl {α : Type} {f : State → α → State} (h : ∀ (s : State) (a : α), s.Pausing (f s a)) (l : List α) (s : State) :
    s.Pausing (l.foldl f s) := by
  induction l generalizing s with
  | nil => exact .refl s
  | cons a rest ih => exact (h s a).trans (ih (f s a))

theorem State.slot_pauseSlot_self (s : State) (i : Fin 1024) :
    (s.pauseSlot i).slot i = { s.slot i with state := if (s.slot i).state = 1 then 2 else (s.slot i).state } := by
  by_cases hopen : (s.slot i).state = 1
  · simp only [pauseSlot, if_pos hopen]
    exact s.slot_setSlot_self i _
  · simp only [pauseSlot, if_neg hopen]

theorem State.slot_pauseSlot_of_ne (s : State) {i j : Fin 1024} (h : j ≠ i) : (s.pauseSlot i).slot j = s.slot j := by
  unfold pauseSlot
  dsimp only
  split
  · exact s.slot_setSlot_of_ne _ h
  · rfl

theorem State.pausing_pauseSlot (s : State) (i : Fin 1024) : s.Pausing (s.pauseSlot i) := by
  refine ⟨?_, fun j => ?_⟩
  · unfold pauseSlot
    dsimp only
    split <;> rfl
  · by_cases hj : j = i
    · subst hj
      exact ⟨_, s.slot_pauseSlot_self j⟩
    · exact ⟨(s.slot j).state, s.slot_pauseSlot_of_ne hj⟩

theorem State.pausing_pauseFull (s : State) (i : Fin 1024) (p : Fin 16) (c : CreelCfg) : s.Pausing (s.pauseFull i p c) := by
  unfold pauseFull
  split
  · exact .refl s
  · have hring : s.Pausing (if (s.slot i).ringFull then s.pauseSlot i else s) := by
      split
      · exact s.pausing_pauseSlot i
      · exact .refl s
    dsimp only
    split
    · exact hring.trans (pausing_foldl (fun t d => t.pausing_pauseSlot _) _ _)
    · exact hring

theorem State.Pausing.byteAt {s t : State} (h : s.Pausing t) (st : Store) (a : Nat) : t.byteAt st a = s.byteAt st a :=
  (congrArg (fun t : State => t.byteAt st a) h.frame :)

theorem State.Pausing.sameBare {s t : State} (h : s.Pausing t) : s.SameBare t := fun q =>
  (congrArg (fun t : State => (t.part? q).map Part.bare) h.frame :)

theorem State.Pausing.safety {s t : State} (h : s.Pausing t) : t.safety = s.safety := (congrArg State.safety h.frame :)

/-! ### Faults of a stream (R255, R264) -/

/-- Only registers have been written, and of those only the counts of memory traffic. -/
structure State.CountsTraffic (s u : State) : Prop where
  frame : { u with regs := s.regs } = s
  reg : ∀ r, (∀ m k, r ≠ .memTraffic m k) → u.reg r = s.reg r

theorem State.CountsTraffic.refl (s : State) : s.CountsTraffic s := ⟨rfl, fun _ _ => rfl⟩

/-- A read of cloth space by no loom (R289). -/
theorem State.countsTraffic_load_ (s : State) (p : Fin 16) (a n : Nat) : s.CountsTraffic (s.load_ none (.cloth p) a n) :=
  ⟨s.traffic_frame p a n, fun _ hr => s.reg_traffic p a n hr⟩

/-- What a fault of a stream reads and leaves is the same: its input, its next FRAME number, and everything else but the slot itself and the
counts of memory traffic. -/
structure State.SameInput (s u : State) (i : Fin 1024) : Prop where
  frame : { u with regs := s.regs, slots := s.slots } = s
  reg : ∀ r, (∀ m k, r ≠ .memTraffic m k) → u.reg r = s.reg r
  input : (u.slot i).frames = (s.slot i).frames
  number : (u.slot i).frame = (s.slot i).frame
  others : ∀ j, j ≠ i → u.slot j = s.slot j

section
variable {s u : State} {i : Fin 1024}

theorem State.CountsTraffic.slot (h : s.CountsTraffic u) (j : Fin 1024) : u.slot j = s.slot j :=
  (congrArg (fun t : State => t.slot j) h.frame :)

theorem State.CountsTraffic.sameInput (h : s.CountsTraffic u) (i : Fin 1024) : s.SameInput u i :=
  ⟨(congrArg (fun t : State => { t with slots := s.slots }) h.frame :), h.reg, by rw [h.slot], by rw [h.slot], fun j _ => h.slot j⟩

theorem State.SameInput.refl (s : State) (i : Fin 1024) : s.SameInput s i := (CountsTraffic.refl s).sameInput i

theorem State.SameInput.setSlot (h : s.SameInput u i) {k : Slot} (hframes : k.frames = (u.slot i).frames)
    (hframe : k.frame = (u.slot i).frame) : s.SameInput (u.setSlot i k) i :=
  ⟨h.frame, h.reg, by rw [slot_setSlot_self, hframes, h.input], by rw [slot_setSlot_self, hframe, h.number],
    fun j hj => (u.slot_setSlot_of_ne k hj).trans (h.others j hj)⟩

theorem State.SameInput.part? (h : s.SameInput u i) (q : Fin 16) : u.part? q = s.part? q :=
  (congrArg (fun t : State => t.part? q) h.frame :)

end

/-- A stream as it faults: its input is gone, and a fault whose entry cannot be posted is owed. -/
def Slot.faulted (k : Slot) (code : Nat) (full : Bool) : Slot :=
  { k with state := 3, lastFault := BitVec.ofNat 16 code, frames := [], decoding := none, posted := 0,
           owed := if full then some code else none }

/-- The state of a stream's fault, before its entry is posted. -/
def State.creelFaulted (s : State) (i : Fin 1024) (p : Fin 16) (code : Nat) (full : Bool) : State :=
  ((s.setSlot i ((s.slot i).faulted code full)).bump (.creelCount i) Fl.creelCount_LOST
    ((s.slot i).frames.foldl (fun n f => n + f.pieces.length) 0)).creelReport i p code

theorem State.creelFault_eq (s : State) (i : Fin 1024) (p : Fin 16) (x : Part) (c : CreelCfg) (code : Nat) :
    s.creelFault i p x c code = if x.creelFull c then s.creelFaulted i p code (x.creelFull c)
      else (s.creelFaulted i p code (x.creelFull c)).postAbsent i p c code ((s.creelFaulted i p code (x.creelFull c)).pickFor x) := rfl

theorem State.pickFor_congr {s t : State} (h : t.now = s.now) (x : Part) : t.pickFor x = s.pickFor x := by
  simp only [pickFor, h]

theorem State.now_bump (s : State) {r : Reg} (hr : Reg.pickNow ≠ r) (f : Fld) (n : Nat) : (s.bump r f n).now = s.now :=
  s.reg_setFld_of_ne f _ hr

section
variable {s u : State} {i : Fin 1024} (h : s.SameInput u i) (p : Fin 16) (code : Nat) (full : Bool)
include h

theorem State.SameInput.now_creelFaulted : (u.creelFaulted i p code full).now = s.now :=
  (now_bump (u.setSlot i ((u.slot i).faulted code full)) (by simp) Fl.creelCount_LOST _).trans (h.reg .pickNow (by simp))

theorem State.SameInput.flight_creelFaulted : (u.creelFaulted i p code full).safety.flight
    = s.safety.flight ++ [s.record (beamUnit 0x22) code (i.val + p.val * 2 ^ 16)] := by
  have hsafety : u.safety = s.safety := (congrArg State.safety h.frame :)
  have hrecord : (u.creelFaulted i p code full).record (beamUnit 0x22) code (i.val + p.val * 2 ^ 16)
      = s.record (beamUnit 0x22) code (i.val + p.val * 2 ^ 16) :=
    record_congr (s := s) (u := u.creelFaulted i p code full) (congrArg State.pick h.frame :) (h.now_creelFaulted p code full)
      (congrArg State.sinceBoundary h.frame :) _ _ _
  rw [← hrecord, ← hsafety]
  rfl

theorem State.SameInput.lost_creelFaulted : (u.creelFaulted i p code full).fld (.creelCount i) Fl.creelCount_LOST
    = min (s.fld (.creelCount i) Fl.creelCount_LOST + (s.slot i).frames.foldl (fun n f => n + f.pieces.length) 0)
        (2 ^ Fl.creelCount_LOST.w - 1) := by
  have hbump := fld_bump_self (u.setSlot i ((u.slot i).faulted code full)) (r := .creelCount i) (f := Fl.creelCount_LOST) (by decide)
    ((u.slot i).frames.foldl (fun n f => n + f.pieces.length) 0)
  have hreg : (u.setSlot i ((u.slot i).faulted code full)).fld (.creelCount i) Fl.creelCount_LOST = s.fld (.creelCount i) Fl.creelCount_LOST :=
    congrArg Fl.creelCount_LOST.get (h.reg (.creelCount i) (by simp))
  rw [hreg] at hbump
  rw [← h.input]
  exact hbump

theorem State.SameInput.byteAt_creelFaulted (st : Store) (a : Nat) : (u.creelFaulted i p code full).byteAt st a = s.byteAt st a :=
  (congrArg (fun t : State => t.byteAt st a) h.frame :)

theorem State.SameInput.slot_creelFaulted_of_ne {j : Fin 1024} (hj : j ≠ i) : (u.creelFaulted i p code full).slot j = s.slot j :=
  (u.slot_setSlot_of_ne _ hj).trans (h.others j hj)

end

theorem State.slot_creelFaulted_self (s : State) (i : Fin 1024) (p : Fin 16) (code : Nat) (full : Bool) :
    (s.creelFaulted i p code full).slot i = (s.slot i).faulted code full := s.slot_setSlot_self i _

end Sys2Proof.Machine

namespace Sys2Proof.Claims

open Sys2Proof Sys2Proof.Machine

/-! ### Posts -/

section
variable {s t u : State} {p : Fin 16} {x y : Part} {c : CreelCfg}

theorem queueOf_of_bare {y z : Part} (h : z.bare = y.bare) (d : Fin 8) (j : Nat) : queueOf z d j = queueOf y d j :=
  (congrArg (fun x : Part => queueOf x d j) h :)

/-- A post stands whatever is written to cloth space after it. -/
theorem Posted.sameBare {w0 frame addr : Nat} {pick : Word} (h : Posted s t p x c w0 frame addr pick) (hu : t.SameBare u) :
    Posted s u p x c w0 frame addr pick := by
  obtain ⟨y, hy, hself, hothers⟩ := h
  obtain ⟨z, hz, hbare⟩ := hu.part hy
  exact ⟨z, hz, by rw [queueOf_of_bare hbare, hself], fun d j hj => by rw [queueOf_of_bare hbare, hothers d j hj]⟩

theorem posted_postEntry (hu : u.part? p = some y) (hbare : y.bare = x.bare) (hbeat : u.beat = s.beat) (flags code frame addr : Nat)
    (pick : Word) : Posted s (u.postEntry p c flags code frame addr pick) p x c (c.slot + flags * 2 ^ 16 + code * 2 ^ 32) frame addr pick := by
  rw [State.postEntry, State.modPart_of_some hu]
  refine ⟨_, State.part?_setPart_self _ _ _, (y.queue_setQueue_self _ _ _).trans ?_, fun d j hj => ?_⟩
  · rw [← queueOf_of_bare hbare, hbeat]
    rfl
  · rw [← queueOf_of_bare hbare]
    exact y.queue_setQueue_of_ne _ hj

theorem posted_postAbsent (hu : u.part? p = some y) (hbare : y.bare = x.bare) (hbeat : u.beat = s.beat) (i : Fin 1024) (code : Nat)
    (pick : Word) : Posted s (u.postAbsent i p c code pick) p x c (absentWord c code) (u.slot i).frame 0 pick :=
  posted_postEntry (u := u.setSlot i (u.slot i).numbered) hu hbare hbeat 0x8000 code (u.slot i).frame 0 pick

end

/-! ### Pauses and faults -/

/-- A slot pauses, its count of released samples brought up to date. -/
theorem pauses_pauseSlot (s : State) (i : Fin 1024) (r : Nat) :
    Pauses s ((s.setSlot i { s.slot i with released := r }).pauseSlot i) i := by
  have hslot := (s.setSlot i { s.slot i with released := r }).slot_pauseSlot_self i
  have hframe := ((s.setSlot i { s.slot i with released := r }).pausing_pauseSlot i).frame
  rw [State.slot_setSlot_self] at hslot
  refine ⟨?_, ?_, ?_, fun hopen => ?_, fun j hj => (State.slot_pauseSlot_of_ne _ hj).trans (State.slot_setSlot_of_ne _ _ hj),
    (congrArg State.parts hframe :), (congrArg State.safety hframe :)⟩
  case refine_4 =>
    rw [State.pauseSlot, State.slot_setSlot_self, if_pos hopen]
    exact State.fld_bump_self _ (by decide) 1
  all_goals rw [hslot]

theorem creelFaults_creelFault {s u : State} {i : Fin 1024} (h : s.SameInput u i) {p : Fin 16} {x : Part} (hx : s.part? p = some x)
    (c : CreelCfg) (code : Nat) : CreelFaults s (u.creelFault i p x c code) i p x c code := by
  have hflight := h.flight_creelFaulted p code (x.creelFull c)
  have hlost := h.lost_creelFaulted p code (x.creelFull c)
  have hbyte := h.byteAt_creelFaulted p code (x.creelFull c)
  have hslot := u.slot_creelFaulted_self i p code (x.creelFull c)
  rw [State.creelFault_eq, State.pickFor_congr (h.now_creelFaulted p code _)]
  split
  case isTrue hfull =>
    rw [hfull] at hflight hlost hbyte hslot ⊢
    refine ⟨?_, ?_, ?_, ?_, hflight, hlost, fun _ => ⟨?_, (congrArg State.parts h.frame :)⟩,
      fun hroom => absurd (hfull.symm.trans hroom) (by decide), fun j hj => h.slot_creelFaulted_of_ne p code true hj, hbyte⟩
    all_goals rw [hslot]; rfl
  case isFalse hroom =>
    have hself := State.slot_postAbsent_self (u.creelFaulted i p code (x.creelFull c)) p c code (s.pickFor x) i
    have hframe := State.postAbsent_frame (u.creelFaulted i p code (x.creelFull c)) p c code (s.pickFor x) i
    have hposted := posted_postAbsent (s := s) (x := x) (c := c) (u := u.creelFaulted i p code (x.creelFull c)) ((h.part? p).trans hx) rfl
      (congrArg State.beat h.frame :) i code (s.pickFor x)
    rw [hslot] at hself hposted
    have hnumber : ((u.slot i).faulted code (x.creelFull c)).frame = (s.slot i).frame := h.number
    rw [hnumber] at hposted
    refine ⟨?_, ?_, ?_, ?_, (congrArg (fun t : State => t.safety.flight) hframe :).trans hflight,
      (congrArg (fun t : State => t.fld (.creelCount i) Fl.creelCount_LOST) hframe :).trans hlost, fun hfull => absurd hfull hroom,
      fun hfull => ⟨?_, hposted, ?_⟩, fun j hj => (State.slot_postAbsent_of_ne _ p c code _ i hj).trans
        (h.slot_creelFaulted_of_ne p code _ hj), fun st a => (State.byteAt_postAbsent _ p c code _ i st a).trans (hbyte st a)⟩
    case refine_5 =>
      rw [hself, hfull]
      rfl
    case refine_6 => rw [hself, ← hnumber, Slot.numbered]
    all_goals rw [hself]; rfl

end Sys2Proof.Claims
end

section
/-! PROOFS. A frame goes to decode, and a stream resumes (13 R251, R255, R258, R261, R264). -/

namespace Sys2Proof.Machine

open Sys2Proof

/-! ### A ring's next record (R251) -/

/-- A record of an elementary-stream ring as a frame: it is handed over as it is read. -/
def ringFrame (unit pos : Nat) (now : Word) (bs : List Byte) (bad : Bool) : FrameIn :=
  { unit := unit, pick := now, ringEnd := pos, handed := some now, broken := bad,
    pieces := [{ seq := 0, marker := true, bytes := bs, dropped := false }] }

theorem ringFrame_input (unit pos : Nat) (now : Word) (bs : List Byte) : (ringFrame unit pos now bs false).input = [bs] := rfl

section
variable {s : State} {i : Fin 1024} {p : Fin 16} {x : Part} {c : CreelCfg} (n : Nat)

theorem State.startRing_of_malformed (hnext : s.ringNext p c (s.slot i) = .malformed) :
    s.startRing i p x c (n + 1) = s.creelFault i p x c 0x0108 := by
  simp only [startRing, hnext]

/-- A record whose blocks pass their checks is read, and decode begins on it. -/
theorem State.startRing_of_record {unit addr len pos : Nat} (hnext : s.ringNext p c (s.slot i) = .record unit addr len pos)
    (hbad : s.anyBad (.cloth p) addr len = false) (htag : s.anyTagBad (.cloth p) addr len = false) :
    s.startRing i p x c (n + 1)
      = ((s.setSlot i { s.slot i with ringSeen := max (s.slot i).ringSeen (s.word64 p ((s.slot i).num 0x10 8)) }).load_ none (.cloth p) addr
          len).beginFrame i p x c (ringFrame unit pos s.now (s.bytesAt (.cloth p) addr len) false) := by
  simp only [startRing, hnext, hbad, htag, Bool.or_self, Bool.false_eq_true, if_false, ringFrame]

end

end Sys2Proof.Machine

namespace Sys2Proof.Claims

open Sys2Proof Sys2Proof.Machine

/-! ### Decode begins on a frame (R255) -/

/-- A slot is given its frame to decode, and all the rest is as it was. -/
theorem begun_of_sameInput {s u : State} {i : Fin 1024} (h : s.SameInput u i) (k : Slot) :
    (u.setSlot i k).slot i = k ∧ (u.setSlot i k).safety = s.safety ∧ (u.setSlot i k).parts = s.parts
      ∧ (∀ j, j ≠ i → (u.setSlot i k).slot j = s.slot j) ∧ (u.setSlot i k).looms = s.looms
      ∧ ∀ st a, (u.setSlot i k).byteAt st a = s.byteAt st a :=
  ⟨u.slot_setSlot_self i k, (congrArg State.safety h.frame :), (congrArg State.parts h.frame :),
    fun j hj => (u.slot_setSlot_of_ne k hj).trans (h.others j hj), (congrArg State.looms h.frame :),
    fun st a => (congrArg (fun t : State => t.byteAt st a) h.frame :)⟩

theorem decodeBegins_beginFrame {s u : State} (h : s.CountsTraffic u) {i : Fin 1024} {p : Fin 16} {x : Part} (hx : s.part? p = some x)
    (c : CreelCfg) (f : FrameIn) : DecodeBegins s (u.beginFrame i p x c f) i p x c f := by
  have hsame := h.sameInput i
  unfold DecodeBegins State.beginFrame
  simp only [h.slot i]
  cases f.absent c.format (s.slot i).history with
  | some kind => exact begun_of_sameInput hsame _
  | none =>
    cases Config.readHeader c.format (s.slot i).history f.input with
    | unreadable kind => exact begun_of_sameInput hsame _
    | unsupported => exact creelFaults_creelFault hsame hx c 0x0102
    | size w l level =>
      have hlevel : s.SameInput (u.setSlot i { s.slot i with level := level % 256 }) i :=
        hsame.setSlot (by rw [h.slot i]) (by rw [h.slot i])
      simp only [Slot.crop, Option.isSome_none, Bool.false_eq_true, if_false, State.slot_setSlot_self]
      refine ⟨fun hfits hcrop => ?_, fun hfits => ?_, fun hfits hcrop => ?_⟩
      · rw [if_neg (by omega), if_neg (by omega)]
        exact begun_of_sameInput hlevel _
      · rw [if_pos (by omega)]
        exact creelFaults_creelFault hlevel hx c 0x0101
      · rw [if_neg (by omega), if_pos (by omega)]
        exact creelFaults_creelFault hlevel hx c 0x0104

/-! ### CREEL_DECODE_START -/

section
variable {s : State} {i : Fin 1024} {p : Fin 16} {x : Part} {c : CreelCfg} (h : CanDecode s i p x c)
include h

theorem CanDecode.ready : ¬ ((s.slot i).state ≠ 1 ∨ (s.slot i).decoding.isSome = true ∨ s.engineBusy (s.slot i).engine = true
    ∨ x.safe.isSome = true ∨ x.replaying = true ∨ s.safety.moduleSafe = true) := by
  obtain ⟨-, hopen, ⟨hidle, hengine⟩, ⟨hsafe, hmodule⟩, hlive⟩ := h
  simp [hopen, hidle, hengine, hsafe, hmodule, hlive]

theorem CanDecode.start_of_frame {f : FrameIn} (hrtp : rtpFormat c.format = true) (hnext : (s.slot i).nextFrame = some f) :
    exec (.creelDecodeStart i) s = .next ((s.setSlot i { s.slot i with
      frames := (s.slot i).frames.erase f, nextSeq := f.after, lastStamp := some f.unit }).beginFrame i p x c f) := by
  simp only [exec_creelDecodeStart, execCreelDecodeStart, h.cfg, if_neg h.ready, hrtp, if_true, hnext]

theorem CanDecode.start_of_no_frame (hrtp : rtpFormat c.format = true) (hnext : (s.slot i).nextFrame = none) :
    exec (.creelDecodeStart i) s = .next s := by
  simp only [exec_creelDecodeStart, execCreelDecodeStart, h.cfg, if_neg h.ready, hrtp, if_true, hnext]

theorem CanDecode.start_of_ring (hring : rtpFormat c.format = false)
    (hopen : x.cfg.touchesProtected ((s.slot i).num 0x10 8) ((s.slot i).num 0x18 4) = true → s.hasRegion p = true) :
    exec (.creelDecodeStart i) s = .next (s.startRing i p x c 2) := by
  have hunlocked : ¬ (x.cfg.touchesProtected ((s.slot i).num 0x10 8) ((s.slot i).num 0x18 4) && !s.hasRegion p) = true := by
    cases hprot : x.cfg.touchesProtected ((s.slot i).num 0x10 8) ((s.slot i).num 0x18 4) <;> simp [hopen, hprot]
  simp only [exec_creelDecodeStart, execCreelDecodeStart, h.cfg, if_neg h.ready, hring, Bool.false_eq_true, if_false, if_neg hunlocked]

end

/-! ### CREEL_RESUME -/

section
variable {s : State} {i : Fin 1024} {p : Fin 16} {x : Part} {c : CreelCfg} (hcfg : s.creelCfg i = some (p, x, c)) (hsafe : x.safe = none)
  (hmodule : s.safety.moduleSafe = false) (hroom : x.creelFull c = false)
include hcfg hsafe hmodule hroom

theorem exec_creelResume_of_owed {code : Nat} (howed : (s.slot i).owed = some code) : exec (.creelResume i) s
    = .next ((s.setSlot i { s.slot i with owed := none }).postAbsent i p c code (s.pickFor x)) := by
  simp only [exec_creelResume, execCreelResume, hcfg, hsafe, hmodule, hroom, howed, Option.isSome_none, Bool.false_eq_true, or_self, if_false]

theorem exec_creelResume_of_paused {r : Nat} (howed : (s.slot i).owed = none) (hpaused : (s.slot i).state = 2)
    (hr : s.releasedNow p c (s.slot i) = some r) : exec (.creelResume i) s
      = .next (s.setSlot i (if (s.slot i).written - r < (s.slot i).sampleSlots then { s.slot i with released := r, state := 1 }
          else { s.slot i with released := r })) := by
  simp only [exec_creelResume, execCreelResume, hcfg, hsafe, hmodule, hroom, howed, hpaused, hr, Slot.ringFull, Option.isSome_none,
    Bool.false_eq_true, or_self, if_false, ne_eq, not_true, decide_eq_true_eq]
  by_cases hlt : (s.slot i).written - r < (s.slot i).sampleSlots
  · rw [if_neg (Nat.not_le.mpr hlt), if_pos hlt]
  · rw [if_pos (Nat.not_lt.mp hlt), if_neg hlt]

theorem exec_creelResume_of_malformed (howed : (s.slot i).owed = none) (hpaused : (s.slot i).state = 2)
    (hr : s.releasedNow p c (s.slot i) = none) : exec (.creelResume i) s = .next (s.creelFault i p x c 0x0108) := by
  simp only [exec_creelResume, execCreelResume, hcfg, hsafe, hmodule, hroom, howed, hpaused, hr, Option.isSome_none,
    Bool.false_eq_true, or_self, if_false, ne_eq, not_true]

end

/-- What a fault owes is posted. -/
theorem posted_of_owed {s : State} {i : Fin 1024} {p : Fin 16} {x : Part} (c : CreelCfg) (hx : s.part? p = some x) (code : Nat) (pick : Word) :
    let t := (s.setSlot i { s.slot i with owed := none }).postAbsent i p c code pick
    (t.slot i).owed = none ∧ (t.slot i).state = (s.slot i).state ∧ Posted s t p x c (absentWord c code) (s.slot i).frame 0 pick
      ∧ t.safety = s.safety := by
  intro t
  have hslot : t.slot i = _ := State.slot_postAbsent_self _ p c code pick i
  have hposted : Posted s t p x c _ _ 0 pick :=
    posted_postAbsent (s := s) (x := x) (u := s.setSlot i { s.slot i with owed := none }) hx rfl rfl i code pick
  rw [State.slot_setSlot_self] at hslot hposted
  exact ⟨by rw [hslot]; rfl, by rw [hslot]; rfl, hposted,
    (congrArg State.safety (State.postAbsent_frame (s.setSlot i { s.slot i with owed := none }) p c code pick i) :)⟩

end Sys2Proof.Claims
end

section
/-! PROOFS. A frame in decode gives its pictures: samples are written and posted, the frame leaves decode, or the stream pauses for want of
room (13 R251, R258, R260 to R262, R264). -/

namespace Sys2Proof.Machine

open Sys2Proof

/-! ### A sample and WRITTEN (R258) -/

/-- A sample is written at an address, and WRITTEN, which stands at the ring's base. -/
def State.putSample (s : State) (p : Fin 16) (base addr : Nat) (bs : List Byte) (written : Nat) : State :=
  (s.store_ (.cloth p) addr bs).store_ (.cloth p) base (leBytes 8 written)

section
variable (s : State) (p : Fin 16) (base addr : Nat) (bs : List Byte) (written : Nat)

theorem State.putSample_frame : { s.putSample p base addr bs written with regs := s.regs, parts := s.parts } = s :=
  (congrArg (fun t : State => { t with regs := s.regs, parts := s.parts })
    ((s.store_ (.cloth p) addr bs).store_frame p base (leBytes 8 written)) :).trans (s.store_frame p addr bs)

theorem State.putSample_bare : s.SameBare (s.putSample p base addr bs written) :=
  (s.store_bare p addr bs).trans (store_bare _ p base (leBytes 8 written))

variable {x : Part} (hx : s.part? p = some x)
include hx

theorem State.bytesAt_putSample_base : (s.putSample p base addr bs written).bytesAt (.cloth p) base 8 = leBytes 8 written := by
  obtain ⟨y, hy, -⟩ := (s.store_bare p addr bs).part hx
  have hstore := (s.store_ (.cloth p) addr bs).bytesAt_store_self p base (leBytes 8 written) hy
  rw [length_leBytes] at hstore
  exact hstore

/-- WRITTEN lies apart from the sample. -/
theorem State.bytesAt_putSample_sample (h : base + 8 ≤ addr) :
    (s.putSample p base addr bs written).bytesAt (.cloth p) addr bs.length = bs := by
  obtain ⟨y, hy, -⟩ := (s.store_bare p addr bs).part hx
  refine Eq.trans (List.map_congr_left fun n _ => ?_) (s.bytesAt_store_self p addr bs hx)
  rw [putSample, byteAt_store_ _ p base _ hy, length_leBytes, if_neg (by omega)]

theorem State.byteAt_putSample_of_apart {st : Store} {a : Nat}
    (h : st = .cloth p → (a < base ∨ base + 8 ≤ a) ∧ (a < addr ∨ addr + bs.length ≤ a)) :
    (s.putSample p base addr bs written).byteAt st a = s.byteAt st a := by
  obtain ⟨y, hy, -⟩ := (s.store_bare p addr bs).part hx
  rw [putSample, byteAt_store_ _ p base _ hy, length_leBytes, if_neg, byteAt_store_ s p addr bs hx, if_neg]
  · rintro ⟨hst, hin⟩
    have := (h hst).2
    omega
  · rintro ⟨hst, hin⟩
    have := (h hst).1
    omega

end

/-! ### A picture is posted (R260, R262) -/

theorem State.drawBytes_frame (s : State) (n : Nat) : { (s.drawBytes n).2 with freeCount := s.freeCount } = s :=
  (congrArg (fun t : State => { t with freeCount := s.freeCount })
    (foldl_keeps (f := fun (r : List Byte × State) (_ : Nat) => (r.1 ++ [(r.2.draw 8).1], (r.2.draw 8).2))
      (fun r => { r.2 with freeCount := 0 }) (List.range n) ([], s)) :)

/-- What draws free values and then draws more has drawn free values. -/
theorem State.drawing_trans {s t u : State} (h : { t with freeCount := s.freeCount } = s) (k : { u with freeCount := t.freeCount } = t) :
    { u with freeCount := s.freeCount } = s :=
  (congrArg (fun t : State => { t with freeCount := s.freeCount }) k :).trans h

/-- Element bytes and scale codes of a picture: free where no rule gives them (log entry 43). -/
def State.pictureData (s : State) (k : Slot) (pic : Config.Picture) : (List Byte × List Byte) × State :=
  let comps := k.components pic
  if k.fits pic then (k.tensor pic, s)
  else
    let a := s.drawBytes (k.elementBytes comps)
    let b := a.2.drawBytes (k.scaleBytes comps)
    ((a.1, b.1), b.2)

theorem State.pictureData_frame (s : State) (k : Slot) (pic : Config.Picture) :
    { (s.pictureData k pic).2 with freeCount := s.freeCount } = s := by
  unfold pictureData
  dsimp only
  split
  · rfl
  · exact drawing_trans (s.drawBytes_frame (k.elementBytes (k.components pic)))
      (drawBytes_frame _ (k.scaleBytes (k.components pic)))

theorem State.pictureData_of_fits (s : State) {k : Slot} {pic : Config.Picture} (h : k.fits pic = true) :
    s.pictureData k pic = (k.tensor pic, s) := by
  simp only [pictureData, h, if_true]

/-- What concealment and damage of a picture count and report (R262). -/
def State.noteDamage (s : State) (i : Fin 1024) (k : Slot) (pic : Config.Picture) : State :=
  let s := if pic.concealed.isEmpty && pic.tainted.isEmpty then s else s.bump (.creelCount i) Fl.creelCount_CONCEALED 1
  match pic.damage.head? with
  | none => s
  | some d => s.report (beamUnit 0x22) 0x0106 (leNat (slice (damageBytes i.val pic.grey k.frame d) 0 16))

section
variable (s : State) (i : Fin 1024) (k : Slot) (pic : Config.Picture)

theorem State.noteDamage_frame : { s.noteDamage i k pic with regs := s.regs, safety := s.safety } = s := by
  unfold noteDamage
  dsimp only
  split <;> split <;> rfl

theorem State.noteDamage_bare : s.SameBare (s.noteDamage i k pic) := fun q =>
  (congrArg (fun t : State => (t.part? q).map Part.bare) (s.noteDamage_frame i k pic) :)

theorem State.beat_noteDamage : (s.noteDamage i k pic).beat = s.beat := (congrArg State.beat (s.noteDamage_frame i k pic) :)

theorem State.slot_noteDamage (j : Fin 1024) : (s.noteDamage i k pic).slot j = s.slot j :=
  (congrArg (fun t : State => t.slot j) (s.noteDamage_frame i k pic) :)

theorem State.byteAt_noteDamage (st : Store) (a : Nat) : (s.noteDamage i k pic).byteAt st a = s.byteAt st a :=
  (congrArg (fun t : State => t.byteAt st a) (s.noteDamage_frame i k pic) :)

end

/-- The slot with RELEASED as the consumer has written it. -/
def Slot.releasing (k : Slot) (r : Nat) : Slot := { k with released := r }

/-- The slot with a sample more. -/
def Slot.sampled (k : Slot) : Slot := { k with written := k.written + 1, frame := k.frame + 1 }

/-- Where the next sample stands in the sample ring. -/
def Slot.sampleAddr (k : Slot) (c : CreelCfg) : Nat := c.ringBase + 4096 + k.written % max 1 k.sampleSlots * k.sampleBytes

section
variable (s : State) (i : Fin 1024) (p : Fin 16) (c : CreelCfg) (f : FrameIn) (pic : Config.Picture) (pick : Word)

/-- The bytes of the next sample of a slot. -/
def State.sampleBytes : List Byte :=
  (s.slot i).sample i.val pic f.unit (f.handed.getD pick) (s.pictureData (s.slot i) pic).1

/-- The state with the next sample of a slot and WRITTEN in cloth space. -/
def State.putPicture : State :=
  (s.pictureData (s.slot i) pic).2.putSample p c.ringBase ((s.slot i).sampleAddr c) (s.sampleBytes i f pic pick) ((s.slot i).written + 1)

/-- The state of a picture's post, before its entry. -/
def State.countPicture : State := ((s.putPicture i p c f pic pick).setSlot i (s.slot i).sampled).noteDamage i (s.slot i) pic

theorem State.postPicture_eq : s.postPicture i p c f pic pick
    = (s.countPicture i p c f pic pick).postEntry p c (sampleFlags pic) 0 (s.slot i).frame ((s.slot i).sampleAddr c) pick := by
  simp only [postPicture, countPicture, putPicture, sampleBytes, pictureData, noteDamage, putSample, Slot.sampled, Slot.sampleAddr]
    <;> cases (s.slot i).fits pic <;> rfl

theorem State.putPicture_bare : s.SameBare (s.putPicture i p c f pic pick) := by
  have hdata : s.SameBare (s.pictureData (s.slot i) pic).2 := fun q =>
    (congrArg (fun t : State => (t.part? q).map Part.bare) (s.pictureData_frame (s.slot i) pic) :)
  rw [putPicture]
  exact hdata.trans (putSample_bare _ p c.ringBase _ _ _)

theorem State.beat_putPicture : (s.putPicture i p c f pic pick).beat = s.beat :=
  (congrArg State.beat (putSample_frame (s.pictureData (s.slot i) pic).2 p c.ringBase _ _ _) :).trans
    (congrArg State.beat (s.pictureData_frame (s.slot i) pic) :)

theorem State.countPicture_bare : s.SameBare (s.countPicture i p c f pic pick) :=
  (s.putPicture_bare i p c f pic pick).trans (((s.putPicture i p c f pic pick).sameBare_setSlot i _).trans (noteDamage_bare _ i _ pic))

theorem State.beat_countPicture : (s.countPicture i p c f pic pick).beat = s.beat :=
  (beat_noteDamage _ i _ pic).trans (s.beat_putPicture i p c f pic pick)

theorem State.slot_countPicture : (s.countPicture i p c f pic pick).slot i = (s.slot i).sampled :=
  (slot_noteDamage _ i _ pic i).trans (slot_setSlot_self _ i _)

/-- The bytes that a picture's post writes are its sample and WRITTEN. -/
theorem State.byteAt_postPicture (st : Store) (a : Nat) :
    (s.postPicture i p c f pic pick).byteAt st a = (s.putPicture i p c f pic pick).byteAt st a := by
  rw [postPicture_eq, (quiet_postEntry _ p c _ 0 _ _ pick).byteAt]
  exact (byteAt_noteDamage _ i _ pic st a).trans (byteAt_setSlot _ i _ st a)

theorem State.slot_postPicture : (s.postPicture i p c f pic pick).slot i = (s.slot i).sampled := by
  rw [postPicture_eq]
  exact (congrArg (fun t : State => t.slot i) (postEntry_frame _ p c _ _ _ _ pick) :).trans (s.slot_countPicture i p c f pic pick)

theorem State.swatch_postPicture {x : Part} (hx : s.part? p = some x) :
    ∃ y, (s.postPicture i p c f pic pick).part? p = some y ∧ y.swatch = x.swatch := by
  obtain ⟨y, hy, hbare⟩ := (s.countPicture_bare i p c f pic pick).part hx
  obtain ⟨z, hz, hswatch⟩ := swatch_postEntry _ p c (sampleFlags pic) 0 (s.slot i).frame ((s.slot i).sampleAddr c) pick hy
  rw [postPicture_eq]
  exact ⟨z, hz, hswatch.trans (congrArg Part.swatch hbare :)⟩

end

/-! ### A frame leaves decode (R251) -/

/-- A fold whose every step gives back what it starts from gives that back. -/
theorem foldl_eq_of_fixed {σ α : Type} {f : σ → α → σ} {s : σ} (h : ∀ a, f s a = s) (l : List α) : l.foldl f s = s := by
  induction l with
  | nil => rfl
  | cons a rest ih => rw [List.foldl_cons, h, ih]

/-- With no recording of its partition, a frame is recorded nowhere. -/
theorem State.recordCreel_of_unrecorded {s : State} {p : Fin 16} {x : Part} (hx : s.part? p = some x) (hswatch : x.swatch = none)
    (slot frame : Nat) (f : FrameIn) (post : Word) : s.recordCreel p slot frame f post = s :=
  foldl_eq_of_fixed (fun _ => by simp only [recordSwatch, hx, hswatch]) _

/-- The slot once its frame has left decode. -/
def Slot.left (k : Slot) (f : FrameIn) : Slot :=
  { k with decoding := none, posted := 0, history := k.history ++ [f.input], ringRead := if f.ringEnd = 0 then k.ringRead else f.ringEnd }

/-- The frame leaves decode, and its engine has decoded its pictures' samples. -/
def State.leaveDecode (s : State) (i : Fin 1024) (f : FrameIn) (pics : List Config.Picture) : State :=
  { s.setSlot i ((s.slot i).left f) with
    creel := s.creel.put (s.slot i).engine (s.creel.get (s.slot i).engine 0 + pics.foldl (fun n q => n + q.width * q.height) 0) 0 }

/-- What a frame's leaving decode changes of all that is posted and stored. -/
structure State.LeavesDecode (s t : State) (i : Fin 1024) (p : Fin 16) (f : FrameIn) : Prop where
  slot : t.slot i = (s.slot i).left f
  bare : s.SameBare t
  safety : t.safety = s.safety
  bytes : f.ringEnd = 0 → ∀ st a, t.byteAt st a = s.byteAt st a
  consumed : f.ringEnd ≠ 0 → t.bytesAt (.cloth p) ((s.slot i).num 0x10 8 + 8) 8 = leBytes 8 f.ringEnd

section
variable {s : State} {p : Fin 16} {x : Part} (hx : s.part? p = some x) (hswatch : x.swatch = none) (i : Fin 1024) (c : CreelCfg) (f : FrameIn)
  (pics : List Config.Picture) (frame : Nat) (pick : Word)
include hx hswatch

theorem State.endFrame_eq : s.endFrame i p c f pics frame pick = if f.ringEnd = 0 then s.leaveDecode i f pics
    else (s.leaveDecode i f pics).store_ (.cloth p) ((s.slot i).num 0x10 8 + 8) (leBytes 8 f.ringEnd) := by
  have hleft : ∃ y, (if f.ringEnd = 0 then s.leaveDecode i f pics
      else (s.leaveDecode i f pics).store_ (.cloth p) ((s.slot i).num 0x10 8 + 8) (leBytes 8 f.ringEnd)).part? p = some y
        ∧ y.bare = x.bare := by
    split
    · exact ⟨x, hx, rfl⟩
    · exact (store_bare _ p _ _).part hx
  obtain ⟨y, hy, hbare⟩ := hleft
  have hidle : y.swatch = x.swatch := (congrArg Part.swatch hbare :)
  exact recordCreel_of_unrecorded hy (hidle.trans hswatch) i.val frame f pick

theorem State.leavesDecode_endFrame : s.LeavesDecode (s.endFrame i p c f pics frame pick) i p f := by
  rw [endFrame_eq hx hswatch]
  have hself : (s.leaveDecode i f pics).slot i = (s.slot i).left f := s.slot_setSlot_self i _
  split
  case isTrue hring => exact ⟨hself, .refl s, rfl, fun _ _ _ => rfl, fun hne => absurd hring hne⟩
  case isFalse hring =>
    have hstore := (s.leaveDecode i f pics).bytesAt_store_self p ((s.slot i).num 0x10 8 + 8) (leBytes 8 f.ringEnd) hx
    rw [length_leBytes] at hstore
    exact ⟨(congrArg (fun t : State => t.slot i) (store_frame _ p _ _) :).trans hself, store_bare _ p _ _, store_safety _ p _ _,
      fun hzero => absurd hzero hring, fun _ => hstore⟩

end

end Sys2Proof.Machine
end

section
/-! PROOFS. CREEL_DECODE_COMPLETE, and the rules of decode together (13 R251, R255, R258, R260 to R264). -/

namespace Sys2Proof.Machine

open Sys2Proof

/-! ### The next picture of the frame in decode, case by case -/

/-- Room for one entry more, in the sample ring and in the queue. -/
def Slot.hasRoom (k : Slot) (x : Part) (c : CreelCfg) : Bool := !k.ringFull && !x.creelFull c

theorem Slot.hasRoom_iff {k : Slot} {x : Part} {c : CreelCfg} : k.hasRoom x c = true ↔ k.ringFull = false ∧ x.creelFull c = false := by
  simp [hasRoom]

/-- A slot takes RELEASED as its consumer has written it. -/
def State.releaseSlot (s : State) (i : Fin 1024) (r : Nat) : State := s.setSlot i ((s.slot i).releasing r)

/-- The next picture of the frame in decode is posted, and the one after it is next. -/
def State.postNext (s : State) (i : Fin 1024) (p : Fin 16) (c : CreelCfg) (f : FrameIn) (pic : Config.Picture) (pick : Word) : State :=
  (s.postPicture i p c f pic pick).setSlot i
    { (s.postPicture i p c f pic pick).slot i with posted := ((s.postPicture i p c f pic pick).slot i).posted + 1 }

section
variable (s : State) (i : Fin 1024) (p : Fin 16) (c : CreelCfg) (f : FrameIn) (pic : Config.Picture) (pick : Word)

theorem State.slot_postNext :
    (s.postNext i p c f pic pick).slot i = { (s.slot i).sampled with posted := (s.slot i).posted + 1 } := by
  rw [postNext, slot_setSlot_self, slot_postPicture]
  rfl

theorem State.swatch_postNext {x : Part} (hx : s.part? p = some x) :
    ∃ y, (s.postNext i p c f pic pick).part? p = some y ∧ y.swatch = x.swatch := by
  rw [postNext, part?_setSlot]
  exact s.swatch_postPicture i p c f pic pick hx

end

/-- A frame that gives no picture: it is recorded, its entry posted, and it leaves decode. -/
def State.postDamaged (s : State) (i : Fin 1024) (p : Fin 16) (c : CreelCfg) (f : FrameIn) (kind : Nat) (pick : Word) : State :=
  ((s.creelReport i p 0x0107).postAbsent i p c kind pick).endFrame i p c f [] (s.slot i).frame pick

section
variable {s : State} {i : Fin 1024} {p : Fin 16} {x : Part} {c : CreelCfg} {f : FrameIn} (hdecoding : (s.slot i).decoding = some f)
include hdecoding

theorem State.decodeNext_of_malformed (hr : s.releasedNow p c (s.slot i) = none) :
    s.decodeNext i p x c = s.creelFault i p x c 0x0108 := by
  simp only [decodeNext, hdecoding, hr]

variable {r : Nat} (hr : s.releasedNow p c (s.slot i) = some r)
include hr

theorem State.decodeNext_of_absent {kind : Nat} (habsent : f.absent c.format (s.slot i).history = some kind) :
    s.decodeNext i p x c = if (!((s.slot i).releasing r).hasRoom x c) = true then (s.releaseSlot i r).pauseSlot i
      else ((s.releaseSlot i r).postDamaged i p c f kind (s.pickFor x)).pauseFull i p c := by
  rw [postDamaged, releaseSlot, slot_setSlot_self]
  generalize hk : s.slot i = k at *
  cases k
  cases hdecoding
  simp only [decodeNext, hk, hr, habsent]
  rfl

variable (habsent : f.absent c.format (s.slot i).history = none) {pics : List Config.Picture}
  (hpics : Config.decodeFrame c.format (s.slot i).history f.input = pics)
include habsent hpics

theorem State.decodeNext_of_finished (hpic : pics[(s.slot i).posted]? = none) :
    s.decodeNext i p x c = (s.releaseSlot i r).endFrame i p c f pics (s.slot i).frame (s.pickFor x) := by
  rw [releaseSlot]
  generalize hk : s.slot i = k at *
  cases k
  cases hdecoding
  simp only [decodeNext, hk, hr, habsent, hpics, hpic]
  rfl

theorem State.decodeNext_of_picture {pic : Config.Picture} (hpic : pics[(s.slot i).posted]? = some pic) :
    s.decodeNext i p x c = if (s.slot i).colour ≠ 0 ∧ pic.components < 3 then (s.releaseSlot i r).creelFault i p x c 0x0102
      else if (!((s.slot i).releasing r).hasRoom x c) = true then (s.releaseSlot i r).pauseSlot i
      else (if (s.slot i).posted + 1 < pics.length then (s.releaseSlot i r).postNext i p c f pic (s.pickFor x)
        else ((s.releaseSlot i r).postNext i p c f pic (s.pickFor x)).endFrame i p c f pics
          (((s.slot i).sampled).frame - pics.length) (s.pickFor x)).pauseFull i p c := by
  have hslot := slot_postPicture (s.releaseSlot i r) i p c f pic (s.pickFor x)
  rw [releaseSlot, slot_setSlot_self] at hslot
  rw [postNext, releaseSlot]
  simp only [hslot]
  generalize hk : s.slot i = k at *
  cases k
  cases hdecoding
  simp only [Slot.releasing] at hslot
  simp only [decodeNext, hk, hr, habsent, hpics, hpic, hslot]
  rfl

end

/-- CREEL_DECODE_COMPLETE, where neither the partition nor the module is in its safe state. -/
theorem exec_creelDecodeComplete_eq {s : State} {i : Fin 1024} {p : Fin 16} {x : Part} {c : CreelCfg} (hcfg : s.creelCfg i = some (p, x, c))
    (hsafe : x.safe = none) (hmodule : s.safety.moduleSafe = false) : exec (.creelDecodeComplete i) s = .next (s.decodeNext i p x c) := by
  simp only [exec_creelDecodeComplete, execCreelDecodeComplete, hcfg, hsafe, hmodule, Option.isSome_none, Bool.false_eq_true, or_self, if_false]

end Sys2Proof.Machine

namespace Sys2Proof.Claims

open Sys2Proof Sys2Proof.Machine

/-! ### What stays as decode goes on -/

theorem Leaves.pausing {t u : State} {p : Fin 16} {i : Fin 1024} {g : Slot} {f : FrameIn} (h : Leaves t p i g f) (hu : t.Pausing u) :
    Leaves u p i g f := by
  obtain ⟨hdecoding, hhistory, hring⟩ := h
  obtain ⟨n, hn⟩ := hu.slot i
  refine ⟨by rw [hn]; exact hdecoding, by rw [hn]; exact hhistory, fun hne => ?_⟩
  obtain ⟨hread, hbytes⟩ := hring hne
  refine ⟨by rw [hn]; exact hread, ?_⟩
  rw [← hbytes]
  exact List.map_congr_left fun j _ => hu.byteAt _ _

theorem leaves_of_leavesDecode {s t : State} {p : Fin 16} {i : Fin 1024} {g : Slot} {f : FrameIn} (h : s.LeavesDecode t i p f)
    (hhistory : (s.slot i).history = g.history) (hcontext : (s.slot i).context = g.context) : Leaves t p i g f := by
  refine ⟨by rw [h.slot]; rfl, by rw [h.slot, ← hhistory]; rfl, fun hne => ⟨by rw [h.slot, Slot.left, if_neg hne], ?_⟩⟩
  rw [← h.consumed hne, Slot.num, Slot.num, hcontext]

/-! ### A sample and its entry (R258, R260) -/

/-- The next sample of a slot is in its ring, WRITTEN and FRAME count it, and its entry is posted. -/
structure Sampled (s t : State) (p : Fin 16) (x : Part) (c : CreelCfg) (i : Fin 1024) (f : FrameIn) (pic : Config.Picture) (pick : Word) :
    Prop where
  posted : Posted s t p x c (c.slot + sampleFlags pic * 2 ^ 16) (s.slot i).frame ((s.slot i).sampleAddr c) pick
  written : (t.slot i).written = (s.slot i).written + 1
  frame : (t.slot i).frame = (s.slot i).frame + 1
  bytes : f.ringEnd = 0 → t.bytesAt (.cloth p) c.ringBase 8 = leBytes 8 ((s.slot i).written + 1)
    ∧ ((s.slot i).fits pic = true →
        let bs := (s.slot i).sample i.val pic f.unit (f.handed.getD pick) ((s.slot i).tensor pic)
        t.bytesAt (.cloth p) ((s.slot i).sampleAddr c) bs.length = bs
          ∧ ∀ st a, (st = .cloth p → (a < c.ringBase ∨ c.ringBase + 8 ≤ a)
              ∧ (a < (s.slot i).sampleAddr c ∨ (s.slot i).sampleAddr c + bs.length ≤ a)) → t.byteAt st a = s.byteAt st a)

section
variable {s t u : State} {p : Fin 16} {x : Part} {c : CreelCfg} {i : Fin 1024} {f : FrameIn} {pic : Config.Picture} {pick : Word}

theorem Sampled.keep (h : Sampled s t p x c i f pic pick) (hbare : t.SameBare u) (hwritten : (u.slot i).written = (t.slot i).written)
    (hframe : (u.slot i).frame = (t.slot i).frame) (hbytes : f.ringEnd = 0 → ∀ st a, u.byteAt st a = t.byteAt st a) :
    Sampled s u p x c i f pic pick := by
  refine ⟨h.posted.sameBare hbare, hwritten.trans h.written, hframe.trans h.frame, fun hring => ?_⟩
  have hall : ∀ st a n, u.bytesAt st a n = t.bytesAt st a n := fun st a n => List.map_congr_left fun j _ => hbytes hring st _
  simp only [hall, hbytes hring]
  exact h.bytes hring

theorem Sampled.pausing (h : Sampled s t p x c i f pic pick) (hu : t.Pausing u) : Sampled s u p x c i f pic pick := by
  obtain ⟨n, hn⟩ := hu.slot i
  exact h.keep hu.sameBare (by rw [hn]) (by rw [hn]) (fun _ => hu.byteAt)

theorem Sampled.leavesDecode (h : Sampled s t p x c i f pic pick) (hu : t.LeavesDecode u i p f) : Sampled s u p x c i f pic pick :=
  h.keep hu.bare (by rw [hu.slot]; rfl) (by rw [hu.slot]; rfl) hu.bytes

theorem sampled_postPicture (hx : s.part? p = some x) (c : CreelCfg) (i : Fin 1024) (f : FrameIn) (pic : Config.Picture) (pick : Word) :
    Sampled s (s.postPicture i p c f pic pick) p x c i f pic pick := by
  have hslot := s.slot_postPicture i p c f pic pick
  have hdata : (s.pictureData (s.slot i) pic).2.part? p = some x :=
    (congrArg (fun t : State => t.part? p) (s.pictureData_frame (s.slot i) pic) :).trans hx
  have hapart : c.ringBase + 8 ≤ (s.slot i).sampleAddr c := by
    simp only [Slot.sampleAddr]
    omega
  have hbytesAt : ∀ a n, (s.postPicture i p c f pic pick).bytesAt (.cloth p) a n = (s.putPicture i p c f pic pick).bytesAt (.cloth p) a n :=
    fun a n => List.map_congr_left fun j _ => s.byteAt_postPicture i p c f pic pick _ _
  refine ⟨?_, by rw [hslot]; rfl, by rw [hslot]; rfl, fun _ => ⟨?_, fun hfits => ?_⟩⟩
  · obtain ⟨y, hy, hbare⟩ := (s.countPicture_bare i p c f pic pick).part hx
    have hposted := posted_postEntry (s := s) (c := c) hy hbare (s.beat_countPicture i p c f pic pick) (sampleFlags pic) 0 (s.slot i).frame
      ((s.slot i).sampleAddr c) pick
    rw [Nat.zero_mul, Nat.add_zero] at hposted
    rw [State.postPicture_eq]
    exact hposted
  · rw [hbytesAt, State.putPicture]
    exact State.bytesAt_putSample_base _ p c.ringBase _ _ _ hdata
  · have hsample : s.sampleBytes i f pic pick = (s.slot i).sample i.val pic f.unit (f.handed.getD pick) ((s.slot i).tensor pic) := by
      rw [State.sampleBytes, State.pictureData_of_fits s hfits]
    dsimp only
    rw [← hsample, hbytesAt, State.putPicture]
    refine ⟨State.bytesAt_putSample_sample _ p c.ringBase _ _ _ hdata hapart, fun st a ha => ?_⟩
    rw [State.byteAt_postPicture, State.putPicture, State.byteAt_putSample_of_apart _ p c.ringBase _ _ _ hdata ha]
    exact (congrArg (fun t : State => t.byteAt st a) (s.pictureData_frame (s.slot i) pic) :)

theorem sampled_postNext (hx : s.part? p = some x) (c : CreelCfg) (i : Fin 1024) (f : FrameIn) (pic : Config.Picture) (pick : Word) :
    Sampled s (s.postNext i p c f pic pick) p x c i f pic pick := by
  have hnext := s.slot_postNext i p c f pic pick
  have hslot := s.slot_postPicture i p c f pic pick
  exact (sampled_postPicture hx c i f pic pick).keep (State.sameBare_setSlot _ i _) (by rw [hnext, hslot]) (by rw [hnext, hslot])
    (fun _ => State.byteAt_setSlot _ i _)

end

/-! ### The frame in decode, case by case -/

section
variable {s : State} {i : Fin 1024} {p : Fin 16} {x : Part} {c : CreelCfg} {f : FrameIn} (hx : s.part? p = some x) (hswatch : x.swatch = none)
  (r : Nat) (pick : Word)
include hx hswatch

/-- A frame that gives no picture has its ABSENT entry, and leaves decode. -/
theorem damaged_leavesDecode (c : CreelCfg) (kind : Nat) :
    let t := ((s.releaseSlot i r).postDamaged i p c f kind pick).pauseFull i p c
    Posted s t p x c (absentWord c kind) (s.slot i).frame 0 pick ∧ Leaves t p i (s.slot i) f ∧ (t.slot i).frame = (s.slot i).frame + 1
      ∧ (t.slot i).written = (s.slot i).written
      ∧ t.safety.flight = s.safety.flight ++ [s.record (beamUnit 0x22) 0x0107 (i.val + p.val * 2 ^ 16)] := by
  intro t
  let u := (s.releaseSlot i r).creelReport i p 0x0107
  have hu : u.slot i = (s.slot i).releasing r := s.slot_setSlot_self i _
  have hslot : (u.postAbsent i p c kind pick).slot i = ((s.slot i).releasing r).numbered :=
    (u.slot_postAbsent_self p c kind pick i).trans (congrArg Slot.numbered hu)
  have hposted : Posted s (u.postAbsent i p c kind pick) p x c (absentWord c kind) (u.slot i).frame 0 pick :=
    posted_postAbsent (u := u) hx rfl rfl i kind pick
  have hpart : ∃ y, (u.postAbsent i p c kind pick).part? p = some y ∧ y.swatch = x.swatch :=
    State.swatch_postEntry _ p c 0x8000 kind _ 0 pick hx
  obtain ⟨y, hy, hidle⟩ := hpart
  have hleaves : (u.postAbsent i p c kind pick).LeavesDecode ((s.releaseSlot i r).postDamaged i p c f kind pick) i p f :=
    State.leavesDecode_endFrame hy (hidle.trans hswatch) i c f [] _ pick
  have hpausing := ((s.releaseSlot i r).postDamaged i p c f kind pick).pausing_pauseFull i p c
  obtain ⟨n, hn⟩ := hpausing.slot i
  have hend := hleaves.slot
  rw [hslot] at hend
  rw [hu] at hposted
  refine ⟨(hposted.sameBare hleaves.bare).sameBare hpausing.sameBare,
    (leaves_of_leavesDecode hleaves (by rw [hslot]; rfl) (by rw [hslot]; rfl)).pausing hpausing, by rw [hn, hend]; rfl, by rw [hn, hend]; rfl, ?_⟩
  rw [hpausing.safety, hleaves.safety]
  exact (congrArg (fun t : State => t.safety.flight) (u.postAbsent_frame p c kind pick i) :)

/-- A frame with no picture left leaves decode. -/
theorem finished_leavesDecode (c : CreelCfg) (pics : List Config.Picture) (frame : Nat) :
    let t := (s.releaseSlot i r).endFrame i p c f pics frame pick
    Leaves t p i (s.slot i) f ∧ (∀ d j, ∀ y, t.part? p = some y → queueOf y d j = queueOf x d j) ∧ t.safety = s.safety := by
  intro t
  have hslot : (s.releaseSlot i r).slot i = (s.slot i).releasing r := s.slot_setSlot_self i _
  have hleaves : (s.releaseSlot i r).LeavesDecode t i p f :=
    State.leavesDecode_endFrame (s := s.releaseSlot i r) hx hswatch i c f pics frame pick
  refine ⟨leaves_of_leavesDecode hleaves (by rw [hslot]; rfl) (by rw [hslot]; rfl), fun d j y hy => ?_, hleaves.safety⟩
  obtain ⟨z, hz, hbare⟩ := hleaves.bare.part hx
  rw [hy] at hz
  cases hz
  exact queueOf_of_bare hbare d j

/-- The state after a picture's post: the frame stays in decode for its next picture, or leaves it with its last. -/
theorem picture_posted (c : CreelCfg) (pic : Config.Picture) (pics : List Config.Picture) (frame : Nat) (hdecoding : (s.slot i).decoding = some f) :
    let u := s.releaseSlot i r
    let t := (if (s.slot i).posted + 1 < pics.length then u.postNext i p c f pic pick
      else (u.postNext i p c f pic pick).endFrame i p c f pics frame pick).pauseFull i p c
    Sampled u t p x c i f pic pick
      ∧ ((s.slot i).posted + 1 < pics.length → (t.slot i).decoding = some f ∧ (t.slot i).posted = (s.slot i).posted + 1)
      ∧ (pics.length ≤ (s.slot i).posted + 1 → Leaves t p i (s.slot i) f) := by
  intro u t
  have hu : u.slot i = (s.slot i).releasing r := s.slot_setSlot_self i _
  have hnext := u.slot_postNext i p c f pic pick
  have hsampled := sampled_postNext (s := u) hx c i f pic pick
  obtain ⟨y, hy, hidle⟩ := u.swatch_postNext i p c f pic pick hx
  rw [hu] at hnext
  simp only [t]
  generalize u.postNext i p c f pic pick = v at hnext hsampled hy ⊢
  split
  case isTrue hmore =>
    have hpausing := v.pausing_pauseFull i p c
    obtain ⟨n, hn⟩ := hpausing.slot i
    exact ⟨hsampled.pausing hpausing, fun _ => ⟨by rw [hn, hnext]; exact hdecoding, by rw [hn, hnext]; rfl⟩,
      fun hlast => absurd hmore (Nat.not_lt.mpr hlast)⟩
  case isFalse hlast =>
    have hleaves := State.leavesDecode_endFrame hy (hidle.trans hswatch) i c f pics frame pick
    have hpausing := (v.endFrame i p c f pics frame pick).pausing_pauseFull i p c
    exact ⟨(hsampled.leavesDecode hleaves).pausing hpausing, fun hmore => absurd hmore hlast,
      fun _ => (leaves_of_leavesDecode hleaves (by rw [hnext]; rfl) (by rw [hnext]; rfl)).pausing hpausing⟩

end

/-- Settles O49: decode begins on the oldest frame or the ring's next record, each picture is written and posted where there is room, and a
paused stream resumes. Fault 0x0102 for a monochrome picture under an RGB output, 0x0108 for a record of the wrong kind and one decode per
engine are the model's choices (log entry 43), as is that a command with nothing to do leaves the state (log entry 45). -/
theorem creelFramesAreDecoded : Obligations.CreelFramesAreDecoded := by
  refine ⟨?starts, ?completes, ?resumes⟩
  case starts =>
    intro s i p x c h g
    have hx := State.part?_of_creelCfg h.cfg
    refine ⟨fun f hrtp hnext => ?frame, fun hrtp hnext => h.start_of_no_frame hrtp hnext,
      fun unit addr len pos hring hopen hnext hbad htag => ?record, fun hring hopen hnext => ?malformed⟩
    case frame => exact ⟨_, h.start_of_frame hrtp hnext, decodeBegins_beginFrame (s := s.setSlot i _) (.refl _) hx c f⟩
    case record =>
      refine ⟨_, h.start_of_ring hring hopen, ringFrame unit pos s.now (s.bytesAt (.cloth p) addr len) false, ?_, rfl, rfl, rfl, rfl, ?_⟩
      · rw [State.startRing_of_record 1 hnext hbad htag]
        exact decodeBegins_beginFrame (State.countsTraffic_load_ (s.setSlot i _) p addr len) hx c _
      · exact ringFrame_input unit pos s.now _
    case malformed =>
      refine ⟨_, h.start_of_ring hring hopen, ?_⟩
      rw [State.startRing_of_malformed 1 hnext]
      exact creelFaults_creelFault (.refl s i) hx c 0x0108
  case completes =>
    intro s i p x c f hcfg hsafe hmodule hswatch hdecoding g
    have hx := State.part?_of_creelCfg hcfg
    have hsame := State.SameInput.refl s i
    have hexec := exec_creelDecodeComplete_eq hcfg hsafe hmodule
    refine ⟨fun hr => ?malformed, fun r hr => ?released⟩
    case malformed =>
      refine ⟨_, hexec, ?_⟩
      rw [State.decodeNext_of_malformed hdecoding hr]
      exact creelFaults_creelFault (.refl s i) hx c 0x0108
    case released =>
      intro pick room
      have hroom : room ↔ ((s.slot i).releasing r).hasRoom x c = true := Slot.hasRoom_iff.symm
      cases habsent : f.absent c.format g.history with
      | some kind =>
        rw [State.decodeNext_of_absent hdecoding hr habsent] at hexec
        refine ⟨fun h => ?_, fun h => ?_⟩
        · rw [if_neg (by rw [hroom.mp h]; decide)] at hexec
          exact ⟨_, hexec, damaged_leavesDecode hx hswatch r pick c kind⟩
        · rw [if_pos (by simpa [hroom] using h)] at hexec
          exact ⟨_, hexec, pauses_pauseSlot s i r⟩
      | none =>
        dsimp only
        generalize hpics : Config.decodeFrame c.format g.history f.input = pics
        cases hpic : pics[g.posted]? with
        | none =>
          rw [State.decodeNext_of_finished hdecoding hr habsent hpics hpic] at hexec
          exact ⟨_, hexec, finished_leavesDecode hx hswatch r pick c pics g.frame⟩
        | some pic =>
          rw [State.decodeNext_of_picture hdecoding hr habsent hpics hpic] at hexec
          refine ⟨fun hcolour hmono => ?_, fun hcolour h => ?_, fun hcolour h => ?_⟩
          · rw [if_pos ⟨hcolour, hmono⟩] at hexec
            exact ⟨_, hexec, creelFaults_creelFault (hsame.setSlot (k := (s.slot i).releasing r) rfl rfl) hx c 0x0102⟩
          · rw [if_neg (fun hm => hcolour.elim hm.1 (Nat.not_le.mpr hm.2)), if_pos (by simpa [hroom] using h)] at hexec
            exact ⟨_, hexec, pauses_pauseSlot s i r⟩
          · rw [if_neg (fun hm => hcolour.elim hm.1 (Nat.not_le.mpr hm.2)), if_neg (by rw [hroom.mp h]; decide)] at hexec
            obtain ⟨⟨hposted, hwritten, hframe, hbytes⟩, hmore, hlast⟩ := picture_posted hx hswatch r pick c pic pics
              (g.sampled.frame - pics.length) hdecoding
            rw [State.releaseSlot, State.slot_setSlot_self] at hposted hwritten hframe hbytes
            exact ⟨_, hexec, hposted, hwritten, hframe, hmore, hlast, hbytes⟩
  case resumes =>
    intro s i p x c hcfg hsafe hmodule hroom g
    have hx := State.part?_of_creelCfg hcfg
    refine ⟨fun code howed => ?_, fun r howed hpaused hr => ?_, fun howed hpaused hr => ?_⟩
    · exact ⟨_, exec_creelResume_of_owed hcfg hsafe hmodule hroom howed, posted_of_owed c hx code _⟩
    · exact ⟨_, exec_creelResume_of_paused hcfg hsafe hmodule hroom howed hpaused hr, rfl⟩
    · exact ⟨_, exec_creelResume_of_malformed hcfg hsafe hmodule hroom howed hpaused hr, creelFaults_creelFault (.refl s i) hx c 0x0108⟩

end Sys2Proof.Claims
end

section
/-! PROOFS. Stacks (15 R306, R308): what a write of MEM_EVAC does, by its operation; what a granule's move, the end of a recalibration and
a failure leave; and the calibration that a recalibration commits (20 R406). -/

namespace Sys2Proof.Machine

open Sys2Proof

/-! ### States of stacks, and the status of MEM_EVAC -/

@[simp] theorem State.stack_setStack_self (s : State) (k : Fin 32) (n : Nat) : (s.setStack k n).stack k = n :=
  Tab.get_put_self s.mem.stackState k.val n 0

theorem State.stack_setStack_of_ne (s : State) {j k : Fin 32} (n : Nat) (h : j ≠ k) : (s.setStack k n).stack j = s.stack j :=
  Tab.get_put_of_ne s.mem.stackState n 0 0 (fun e => h (Fin.ext e))

section
variable {s u : State} (h : s.Noted u)
include h

theorem State.Noted.mem : u.mem = s.mem := (congrArg State.mem h.frame :)

theorem State.Noted.parts : u.parts = s.parts := (congrArg State.parts h.frame :)

theorem State.Noted.looms : u.looms = s.looms := (congrArg State.looms h.frame :)

theorem State.Noted.stack (k : Fin 32) : u.stack k = s.stack k := (congrArg (fun t : State => t.stack k) h.frame :)

theorem State.Noted.evacStatus (k : Fin 32) (status remaining : Nat) : s.Noted (u.evacStatus k status remaining) :=
  (h.setFld (by simp [evacReg]) _ _).setFld (by simp [evacReg]) _ _

end

/-! ### Writes of MEM_EVAC, by their operation (R306) -/

/-- The stack that a write names stands in MEM_EVAC. -/
def State.stackNamed (s : State) (m : Fin 8) (v : Word) : State := s.setFld (.memEvac m) Fl.memEvac_STACK (Fl.memEvac_STACK.get v)

theorem State.noted_stackNamed (s : State) (m : Fin 8) (v : Word) : s.Noted (s.stackNamed m v) := (State.Noted.refl s).setFld (by simp) _ _

section
variable (s : State) (m : Fin 8) {v : Word} {k : Fin 32} (hk : stackOf m (Fl.memEvac_STACK.get v) = k)
include hk

theorem State.writeEvac_of_evacuate (h : Fl.memEvac_OP.get v = 1) :
    s.writeEvac m v = if s.stack k = 2 ∧ s.mem.evac = none ∧ s.evacFits k = true then
      (s.stackNamed m v).startMoves k 3 4 (s.granulesOn k) else (s.stackNamed m v).evacRefused k := by
  subst hk
  unfold writeEvac
  extract_lets k op t
  rw [if_neg (by omega), if_pos h, ← ite_not]
  refine ite_congr (propext ?_) (fun _ => rfl) (fun _ => rfl)
  simp only [not_or, Classical.not_not, Option.not_isSome_iff_eq_none, Bool.not_eq_true', Bool.not_eq_false]
  exact Iff.rfl

theorem State.writeEvac_of_recalibrate (h : Fl.memEvac_OP.get v = 2) :
    s.writeEvac m v = if (s.stack k = 4 ∨ s.stack k = 6) ∧ s.mem.recal = none then
      { (s.stackNamed m v).evacStatus k 4 0 with mem := { s.mem with recal := some k } } else (s.stackNamed m v).evacRefused k := by
  subst hk
  unfold writeEvac
  extract_lets k op t
  rw [if_neg (by omega), if_neg (by omega), if_pos h, ← ite_not]
  refine ite_congr (propext ?_) (fun _ => rfl) (fun _ => rfl)
  rw [← not_or, not_or, Classical.not_not, Option.not_isSome_iff_eq_none]
  exact Iff.rfl

theorem State.writeEvac_of_return (h : Fl.memEvac_OP.get v = 3) :
    s.writeEvac m v = if s.stack k = 4 ∧ s.mem.evac = none ∧ s.mem.recal ≠ some k then
      (s.stackNamed m v).startMoves k 5 2 ((s.setStack k 5).granulesOn k) else (s.stackNamed m v).evacRefused k := by
  subst hk
  unfold writeEvac
  extract_lets k op t
  rw [if_neg (by omega), if_neg (by omega), if_neg (by omega), ← ite_not]
  refine ite_congr (propext ?_) (fun _ => rfl) (fun _ => rfl)
  simp only [not_or, Classical.not_not, Option.not_isSome_iff_eq_none]
  exact Iff.rfl

end

/-! ### A granule's move, the end of a recalibration, and a failure (R306, R308) -/

/-- A granule whose CRC fails is reported. -/
def State.granuleChecked (s : State) (k : Fin 32) (crcOk : Bool) : State := if crcOk then s else s.report (stackUnit k) 0x0501 0

/-- No recalibration is under way. -/
def State.recalEnded (s : State) : State := { s with mem := { s.mem with recal := none } }

/-- Neither a move of a stack's granules nor its recalibration is under way. -/
def State.stackIdled (s : State) (k : Fin 32) : State :=
  { s with mem := { s.mem with
      evac := if s.mem.evac.any (fun e => e.1 == k) then none else s.mem.evac, recal := if s.mem.recal = some k then none else s.mem.recal } }

section
variable {s : State} {k : Fin 32}

theorem State.evac_stackIdled_ne (n : Nat) : (s.stackIdled k).mem.evac ≠ some (k, n) := by
  intro h
  simp only [stackIdled] at h
  split at h
  · cases h
  · next hany => simp [h] at hany

theorem State.recal_stackIdled_ne : (s.stackIdled k).mem.recal ≠ some k := by
  intro h
  simp only [stackIdled] at h
  split at h
  · cases h
  · next hne => exact hne h

theorem exec_evacuationGranuleMove_of_evac {n : Nat} (crcOk : Bool) (h : s.mem.evac = some (k, n)) :
    exec (.evacuationGranuleMove (Fin.ofNat 8 (k.val / 4)) crcOk) s =
      let after := if s.stack k = 5 then 2 else 4
      .next (if n ≤ 1 then
        { ((s.granuleChecked k crcOk).setStack k after).evacStatus k 2 0 with mem := { (s.setStack k after).mem with evac := none } }
      else { (s.granuleChecked k crcOk).evacStatus k 1 (n - 1) with mem := { s.mem with evac := some (k, n - 1) } }) := by
  have hmill : ¬ (k.val / 4 ≠ (Fin.ofNat 8 (k.val / 4)).val) := by simp only [Fin.val_ofNat]; omega
  rw [exec_evacuationGranuleMove, execEvacuationGranuleMove, h]
  dsimp only
  rw [if_neg hmill, apply_ite Host.Outcome.next]
  cases crcOk <;> rfl

theorem exec_stackRecalibrationComplete_of_recal (ok : Bool) (h : s.mem.recal = some k) :
    exec (.stackRecalibrationComplete k ok) s = .next (
      if ok then ((s.recalEnded.setStack k 4).evacStatus k 2 0).calibrate k.val
      else ((s.recalEnded.setStack k 6).evacStatus k 0 0).report (stackUnit k) 0x0507 0) := by
  rw [exec_stackRecalibrationComplete, execStackRecalibrationComplete, if_neg (fun hne => hne h)]
  rfl

theorem exec_stackFailure_of_ne (h : s.stack k ≠ 6) :
    exec (.stackFailure k) s = .next (((s.stackIdled k).setStack k 6).report (stackUnit k) 0x0507 0) := by
  have hon : (match s.mem.evac with | some (j, _) => j == k | none => false) = s.mem.evac.any (fun e => e.1 == k) := by
    cases s.mem.evac <;> rfl
  rw [exec_stackFailure, State.stackIdled, ← hon]
  exact if_neg h

end

/-! ### Calibrations committed (20 R401, R406) -/

section
variable (k : StoreUnit) (o : BitVec 32)

/-- A DATA record gives its object content, a deletion takes it, and no other record does either (R397). -/
theorem StoreUnit.contentTxn_append (kind : Nat) (copy : Bool) (txn : Nat) (payload : List Byte) :
    (k.append kind copy txn o payload).contentTxn o = if kind = 1 then some txn else if kind = 3 then none else k.contentTxn o := by
  simp [append, contentTxn]

/-- Content of one DATA record that is written is there. -/
theorem StoreUnit.contentTxn_transact_write (copy : Bool) {bs : List Byte} (h : bs.length ≤ 65504) :
    (k.transact copy [.write o bs]).contentTxn o = some k.nextSerial := by
  have hrecords : (StoreItem.write o bs).records = [(1, o, bs)] := by simp [StoreItem.records, dataChunks, h]
  simp [transact, hrecords, contentTxn_append]

end

theorem StoreUnit.eq_transact_of_update {k t : StoreUnit} {items : List StoreItem} (h : k.update? items = some t) :
    t = k.transact false items := by
  unfold update? at h
  extract_lets t' at h
  split at h
  · cases h
  · exact (Option.some.inj h).symm

theorem State.records_withStore (s : State) (k : StoreUnit) : (s.withStore k).store.records = k.records := by
  unfold withStore
  extract_lets full t
  split <;> rfl

theorem State.calibrate_eq (s : State) (inst : Nat) :
    s.calibrate inst = (s.draw 64).2.commit_ [.write (objectOf 5 inst) (leBytes 8 (s.draw 64).1.toNat)] := rfl

/-- A calibration that the store has room for is held. -/
theorem State.calibrated_calibrate {s : State} {inst : Nat}
    (h : ∀ c : List Byte, c.length = 8 → (s.store.update? [.write (objectOf 5 inst) c]).isSome = true) :
    (s.calibrate inst).store.calibrated inst = true := by
  have hlen := length_leBytes 8 (s.draw 64).1.toNat
  obtain ⟨k, hk⟩ := Option.isSome_iff_exists.mp (h _ hlen)
  have hcommit : s.calibrate inst = (s.draw 64).2.withStore k := by
    have hdraw : (s.draw 64).2.store.update? _ = some k := hk
    rw [calibrate_eq, commit_, commit, hdraw]
  rw [hcommit, StoreUnit.calibrated, StoreUnit.contentTxn, records_withStore, ← StoreUnit.contentTxn,
    StoreUnit.eq_transact_of_update hk, StoreUnit.contentTxn_transact_write _ _ _ (by omega)]
  rfl

/-- What stands outside the store and the reports is as it was. -/
structure State.KeepsRest (s t : State) : Prop where
  regs : t.regs = s.regs
  mem : t.mem = s.mem
  looms : t.looms = s.looms
  parts : t.parts = s.parts

theorem State.keepsRest_commit_ (s : State) (items : List StoreItem) : s.KeepsRest (s.commit_ items) := by
  have hframe := s.frame_commit_ items
  exact ⟨(congrArg State.regs hframe :), (congrArg State.mem hframe :), (congrArg State.looms hframe :), (congrArg State.parts hframe :)⟩

theorem State.keepsRest_calibrate (s : State) (inst : Nat) : s.KeepsRest (s.calibrate inst) := by
  obtain ⟨hregs, hmem, hlooms, hparts⟩ := (s.draw 64).2.keepsRest_commit_ [.write (objectOf 5 inst) (leBytes 8 (s.draw 64).1.toNat)]
  rw [calibrate_eq]
  exact ⟨hregs, hmem, hlooms, hparts⟩

end Sys2Proof.Machine

namespace Sys2Proof.Claims

open Sys2Proof Sys2Proof.Machine

/-! ### Memory, and what MEM_EVAC shows -/

theorem memoryStays_of_noted {s u : State} (h : s.Noted u) : MemoryStays s u :=
  ⟨h.parts, h.looms, congrArg Memory.millStore h.mem⟩

theorem evacShows_evacStatus (s : State) (k : Fin 32) {status : Nat} (h : status < 8) (remaining : Nat) :
    EvacShows (s.evacStatus k status remaining) k status remaining :=
  ⟨(State.fld_setFld_of_before _ (by decide) _).trans (State.fld_setFld_of_lt _ (by decide) h), State.fld_setFld_self _ _ (by decide) _⟩

theorem evacShows_of_regs {s t : State} {k : Fin 32} {status remaining : Nat} (hs : EvacShows s k status remaining) (h : t.regs = s.regs) :
    EvacShows t k status remaining := by
  simpa only [EvacShows, State.fld, State.reg, h] using hs

/-! ### Writes of MEM_EVAC (R306) -/

/-- The write is refused: MEM_EVAC shows it, 0x0509 sets out, and nothing moves. -/
def EvacRefused (u v : State) (k : Fin 32) : Prop :=
  EvacShows v k 3 0 ∧ v.safety.flight = u.safety.flight ++ [u.record (stackUnit k) 0x0509 0] ∧ v.mem = u.mem ∧ MemoryStays u v

/-- A move of n granules has begun, or has ended at once where there are none. -/
structure MovesStarted (u v : State) (k : Fin 32) (during after n : Nat) : Prop where
  memory : MemoryStays u v
  safety : v.safety = u.safety
  moving : 0 < n → v.stack k = during ∧ v.mem.evac = some (k, n) ∧ EvacShows v k 1 n
  ended : n = 0 → v.stack k = after ∧ v.mem.evac = none ∧ EvacShows v k 2 0
  others : ∀ j, j ≠ k → v.stack j = u.stack j

section
variable {u w : State} (h : u.Noted w) (k : Fin 32)
include h

theorem evacRefused_of_noted : EvacRefused u (w.evacRefused k) k := by
  have hstatus := h.evacStatus k 3 0
  have hmemory := memoryStays_of_noted h
  refine ⟨evacShows_of_regs (evacShows_evacStatus w k (by decide) 0) rfl, ?_, h.mem, hmemory⟩
  rw [State.evacRefused, State.report_safety, hstatus.record, hstatus.safety]

theorem movesStarted_startMoves (hevac : u.mem.evac = none) (during after n : Nat) :
    MovesStarted u (w.startMoves k during after n) k during after n := by
  have hmemory := memoryStays_of_noted h
  have hothers : ∀ st j, j ≠ k → (w.setStack k st).stack j = u.stack j := fun st j hj =>
    (w.stack_setStack_of_ne st hj).trans (h.stack j)
  rcases Nat.eq_zero_or_pos n with hn | hn
  · rw [State.startMoves, if_pos hn]
    exact ⟨hmemory, h.safety, fun hpos => by omega, fun _ => ⟨w.stack_setStack_self k after,
      (congrArg Memory.evac h.mem).trans hevac, evacShows_evacStatus _ k (by decide) 0⟩, hothers after⟩
  · rw [State.startMoves, if_neg (by omega)]
    exact ⟨hmemory, h.safety, fun _ => ⟨w.stack_setStack_self k during, rfl,
      evacShows_of_regs (evacShows_evacStatus _ k (by decide) n) rfl⟩, fun hzero => by omega, hothers during⟩

/-- A recalibration has begun, and no granule moves. -/
theorem recalibrates_of_noted :
    let v : State := { w.evacStatus k 4 0 with mem := { u.mem with recal := some k } }
    v.mem = { u.mem with recal := some k } ∧ EvacShows v k 4 0 ∧ v.safety = u.safety ∧ MemoryStays u v :=
  ⟨rfl, evacShows_of_regs (evacShows_evacStatus w k (by decide) 0) rfl, h.safety, h.parts, h.looms, rfl⟩

end

/-! ### The rows that write MEM_EVAC (R306) -/

section
variable {s : State} {q : WriteReq} {mill : Fin 8}

theorem exec_evacuate_of_op (h : Fl.memEvac_OP.get q.value = 1) :
    exec (.memEvacEvacuate mill q) s = execRegWrite (writeMsg q (.memEvac mill)) s :=
  exec_of_mine s (beq_iff_eq.mpr h)

theorem exec_recalibrate_of_op (h : Fl.memEvac_OP.get q.value = 2) :
    exec (.memEvacRecalibrate mill q) s = execRegWrite (writeMsg q (.memEvac mill)) s :=
  exec_of_mine s (beq_iff_eq.mpr h)

theorem exec_return_of_op (h : Fl.memEvac_OP.get q.value = 3) :
    exec (.memEvacReturn mill q) s = execRegWrite (writeMsg q (.memEvac mill)) s :=
  exec_of_mine s (beq_iff_eq.mpr h)

/-- A row whose write goes one way or the other by a condition is done either way. -/
theorem evacRow_done {r : Staged} {u a b : State} {c : Instr} {C : Prop} [Decidable C] {P R : State → Prop}
    (h : Reaches s typeRegWrite (writeMsg q (.memEvac mill)) r u) (hz : (Reg.memEvac mill).zeroBits q.value = true)
    (hc : exec c s = execRegWrite (writeMsg q (.memEvac mill)) s) (hwrite : u.writeEvac mill q.value = if C then a else b)
    (ha : C → P a) (hb : R b) : (C → Done c s r [] P) ∧ (¬ C → Done c s r [] R) := by
  refine ⟨fun hC => row_done h hc rfl hz rfl ?_, fun hC => row_done h hc rfl hz rfl ?_⟩
  · rw [State.writeReg, hwrite, if_pos hC]; exact ha hC
  · rw [State.writeReg, hwrite, if_neg hC]; exact hb

end

/-! ### Granules, recalibrations and failures (R306, R308) -/

section
variable (s : State) (k : Fin 32)

theorem granuleMove_gives (n : Nat) (crcOk : Bool) (h : s.mem.evac = some (k, n)) :
    Gives (.evacuationGranuleMove (Fin.ofNat 8 (k.val / 4)) crcOk) s (fun t => MemoryStays s t
      ∧ (1 < n → t.mem = { s.mem with evac := some (k, n - 1) } ∧ EvacShows t k 1 (n - 1))
      ∧ (n ≤ 1 → t.mem.evac = none ∧ t.stack k = (if s.stack k = 5 then 2 else 4) ∧ EvacShows t k 2 0)
      ∧ (crcOk = true → t.safety = s.safety)
      ∧ (crcOk = false → t.safety.flight = s.safety.flight ++ [s.record (stackUnit k) 0x0501 0])) := by
  have hparts : (s.granuleChecked k crcOk).parts = s.parts := by cases crcOk <;> rfl
  have hlooms : (s.granuleChecked k crcOk).looms = s.looms := by cases crcOk <;> rfl
  have hgood : crcOk = true → (s.granuleChecked k crcOk).safety = s.safety := by rintro rfl; rfl
  have hbad : crcOk = false → (s.granuleChecked k crcOk).safety.flight = s.safety.flight ++ [s.record (stackUnit k) 0x0501 0] := by
    rintro rfl; rfl
  refine ⟨_, exec_evacuationGranuleMove_of_evac crcOk h, ?_⟩
  dsimp only
  by_cases hn : n ≤ 1
  · rw [if_pos hn]
    exact ⟨⟨hparts, hlooms, rfl⟩, fun hmore => by omega, fun _ => ⟨rfl, s.stack_setStack_self k _,
      evacShows_of_regs (evacShows_evacStatus _ k (by decide) 0) rfl⟩, hgood, hbad⟩
  · rw [if_neg hn]
    exact ⟨⟨hparts, hlooms, rfl⟩, fun _ => ⟨rfl, evacShows_of_regs (evacShows_evacStatus _ k (by decide) _) rfl⟩,
      fun hlast => by omega, hgood, hbad⟩

theorem recalibration_succeeds (h : s.mem.recal = some k) :
    Gives (.stackRecalibrationComplete k true) s (fun t => t.stack k = 4 ∧ t.mem.recal = none ∧ EvacShows t k 2 0 ∧ MemoryStays s t
      ∧ (∀ j, j ≠ k → t.stack j = s.stack j) ∧ ((∀ c : List Byte, c.length = 8 → HasRoom s [.write (objectOf 5 k.val) c]) →
          t.store.calibrated k.val = true)) := by
  refine ⟨_, exec_stackRecalibrationComplete_of_recal true h, ?_⟩
  rw [if_pos rfl]
  obtain ⟨hregs, hmem, hlooms, hparts⟩ := ((s.recalEnded.setStack k 4).evacStatus k 2 0).keepsRest_calibrate k.val
  have hstack := fun j : Fin 32 => congrArg (fun m : Memory => m.stackState.get j.val 0) hmem
  exact ⟨(hstack k).trans (s.recalEnded.stack_setStack_self k 4), congrArg Memory.recal hmem,
    evacShows_of_regs (evacShows_evacStatus _ k (by decide) 0) hregs, ⟨hparts, hlooms, (congrArg Memory.millStore hmem :)⟩,
    fun j hj => (hstack j).trans (s.recalEnded.stack_setStack_of_ne 4 hj), fun hroom => State.calibrated_calibrate hroom⟩

theorem recalibration_fails (h : s.mem.recal = some k) :
    Gives (.stackRecalibrationComplete k false) s (fun t => t.stack k = 6 ∧ t.mem.recal = none ∧ MemoryStays s t ∧ t.store = s.store
      ∧ t.safety.flight = s.safety.flight ++ [s.record (stackUnit k) 0x0507 0]) := by
  refine ⟨_, exec_stackRecalibrationComplete_of_recal false h, ?_⟩
  rw [if_neg (by decide)]
  refine ⟨s.recalEnded.stack_setStack_self k 6, rfl, ⟨rfl, rfl, rfl⟩, rfl, ?_⟩
  rw [State.report_safety, ((State.Noted.refl (s.recalEnded.setStack k 6)).evacStatus k 0 0).record]
  rfl

theorem stackFailure_gives (h : s.stack k ≠ 6) :
    Gives (.stackFailure k) s (fun t => t.stack k = 6 ∧ t.safety.flight = s.safety.flight ++ [s.record (stackUnit k) 0x0507 0]
      ∧ MemoryStays s t ∧ (∀ j, j ≠ k → t.stack j = s.stack j) ∧ (∀ n, t.mem.evac ≠ some (k, n)) ∧ t.mem.recal ≠ some k) :=
  ⟨_, exec_stackFailure_of_ne h, (s.stackIdled k).stack_setStack_self k 6, rfl, ⟨rfl, rfl, rfl⟩,
    fun _ hj => (s.stackIdled k).stack_setStack_of_ne 6 hj, State.evac_stackIdled_ne, State.recal_stackIdled_ne⟩

end

/-- Settles O46: a write of MEM_EVAC is its operation on a state where only registers have been noted, and each event of a stack changes
no more of the memories than the stack's state and what is under way. -/
theorem stacksAreEvacuated : Obligations.StacksAreEvacuated := by
  refine ⟨?writes, granuleMove_gives, fun s k h => ⟨recalibration_succeeds s k h, recalibration_fails s k h⟩, stackFailure_gives⟩
  case writes =>
    intro s q mill r u h hz k op refused
    have hnoted := u.noted_stackNamed mill q.value
    have hrefused : refused ((u.stackNamed mill q.value).evacRefused k) := evacRefused_of_noted hnoted k
    refine ⟨fun hop => ?_, fun hop => ?_, fun hop => ?_⟩
    · refine evacRow_done h hz (exec_evacuate_of_op hop) (u.writeEvac_of_evacuate mill rfl hop) ?_ hrefused
      rintro ⟨-, hevac, -⟩
      obtain ⟨hmemory, hsafety, hmoving, hended, hothers⟩ := movesStarted_startMoves hnoted k hevac 3 4 (u.granulesOn k)
      exact ⟨hmemory, hsafety, hmoving, hended, hothers⟩
    · exact evacRow_done h hz (exec_recalibrate_of_op hop) (u.writeEvac_of_recalibrate mill rfl hop)
        (fun _ => recalibrates_of_noted hnoted k) hrefused
    · refine evacRow_done h hz (exec_return_of_op hop) (u.writeEvac_of_return mill rfl hop) ?_ hrefused
      rintro ⟨-, hevac, -⟩
      obtain ⟨hmemory, hsafety, hmoving, hended, hothers⟩ :=
        movesStarted_startMoves hnoted k hevac 5 2 ((u.setStack k 5).granulesOn k)
      refine ⟨hmemory, hsafety, hothers, ?_⟩
      rcases Nat.eq_zero_or_pos ((u.setStack k 5).granulesOn k) with hn | hn
      · exact .inr (hended hn)
      · obtain ⟨hstack, hmove, hshows⟩ := hmoving hn
        exact .inl ⟨hstack, _, hmove, hn, hshows⟩

end Sys2Proof.Claims
end
